-- ==== Sys2Proof/Word.lean ====
section
/-!
DEFINITION. The word types of the NHR7020 and their plainest arithmetic (R12, R14, R21: registers
are 32 bits wide and little-endian).
-/
namespace Sys2Proof

/-- A 32-bit register word. -/
abbrev Word := BitVec 32

/-- A byte. -/
abbrev Byte := BitVec 8

/-- A byte address of the 16 MiB register space (R14). -/
abbrev Addr := BitVec 24

/-- A page number: page address divided by 0x1000 (R16). -/
abbrev PageNo := BitVec 12

/-- A number as a register word. -/
def Word.ofNat (n : Nat) : Word := BitVec.ofNat 32 n

/-- A signed number as a register word. -/
def Word.ofInt (n : Int) : Word := BitVec.ofInt 32 n

end Sys2Proof
end

