-- ==== Sys2Proof/Syntax.lean ====
section
/-!
DEFINITION. The commands of the NHR7020: one constructor for every row of the opcode table, with
the operands the step takes from outside the device (what a link writes, what a ball or a sensor
shows, what a DRAM line returns).
-/
namespace Sys2Proof

/-- The two fibre lines (R1). -/
inductive Line where
  | a | b
deriving DecidableEq, Repr

/-- The number of a line: 0 for A, 1 for B. -/
def Line.idx : Line → Nat
  | .a => 0
  | .b => 1

/-- The other line. -/
def Line.other : Line → Line
  | .a => .b
  | .b => .a

/-- The line of a unit number. -/
def Line.ofUnit (n : Nat) : Line := if n = 0 then .a else .b

/-- Links by their codes (R340). -/
inductive Link where
  | pcie | ring | eth0 | eth1 | spi | legacy | foreman | dma | strobe | upd
deriving DecidableEq, Repr

/-- The four emitters of a line, indexed e = 0 to 3 (chapter 03). -/
inductive Emitter where
  | seed | soa | boost | raman
deriving DecidableEq, Repr

/-- The two colour loops of a line, l = 0 seed and l = 1 Raman (R79). -/
inductive Laser where
  | seed | raman
deriving DecidableEq, Repr

/-- The two gated outputs of a line (R77). -/
inductive Gate where
  | soa | raman
deriving DecidableEq, Repr

/-- What the check code of a DRAM line shows on a read (R294), apart from poison, which the
memory itself holds (R298). -/
inductive Ecc where
  | clean
  | corrected (device : Fin 5)
  | uncorrectable
deriving DecidableEq, Repr

/-- What the check code of an SRAM word shows (R308). -/
inductive SramEcc where
  | clean | single | double
deriving DecidableEq, Repr

/-- The four lane sample lists of a stretch of a line's lane stream (R99). -/
structure Lanes where
  xi : List Int
  xq : List Int
  yi : List Int
  yq : List Int
deriving DecidableEq, Repr

/-- How a PCI Express request of the DMA engine ends (R324). -/
inductive HostReply where
  | data (bytes : List Byte)
  | error
deriving DecidableEq, Repr

/-- Where a Sahfort or service command comes from (R371, R373, R381). -/
structure Via where
  link    : Link
  mailbox : Bool
  source  : Nat
  port    : Nat
  ipv6    : Bool
  seq     : Word
  crc     : Word
deriving DecidableEq, Repr

/-- A ring entry as the host leaves it in host memory (R345), with the buffer's bytes (ring 0). -/
structure HostEntry where
  buffer : BitVec 64
  length : Nat
  own    : Bool
  bytes  : List Byte
deriving DecidableEq, Repr

/-- What an Announce says of its grandmaster and of the way to it (R358): the fields that the best-master selection
of IEEE 1588 compares, the UTC offset, the log of the announce interval. -/
structure Announce where
  gm          : BitVec 64
  priority1   : Byte
  clockClass  : Byte
  accuracy    : Byte
  variance    : BitVec 16
  priority2   : Byte
  steps       : BitVec 16
  utcOffset   : BitVec 16
  logInterval : Int
deriving DecidableEq, Repr

/-- How a PTP message comes (R358): its port, the transport (0 UDP/IPv4, 1 UDP/IPv6, 2 IEEE 802.3), the domain, the
sender's port identity. -/
structure PtpFrom where
  port      : Fin 2
  transport : Fin 3
  domain    : Byte
  source    : BitVec 80
deriving DecidableEq, Repr

/-- A PTP message as received, its time stamps in nanoseconds of device time (R358, R359). -/
inductive PtpMsg where
  | announce (a : Announce)
  | sync (seq : BitVec 16) (twoStep : Bool) (t1 : Int) (correction : Int) (t2 : Int)
  | followUp (seq : BitVec 16) (t1 : Int) (correction : Int)
  | delayResp (seq : BitVec 16) (t4 : Int) (correction : Int)
deriving DecidableEq, Repr

/-- The five SFF-8472 readings of a cage in register units (R354), and its loss of signal. PRESUMED: log entry 143. -/
structure SfpReading where
  los     : Bool
  temp    : Word
  vcc     : Word
  txBias  : Word
  txPower : Word
  rxPower : Word
deriving DecidableEq, Repr

/-- The words of a write request (R43): the first and, in a request of many, those after it. -/
structure WordsOut where
  first : Word
  more  : List Word
deriving DecidableEq, Repr

/-- The words that a read request asks for (R43): the address of the first, how many more. -/
structure WordsIn where
  addr : Addr
  more : Nat
deriving DecidableEq, Repr

/-- What the DRAM lines of a DMA burst show (R294, R297): the lines read, the first line written in part. -/
structure BurstEcc where
  read  : Ecc
  write : Ecc
deriving DecidableEq, Repr

/-- The bytes of a MEM_WRITE (R371), and what the first line written in part shows. -/
structure MemBytes where
  bytes : List Byte
  ecc   : Ecc
deriving DecidableEq, Repr

/-- A step of open procedure `index` (R382), and what the check codes of DRAM lines that it reads show, where they
are not clean (R404). -/
structure ProcRun where
  index  : Nat
  faults : List (Nat × Ecc)
deriving DecidableEq, Repr

/-- A PTP message as it arrives (R358): how it comes, what it says. -/
structure PtpArrival where
  sender : PtpFrom
  msg    : PtpMsg
deriving DecidableEq, Repr

/-- The first 32 bits of an SPI frame (R374): the op byte and the address. -/
structure SpiHead where
  op   : Byte
  addr : Addr
deriving DecidableEq, Repr

/-- The end of a line's recording (R403): the line, the bytes that MEMX port 3 lies behind. -/
structure ReelStop where
  line   : Line
  behind : Nat
deriving DecidableEq, Repr

/-- The commands: one constructor per row of the table of operations and events. The mnemonic of
each row stands in its docstring. -/
inductive Instr where
  -- register pages and how settings take effect (chapter 01)
  /-- REGISTER_WRITE (R22): `w` is the access width in bytes. -/
  | registerWrite (k : Link) (a : Addr) (w : Nat) (v : WordsOut)
  /-- LOW_WORD_READ (R21). -/
  | lowWordRead (k : Link) (a : WordsIn)
  /-- ARM (R22): a write of APPLY with bit 0 set; `v` is the word written. -/
  | arm (k : Link) (p : PageNo) (v : Word)
  /-- APPLY_SET (R28). -/
  | applySet (k : Link) (tag : BitVec 16)
  /-- STROBE (R30). -/
  | strobe (k : Link) (groups : BitVec 4)
  /-- UPD_EDGE (R31). -/
  | updEdge
  /-- APPLY (R23): the page's boundary comes; at an idle boundary `delay` cycles after arming. -/
  | applyPage (p : PageNo) (delay : Nat)
  /-- APPLY_ENTRY_COMMIT (R25). -/
  | applyEntryCommit (p : PageNo)
  /-- AON_WRITE (R32). -/
  | aonWrite (k : Link) (off : BitVec 12) (v : Word)
  /-- AON_WRITE_COMPLETE (R32). -/
  | aonWriteComplete
  /-- SEEN_WRITE (R34): event pair `n` of page `p`. -/
  | seenWrite (k : Link) (p : PageNo) (n : Nat) (v : Word)
  /-- TALLY_CAPTURE (R36). -/
  | tallyCapture (k : Link) (v : Word)
  /-- PARITY_SWEEP (R38): the words that fail their parity. -/
  | paritySweep (bad : List Addr)
  /-- CAL_REQ (R60). -/
  | calReq (k : Link) (p : PageNo)
  /-- CTRL_CAL_FACTORY (R119). -/
  | ctrlCalFactory (k : Link) (p : PageNo)
  -- launching light (chapter 02)
  /-- SLOT_LAUNCH (R68). -/
  | slotLaunch (x : Line)
  /-- HOLD_END (R62). -/
  | holdEnd (x : Line)
  /-- RAMAN_PULSE (R57). -/
  | ramanPulse (x : Line)
  /-- GATE_END (R77). -/
  | gateEnd (x : Line) (g : Gate)
  /-- TRIG_IN_EDGE (R66). -/
  | trigInEdge (rising : Bool)
  /-- SHOT_PREDICT (R72). -/
  | shotPredict (x : Line)
  /-- SHOT_RECORD (R73). -/
  | shotRecord (x : Line)
  /-- DEAD_AGE_EXPIRY (R60). -/
  | deadAgeExpiry (x : Line)
  /-- DEAD_TIME_START (R59). -/
  | deadTimeStart (x : Line)
  /-- LANE_CAL_PASS (R116): the samples of the eight cores over the measured part of the pass. -/
  | laneCalPass (x : Line) (cores : List (List Int))
  /-- DAC_CAL_PASS (R71): the loopback codes of XI and XQ over the pass. -/
  | dacCalPass (x : Line) (xi xq : List Int)
  /-- RAMAN_CAL_PASS (R230): the codes of the two Raman lanes over the pass. -/
  | ramanCalPass (x : Line) (antiStokes stokes : List Int)
  -- emitters and the Canary (chapter 03)
  /-- THERMISTOR_SAMPLE (R79). -/
  | thermistorSample (x : Line) (l : Laser) (code : BitVec 16)
  /-- COLOUR_LOOP_RUN (R80). -/
  | colourLoopRun (x : Line) (l : Laser)
  /-- LOCK_FAIL (R81). -/
  | lockFail (x : Line) (l : Laser)
  /-- SENSE_CHECK (R78): the sense input in millivolts. -/
  | senseCheck (x : Line) (e : Emitter) (mV : Nat)
  /-- GATED_SENSE_CHECK (R78). -/
  | gatedSenseCheck (x : Line) (g : Gate) (mV : Nat)
  /-- MON_BACK_CROSSING (R88): MON_BACK at `mV` in window cycle `cycle` of the lit slot. -/
  | monBackCrossing (x : Line) (cycle mV : Nat)
  /-- WITNESS_VERDICT (R88): the cycles of the witness window above the witness level. -/
  | witnessVerdict (x : Line) (steps : List (Nat × Nat))
  /-- MON_OUT_CROSSING (R83). -/
  | monOutCrossing (x : Line) (mV : Nat)
  /-- GATES_OFF (R85). -/
  | gatesOff
  /-- COPY_MISMATCH (R96): word `off` of one of the two copies is found to hold `v`. -/
  | copyMismatch (x : Line) (second : Bool) (off : BitVec 12) (v : Word)
  /-- INTERLOCK_FALL (R86). -/
  | interlockFall
  /-- INTERLOCK_RISE (R455). -/
  | interlockRise
  /-- CLOCK_LOSS (R87). -/
  | clockLoss
  /-- CLOCK_RETURN (R87). -/
  | clockReturn
  /-- DIAG_REQUEST (R91). -/
  | diagRequest (x : Line)
  /-- DIAG_SAMPLE (R92). -/
  | diagSample (x : Line) (g : Gate) (mV : Nat)
  /-- PROBE_START (R82). -/
  | probeStart (x : Line)
  /-- SEED_SETTLED (R93). -/
  | seedSettled (x : Line)
  /-- PROBE_PASS (R93). -/
  | probePass (x : Line)
  /-- AUTO_PROBE (R95). -/
  | autoProbe (x : Line)
  /-- RESTART (R94): a write of CANARY.RESTART. -/
  | restart (k : Link) (x : Line) (key : BitVec 16)
  /-- SERVICE_OPEN (R97): a write of CANARY.SERVICE with SECONDS not 0. -/
  | serviceOpen (k : Link) (x : Line) (key : BitVec 16) (noWitness : Bool) (seconds : BitVec 6)
  /-- SERVICE_STOP (R97): a write of CANARY.SERVICE with SECONDS = 0. -/
  | serviceStop (k : Link) (x : Line) (key : BitVec 16)
  /-- SERVICE_END (R97). -/
  | serviceEnd (x : Line)
  -- coherent lanes (chapter 04)
  /-- SLOT_WORD (R107): the samples of the slot just ended. -/
  | slotWord (x : Line) (samples : Lanes)
  /-- CORE_STUCK (R105). -/
  | coreStuck (x : Line) (core : Fin 8)
  /-- LANE_PLL_LOSS (R106). -/
  | lanePllLoss
  /-- LANE_PLL_LOCK (R106). -/
  | lanePllLock
  /-- TRIM_TEMP_READ (R112, R229). -/
  | trimTempRead (x : Line)
  -- tone separation and compression (chapter 05)
  /-- CHAN_BLOCK (R136): the lane samples of the block's input window. -/
  | chanBlock (x : Line) (t : Fin 8) (window : Lanes)
  -- phase, diversity and gauge (chapter 06)
  /-- POINT_WORD (R163): the next point of the shot with this SEQ; what its phase state and its filter
  state show. -/
  | pointWord (x : Line) (seq : Word) (ecc pfEcc : SramEcc)
  /-- OOS_SET (R158). -/
  | oosSet (k : Link) (x : Line)
  /-- OOS_CLEAR (R158). -/
  | oosClear (k : Link) (x : Line)
  /-- OOS_APPLIED (R158). -/
  | oosApplied (x : Line)
  /-- OOS_MAP_CLEAR (R160). -/
  | oosMapClear (x : Line)
  -- point filters (chapter 07)
  /-- FRAME_RELEASE (R185). -/
  | frameRelease (x : Line)
  /-- FREEZE_REQ (R174). -/
  | freezeReq (x : Line)
  /-- HOST_FREEZE_SET (R176). -/
  | hostFreezeSet (k : Link) (x : Line) (slot : Fin 4)
  /-- HOST_FREEZE_CLEAR (R176). -/
  | hostFreezeClear (k : Link) (x : Line) (slot : Fin 4)
  -- zones, triggers and capture (chapter 08)
  /-- ZONE_REDUCTION (R201): the next zone in rank order; `ecc` is the state of its accumulators. -/
  | zoneReduction (x : Line) (ecc : SramEcc)
  /-- ALARM_EDGE (R211). -/
  | alarmEdge (k : Fin 4)
  /-- ALARM_PULSE_END (R210). -/
  | alarmPulseEnd (k : Fin 4)
  /-- ALARM_CLEAR (R210). -/
  | alarmClear (k : Link) (balls : BitVec 4)
  /-- TRIGGER_RECORD (R208). -/
  | triggerRecord (x : Line)
  /-- DESC_WRITE (R216): word `w` of descriptor `n`. -/
  | descWrite (k : Link) (n : BitVec 16) (w : Fin 8) (v : Word)
  /-- SEGMENT_COPY (R219): `ecc` is what the ring's lines show. -/
  | segmentCopy (x : Line) (c : Fin 4) (ecc : Ecc)
  /-- SEGMENT_END (R218). -/
  | segmentEnd (x : Line) (c : Fin 4)
  /-- DESC_READ (R218). -/
  | descRead (x : Line) (c : Fin 4)
  -- temperature profiles and reference coils (chapter 09)
  /-- RAMAN_TRACE (R232): trace and dark samples of the two Raman lanes. -/
  | ramanTrace (x : Line) (antiStokes stokes darkAs darkS : List Int)
  /-- READOUT (R234): the trace samples whose accumulators show an uncorrectable error. -/
  | readout (x : Line) (bad : List Nat)
  /-- READOUT_END (R234). -/
  | readoutEnd (x : Line)
  /-- PASS_2 (R248): the work-region samples that a bad DRAM line holds. -/
  | pass2 (x : Line) (bad : List Nat)
  /-- PROFILE_RELEASE (R248). -/
  | profileRelease (x : Line)
  /-- PFE_CONVERSION (R251): the signed ratio code and the modulator's overload. -/
  | pfeConversion (q : Int) (overload : Bool)
  /-- PFE_COMPLIANCE_CHECK (R254). -/
  | pfeComplianceCheck (ch : Fin 4) (pass : Bool)
  /-- PFE_CAL_VISIT (R257): for each gain code, the shorted and the divider conversions. -/
  | pfeCalVisit (shorted divider : List (List Int))
  -- housekeeping and interval timing (chapter 10)
  /-- HK_PASS_START (R265). -/
  | hkPassStart
  /-- HK_CONVERSION (R264). -/
  | hkConversion (code : BitVec 12)
  /-- URGENT (R268). -/
  | urgent (k : Link) (input : BitVec 5)
  /-- TELEMETRY (R272). -/
  | telemetry
  /-- TIU_ARM (R275). -/
  | tiuArm (k : Link) (u : Fin 2)
  /-- TIU_START (R274). -/
  | tiuStart (k : Link) (u : Fin 2)
  /-- TIU_STOP (R274). -/
  | tiuStop (k : Link) (u : Fin 2)
  /-- TIU_CANCEL (R277). -/
  | tiuCancel (k : Link) (u : Fin 2)
  /-- TIU_START_EDGE (R275): `same` when the stop source has its edge in the same cycle. -/
  | tiuStartEdge (u : Fin 2) (same : Bool)
  /-- TIU_STOP_EDGE (R275). -/
  | tiuStopEdge (u : Fin 2)
  /-- TIU_TIMEOUT (R275). -/
  | tiuTimeout (u : Fin 2)
  /-- TIU_RESULT (R277). -/
  | tiuResult (u : Fin 2)
  -- memory (chapter 11)
  /-- MEM_REQUEST (R288): line `l` of the DRAM address space; `wr` holds the 64 bytes of a write,
  `none` where the byte is not enabled; no list means a read. -/
  | memRequest (port : Fin 8) (l : Nat) (wr : Option (List (Option Byte)))
  /-- MISS (R287): the oldest request of sub-channel `s` not yet counted. -/
  | miss (s : Fin 4)
  /-- MEM_READ_DATA (R294): the next request of sub-channel `s` in the order of R288. -/
  | memReadData (s : Fin 4) (ecc : Ecc)
  /-- REFRESH_DUE (R290). -/
  | refreshDue (p : Fin 8)
  /-- MR4_POLL (R291): the refresh-rate codes of the rank's devices and whether one is too hot. -/
  | mr4Poll (p : Fin 8) (doubled hot : Bool) (code : BitVec 3)
  /-- SR_ENTRY (R292). -/
  | srEntry (p : Fin 8)
  /-- SR_EXIT (R292). -/
  | srExit (p : Fin 8)
  /-- RETRAIN (R293). -/
  | retrain (k : Link) (s : Fin 4)
  /-- RETRAIN_DONE (R293). -/
  | retrainDone (s : Fin 4) (trained : Bool) (eye : BitVec 16)
  /-- SCRUB_READ (R299). -/
  | scrubRead (s : Fin 4) (ecc : Ecc)
  /-- FILL_CMD (R302). -/
  | fillCmd (k : Link)
  /-- FILL_DONE (R302). -/
  | fillDone
  /-- INIT_QUERY (R301). -/
  | initQuery (k : Link) (r : BitVec 16)
  /-- MIGRATE (R305). -/
  | migrate (k : Link) (p : Fin 8)
  /-- MIG_COPY (R304). -/
  | migCopy (ecc : Ecc)
  /-- MIG_DONE (R304). -/
  | migDone
  /-- SRAM_SCRUB (R310): the banks whose word read now has one wrong data bit, one wrong check bit, two wrong bits (R308). -/
  | sramScrub (data check double : List (Fin 288))
  -- DMA and codec (chapter 12)
  /-- DMA_START (R317). -/
  | dmaStart (k : Link) (c : Fin 32)
  /-- DMA_STOP (R324). -/
  | dmaStop (k : Link) (c : Fin 32)
  /-- DMA_RING (R318). -/
  | dmaRing (k : Link) (c : Fin 32)
  /-- DMA_FETCH (R317). -/
  | dmaFetch (c : Fin 32) (ecc : Ecc)
  /-- DMA_BURST (R320): `host` is what a HOST read returns. -/
  | dmaBurst (host : HostReply) (ecc : BurstEcc)
  /-- DMA_COMPLETE (R321). -/
  | dmaComplete (c : Fin 32)
  /-- LINK_READ (R318). -/
  | linkRead (c : Fin 32) (ecc : Ecc)
  /-- NORESP (R324). -/
  | noresp (c : Fin 32)
  /-- CODEC_INPUT (R326): the bytes one feeding access brings, and whether they end a message. -/
  | codecInput (n : Fin 16) (bytes : List Byte) (eom : Bool)
  /-- CODEC_BLOCK (R329): what the checker finds of the block, and of its stored form. -/
  | codecBlock (n : Fin 16) (verified storedVerified : Bool)
  /-- CODEC_DECODE (R332). -/
  | codecDecode (n : Fin 16)
  /-- CLOSE (R330). -/
  | codecClose (k : Link) (n : Fin 16)
  /-- CODEC_RESET (R333). -/
  | codecReset (k : Link) (n : Fin 16)
  /-- STALL_TIMEOUT (R335). -/
  | stallTimeout (n : Fin 16)
  /-- CONTEXT_SWITCH (R335): the context restored, and what its saved-state area shows. -/
  | contextSwitch (n : Fin 16) (ecc : Ecc)
  -- host links (chapter 13)
  /-- PCIE_FLR (R344). -/
  | pcieFlr
  /-- LINK_DOWN (R344). -/
  | linkDown
  /-- BAR2_ACCESS (R342): `wr` holds the bytes of a write; otherwise `len` bytes are read. -/
  | bar2Access (a : Nat) (len : Nat) (wr : Option (List (Option Byte))) (ecc : Ecc)
  /-- MSIX_UNMASK (R343): vector `v` is unmasked, or the function mask cleared. -/
  | msixUnmask (v : Option (Fin 64))
  /-- RING_TAIL (R346): ring `r`, its new tail and the host's entries up to it. -/
  | ringTail (k : Link) (r : Fin 16) (tail : BitVec 16) (entries : List HostEntry)
  /-- RING_WRITE (R347). -/
  | ringWrite (r : Fin 16)
  /-- COALESCE_TIMEOUT (R347). -/
  | coalesceTimeout (r : Fin 16)
  /-- REPLY_DROPPED (R347). -/
  | replyDropped
  /-- REG_READ (R371). -/
  | regRead (v : Via) (a : Addr) (count : Nat)
  /-- REG_WRITE (R371). -/
  | regWrite (v : Via) (a : Addr) (words : List Word)
  /-- MEM_READ (R371). -/
  | memRead (v : Via) (a : Nat) (count : Nat) (ecc : Ecc)
  /-- MEM_WRITE (R371). -/
  | memWrite (v : Via) (a : Nat) (bytes : MemBytes)
  /-- ECHO (R371). -/
  | echo (v : Via) (bytes : List Byte)
  -- service commands (chapter 14)
  /-- STATUS (R382). -/
  | status (v : Via)
  /-- MODE_SET (R422). -/
  | modeSet (v : Via) (mode : BitVec 3)
  /-- LINE_OUT (R411). -/
  | lineOut (v : Via) (x : Line)
  /-- LINE_IN (R412). -/
  | lineIn (v : Via) (x : Line)
  /-- CAL_RUN (R415). -/
  | calRun (v : Via) (p : PageNo) (now : Bool)
  /-- CAL_FACTORY (R382). -/
  | calFactory (v : Via) (p : PageNo)
  /-- JOURNAL_READ (R382). -/
  | journalRead (v : Via) (first : Word) (count : Nat)
  /-- TROUBLE_READ (R382). -/
  | troubleRead (v : Via) (first : Word) (count : Nat)
  /-- JOURNAL_MARK (R387). -/
  | journalMark (v : Via) (value : BitVec 64)
  /-- PATCH_LOAD (R408): the request's COUNT and further payload bytes, which the command does not use and DIGEST and
  the journal entry hold (R387). -/
  | patchLoad (v : Via) (a : Nat) (count : Nat) (data : List Byte)
  /-- PATCH_SWAP (R409). -/
  | patchSwap (v : Via)
  /-- SWAP_RESTART (R409). -/
  | swapRestart
  /-- PATCH_REVERT (R409). -/
  | patchRevert (v : Via)
  /-- PATCH_COMMIT (R410). -/
  | patchCommit (v : Via)
  /-- REEL_RECORD (R399). -/
  | reelRecord (v : Via)
  /-- REEL_STOP (R403). -/
  | reelStop (v : Via)
  /-- REEL_PLAY (R405). -/
  | reelPlay (v : Via)
  /-- EMIT_SWAP_BEGIN (R413). -/
  | emitSwapBegin (v : Via) (x : Line) (e : Emitter)
  /-- EMIT_SWAP_END (R413). -/
  | emitSwapEnd (v : Via) (x : Line) (e : Emitter)
  /-- RANK_MIGRATE (R414). -/
  | rankMigrate (v : Via) (p : Fin 8)
  /-- FOREMAN_RESTART (R384). -/
  | foremanRestart (v : Via)
  /-- PROC_STEP (R382): the next step of an open procedure. -/
  | procStep (n : ProcRun)
  -- streams and Ethernet (chapter 13)
  /-- STREAM_MESSAGE (R365): the oldest message a source has handed over. -/
  | streamMessage
  /-- PACKET_TRANSMIT (R353). -/
  | packetTransmit (p : Fin 2)
  /-- ETH_RX (R349): a frame from its destination address to before its FCS. -/
  | ethRx (p : Fin 2) (frame : List Byte) (fcsOk : Bool)
  /-- ETH_LINK_UP (R351). -/
  | ethLinkUp (p : Fin 2)
  /-- ETH_LINK_DOWN (R369). -/
  | ethLinkDown (p : Fin 2)
  /-- RESOLVE_RETRY (R351). -/
  | resolveRetry (p : Fin 2)
  /-- UNRESOLVED (R369): the oldest unresolved message of stream entry `s`. -/
  | unresolved (s : Fin 64)
  /-- CACHE_REFRESH (R351). -/
  | cacheRefresh (p : Fin 2)
  /-- I2C_POLL (R354): cage `p`, its diagnostics where the module has them. -/
  | i2cPoll (p : Fin 2) (diag : Option SfpReading)
  /-- XFER (R354): the word written, whether the module acknowledges, and the byte it returns. -/
  | xfer (k : Link) (v : Word) (ack : Bool) (data : Byte)
  /-- MODULE_CHANGE (R354). -/
  | moduleChange (p : Fin 2) (present : Bool)
  -- time (chapter 13)
  /-- PTP_MESSAGE (R359). -/
  | ptpMessage (m : PtpArrival)
  /-- DELAY_REQ (R358). -/
  | delayReq
  /-- SYNC_TIMEOUT (R360). -/
  | syncTimeout
  /-- SET (R357): a write of PTP.TIME_CMD with SET. -/
  | timeSet (k : Link)
  /-- PPS_IN_EDGE (R361). -/
  | ppsInEdge (rising : Bool)
  /-- PPS_MISSING (R361). -/
  | ppsMissing
  /-- PPS_OUT (R361). -/
  | ppsOut
  /-- PPS_OUT_END (R361). -/
  | ppsOutEnd
  /-- REF_LOST (R362). -/
  | refLost
  /-- REF_RETURN (R362). -/
  | refReturn
  -- serial ports (chapter 13)
  /-- SPI_READ (R374): the op byte of READ is 0x0B. -/
  | spiRead (a : SpiHead) (count : Nat)
  /-- SPI_WRITE (R374). -/
  | spiWrite (a : Addr) (words : List Word)
  /-- ABORTED_WORD (R375). -/
  | abortedWord
  /-- LEGACY_READ (R377). -/
  | legacyRead (a : BitVec 15)
  /-- LEGACY_WRITE (R377). -/
  | legacyWrite (a : BitVec 15) (v : BitVec 16)
  -- journal, trouble log and Foreman (chapter 14)
  /-- JOURNAL_FLUSH (R391). -/
  | journalFlush
  /-- TROUBLE_FLUSH (R395). -/
  | troubleFlush
  /-- RETENTION_COPY (R390). -/
  | retentionCopy
  /-- NOTIFICATION (R396). -/
  | notification
  /-- CAL_ADVISED (R398). -/
  | calAdvised
  /-- CAL_RETRY (R397). -/
  | calRetry
  /-- WATCHDOG (R384). -/
  | watchdog
  /-- EXCEPTION (R384). -/
  | exception
  /-- RESTARTED (R385). -/
  | restarted
  -- reels (chapter 14)
  /-- REEL_START (R399). -/
  | reelStart (x : Line)
  /-- REEL_SHOT (R402): the samples of the line's next recorded slot. -/
  | reelShot (x : Line) (samples : Lanes)
  /-- REEL_END (R403). -/
  | reelEnd (x : ReelStop)
  /-- REEL_FEED (R405). -/
  | reelFeed
  /-- REPLAY_END (R405). -/
  | replayEnd
  -- power and modes (chapter 15)
  /-- RAIL_STEP (R419): the next slow edge of rail `k`; `good` is its PWR_GOOD level. -/
  | railStep (k : Fin 6) (good : Bool)
  /-- RAIL_FAIL (R419). -/
  | railFail
  /-- BOOT (R437). -/
  | boot
  /-- THERMAL_TRIP (R426). -/
  | thermalTrip
  /-- THERMAL_CLEAR (R426). -/
  | thermalClear
  /-- INTERLOCK_HOLD (R427). -/
  | interlockHold
  /-- SLOW_FALLBACK (R428). -/
  | slowFallback
  /-- REFCLK_TIMEOUT (R429). -/
  | refclkTimeout
  /-- ALARM_WAKE (R431). -/
  | alarmWake
  /-- WAKE_IN (R431). -/
  | wakeIn (rising : Bool)
  /-- PFE_WAKE (R432). -/
  | pfeWake
  /-- HK_WAKE (R432). -/
  | hkWake
  /-- WRITE (R434). -/
  | scriptWrite
  /-- WAIT_EVENT (R434). -/
  | scriptWaitEvent
  /-- DELAY (R434). -/
  | scriptDelay
  /-- RETURN (R435). -/
  | returnHome
  /-- RESET_N (R436). -/
  | resetN
  /-- PWR_RESET (R436). -/
  | pwrReset (k : Link) (key : BitVec 16)
  /-- VAON_APPLIED (R446). -/
  | vaonApplied
  /-- TEST_MODE (R441): the ball's level at a slow edge. -/
  | testMode (high : Bool)
  -- boundary scan (chapter 16)
  /-- TAP_RESET (R459). -/
  | tapReset
  /-- BYPASS (R458). -/
  | bypass
  /-- IDCODE (R458). -/
  | idcode
  /-- SAMPLE_PRELOAD (R458): the cells preloaded. -/
  | samplePreload (cells : List Bool)
  /-- EXTEST (R459). -/
  | extest
  /-- EXTEST_PULSE (R458). -/
  | extestPulse
  /-- EXTEST_TRAIN (R458). -/
  | extestTrain
  /-- HIGHZ (R458). -/
  | highz
  /-- CLAMP (R458). -/
  | clamp
  /-- STUCK_CLEARED (R105). -/
  | stuckCleared (x : Line) (core : Fin 8)
  /-- PCIE_LINK_UP (R379). -/
  | pcieLinkUp (width : BitVec 4) (gen : BitVec 4)
  /-- VAON_REMOVED (R390). -/
  | vaonRemoved
  /-- POWER_GOOD_LOSS (R445). -/
  | powerGoodLoss (k : Fin 6)
  /-- PROC_TIMEOUT (R382): open procedure `i`. -/
  | procTimeout (i : Nat)
deriving DecidableEq, Repr

end Sys2Proof
end

