-- ==== Sys2Proof/Decode.lean ====
section
/-!
DEFINITION. Commands from words. The rows of the opcode table give no bits: a command is named by the
bus cycle, packet or signal that brings it, and its operands come with it.
-/
namespace Sys2Proof

/-- The command that a word spells by the table's bits: no row gives bits, so none.
DESIGN CHOICE: log entry 4. -/
def decodeTableWord (_nbits _w : Nat) : Option Instr := none

end Sys2Proof
end

