-- ==== Sys2Proof/Machine/Operands.lean ====
section
/-!
DEFINITION. The number forms of the manual: signed fields, roundings, byte order, saturation, square
roots, the trigonometric tables of R50 and the logarithms of R79 and later chapters, all in exact
integer arithmetic.
-/
namespace Sys2Proof.Machine

-- ---- fields and bytes -------------------------------------------------------

/-- Bits hi down to lo of a number. -/
def bitsOf (v hi lo : Nat) : Nat := v / 2 ^ lo % 2 ^ (hi + 1 - lo)

/-- Bit n of a number. -/
def bitOf (v n : Nat) : Bool := v / 2 ^ n % 2 == 1

/-- A number with bits hi down to lo replaced. -/
def putBits (v hi lo x : Nat) : Nat :=
  v - bitsOf v hi lo * 2 ^ lo + (x % 2 ^ (hi + 1 - lo)) * 2 ^ lo

/-- A Boolean as a bit. -/
def bit (b : Bool) : Nat := if b then 1 else 0

/-- The signed value of the low w bits. -/
def signed (w v : Nat) : Int :=
  let m := v % 2 ^ w
  if m < 2 ^ (w - 1) then (m : Int) else (m : Int) - ((2 ^ w : Nat) : Int)

/-- A signed number in the low w bits, modulo 2^w. -/
def unsigned (w : Nat) (v : Int) : Nat := (v % ((2 ^ w : Nat) : Int)).toNat

/-- The n low bytes of a number, least significant first. -/
def leBytes : Nat → Nat → List Byte
  | 0, _ => []
  | n + 1, v => BitVec.ofNat 8 v :: leBytes n (v / 256)

/-- The number a little-endian byte list holds. -/
def leNat : List Byte → Nat
  | [] => 0
  | b :: bs => b.toNat + 256 * leNat bs

/-- The n low bytes of a number, most significant first. -/
def beBytes (n v : Nat) : List Byte := (leBytes n v).reverse

/-- The number a big-endian byte list holds. -/
def beNat (l : List Byte) : Nat := leNat l.reverse

/-- A list padded with zero bytes to a multiple of n. -/
def padTo (n : Nat) (l : List Byte) : List Byte :=
  l ++ List.replicate ((n - l.length % n) % n) 0

/-- The bytes cut into pieces of n bytes, at most k of them. -/
def chunks (n : Nat) : Nat → List α → List (List α)
  | 0, _ => []
  | _ + 1, [] => []
  | k + 1, l => l.take n :: chunks n k (l.drop n)

/-- Bits packed into bytes, the first bit the lowest, padded to a multiple of eight bytes. -/
def packBits (l : List Bool) : List Byte :=
  padTo 8 ((chunks 8 l.length l).map fun c => BitVec.ofNat 8 (c.zipIdx.map fun e => if e.1 then 2 ^ e.2 else 0).sum)

/-- The 32-bit words of a byte list, little-endian. -/
def leWords (l : List Byte) : List Word :=
  (chunks 4 l.length l).map fun c => Word.ofNat (leNat c)

-- ---- CRC --------------------------------------------------------------------

/-- One bit of a reflected CRC with the given polynomial. -/
def crcBit (poly : Nat) (c : Nat) : Nat := if c % 2 = 1 then c / 2 ^^^ poly else c / 2

/-- One byte of a reflected CRC. -/
def crcByte (poly : Nat) (c : Nat) (b : Byte) : Nat :=
  let f := crcBit poly
  f (f (f (f (f (f (f (f (c ^^^ b.toNat))))))))

/-- CRC-32C (Castagnoli, reflected, initial and final value all ones). -/
def crc32c (l : List Byte) : Word :=
  Word.ofNat (l.foldl (crcByte 0x82F63B78) 0xFFFFFFFF ^^^ 0xFFFFFFFF)

-- ---- roundings --------------------------------------------------------------

/-- Quotient rounded up, of naturals. -/
def ceilDiv (a b : Nat) : Nat := (a + b - 1) / b

/-- Arithmetic shift right: the floor of v / 2^n. -/
def asr (v : Int) (n : Nat) : Int := v.fdiv ((2 ^ n : Nat) : Int)

/-- Arithmetic shift right after adding half: rounds half up (R50). -/
def asrRound (v : Int) (n : Nat) : Int :=
  if n = 0 then v else asr (v + ((2 ^ (n - 1) : Nat) : Int)) n

/-- a / b rounded half away from zero (b positive). -/
def roundHalfAway (a : Int) (b : Nat) : Int :=
  let q : Int := ((2 * a.natAbs + b) / (2 * b) : Nat)
  if a < 0 then -q else q

/-- a / b rounded half to even (b positive). -/
def roundHalfEven (a : Int) (b : Nat) : Int :=
  let fl := a.fdiv (b : Int)
  let r2 := 2 * (a - fl * (b : Int))
  if r2 < (b : Int) then fl
  else if (b : Int) < r2 then fl + 1
  else if fl % 2 = 0 then fl else fl + 1

/-- Clamp to an interval. -/
def clamp (lo hi v : Int) : Int := if v < lo then lo else if hi < v then hi else v

/-- Saturation to w signed bits. -/
def satS (w : Nat) (v : Int) : Int :=
  clamp (-((2 ^ (w - 1) : Nat) : Int)) (((2 ^ (w - 1) : Nat) : Int) - 1) v

/-- Integer square root by bisection: the largest r < 2^n with r * r ≤ v. -/
def isqrtAux (v : Nat) : Nat → Nat → Nat
  | 0, r => r
  | n + 1, r => isqrtAux v n (if (r + 2 ^ n) * (r + 2 ^ n) ≤ v then r + 2 ^ n else r)

/-- The floor of the square root of v. -/
def isqrt (v : Nat) : Nat := isqrtAux v (v.log2 / 2 + 1) 0

/-- The square root of v rounded half away from zero. -/
def isqrtRound (v : Nat) : Nat :=
  let r := isqrt v
  if r * r + r < v then r + 1 else r

-- ---- transcendental functions in fixed point ---------------------------------

/-- Fraction bits of the fixed-point evaluations. -/
def fracBits : Nat := 96

/-- One in fixed point. -/
def fxOne : Int := ((2 ^ fracBits : Nat) : Int)

/-- π in fixed point. -/
def fxPi : Int := 248902613312231085230521944622

/-- ln 2 in fixed point. -/
def fxLn2 : Int := 54916777467707473351141471128

/-- Product in fixed point. -/
def fxMul (a b : Int) : Int := asr (a * b) fracBits

/-- Taylor terms of the sine from term k of value t, x2 = x². -/
def fxSinAux (x2 : Int) : Nat → Nat → Int → Int → Int
  | 0, _, _, acc => acc
  | n + 1, k, t, acc =>
    let t' := -(fxMul t x2).fdiv (((2 * k) * (2 * k + 1) : Nat) : Int)
    fxSinAux x2 n (k + 1) t' (acc + t')

/-- Sine of a fixed-point angle in radians of magnitude at most π/4 or so. -/
def fxSinSmall (x : Int) : Int := fxSinAux (fxMul x x) 16 1 x x

/-- Taylor terms of the cosine. -/
def fxCosAux (x2 : Int) : Nat → Nat → Int → Int → Int
  | 0, _, _, acc => acc
  | n + 1, k, t, acc =>
    let t' := -(fxMul t x2).fdiv (((2 * k - 1) * (2 * k) : Nat) : Int)
    fxCosAux x2 n (k + 1) t' (acc + t')

/-- Cosine of a small fixed-point angle. -/
def fxCosSmall (x : Int) : Int := fxCosAux (fxMul x x) 16 1 fxOne fxOne

/-- Cosine and sine of num/den of a turn, in fixed point: reduced to an eighth of a turn. -/
def fxCosSin (num den : Nat) : Int × Int :=
  let r := num % den
  -- octant q of the angle, nearest multiple of a quarter turn
  let q := (4 * r * 2 + den) / (2 * den) % 4
  let x : Int := (2 * fxPi * (4 * (r : Int) - (den : Int) * (((4 * r * 2 + den) / (2 * den) : Nat) : Int))).fdiv
    ((4 * den : Nat) : Int)
  let c := fxCosSmall x
  let s := fxSinSmall x
  if q = 0 then (c, s) else if q = 1 then (-s, c) else if q = 2 then (-c, -s) else (s, -c)

/-- v fixed-point times a scale, rounded half away from zero to an integer. -/
def fxRound (scale : Nat) (v : Int) : Int := roundHalfAway (v * (scale : Int)) (2 ^ fracBits)

/-- COS16 and SIN16 of R50 at index a. -/
def cosSin16 (a : Nat) : Int × Int :=
  let p := fxCosSin a 65536
  (fxRound 32767 p.1, fxRound 32767 p.2)

/-- COS20 and SIN20 of R50 at index m. -/
def cosSin20 (m : Nat) : Int × Int :=
  let p := fxCosSin m 20
  (fxRound 32767 p.1, fxRound 32767 p.2)

/-- A nonnegative rational num/den rounded to a binary64 mantissa, as a fixed-point number of
`f` fraction bits (round half to even). -/
def toDouble (num den : Nat) : Nat × Nat :=
  if num = 0 then (0, 1)
  else
    -- exponent e with 2^52 ≤ num * 2^e / den < 2^53, e may be shifted by 1200 to stay natural
    let e0 := 52 + den.log2 - num.log2
    let e := if 2 ^ 52 * den ≤ num * 2 ^ e0 then (if num * 2 ^ e0 < 2 ^ 53 * den then e0 else e0 - 1) else e0 + 1
    ((roundHalfEven ((num * 2 ^ e : Nat) : Int) den).toNat, 2 ^ e)

/-- ENV's ramp value at ramp sample i of a ramp of E samples (R50):
32,767 × sin²(π(i + 0.5)/(2E)), evaluated in IEEE 754 double precision in the order written, then
rounded half away from zero. The argument lies between 0 and π/2. -/
def envRamp (i E : Nat) : Int :=
  if E = 0 then 32767
  else
    -- the double nearest π is 884279719003555 / 2^48
    let p := toDouble (884279719003555 * (2 * i + 1)) (2 ^ 48 * 2)
    let x := toDouble p.1 (p.2 * (2 * E))
    let fx : Int := (((x.1 * 2 ^ fracBits) / x.2 : Nat) : Int)
    let s : Int := if 2 * fx ≤ fxPi - fx then fxSinSmall fx else fxCosSmall (fxPi.fdiv 2 - fx)
    let sd := toDouble s.toNat (2 ^ fracBits)
    let sq := toDouble (sd.1 * sd.1) (sd.2 * sd.2)
    let r := toDouble (32767 * sq.1) sq.2
    roundHalfAway (r.1 : Int) r.2

/-- Terms of the series 2·Σ z^(2k+1)/(2k+1), z2 = z². -/
def fxLnAux (z2 : Int) : Nat → Nat → Int → Int → Int
  | 0, _, _, acc => acc
  | n + 1, k, t, acc => fxLnAux z2 n (k + 1) (fxMul t z2) (acc + t.fdiv ((2 * k + 1 : Nat) : Int))

/-- Natural logarithm of the positive rational num/den, in fixed point. -/
def fxLn (num den : Nat) : Int :=
  if num = 0 ∨ den = 0 then 0
  else
    -- num/den = 2^k · m with m in [1/2, 2)
    let k : Int := (num.log2 : Int) - (den.log2 : Int)
    let m : Int :=
      if 0 ≤ k then ((num : Int) * fxOne).fdiv ((den : Int) * ((2 ^ k.toNat : Nat) : Int))
      else ((num : Int) * fxOne * ((2 ^ (-k).toNat : Nat) : Int)).fdiv (den : Int)
    let z := ((m - fxOne) * fxOne).fdiv (m + fxOne)
    k * fxLn2 + 2 * fxLnAux (fxMul z z) 64 0 z 0

/-- ln 10 in fixed point. -/
def fxLn10 : Int := 182429585950654714090129938606

/-- Taylor terms of the arctangent of a small x. -/
def fxAtanAux (x2 : Int) : Nat → Nat → Int → Int → Int
  | 0, _, _, acc => acc
  | n + 1, k, t, acc =>
    fxAtanAux x2 n (k + 1) (-(fxMul t x2)) (acc + t.fdiv ((2 * k + 1 : Nat) : Int))

/-- Arctangent of y/x for 0 ≤ y ≤ x, x > 0, in fixed point: halved twice before the series. -/
def fxAtanUnit (y x : Nat) : Int :=
  let v : Int := (((y * 2 ^ fracBits) / x : Nat) : Int)
  let half (v : Int) : Int :=
    let r : Int := (isqrt ((fxOne * fxOne + v * v).toNat) : Nat)
    (v * fxOne).fdiv (fxOne + r)
  let w := half (half v)
  4 * fxAtanAux (fxMul w w) 48 0 w 0

/-- arg(x + iy) in fixed-point radians, in (−π, π]; 0 at the origin. -/
def fxArg (y x : Int) : Int :=
  let ay := y.natAbs
  let ax := x.natAbs
  let a : Int :=
    if ax = 0 ∧ ay = 0 then 0
    else if ay ≤ ax then fxAtanUnit ay ax
    else fxPi.fdiv 2 - fxAtanUnit ax ay
  let a := if x < 0 then fxPi - a else a
  if y < 0 then -a else a

end Sys2Proof.Machine
end

