-- ==== Sys2Proof/Config.lean ====
section
/-!
DEFINITION. What a part fixes and what the manual leaves open: constants with no body, so that no
proof can use a value of them.
-/
namespace Sys2Proof

/-- Free values: the value that the manual leaves open at the n-th such point of a run. The n is a
plain counter of the state. DESIGN CHOICE: log entry 38. -/
opaque Config.free : Nat → BitVec 64

/-- The factory calibration tables (reset value C, R464): the word at an address of the register
space, once loaded (R13). Node words of the lane and Raman trims stand at their FACTORY offsets.
DEDUCED: log entry 9. -/
opaque Config.factory : Nat → Word

/-- The factory I/Q and offset trims of SYN (R70, R464), interpolated at a die temperature in
1/256 degree: trim k of line x, k = 0 phase, 1 gain, 2 Q offset, 3 I offset. -/
opaque Config.synTrim : Nat → Nat → Int → BitVec 10

/-- The factory offset (0) and gain (1) trims of a gain code of PFE at a temperature node (R257, R464). DEDUCED: log
entry 139. -/
opaque Config.pfeFactory : Nat → Nat → Nat → BitVec 16

/-- The vendor's block of the MAC addresses in the fuse map, without the I/G and U/L bits, which a universally
administered unicast address has at 0 (R464). DEDUCED: log entry 9. -/
opaque Config.fuseOui : BitVec 22

/-- The part's own 24 bits of ETH0's MAC address; ETH1's address is one above (R464). DEDUCED: log entry 9. -/
opaque Config.fuseNic : BitVec 24

/-- The manufacturer code that the JTAG IDCODE carries, in the fuse map (R458, R462). -/
opaque Config.fuseJtag : BitVec 11

/-- The rollback counter in the fuses at delivery, 0 to 32 (R410, R464); what exceeds 32 stands for 32. -/
opaque Config.fuseRollback : BitVec 6

/-- The digest of the patch public key in the fuse map (R408, R464): SHA-256 of the 64 bytes of PUBKEY. -/
opaque Config.fuseKey : BitVec 256

/-- The vendor, subsystem vendor and subsystem identifiers of the PCI Express endpoint, in the fuse map (R341). -/
opaque Config.fusePci : Nat → BitVec 16

/-- FREQ, in 2^-16 ppm, that the servo's law gives (R360): its proportional and integral shifts, the offset in
picoseconds, the FREQ before, the count of such points of the run. DESIGN CHOICE: log entry 71. -/
opaque Config.servoFreq : Nat → Nat → Int → Int → Nat → Int

/-- Whether a bank of the SRAM uses spare rows (R309, R464). -/
opaque Config.sramSpared : Nat → Bool

end Sys2Proof
end

