-- ==== Sys2Proof/Machine/Layout.lean ====
section
/-!
DEFINITION. The register layout of the NHR7020: the directory (R463), the common page header (R19)
and every register field that the field tables of the chapters name, with its bits and its reset
value. A field marked F or C in the tables has reset 0 here: it reads 0 until loading (R13).
Fields of a page are given by page offset (shadow view for configuration), fields of a table region
by offset in the region.
-/
namespace Sys2Proof.Machine

/-- A register field: the byte offset of its word, its highest and lowest bit, its reset value. -/
structure Fld where
  off   : Nat
  hi    : Nat
  lo    : Nat
  reset : Nat := 0
deriving DecidableEq, Repr

/-- How a page word answers accesses (R12): configuration words stand in the shadow view, the
others act where they stand. -/
inductive Access where
  | config | ro | rw | wc
deriving DecidableEq, Repr

/-- The blocks that own pages (R463). -/
inductive Block where
  | dev | foreman | journal | trouble | hk | pfe | tiu | tally | pwr | shot
  | syn | emit | canary | lane | raml | trim | chan | phase | gauge | pfilt
  | zone | trig | capt | raman | reel | ddr | memx | sram | dma | codec
  | pcie | eth | ptp | sahf | spis | legacy | i2cm | aon
deriving DecidableEq, Repr

/-- The default latency target of a MEMX port (table of R287). -/
def memTarget (k : Nat) : Nat := [2048, 8192, 8192, 2048, 4096, 512, 1024, 16384].getD k 0

-- DEV fields (R16,R28-R36,R42)

/-- DEV.APPLY_LIST.PAGE_A. -/
def DEV.APPLY_LIST.PAGE_A (i : Nat) : Fld := ⟨0x100+4*i, 11, 0, 0⟩
/-- DEV.APPLY_LIST.PAGE_B. -/
def DEV.APPLY_LIST.PAGE_B (i : Nat) : Fld := ⟨0x100+4*i, 27, 16, 0⟩
/-- DEV.APPLY_SET. -/
def DEV.APPLY_SET : Fld := ⟨0x140, 31, 0, 0⟩
/-- DEV.STROBE. -/
def DEV.STROBE : Fld := ⟨0x144, 31, 0, 0⟩
/-- DEV.UPD_CTRL.EN. -/
def DEV.UPD_CTRL.EN : Fld := ⟨0x148, 4, 4, 0⟩
/-- DEV.UPD_CTRL.GROUPS. -/
def DEV.UPD_CTRL.GROUPS : Fld := ⟨0x148, 3, 0, 0⟩
/-- DEV.IRQ_ROUTE.EN. -/
def DEV.IRQ_ROUTE.EN (n : Nat) : Fld := ⟨0x200+4*n, 7, 7, 0⟩
/-- DEV.IRQ_ROUTE.VECTOR. -/
def DEV.IRQ_ROUTE.VECTOR (n : Nat) : Fld := ⟨0x200+4*n, 5, 0, 0⟩
/-- DEV.IRQ_SUMMARY. -/
def DEV.IRQ_SUMMARY (n : Nat) : Fld := ⟨0x900+4*n, 31, 0, 0⟩
/-- DEV.BUS_ERR_ADDR. -/
def DEV.BUS_ERR_ADDR : Fld := ⟨0x910, 23, 0, 0⟩
/-- DEV.BUS_ERR_INFO.LINK. -/
def DEV.BUS_ERR_INFO.LINK : Fld := ⟨0x914, 11, 8, 0⟩
/-- DEV.BUS_ERR_INFO.CODE. -/
def DEV.BUS_ERR_INFO.CODE : Fld := ⟨0x914, 7, 0, 0⟩
/-- DEV.DIRECTORY. -/
def DEV.DIRECTORY (i : Nat) : Fld := ⟨0xC00+4*i, 31, 0, 0⟩

/-- The read-only live and window fields of a DEV page. -/
def devRo : List Fld :=
  (List.range 4).map DEV.IRQ_SUMMARY ++
  [DEV.BUS_ERR_ADDR, DEV.BUS_ERR_INFO.LINK, DEV.BUS_ERR_INFO.CODE] ++
  (List.range 256).map DEV.DIRECTORY

/-- The read-write live and window fields of a DEV page. -/
def devRw : List Fld :=
  (List.range 16).map DEV.APPLY_LIST.PAGE_A ++
  (List.range 16).map DEV.APPLY_LIST.PAGE_B ++
  [DEV.UPD_CTRL.EN, DEV.UPD_CTRL.GROUPS] ++
  (List.range 128).map DEV.IRQ_ROUTE.EN ++
  (List.range 128).map DEV.IRQ_ROUTE.VECTOR

/-- The command fields of a DEV page. -/
def devWc : List Fld :=
  [DEV.APPLY_SET, DEV.STROBE]

-- FOREMAN fields (R416)

/-- FOREMAN.CONTROL.AUTO_CAL. -/
def FOREMAN.CONTROL.AUTO_CAL : Fld := ⟨0x100, 0, 0, 0⟩
/-- FOREMAN.SAVE.SAVE_EN. -/
def FOREMAN.SAVE.SAVE_EN : Fld := ⟨0x104, 31, 31, 0⟩
/-- FOREMAN.SAVE.SAVE_BASE. -/
def FOREMAN.SAVE.SAVE_BASE : Fld := ⟨0x104, 15, 0, 0⟩
/-- FOREMAN.STATE. -/
def FOREMAN.STATE : Fld := ⟨0x900, 2, 0, 0⟩
/-- FOREMAN.RESTARTS. -/
def FOREMAN.RESTARTS : Fld := ⟨0x904, 31, 0, 0⟩
/-- FOREMAN.LAST_CAUSE. -/
def FOREMAN.LAST_CAUSE : Fld := ⟨0x908, 7, 0, 0⟩
/-- FOREMAN.BANK.ACTIVE. -/
def FOREMAN.BANK.ACTIVE : Fld := ⟨0x90C, 1, 0, 0⟩
/-- FOREMAN.BANK.VERIFIED. -/
def FOREMAN.BANK.VERIFIED : Fld := ⟨0x90C, 5, 4, 0⟩
/-- FOREMAN.BANK.NOT_BOOTABLE. -/
def FOREMAN.BANK.NOT_BOOTABLE : Fld := ⟨0x90C, 9, 8, 0⟩
/-- FOREMAN.ROM_VERSION. -/
def FOREMAN.ROM_VERSION : Fld := ⟨0x910, 31, 0, 0x00010000⟩
/-- FOREMAN.PATCH_VERSION. -/
def FOREMAN.PATCH_VERSION : Fld := ⟨0x914, 31, 0, 0⟩
/-- FOREMAN.ROLLBACK. -/
def FOREMAN.ROLLBACK : Fld := ⟨0x918, 5, 0, 0⟩
/-- FOREMAN.HANDLER.DEPTH. -/
def FOREMAN.HANDLER.DEPTH : Fld := ⟨0x91C, 2, 0, 0⟩
/-- FOREMAN.HANDLER.QUEUED. -/
def FOREMAN.HANDLER.QUEUED : Fld := ⟨0x91C, 11, 8, 0⟩
/-- FOREMAN.PROCS.OPEN. -/
def FOREMAN.PROCS.OPEN : Fld := ⟨0x920, 2, 0, 0⟩
/-- FOREMAN.PROCS.CFG_FAULTS. -/
def FOREMAN.PROCS.CFG_FAULTS : Fld := ⟨0x920, 23, 8, 0⟩
/-- FOREMAN.REFUSE. -/
def FOREMAN.REFUSE : Fld := ⟨0x924, 7, 0, 0⟩
/-- FOREMAN.MBX_CMD. -/
def FOREMAN.MBX_CMD : Fld := ⟨0x980, 31, 0, 0⟩
/-- FOREMAN.MBX_STATUS.BUSY. -/
def FOREMAN.MBX_STATUS.BUSY : Fld := ⟨0x984, 31, 31, 0⟩
/-- FOREMAN.MBX_STATUS.DONE. -/
def FOREMAN.MBX_STATUS.DONE : Fld := ⟨0x984, 30, 30, 0⟩
/-- FOREMAN.MBX_STATUS.BYTES. -/
def FOREMAN.MBX_STATUS.BYTES : Fld := ⟨0x984, 26, 16, 0⟩
/-- FOREMAN.MBX_STATUS.STATUS. -/
def FOREMAN.MBX_STATUS.STATUS : Fld := ⟨0x984, 15, 0, 0⟩
/-- FOREMAN.MBX. -/
def FOREMAN.MBX (i : Nat) : Fld := ⟨0xC00+4*i, 31, 0, 0⟩

/-- The configuration fields of a FOREMAN page. -/
def foremanCfg : List Fld :=
  [FOREMAN.CONTROL.AUTO_CAL, FOREMAN.SAVE.SAVE_EN, FOREMAN.SAVE.SAVE_BASE]

/-- The read-only live and window fields of a FOREMAN page. -/
def foremanRo : List Fld :=
  [FOREMAN.STATE, FOREMAN.RESTARTS, FOREMAN.LAST_CAUSE, FOREMAN.BANK.ACTIVE, 
  FOREMAN.BANK.VERIFIED, FOREMAN.BANK.NOT_BOOTABLE, FOREMAN.ROM_VERSION, 
  FOREMAN.PATCH_VERSION, FOREMAN.ROLLBACK, FOREMAN.HANDLER.DEPTH, 
  FOREMAN.HANDLER.QUEUED, FOREMAN.PROCS.OPEN, FOREMAN.PROCS.CFG_FAULTS, 
  FOREMAN.REFUSE, FOREMAN.MBX_STATUS.BUSY, FOREMAN.MBX_STATUS.DONE, 
  FOREMAN.MBX_STATUS.BYTES, FOREMAN.MBX_STATUS.STATUS]

/-- The read-write live and window fields of a FOREMAN page. -/
def foremanRw : List Fld :=
  (List.range 256).map FOREMAN.MBX

/-- The command fields of a FOREMAN page. -/
def foremanWc : List Fld :=
  [FOREMAN.MBX_CMD]

-- JOURNAL fields (R416)

/-- JOURNAL.FLUSH_US. -/
def JOURNAL.FLUSH_US : Fld := ⟨0x100, 15, 0, 1000⟩
/-- JOURNAL.NEXT_SEQ. -/
def JOURNAL.NEXT_SEQ : Fld := ⟨0x900, 31, 0, 0⟩
/-- JOURNAL.OLDEST_SEQ. -/
def JOURNAL.OLDEST_SEQ : Fld := ⟨0x904, 31, 0, 0⟩
/-- JOURNAL.MIRROR_OLDEST. -/
def JOURNAL.MIRROR_OLDEST : Fld := ⟨0x908, 31, 0, 0⟩
/-- JOURNAL.POWER_SEQ. -/
def JOURNAL.POWER_SEQ : Fld := ⟨0x90C, 31, 0, 0⟩
/-- JOURNAL.READ_SEQ. -/
def JOURNAL.READ_SEQ : Fld := ⟨0x980, 31, 0, 0⟩
/-- JOURNAL.ENTRY. -/
def JOURNAL.ENTRY (i : Nat) : Fld := ⟨0xC00+4*i, 31, 0, 0⟩

/-- The configuration fields of a JOURNAL page. -/
def journalCfg : List Fld :=
  [JOURNAL.FLUSH_US]

/-- The read-only live and window fields of a JOURNAL page. -/
def journalRo : List Fld :=
  [JOURNAL.NEXT_SEQ, JOURNAL.OLDEST_SEQ, JOURNAL.MIRROR_OLDEST, 
  JOURNAL.POWER_SEQ] ++
  (List.range 256).map JOURNAL.ENTRY

/-- The read-write live and window fields of a JOURNAL page. -/
def journalRw : List Fld :=
  [JOURNAL.READ_SEQ]

-- TROUBLE fields (R416)

/-- TROUBLE.STREAM_MIN. -/
def TROUBLE.STREAM_MIN : Fld := ⟨0x100, 1, 0, 0⟩
/-- TROUBLE.FLUSH_US. -/
def TROUBLE.FLUSH_US : Fld := ⟨0x104, 15, 0, 1000⟩
/-- TROUBLE.TOTAL. -/
def TROUBLE.TOTAL : Fld := ⟨0x900, 31, 0, 0⟩
/-- TROUBLE.LOST_ERRORS. -/
def TROUBLE.LOST_ERRORS : Fld := ⟨0x904, 31, 0, 0⟩
/-- TROUBLE.DROPPED. -/
def TROUBLE.DROPPED : Fld := ⟨0x908, 31, 0, 0⟩
/-- TROUBLE.READ_INDEX. -/
def TROUBLE.READ_INDEX : Fld := ⟨0x980, 31, 0, 0⟩
/-- TROUBLE.ENTRY. -/
def TROUBLE.ENTRY (i : Nat) : Fld := ⟨0xC00+4*i, 31, 0, 0⟩

/-- The configuration fields of a TROUBLE page. -/
def troubleCfg : List Fld :=
  [TROUBLE.STREAM_MIN, TROUBLE.FLUSH_US]

/-- The read-only live and window fields of a TROUBLE page. -/
def troubleRo : List Fld :=
  [TROUBLE.TOTAL, TROUBLE.LOST_ERRORS, TROUBLE.DROPPED] ++
  (List.range 256).map TROUBLE.ENTRY

/-- The read-write live and window fields of a TROUBLE page. -/
def troubleRw : List Fld :=
  [TROUBLE.READ_INDEX]

-- HK fields (R273)

/-- HK.SEQ_CTRL.LEN. -/
def HK.SEQ_CTRL.LEN : Fld := ⟨0x100, 29, 24, 16⟩
/-- HK.SEQ_CTRL.PERIOD. -/
def HK.SEQ_CTRL.PERIOD : Fld := ⟨0x100, 19, 0, 1000⟩
/-- HK.TELEM.EN. -/
def HK.TELEM.EN : Fld := ⟨0x104, 31, 31, 0⟩
/-- HK.TELEM.PERIOD. -/
def HK.TELEM.PERIOD : Fld := ⟨0x104, 29, 16, 1000⟩
/-- HK.TELEM.STREAM. -/
def HK.TELEM.STREAM : Fld := ⟨0x104, 15, 0, 0⟩
/-- HK.SLOT.ACQ. -/
def HK.SLOT.ACQ (s : Nat) : Fld := ⟨0x180+4*s, 15, 8, 0⟩
/-- HK.SLOT.DATA. -/
def HK.SLOT.DATA (s : Nat) : Fld := ⟨0x180+4*s, 6, 6, 0⟩
/-- HK.SLOT.INPUT. -/
def HK.SLOT.INPUT (s : Nat) : Fld := ⟨0x180+4*s, 4, 0, (if s ≤ 15 then s else 0)⟩
/-- HK.LIMIT.EN. -/
def HK.LIMIT.EN (i : Nat) : Fld := ⟨0x200+4*i, 31, 31, 0⟩
/-- HK.LIMIT.HIGH. -/
def HK.LIMIT.HIGH (i : Nat) : Fld := ⟨0x200+4*i, 27, 16, 4095⟩
/-- HK.LIMIT.LOW. -/
def HK.LIMIT.LOW (i : Nat) : Fld := ⟨0x200+4*i, 11, 0, 0⟩
/-- HK.DATA. -/
def HK.DATA : Fld := ⟨0x900, 31, 0, 0⟩
/-- HK.DATA_TICK. -/
def HK.DATA_TICK : Fld := ⟨0x904, 31, 0, 0⟩
/-- HK.CURRENT.SLOT. -/
def HK.CURRENT.SLOT : Fld := ⟨0x908, 12, 8, 0⟩
/-- HK.CURRENT.URGENT. -/
def HK.CURRENT.URGENT : Fld := ⟨0x908, 7, 7, 0⟩
/-- HK.CURRENT.INPUT. -/
def HK.CURRENT.INPUT : Fld := ⟨0x908, 4, 0, 0⟩
/-- HK.REFUSE. -/
def HK.REFUSE : Fld := ⟨0x90C, 7, 0, 0⟩
/-- HK.QUEUE. -/
def HK.QUEUE : Fld := ⟨0x910, 2, 0, 0⟩
/-- HK.URGENT. -/
def HK.URGENT : Fld := ⟨0x980, 31, 0, 0⟩

/-- The configuration fields of a HK page. -/
def hkCfg : List Fld :=
  [HK.SEQ_CTRL.LEN, HK.SEQ_CTRL.PERIOD, HK.TELEM.EN, HK.TELEM.PERIOD, 
  HK.TELEM.STREAM] ++
  (List.range 32).map HK.SLOT.ACQ ++
  (List.range 32).map HK.SLOT.DATA ++
  (List.range 32).map HK.SLOT.INPUT ++
  (List.range 24).map HK.LIMIT.EN ++
  (List.range 24).map HK.LIMIT.HIGH ++
  (List.range 24).map HK.LIMIT.LOW

/-- The read-only live and window fields of a HK page. -/
def hkRo : List Fld :=
  [HK.DATA, HK.DATA_TICK, HK.CURRENT.SLOT, HK.CURRENT.URGENT, HK.CURRENT.INPUT, 
  HK.REFUSE, HK.QUEUE]

/-- The command fields of a HK page. -/
def hkWc : List Fld :=
  [HK.URGENT]

-- PFE fields (R260)

/-- PFE.RREF. -/
def PFE.RREF : Fld := ⟨0x100, 31, 0, 0⟩
/-- PFE.DWELL. -/
def PFE.DWELL : Fld := ⟨0x104, 7, 0, 16⟩
/-- PFE.CH.EN. -/
def PFE.CH.EN (k : Nat) : Fld := ⟨0x110+0x20*k, 31, 31, 0⟩
/-- PFE.CH.AUTORANGE. -/
def PFE.CH.AUTORANGE (k : Nat) : Fld := ⟨0x110+0x20*k, 30, 30, 1⟩
/-- PFE.CH.WIRES. -/
def PFE.CH.WIRES (k : Nat) : Fld := ⟨0x110+0x20*k, 29, 28, 2⟩
/-- PFE.CH.RATE. -/
def PFE.CH.RATE (k : Nat) : Fld := ⟨0x110+0x20*k, 26, 24, 4⟩
/-- PFE.CH.GAIN. -/
def PFE.CH.GAIN (k : Nat) : Fld := ⟨0x110+0x20*k, 22, 20, 0⟩
/-- PFE.CH.EXC. -/
def PFE.CH.EXC (k : Nat) : Fld := ⟨0x110+0x20*k, 17, 16, 3⟩
/-- PFE.CH.LEAD_R. -/
def PFE.CH.LEAD_R (k : Nat) : Fld := ⟨0x110+0x20*k, 15, 0, 0⟩
/-- PFE.RNOM. -/
def PFE.RNOM (k : Nat) : Fld := ⟨0x114+0x20*k, 31, 0, 100000⟩
/-- PFE.CVD_A. -/
def PFE.CVD_A (k : Nat) : Fld := ⟨0x118+0x20*k, 31, 0, 1074305324⟩
/-- PFE.CVD_B. -/
def PFE.CVD_B (k : Nat) : Fld := ⟨0x11C+0x20*k, 31, 0, 2994552904⟩
/-- PFE.CVD_C. -/
def PFE.CVD_C (k : Nat) : Fld := ⟨0x120+0x20*k, 31, 0, 3060363609⟩
/-- PFE.CODE. -/
def PFE.CODE (k : Nat) : Fld := ⟨0x900+0x20*k, 25, 0, 0⟩
/-- PFE.RES. -/
def PFE.RES (k : Nat) : Fld := ⟨0x904+0x20*k, 31, 0, 0⟩
/-- PFE.TEMP. -/
def PFE.TEMP (k : Nat) : Fld := ⟨0x908+0x20*k, 31, 0, 0⟩
/-- PFE.TIME_LO. -/
def PFE.TIME_LO (k : Nat) : Fld := ⟨0x90C+0x20*k, 31, 0, 0⟩
/-- PFE.TIME_HI. -/
def PFE.TIME_HI (k : Nat) : Fld := ⟨0x910+0x20*k, 31, 0, 0⟩
/-- PFE.FLAGS. -/
def PFE.FLAGS (k : Nat) : Fld := ⟨0x914+0x20*k, 10, 0, 0⟩

/-- The configuration fields of a PFE page. -/
def pfeCfg : List Fld :=
  [PFE.RREF, PFE.DWELL] ++
  (List.range 4).map PFE.CH.EN ++
  (List.range 4).map PFE.CH.AUTORANGE ++
  (List.range 4).map PFE.CH.WIRES ++
  (List.range 4).map PFE.CH.RATE ++
  (List.range 4).map PFE.CH.GAIN ++
  (List.range 4).map PFE.CH.EXC ++
  (List.range 4).map PFE.CH.LEAD_R ++
  (List.range 4).map PFE.RNOM ++
  (List.range 4).map PFE.CVD_A ++
  (List.range 4).map PFE.CVD_B ++
  (List.range 4).map PFE.CVD_C

/-- The read-only live and window fields of a PFE page. -/
def pfeRo : List Fld :=
  (List.range 4).map PFE.CODE ++
  (List.range 4).map PFE.RES ++
  (List.range 4).map PFE.TEMP ++
  (List.range 4).map PFE.TIME_LO ++
  (List.range 4).map PFE.TIME_HI ++
  (List.range 4).map PFE.FLAGS

-- TIU fields (R278)

/-- TIU.SOURCES.START_POL. -/
def TIU.SOURCES.START_POL : Fld := ⟨0x100, 31, 31, 0⟩
/-- TIU.SOURCES.START_SRC. -/
def TIU.SOURCES.START_SRC : Fld := ⟨0x100, 27, 24, 0⟩
/-- TIU.SOURCES.STOP_POL. -/
def TIU.SOURCES.STOP_POL : Fld := ⟨0x100, 15, 15, 0⟩
/-- TIU.SOURCES.STOP_SRC. -/
def TIU.SOURCES.STOP_SRC : Fld := ⟨0x100, 11, 8, 0⟩
/-- TIU.MODE. -/
def TIU.MODE : Fld := ⟨0x104, 1, 0, 0⟩
/-- TIU.TIMEOUT. -/
def TIU.TIMEOUT : Fld := ⟨0x108, 31, 0, 0⟩
/-- TIU.HOLDOFF. -/
def TIU.HOLDOFF : Fld := ⟨0x10C, 31, 0, 0⟩
/-- TIU.MON_LEVEL. -/
def TIU.MON_LEVEL : Fld := ⟨0x110, 9, 0, 1023⟩
/-- TIU.COUNT_LO. -/
def TIU.COUNT_LO : Fld := ⟨0x900, 31, 0, 0⟩
/-- TIU.COUNT_HI. -/
def TIU.COUNT_HI : Fld := ⟨0x904, 15, 0, 0⟩
/-- TIU.START_TICK_LO. -/
def TIU.START_TICK_LO : Fld := ⟨0x908, 31, 0, 0⟩
/-- TIU.START_TICK_HI. -/
def TIU.START_TICK_HI : Fld := ⟨0x90C, 31, 0, 0⟩
/-- TIU.START_TIME_LO. -/
def TIU.START_TIME_LO : Fld := ⟨0x910, 31, 0, 0⟩
/-- TIU.START_TIME_HI. -/
def TIU.START_TIME_HI : Fld := ⟨0x914, 31, 0, 0⟩
/-- TIU.FLAGS. -/
def TIU.FLAGS : Fld := ⟨0x918, 3, 0, 0⟩
/-- TIU.REFUSE. -/
def TIU.REFUSE : Fld := ⟨0x91C, 7, 0, 0⟩
/-- TIU.CMD. -/
def TIU.CMD : Fld := ⟨0x980, 31, 0, 0⟩

/-- The configuration fields of a TIU page. -/
def tiuCfg : List Fld :=
  [TIU.SOURCES.START_POL, TIU.SOURCES.START_SRC, TIU.SOURCES.STOP_POL, 
  TIU.SOURCES.STOP_SRC, TIU.MODE, TIU.TIMEOUT, TIU.HOLDOFF, TIU.MON_LEVEL]

/-- The read-only live and window fields of a TIU page. -/
def tiuRo : List Fld :=
  [TIU.COUNT_LO, TIU.COUNT_HI, TIU.START_TICK_LO, TIU.START_TICK_HI, 
  TIU.START_TIME_LO, TIU.START_TIME_HI, TIU.FLAGS, TIU.REFUSE]

/-- The command fields of a TIU page. -/
def tiuWc : List Fld :=
  [TIU.CMD]

-- TALLY fields (R36)

/-- TALLY.TICK_LO. -/
def TALLY.TICK_LO : Fld := ⟨0x900, 31, 0, 0⟩
/-- TALLY.TICK_HI. -/
def TALLY.TICK_HI : Fld := ⟨0x904, 31, 0, 0⟩
/-- TALLY.SEQ. -/
def TALLY.SEQ : Fld := ⟨0x908, 31, 0, 0⟩
/-- TALLY.CAPTURE. -/
def TALLY.CAPTURE : Fld := ⟨0x980, 31, 0, 0⟩

/-- The read-only live and window fields of a TALLY page. -/
def tallyRo : List Fld :=
  [TALLY.TICK_LO, TALLY.TICK_HI, TALLY.SEQ]

/-- The command fields of a TALLY page. -/
def tallyWc : List Fld :=
  [TALLY.CAPTURE]

-- PWR fields (R437)

/-- PWR.MODE.IN_SERVICE. -/
def PWR.MODE.IN_SERVICE : Fld := ⟨0x900, 25, 24, 0⟩
/-- PWR.MODE.TRANSITION. -/
def PWR.MODE.TRANSITION : Fld := ⟨0x900, 16, 16, 0⟩
/-- PWR.MODE.TARGET. -/
def PWR.MODE.TARGET : Fld := ⟨0x900, 10, 8, 0⟩
/-- PWR.MODE.MODE. -/
def PWR.MODE.MODE : Fld := ⟨0x900, 2, 0, 0⟩
/-- PWR.DOMAINS. -/
def PWR.DOMAINS : Fld := ⟨0x904, 31, 0, 0⟩
/-- PWR.CLOCKS.REF_PRESENT. -/
def PWR.CLOCKS.REF_PRESENT : Fld := ⟨0x908, 2, 2, 0⟩
/-- PWR.CLOCKS.LANE_LOCK. -/
def PWR.CLOCKS.LANE_LOCK : Fld := ⟨0x908, 1, 1, 0⟩
/-- PWR.CLOCKS.CORE_LOCK. -/
def PWR.CLOCKS.CORE_LOCK : Fld := ⟨0x908, 0, 0, 0⟩
/-- PWR.STEP. -/
def PWR.STEP : Fld := ⟨0x90C, 7, 0, 0⟩
/-- PWR.RESET. -/
def PWR.RESET : Fld := ⟨0x980, 31, 0, 0⟩

/-- The read-only live and window fields of a PWR page. -/
def pwrRo : List Fld :=
  [PWR.MODE.IN_SERVICE, PWR.MODE.TRANSITION, PWR.MODE.TARGET, PWR.MODE.MODE, 
  PWR.DOMAINS, PWR.CLOCKS.REF_PRESENT, PWR.CLOCKS.LANE_LOCK, PWR.CLOCKS.CORE_LOCK, 
  PWR.STEP]

/-- The command fields of a PWR page. -/
def pwrWc : List Fld :=
  [PWR.RESET]

-- SHOT fields (R71)

/-- SHOT.LINE_LEN. -/
def SHOT.LINE_LEN : Fld := ⟨0x100, 18, 0, 0⟩
/-- SHOT.GUARD. -/
def SHOT.GUARD : Fld := ⟨0x104, 15, 0, 0x600⟩
/-- SHOT.GROUP_INDEX. -/
def SHOT.GROUP_INDEX : Fld := ⟨0x108, 17, 0, 0x177DC⟩
/-- SHOT.ROUND_CTRL.COH_EN. -/
def SHOT.ROUND_CTRL.COH_EN : Fld := ⟨0x10C, 16, 16, 0⟩
/-- SHOT.ROUND_CTRL.PERIOD_MODE. -/
def SHOT.ROUND_CTRL.PERIOD_MODE : Fld := ⟨0x10C, 12, 12, 0⟩
/-- SHOT.ROUND_CTRL.N_GROUPS. -/
def SHOT.ROUND_CTRL.N_GROUPS : Fld := ⟨0x10C, 3, 0, 1⟩
/-- SHOT.ROUND_PERIOD. -/
def SHOT.ROUND_PERIOD : Fld := ⟨0x110, 23, 0, 0⟩
/-- SHOT.TRIG_CTRL.MODE. -/
def SHOT.TRIG_CTRL.MODE : Fld := ⟨0x114, 9, 8, 0⟩
/-- SHOT.TRIG_CTRL.POLARITY. -/
def SHOT.TRIG_CTRL.POLARITY : Fld := ⟨0x114, 0, 0, 0⟩
/-- SHOT.RAMAN_CTRL.EN. -/
def SHOT.RAMAN_CTRL.EN : Fld := ⟨0x118, 31, 31, 0⟩
/-- SHOT.RAMAN_CTRL.EVERY. -/
def SHOT.RAMAN_CTRL.EVERY : Fld := ⟨0x118, 6, 0, 1⟩
/-- SHOT.RAMAN_TIMING.WIDTH. -/
def SHOT.RAMAN_TIMING.WIDTH : Fld := ⟨0x11C, 23, 16, 7⟩
/-- SHOT.RAMAN_TIMING.OFFSET. -/
def SHOT.RAMAN_TIMING.OFFSET : Fld := ⟨0x11C, 15, 0, 2000⟩
/-- SHOT.CAL_CTRL.EVERY. -/
def SHOT.CAL_CTRL.EVERY : Fld := ⟨0x120, 15, 0, 0⟩
/-- SHOT.ROUND_LO. -/
def SHOT.ROUND_LO : Fld := ⟨0x900, 31, 0, 0⟩
/-- SHOT.ROUND_HI. -/
def SHOT.ROUND_HI : Fld := ⟨0x904, 31, 0, 0⟩
/-- SHOT.SEQ. -/
def SHOT.SEQ : Fld := ⟨0x908, 31, 0, 0⟩
/-- SHOT.PERIOD_EFF. -/
def SHOT.PERIOD_EFF : Fld := ⟨0x90C, 23, 0, 0⟩
/-- SHOT.SLOT_EFF. -/
def SHOT.SLOT_EFF : Fld := ⟨0x910, 23, 0, 0⟩
/-- SHOT.PLAN_RESULT.CODE. -/
def SHOT.PLAN_RESULT.CODE : Fld := ⟨0x914, 31, 24, 0⟩
/-- SHOT.PLAN_RESULT.ITEM. -/
def SHOT.PLAN_RESULT.ITEM : Fld := ⟨0x914, 18, 16, 0⟩
/-- SHOT.SHORTFALL. -/
def SHOT.SHORTFALL : Fld := ⟨0x918, 23, 0, 0⟩
/-- SHOT.TCLEAR_MAX. -/
def SHOT.TCLEAR_MAX : Fld := ⟨0x91C, 23, 0, 0⟩
/-- SHOT.DEAD_AGE. -/
def SHOT.DEAD_AGE : Fld := ⟨0x920, 18, 0, 0⟩
/-- SHOT.PERIOD_PRED. -/
def SHOT.PERIOD_PRED : Fld := ⟨0x924, 23, 0, 0⟩
/-- SHOT.SLOT_PRED. -/
def SHOT.SLOT_PRED : Fld := ⟨0x928, 23, 0, 0⟩
/-- SHOT.TONE.SHAPE. -/
def SHOT.TONE.SHAPE (t : Nat) : Fld := ⟨0x000+16*t, 31, 30, 0⟩
/-- SHOT.TONE.BW. -/
def SHOT.TONE.BW (t : Nat) : Fld := ⟨0x000+16*t, 23, 16, 0⟩
/-- SHOT.TONE.DUR. -/
def SHOT.TONE.DUR (t : Nat) : Fld := ⟨0x000+16*t, 15, 0, 250⟩
/-- SHOT.TONE.AMP. -/
def SHOT.TONE.AMP (t : Nat) : Fld := ⟨0x004+16*t, 30, 16, 0⟩
/-- SHOT.TONE.EDGE. -/
def SHOT.TONE.EDGE (t : Nat) : Fld := ⟨0x004+16*t, 7, 0, 0⟩
/-- SHOT.TONE.PHASE0. -/
def SHOT.TONE.PHASE0 (t : Nat) : Fld := ⟨0x008+16*t, 15, 0, 0⟩
/-- SHOT.GROUP.TONES. -/
def SHOT.GROUP.TONES (g : Nat) : Fld := ⟨0x080+4*g, 7, 0, 0⟩

/-- The configuration fields of a SHOT page. -/
def shotCfg : List Fld :=
  [SHOT.LINE_LEN, SHOT.GUARD, SHOT.GROUP_INDEX, SHOT.ROUND_CTRL.COH_EN, 
  SHOT.ROUND_CTRL.PERIOD_MODE, SHOT.ROUND_CTRL.N_GROUPS, SHOT.ROUND_PERIOD, 
  SHOT.TRIG_CTRL.MODE, SHOT.TRIG_CTRL.POLARITY, SHOT.RAMAN_CTRL.EN, 
  SHOT.RAMAN_CTRL.EVERY, SHOT.RAMAN_TIMING.WIDTH, SHOT.RAMAN_TIMING.OFFSET, 
  SHOT.CAL_CTRL.EVERY]

/-- The read-only live and window fields of a SHOT page. -/
def shotRo : List Fld :=
  [SHOT.ROUND_LO, SHOT.ROUND_HI, SHOT.SEQ, SHOT.PERIOD_EFF, SHOT.SLOT_EFF, 
  SHOT.PLAN_RESULT.CODE, SHOT.PLAN_RESULT.ITEM, SHOT.SHORTFALL, 
  SHOT.TCLEAR_MAX, SHOT.DEAD_AGE, SHOT.PERIOD_PRED, SHOT.SLOT_PRED]

-- SYN fields (R71)

/-- SYN.DAC_CTRL.SINC_COMP. -/
def SYN.DAC_CTRL.SINC_COMP : Fld := ⟨0x100, 8, 8, 1⟩
/-- SYN.DAC_CTRL.ALIGN. -/
def SYN.DAC_CTRL.ALIGN : Fld := ⟨0x100, 7, 0, 0⟩
/-- SYN.IQ_ADJ.PHASE_ADJ. -/
def SYN.IQ_ADJ.PHASE_ADJ : Fld := ⟨0x104, 25, 16, 0⟩
/-- SYN.IQ_ADJ.GAIN_ADJ. -/
def SYN.IQ_ADJ.GAIN_ADJ : Fld := ⟨0x104, 9, 0, 0⟩
/-- SYN.OFS_ADJ.Q_OFS_ADJ. -/
def SYN.OFS_ADJ.Q_OFS_ADJ : Fld := ⟨0x108, 25, 16, 0⟩
/-- SYN.OFS_ADJ.I_OFS_ADJ. -/
def SYN.OFS_ADJ.I_OFS_ADJ : Fld := ⟨0x108, 9, 0, 0⟩
/-- SYN.IQ_EFF.PHASE. -/
def SYN.IQ_EFF.PHASE : Fld := ⟨0x900, 25, 16, 0⟩
/-- SYN.IQ_EFF.GAIN. -/
def SYN.IQ_EFF.GAIN : Fld := ⟨0x900, 9, 0, 0⟩
/-- SYN.OFS_EFF.Q_OFS. -/
def SYN.OFS_EFF.Q_OFS : Fld := ⟨0x904, 25, 16, 0⟩
/-- SYN.OFS_EFF.I_OFS. -/
def SYN.OFS_EFF.I_OFS : Fld := ⟨0x904, 9, 0, 0⟩
/-- SYN.IQ_FIELD.PHASE. -/
def SYN.IQ_FIELD.PHASE : Fld := ⟨0x908, 25, 16, 0⟩
/-- SYN.IQ_FIELD.GAIN. -/
def SYN.IQ_FIELD.GAIN : Fld := ⟨0x908, 9, 0, 0⟩
/-- SYN.OFS_FIELD.Q_OFS. -/
def SYN.OFS_FIELD.Q_OFS : Fld := ⟨0x90C, 25, 16, 0⟩
/-- SYN.OFS_FIELD.I_OFS. -/
def SYN.OFS_FIELD.I_OFS : Fld := ⟨0x90C, 9, 0, 0⟩
/-- SYN.CAL_STATE.ITER. -/
def SYN.CAL_STATE.ITER : Fld := ⟨0x910, 7, 4, 0⟩
/-- SYN.CAL_STATE.PASSES. -/
def SYN.CAL_STATE.PASSES : Fld := ⟨0x910, 3, 0, 0⟩

/-- The configuration fields of a SYN page. -/
def synCfg : List Fld :=
  [SYN.DAC_CTRL.SINC_COMP, SYN.DAC_CTRL.ALIGN, SYN.IQ_ADJ.PHASE_ADJ, 
  SYN.IQ_ADJ.GAIN_ADJ, SYN.OFS_ADJ.Q_OFS_ADJ, SYN.OFS_ADJ.I_OFS_ADJ]

/-- The read-only live and window fields of a SYN page. -/
def synRo : List Fld :=
  [SYN.IQ_EFF.PHASE, SYN.IQ_EFF.GAIN, SYN.OFS_EFF.Q_OFS, SYN.OFS_EFF.I_OFS, 
  SYN.IQ_FIELD.PHASE, SYN.IQ_FIELD.GAIN, SYN.OFS_FIELD.Q_OFS, SYN.OFS_FIELD.I_OFS, 
  SYN.CAL_STATE.ITER, SYN.CAL_STATE.PASSES]

-- EMIT fields (R78)

/-- EMIT.SETPT.ON. -/
def EMIT.SETPT.ON (e : Nat) : Fld := ⟨0x100+4*e, 31, 31, 0⟩
/-- EMIT.SETPT.LEVEL. -/
def EMIT.SETPT.LEVEL (e : Nat) : Fld := ⟨0x100+4*e, 11, 0, 0⟩
/-- EMIT.GATE_CTRL.SOA_TAIL. -/
def EMIT.GATE_CTRL.SOA_TAIL : Fld := ⟨0x110, 7, 0, 16⟩
/-- EMIT.TEC_SET.SET. -/
def EMIT.TEC_SET.SET (l : Nat) : Fld := ⟨0x120+0x20*l, 15, 0, 6400⟩
/-- EMIT.TEC_COMP.COMP. -/
def EMIT.TEC_COMP.COMP (l : Nat) : Fld := ⟨0x124+0x20*l, 31, 16, 0⟩
/-- EMIT.TEC_COMP.COMP_SRC. -/
def EMIT.TEC_COMP.COMP_SRC (l : Nat) : Fld := ⟨0x124+0x20*l, 4, 0, 31⟩
/-- EMIT.COMP_MAP.C_GAIN. -/
def EMIT.COMP_MAP.C_GAIN (l : Nat) : Fld := ⟨0x128+0x20*l, 31, 16, 0⟩
/-- EMIT.COMP_MAP.C_OFS. -/
def EMIT.COMP_MAP.C_OFS (l : Nat) : Fld := ⟨0x128+0x20*l, 11, 0, 0⟩
/-- EMIT.LOOP.KP. -/
def EMIT.LOOP.KP (l : Nat) : Fld := ⟨0x12C+0x20*l, 31, 16, 0⟩
/-- EMIT.LOOP.KI. -/
def EMIT.LOOP.KI (l : Nat) : Fld := ⟨0x12C+0x20*l, 15, 0, 0⟩
/-- EMIT.LIMIT.DUTY_MAX. -/
def EMIT.LIMIT.DUTY_MAX (l : Nat) : Fld := ⟨0x130+0x20*l, 26, 16, 0⟩
/-- EMIT.LIMIT.FAULT_WIN. -/
def EMIT.LIMIT.FAULT_WIN (l : Nat) : Fld := ⟨0x130+0x20*l, 15, 8, 16⟩
/-- EMIT.LIMIT.LOCK_WIN. -/
def EMIT.LIMIT.LOCK_WIN (l : Nat) : Fld := ⟨0x130+0x20*l, 7, 0, 3⟩
/-- EMIT.THERM.B. -/
def EMIT.THERM.B (l : Nat) : Fld := ⟨0x134+0x20*l, 31, 16, 3950⟩
/-- EMIT.THERM.R0. -/
def EMIT.THERM.R0 (l : Nat) : Fld := ⟨0x134+0x20*l, 15, 0, 10000⟩
/-- EMIT.THERM_REF.R_REF. -/
def EMIT.THERM_REF.R_REF (l : Nat) : Fld := ⟨0x138+0x20*l, 15, 0, 10000⟩
/-- EMIT.TEMP. -/
def EMIT.TEMP (l : Nat) : Fld := ⟨0x900+0x10*l, 31, 0, 0⟩
/-- EMIT.SET_EFF. -/
def EMIT.SET_EFF (l : Nat) : Fld := ⟨0x904+0x10*l, 31, 0, 0⟩
/-- EMIT.DUTY. -/
def EMIT.DUTY (l : Nat) : Fld := ⟨0x908+0x10*l, 31, 0, 0⟩
/-- EMIT.T_COMP. -/
def EMIT.T_COMP (l : Nat) : Fld := ⟨0x90C+0x10*l, 31, 0, 0⟩
/-- EMIT.SP_EFF. -/
def EMIT.SP_EFF (e : Nat) : Fld := ⟨0x920+4*e, 11, 0, 0⟩

/-- The configuration fields of a EMIT page. -/
def emitCfg : List Fld :=
  (List.range 4).map EMIT.SETPT.ON ++
  (List.range 4).map EMIT.SETPT.LEVEL ++
  [EMIT.GATE_CTRL.SOA_TAIL] ++
  (List.range 2).map EMIT.TEC_SET.SET ++
  (List.range 2).map EMIT.TEC_COMP.COMP ++
  (List.range 2).map EMIT.TEC_COMP.COMP_SRC ++
  (List.range 2).map EMIT.COMP_MAP.C_GAIN ++
  (List.range 2).map EMIT.COMP_MAP.C_OFS ++
  (List.range 2).map EMIT.LOOP.KP ++
  (List.range 2).map EMIT.LOOP.KI ++
  (List.range 2).map EMIT.LIMIT.DUTY_MAX ++
  (List.range 2).map EMIT.LIMIT.FAULT_WIN ++
  (List.range 2).map EMIT.LIMIT.LOCK_WIN ++
  (List.range 2).map EMIT.THERM.B ++
  (List.range 2).map EMIT.THERM.R0 ++
  (List.range 2).map EMIT.THERM_REF.R_REF

/-- The read-only live and window fields of a EMIT page. -/
def emitRo : List Fld :=
  (List.range 2).map EMIT.TEMP ++
  (List.range 2).map EMIT.SET_EFF ++
  (List.range 2).map EMIT.DUTY ++
  (List.range 2).map EMIT.T_COMP ++
  (List.range 4).map EMIT.SP_EFF

-- CANARY fields (R97)

/-- CANARY.OUT.DARK_MAX. -/
def CANARY.OUT.DARK_MAX : Fld := ⟨0x100, 25, 16, 20⟩
/-- CANARY.OUT.OUT_MAX. -/
def CANARY.OUT.OUT_MAX : Fld := ⟨0x100, 9, 0, 0⟩
/-- CANARY.BACK.REFL_MAX. -/
def CANARY.BACK.REFL_MAX : Fld := ⟨0x104, 25, 16, 0⟩
/-- CANARY.BACK.BS_MIN. -/
def CANARY.BACK.BS_MIN : Fld := ⟨0x104, 9, 0, 0⟩
/-- CANARY.BS_MIN_R. -/
def CANARY.BS_MIN_R : Fld := ⟨0x108, 9, 0, 0⟩
/-- CANARY.BLANK. -/
def CANARY.BLANK : Fld := ⟨0x10C, 23, 0, 0⟩
/-- CANARY.OBS_END. -/
def CANARY.OBS_END : Fld := ⟨0x110, 23, 0, 0⟩
/-- CANARY.WIT_START. -/
def CANARY.WIT_START : Fld := ⟨0x114, 23, 0, 0⟩
/-- CANARY.WIT_END. -/
def CANARY.WIT_END : Fld := ⟨0x118, 23, 0, 0⟩
/-- CANARY.WIT_COUNT. -/
def CANARY.WIT_COUNT : Fld := ⟨0x11C, 23, 0, 0⟩
/-- CANARY.SENSE.SNS_MAX. -/
def CANARY.SENSE.SNS_MAX (e : Nat) : Fld := ⟨0x120+4*e, 25, 16, 0⟩
/-- CANARY.SENSE.SNS_MIN. -/
def CANARY.SENSE.SNS_MIN (e : Nat) : Fld := ⟨0x120+4*e, 9, 0, 0⟩
/-- CANARY.DIAG.DIAG_RAM. -/
def CANARY.DIAG.DIAG_RAM : Fld := ⟨0x130, 27, 16, 0⟩
/-- CANARY.DIAG.DIAG_SOA. -/
def CANARY.DIAG.DIAG_SOA : Fld := ⟨0x130, 11, 0, 0⟩
/-- CANARY.THRESH.THRESH_RAM. -/
def CANARY.THRESH.THRESH_RAM : Fld := ⟨0x134, 27, 16, 0⟩
/-- CANARY.THRESH.TRANSP_SOA. -/
def CANARY.THRESH.TRANSP_SOA : Fld := ⟨0x134, 11, 0, 0⟩
/-- CANARY.DIAG_SNS.DIAG_SNS_RAM. -/
def CANARY.DIAG_SNS.DIAG_SNS_RAM : Fld := ⟨0x138, 25, 16, 0⟩
/-- CANARY.DIAG_SNS.DIAG_SNS_SOA. -/
def CANARY.DIAG_SNS.DIAG_SNS_SOA : Fld := ⟨0x138, 9, 0, 0⟩
/-- CANARY.PROBES.AUTO. -/
def CANARY.PROBES.AUTO : Fld := ⟨0x13C, 31, 31, 1⟩
/-- CANARY.PROBES.EVERY. -/
def CANARY.PROBES.EVERY : Fld := ⟨0x13C, 8, 0, 100⟩
/-- CANARY.RESTART_LEN. -/
def CANARY.RESTART_LEN : Fld := ⟨0x140, 19, 0, 65536⟩
/-- CANARY.PUMP.SERVICE_PUMP. -/
def CANARY.PUMP.SERVICE_PUMP : Fld := ⟨0x144, 27, 16, 0⟩
/-- CANARY.PUMP.RESTART_PUMP. -/
def CANARY.PUMP.RESTART_PUMP : Fld := ⟨0x144, 11, 0, 0⟩
/-- CANARY.PAIRED. -/
def CANARY.PAIRED : Fld := ⟨0x148, 0, 0, 0⟩
/-- CANARY.SEED_SETTLE. -/
def CANARY.SEED_SETTLE : Fld := ⟨0x14C, 15, 0, 1639⟩
/-- CANARY.STATE. -/
def CANARY.STATE : Fld := ⟨0x900, 2, 0, 0⟩
/-- CANARY.CAUSE.CODE. -/
def CANARY.CAUSE.CODE : Fld := ⟨0x904, 31, 24, 0⟩
/-- CANARY.CAUSE.LINES. -/
def CANARY.CAUSE.LINES : Fld := ⟨0x904, 17, 16, 0⟩
/-- CANARY.CAUSE_TICK_LO. -/
def CANARY.CAUSE_TICK_LO : Fld := ⟨0x908, 31, 0, 0⟩
/-- CANARY.CAUSE_TICK_HI. -/
def CANARY.CAUSE_TICK_HI : Fld := ⟨0x90C, 31, 0, 0⟩
/-- CANARY.CAUSE_TIME_LO. -/
def CANARY.CAUSE_TIME_LO : Fld := ⟨0x910, 31, 0, 0⟩
/-- CANARY.CAUSE_TIME_HI. -/
def CANARY.CAUSE_TIME_HI : Fld := ⟨0x914, 31, 0, 0⟩
/-- CANARY.NEXT_PROBE. -/
def CANARY.NEXT_PROBE : Fld := ⟨0x918, 24, 0, 0⟩
/-- CANARY.VERDICT. -/
def CANARY.VERDICT : Fld := ⟨0x91C, 2, 0, 0⟩
/-- CANARY.WIT_SEEN. -/
def CANARY.WIT_SEEN : Fld := ⟨0x920, 23, 0, 0⟩
/-- CANARY.DIAG_AGE. -/
def CANARY.DIAG_AGE : Fld := ⟨0x924, 10, 0, 0⟩
/-- CANARY.RESTART. -/
def CANARY.RESTART : Fld := ⟨0x980, 31, 0, 0⟩
/-- CANARY.SERVICE. -/
def CANARY.SERVICE : Fld := ⟨0x984, 31, 0, 0⟩

/-- The configuration fields of a CANARY page. -/
def canaryCfg : List Fld :=
  [CANARY.OUT.DARK_MAX, CANARY.OUT.OUT_MAX, CANARY.BACK.REFL_MAX, 
  CANARY.BACK.BS_MIN, CANARY.BS_MIN_R, CANARY.BLANK, CANARY.OBS_END, 
  CANARY.WIT_START, CANARY.WIT_END, CANARY.WIT_COUNT] ++
  (List.range 4).map CANARY.SENSE.SNS_MAX ++
  (List.range 4).map CANARY.SENSE.SNS_MIN ++
  [CANARY.DIAG.DIAG_RAM, CANARY.DIAG.DIAG_SOA, CANARY.THRESH.THRESH_RAM, 
  CANARY.THRESH.TRANSP_SOA, CANARY.DIAG_SNS.DIAG_SNS_RAM, CANARY.DIAG_SNS.DIAG_SNS_SOA, 
  CANARY.PROBES.AUTO, CANARY.PROBES.EVERY, CANARY.RESTART_LEN, CANARY.PUMP.SERVICE_PUMP, 
  CANARY.PUMP.RESTART_PUMP, CANARY.PAIRED, CANARY.SEED_SETTLE]

/-- The read-only live and window fields of a CANARY page. -/
def canaryRo : List Fld :=
  [CANARY.STATE, CANARY.CAUSE.CODE, CANARY.CAUSE.LINES, CANARY.CAUSE_TICK_LO, 
  CANARY.CAUSE_TICK_HI, CANARY.CAUSE_TIME_LO, CANARY.CAUSE_TIME_HI, 
  CANARY.NEXT_PROBE, CANARY.VERDICT, CANARY.WIT_SEEN, CANARY.DIAG_AGE]

/-- The command fields of a CANARY page. -/
def canaryWc : List Fld :=
  [CANARY.RESTART, CANARY.SERVICE]

-- LANE fields (R122)

/-- LANE.MASK.LANE_EN. -/
def LANE.MASK.LANE_EN : Fld := ⟨0x100, 3, 0, 0xF⟩
/-- LANE.GAIN.CODE. -/
def LANE.GAIN.CODE (j : Nat) : Fld := ⟨0x104, 4*j+3, 4*j, 0⟩
/-- LANE.INPUT.SEL. -/
def LANE.INPUT.SEL (j : Nat) : Fld := ⟨0x108, 2*j+1, 2*j, 0⟩
/-- LANE.HEALTH.RMS_LOW. -/
def LANE.HEALTH.RMS_LOW : Fld := ⟨0x10C, 11, 0, 8⟩
/-- LANE.STAT_START. -/
def LANE.STAT_START : Fld := ⟨0x110, 23, 0, 0⟩
/-- LANE.STAT_LEN. -/
def LANE.STAT_LEN : Fld := ⟨0x114, 23, 0, 0⟩
/-- LANE.MEAN. -/
def LANE.MEAN (j : Nat) : Fld := ⟨0x900+0x10*j, 31, 0, 0⟩
/-- LANE.RMS. -/
def LANE.RMS (j : Nat) : Fld := ⟨0x904+0x10*j, 19, 0, 0⟩
/-- LANE.OVR. -/
def LANE.OVR (j : Nat) : Fld := ⟨0x908+0x10*j, 23, 0, 0⟩
/-- LANE.PEAK. -/
def LANE.PEAK (j : Nat) : Fld := ⟨0x90C+0x10*j, 11, 0, 0⟩
/-- LANE.SLOT_WORD. -/
def LANE.SLOT_WORD : Fld := ⟨0x940, 31, 0, 0⟩
/-- LANE.SLOT_SEQ. -/
def LANE.SLOT_SEQ : Fld := ⟨0x944, 31, 0, 0⟩

/-- The configuration fields of a LANE page. -/
def laneCfg : List Fld :=
  [LANE.MASK.LANE_EN] ++
  (List.range 4).map LANE.GAIN.CODE ++
  (List.range 4).map LANE.INPUT.SEL ++
  [LANE.HEALTH.RMS_LOW, LANE.STAT_START, LANE.STAT_LEN]

/-- The read-only live and window fields of a LANE page. -/
def laneRo : List Fld :=
  (List.range 4).map LANE.MEAN ++
  (List.range 4).map LANE.RMS ++
  (List.range 4).map LANE.OVR ++
  (List.range 4).map LANE.PEAK ++
  [LANE.SLOT_WORD, LANE.SLOT_SEQ]

-- RAML fields (R257,R258)

/-- RAML.MODE. -/
def RAML.MODE : Fld := ⟨0x100, 1, 0, 0⟩
/-- RAML.INPUT.SEL. -/
def RAML.INPUT.SEL (j : Nat) : Fld := ⟨0x104, 2*j+1, 2*j, 0⟩
/-- RAML.ITER_MAX. -/
def RAML.ITER_MAX : Fld := ⟨0x108, 2, 0, 4⟩
/-- RAML.MANUAL. -/
def RAML.MANUAL (j : Nat) : Fld := ⟨0x140+4*j, 19, 0, 0⟩
/-- RAML.EFF. -/
def RAML.EFF (j : Nat) : Fld := ⟨0x900+4*j, 31, 0, 0⟩
/-- RAML.TARGET. -/
def RAML.TARGET (j : Nat) : Fld := ⟨0x908+4*j, 31, 0, 0⟩
/-- RAML.FIELD. -/
def RAML.FIELD (j : Nat) : Fld := ⟨0x910+4*j, 31, 0, 0⟩
/-- RAML.DARK. -/
def RAML.DARK (j : Nat) : Fld := ⟨0x920+4*j, 31, 0, 0⟩
/-- RAML.PEAK. -/
def RAML.PEAK (j : Nat) : Fld := ⟨0x928+4*j, 13, 0, 0⟩
/-- RAML.DIE_TEMP. -/
def RAML.DIE_TEMP : Fld := ⟨0x930, 15, 0, 0⟩
/-- RAML.FACTORY. -/
def RAML.FACTORY (i : Nat) : Fld := ⟨0xC00+0x10*(i/2)+4*(i%2), 31, 0, 0⟩

/-- The configuration fields of a RAML page. -/
def ramlCfg : List Fld :=
  [RAML.MODE] ++
  (List.range 2).map RAML.INPUT.SEL ++
  [RAML.ITER_MAX] ++
  (List.range 2).map RAML.MANUAL

/-- The read-only live and window fields of a RAML page. -/
def ramlRo : List Fld :=
  (List.range 2).map RAML.EFF ++
  (List.range 2).map RAML.TARGET ++
  (List.range 2).map RAML.FIELD ++
  (List.range 2).map RAML.DARK ++
  (List.range 2).map RAML.PEAK ++
  [RAML.DIE_TEMP] ++
  (List.range 10).map RAML.FACTORY

-- TRIM fields (R122)

/-- TRIM.CONTROL.ADVISE_STEP. -/
def TRIM.CONTROL.ADVISE_STEP : Fld := ⟨0x100, 23, 16, 40⟩
/-- TRIM.CONTROL.MODE. -/
def TRIM.CONTROL.MODE : Fld := ⟨0x100, 1, 0, 0⟩
/-- TRIM.ITER_MAX. -/
def TRIM.ITER_MAX : Fld := ⟨0x104, 2, 0, 4⟩
/-- TRIM.MANUAL. -/
def TRIM.MANUAL (k : Nat) : Fld := ⟨0x140+4*k, 27, 0, 0⟩
/-- TRIM.EFF. -/
def TRIM.EFF (k : Nat) : Fld := ⟨0x900+4*k, 31, 0, 0⟩
/-- TRIM.TARGET. -/
def TRIM.TARGET (k : Nat) : Fld := ⟨0x920+4*k, 31, 0, 0⟩
/-- TRIM.FIELD. -/
def TRIM.FIELD (k : Nat) : Fld := ⟨0x940+4*k, 31, 0, 0⟩
/-- TRIM.DIE_TEMP. -/
def TRIM.DIE_TEMP : Fld := ⟨0x960, 15, 0, 0⟩
/-- TRIM.CAL_TEMP. -/
def TRIM.CAL_TEMP : Fld := ⟨0x964, 15, 0, 0⟩
/-- TRIM.CAL_STATE.ITER. -/
def TRIM.CAL_STATE.ITER : Fld := ⟨0x968, 7, 4, 0⟩
/-- TRIM.CAL_STATE.PASSES. -/
def TRIM.CAL_STATE.PASSES : Fld := ⟨0x968, 3, 0, 0⟩
/-- TRIM.FACTORY. -/
def TRIM.FACTORY (i : Nat) : Fld := ⟨0xC00+0x20*(i/8)+4*(i%8), 31, 0, 0⟩

/-- The configuration fields of a TRIM page. -/
def trimCfg : List Fld :=
  [TRIM.CONTROL.ADVISE_STEP, TRIM.CONTROL.MODE, TRIM.ITER_MAX] ++
  (List.range 8).map TRIM.MANUAL

/-- The read-only live and window fields of a TRIM page. -/
def trimRo : List Fld :=
  (List.range 8).map TRIM.EFF ++
  (List.range 8).map TRIM.TARGET ++
  (List.range 8).map TRIM.FIELD ++
  [TRIM.DIE_TEMP, TRIM.CAL_TEMP, TRIM.CAL_STATE.ITER, TRIM.CAL_STATE.PASSES] ++
  (List.range 40).map TRIM.FACTORY

-- CHAN fields (R140,R141)

/-- CHAN.ZERO. -/
def CHAN.ZERO : Fld := ⟨0x100, 13, 0, 0⟩
/-- CHAN.PROBE.EN. -/
def CHAN.PROBE.EN : Fld := ⟨0x104, 31, 31, 0⟩
/-- CHAN.PROBE.POL. -/
def CHAN.PROBE.POL : Fld := ⟨0x104, 30, 30, 0⟩
/-- CHAN.PROBE.TONE. -/
def CHAN.PROBE.TONE : Fld := ⟨0x104, 26, 24, 0⟩
/-- CHAN.PROBE.BIN. -/
def CHAN.PROBE.BIN : Fld := ⟨0x104, 18, 0, 0⟩
/-- CHAN.TONE_CFG.WINDOW. -/
def CHAN.TONE_CFG.WINDOW (t : Nat) : Fld := ⟨0x110+4*t, 9, 8, 0⟩
/-- CHAN.TONE_CFG.SHIFT. -/
def CHAN.TONE_CFG.SHIFT (t : Nat) : Fld := ⟨0x110+4*t, 5, 0, 16⟩
/-- CHAN.PROBE_SEQ. -/
def CHAN.PROBE_SEQ : Fld := ⟨0x900, 31, 0, 0⟩
/-- CHAN.PROBE_IQ. -/
def CHAN.PROBE_IQ : Fld := ⟨0x904, 31, 0, 0⟩
/-- CHAN.PROBE_AQ. -/
def CHAN.PROBE_AQ : Fld := ⟨0x908, 23, 0, 0⟩
/-- CHAN.RMS_AMP. -/
def CHAN.RMS_AMP (t : Nat) : Fld := ⟨0x910+4*t, 15, 0, 0⟩
/-- CHAN.SAT_BINS. -/
def CHAN.SAT_BINS (t : Nat) : Fld := ⟨0x930+4*t, 19, 0, 0⟩
/-- CHAN.TRACES_LO. -/
def CHAN.TRACES_LO : Fld := ⟨0x950, 31, 0, 0⟩
/-- CHAN.TRACES_HI. -/
def CHAN.TRACES_HI : Fld := ⟨0x954, 31, 0, 0⟩
/-- CHAN.REFUSE. -/
def CHAN.REFUSE : Fld := ⟨0x958, 7, 0, 0⟩
/-- CHAN.COEF. -/
def CHAN.COEF (n : Nat) : Fld := ⟨0xC00+4*n, 15, 0, 0⟩

/-- The configuration fields of a CHAN page. -/
def chanCfg : List Fld :=
  [CHAN.ZERO, CHAN.PROBE.EN, CHAN.PROBE.POL, CHAN.PROBE.TONE, CHAN.PROBE.BIN] ++
  (List.range 8).map CHAN.TONE_CFG.WINDOW ++
  (List.range 8).map CHAN.TONE_CFG.SHIFT

/-- The read-only live and window fields of a CHAN page. -/
def chanRo : List Fld :=
  [CHAN.PROBE_SEQ, CHAN.PROBE_IQ, CHAN.PROBE_AQ] ++
  (List.range 8).map CHAN.RMS_AMP ++
  (List.range 8).map CHAN.SAT_BINS ++
  [CHAN.TRACES_LO, CHAN.TRACES_HI, CHAN.REFUSE] ++
  (List.range 129).map CHAN.COEF

-- PHASE fields (R165)

/-- PHASE.COMBINE.COH_MIN. -/
def PHASE.COMBINE.COH_MIN : Fld := ⟨0x100, 31, 24, 64⟩
/-- PHASE.COMBINE.QUAL_MASK. -/
def PHASE.COMBINE.QUAL_MASK : Fld := ⟨0x100, 17, 16, 3⟩
/-- PHASE.COMBINE.AMP_MIN. -/
def PHASE.COMBINE.AMP_MIN : Fld := ⟨0x100, 15, 0, 64⟩
/-- PHASE.TRACK.TRACK_SHIFT. -/
def PHASE.TRACK.TRACK_SHIFT : Fld := ⟨0x104, 19, 16, 4⟩
/-- PHASE.TRACK.PREDICT. -/
def PHASE.TRACK.PREDICT : Fld := ⟨0x104, 8, 8, 0⟩
/-- PHASE.TRACK.HOLE_MAX. -/
def PHASE.TRACK.HOLE_MAX : Fld := ⟨0x104, 7, 0, 16⟩
/-- PHASE.BRANCHES.BRANCH_EN. -/
def PHASE.BRANCHES.BRANCH_EN : Fld := ⟨0x108, 15, 0, 0xFFFF⟩
/-- PHASE.SETTLE.SETTLE_ROUNDS. -/
def PHASE.SETTLE.SETTLE_ROUNDS : Fld := ⟨0x10C, 7, 0, 32⟩
/-- PHASE.FADED_LAST. -/
def PHASE.FADED_LAST : Fld := ⟨0x900, 18, 0, 0⟩
/-- PHASE.SETTLING_LAST. -/
def PHASE.SETTLING_LAST : Fld := ⟨0x904, 18, 0, 0⟩
/-- PHASE.OOS_POINTS. -/
def PHASE.OOS_POINTS : Fld := ⟨0x908, 18, 0, 0⟩
/-- PHASE.EPOCH. -/
def PHASE.EPOCH : Fld := ⟨0x90C, 15, 0, 0⟩
/-- PHASE.FADED_TOTAL_LO. -/
def PHASE.FADED_TOTAL_LO : Fld := ⟨0x910, 31, 0, 0⟩
/-- PHASE.FADED_TOTAL_HI. -/
def PHASE.FADED_TOTAL_HI : Fld := ⟨0x914, 31, 0, 0⟩
/-- PHASE.REANCHOR_TOTAL. -/
def PHASE.REANCHOR_TOTAL : Fld := ⟨0x918, 31, 0, 0⟩
/-- PHASE.REFUSE. -/
def PHASE.REFUSE : Fld := ⟨0x91C, 7, 0, 0⟩
/-- PHASE.PROBE_POINT. -/
def PHASE.PROBE_POINT : Fld := ⟨0x920, 17, 0, 0⟩
/-- PHASE.PROBE_SEQ. -/
def PHASE.PROBE_SEQ : Fld := ⟨0x924, 31, 0, 0⟩
/-- PHASE.PROBE_PHI. -/
def PHASE.PROBE_PHI : Fld := ⟨0x928, 23, 0, 0⟩
/-- PHASE.PROBE_D. -/
def PHASE.PROBE_D : Fld := ⟨0x92C, 31, 0, 0⟩
/-- PHASE.PROBE_BR. -/
def PHASE.PROBE_BR : Fld := ⟨0x930, 31, 0, 0⟩
/-- PHASE.PROBE_COH. -/
def PHASE.PROBE_COH : Fld := ⟨0x934, 8, 0, 0⟩
/-- PHASE.PROBE_REF. -/
def PHASE.PROBE_REF (n : Nat) : Fld := ⟨0x940+4*n, 23, 0, 0⟩
/-- PHASE.OOS_FIRST. -/
def PHASE.OOS_FIRST : Fld := ⟨0x980, 17, 0, 0⟩
/-- PHASE.OOS_COUNT. -/
def PHASE.OOS_COUNT : Fld := ⟨0x984, 18, 0, 0⟩
/-- PHASE.OOS_CMD. -/
def PHASE.OOS_CMD : Fld := ⟨0x988, 31, 0, 0⟩

/-- The configuration fields of a PHASE page. -/
def phaseCfg : List Fld :=
  [PHASE.COMBINE.COH_MIN, PHASE.COMBINE.QUAL_MASK, PHASE.COMBINE.AMP_MIN, 
  PHASE.TRACK.TRACK_SHIFT, PHASE.TRACK.PREDICT, PHASE.TRACK.HOLE_MAX, 
  PHASE.BRANCHES.BRANCH_EN, PHASE.SETTLE.SETTLE_ROUNDS]

/-- The read-only live and window fields of a PHASE page. -/
def phaseRo : List Fld :=
  [PHASE.FADED_LAST, PHASE.SETTLING_LAST, PHASE.OOS_POINTS, PHASE.EPOCH, 
  PHASE.FADED_TOTAL_LO, PHASE.FADED_TOTAL_HI, PHASE.REANCHOR_TOTAL, 
  PHASE.REFUSE, PHASE.PROBE_SEQ, PHASE.PROBE_PHI, PHASE.PROBE_D, 
  PHASE.PROBE_BR, PHASE.PROBE_COH] ++
  (List.range 16).map PHASE.PROBE_REF

/-- The read-write live and window fields of a PHASE page. -/
def phaseRw : List Fld :=
  [PHASE.PROBE_POINT, PHASE.OOS_FIRST, PHASE.OOS_COUNT]

/-- The command fields of a PHASE page. -/
def phaseWc : List Fld :=
  [PHASE.OOS_CMD]

-- GAUGE fields (R165)

/-- GAUGE.FIRST. -/
def GAUGE.FIRST : Fld := ⟨0x100, 18, 0, 15⟩
/-- GAUGE.SPACING. -/
def GAUGE.SPACING : Fld := ⟨0x104, 6, 0, 2⟩
/-- GAUGE.COUNT. -/
def GAUGE.COUNT : Fld := ⟨0x108, 18, 0, 0⟩
/-- GAUGE.GAUGE_LEN. -/
def GAUGE.GAUGE_LEN : Fld := ⟨0x10C, 8, 0, 31⟩
/-- GAUGE.WAVELENGTH. -/
def GAUGE.WAVELENGTH : Fld := ⟨0x110, 20, 0, 0x17A728⟩
/-- GAUGE.XI. -/
def GAUGE.XI : Fld := ⟨0x114, 16, 0, 0xC7AE⟩
/-- GAUGE.PHASE_INDEX. -/
def GAUGE.PHASE_INDEX : Fld := ⟨0x118, 17, 0, 0x171AA⟩
/-- GAUGE.SCALE.E. -/
def GAUGE.SCALE.E : Fld := ⟨0x11C, 3, 0, 8⟩
/-- GAUGE.GK_LO. -/
def GAUGE.GK_LO : Fld := ⟨0x900, 31, 0, 0⟩
/-- GAUGE.GK_HI. -/
def GAUGE.GK_HI : Fld := ⟨0x904, 31, 0, 0⟩
/-- GAUGE.CENTRE0. -/
def GAUGE.CENTRE0 : Fld := ⟨0x908, 19, 0, 0⟩
/-- GAUGE.CENTRE_LAST. -/
def GAUGE.CENTRE_LAST : Fld := ⟨0x90C, 19, 0, 0⟩
/-- GAUGE.CLIP_LAST. -/
def GAUGE.CLIP_LAST : Fld := ⟨0x910, 18, 0, 0⟩
/-- GAUGE.REFUSE. -/
def GAUGE.REFUSE : Fld := ⟨0x914, 7, 0, 0⟩
/-- GAUGE.CAPACITY. -/
def GAUGE.CAPACITY : Fld := ⟨0x918, 18, 0, 0⟩

/-- The configuration fields of a GAUGE page. -/
def gaugeCfg : List Fld :=
  [GAUGE.FIRST, GAUGE.SPACING, GAUGE.COUNT, GAUGE.GAUGE_LEN, GAUGE.WAVELENGTH, 
  GAUGE.XI, GAUGE.PHASE_INDEX, GAUGE.SCALE.E]

/-- The read-only live and window fields of a GAUGE page. -/
def gaugeRo : List Fld :=
  [GAUGE.GK_LO, GAUGE.GK_HI, GAUGE.CENTRE0, GAUGE.CENTRE_LAST, GAUGE.CLIP_LAST, 
  GAUGE.REFUSE, GAUGE.CAPACITY]

-- PFILT fields (R193)

/-- PFILT.INPUT.MODE. -/
def PFILT.INPUT.MODE : Fld := ⟨0x100, 0, 0, 0⟩
/-- PFILT.DECIM.TYPE. -/
def PFILT.DECIM.TYPE : Fld := ⟨0x104, 31, 30, 0⟩
/-- PFILT.DECIM.ORDER. -/
def PFILT.DECIM.ORDER : Fld := ⟨0x104, 29, 28, 1⟩
/-- PFILT.DECIM.LP_SHIFT. -/
def PFILT.DECIM.LP_SHIFT : Fld := ⟨0x104, 27, 24, 4⟩
/-- PFILT.DECIM.D. -/
def PFILT.DECIM.D : Fld := ⟨0x104, 12, 0, 1⟩
/-- PFILT.HIGHPASS.HP_SHIFT. -/
def PFILT.HIGHPASS.HP_SHIFT : Fld := ⟨0x108, 4, 0, 0⟩
/-- PFILT.FILL.FILL_MAX. -/
def PFILT.FILL.FILL_MAX : Fld := ⟨0x10C, 7, 0, 8⟩
/-- PFILT.FREEZE.TRIG_FRAMES. -/
def PFILT.FREEZE.TRIG_FRAMES : Fld := ⟨0x110, 31, 16, 16⟩
/-- PFILT.FREEZE.FREEZE_LAG. -/
def PFILT.FREEZE.FREEZE_LAG : Fld := ⟨0x110, 7, 0, 0⟩
/-- PFILT.OUT.OUT_SHARE. -/
def PFILT.OUT.OUT_SHARE : Fld := ⟨0x114, 9, 0, 307⟩
/-- PFILT.FRAME_SEQ. -/
def PFILT.FRAME_SEQ : Fld := ⟨0x900, 31, 0, 0⟩
/-- PFILT.SETTLE_IN. -/
def PFILT.SETTLE_IN : Fld := ⟨0x904, 15, 0, 0⟩
/-- PFILT.DELAY. -/
def PFILT.DELAY : Fld := ⟨0x908, 15, 0, 0⟩
/-- PFILT.LAG_EFF. -/
def PFILT.LAG_EFF : Fld := ⟨0x90C, 7, 0, 0⟩
/-- PFILT.FRAME_BYTES. -/
def PFILT.FRAME_BYTES : Fld := ⟨0x910, 19, 0, 0⟩
/-- PFILT.CREDIT. -/
def PFILT.CREDIT : Fld := ⟨0x914, 27, 0, 0⟩
/-- PFILT.INVALID_LAST. -/
def PFILT.INVALID_LAST : Fld := ⟨0x918, 18, 0, 0⟩
/-- PFILT.REFUSE. -/
def PFILT.REFUSE : Fld := ⟨0x91C, 7, 0, 0⟩
/-- PFILT.HFRZ_FIRST. -/
def PFILT.HFRZ_FIRST : Fld := ⟨0x980, 17, 0, 0⟩
/-- PFILT.HFRZ_COUNT. -/
def PFILT.HFRZ_COUNT : Fld := ⟨0x984, 18, 0, 0⟩
/-- PFILT.HFRZ_FRAMES. -/
def PFILT.HFRZ_FRAMES : Fld := ⟨0x988, 15, 0, 0⟩
/-- PFILT.HFRZ_CMD. -/
def PFILT.HFRZ_CMD : Fld := ⟨0x98C, 31, 0, 0⟩
/-- PFILT.HSLOT. -/
def PFILT.HSLOT (i : Nat) : Fld := ⟨0x990+4*i, 31, 0, 0⟩
/-- PFILT.TSLOT. -/
def PFILT.TSLOT (i : Nat) : Fld := ⟨0xC00+4*i, 31, 0, 0⟩

/-- The configuration fields of a PFILT page. -/
def pfiltCfg : List Fld :=
  [PFILT.INPUT.MODE, PFILT.DECIM.TYPE, PFILT.DECIM.ORDER, PFILT.DECIM.LP_SHIFT, 
  PFILT.DECIM.D, PFILT.HIGHPASS.HP_SHIFT, PFILT.FILL.FILL_MAX, PFILT.FREEZE.TRIG_FRAMES, 
  PFILT.FREEZE.FREEZE_LAG, PFILT.OUT.OUT_SHARE]

/-- The read-only live and window fields of a PFILT page. -/
def pfiltRo : List Fld :=
  [PFILT.FRAME_SEQ, PFILT.SETTLE_IN, PFILT.DELAY, PFILT.LAG_EFF, 
  PFILT.FRAME_BYTES, PFILT.CREDIT, PFILT.INVALID_LAST, PFILT.REFUSE] ++
  (List.range 16).map PFILT.HSLOT ++
  (List.range 256).map PFILT.TSLOT

/-- The read-write live and window fields of a PFILT page. -/
def pfiltRw : List Fld :=
  [PFILT.HFRZ_FIRST, PFILT.HFRZ_COUNT, PFILT.HFRZ_FRAMES]

/-- The command fields of a PFILT page. -/
def pfiltWc : List Fld :=
  [PFILT.HFRZ_CMD]

-- ZONE fields (R225)

/-- ZONE.BANDS.KA. -/
def ZONE.BANDS.KA : Fld := ⟨0x100, 11, 8, 2⟩
/-- ZONE.BANDS.KB. -/
def ZONE.BANDS.KB : Fld := ⟨0x100, 3, 0, 5⟩
/-- ZONE.OUT.EN. -/
def ZONE.OUT.EN : Fld := ⟨0x104, 31, 31, 0⟩
/-- ZONE.OUT.STREAM. -/
def ZONE.OUT.STREAM : Fld := ⟨0x104, 15, 0, 0⟩
/-- ZONE.BAND_AGE. -/
def ZONE.BAND_AGE : Fld := ⟨0x900, 15, 0, 0⟩
/-- ZONE.ZONES. -/
def ZONE.ZONES : Fld := ⟨0x904, 12, 0, 0⟩
/-- ZONE.REFUSE. -/
def ZONE.REFUSE : Fld := ⟨0x908, 7, 0, 0⟩
/-- ZONE.PROBE_ZONE. -/
def ZONE.PROBE_ZONE : Fld := ⟨0x90C, 11, 0, 0⟩
/-- ZONE.PROBE_REC. -/
def ZONE.PROBE_REC (i : Nat) : Fld := ⟨0x910+4*i, 31, 0, 0⟩
/-- ZONE.W0.EN. -/
def ZONE.W0.EN (z : Nat) : Fld := ⟨0+32*z, 31, 31, 0⟩
/-- ZONE.W0.LINE. -/
def ZONE.W0.LINE (z : Nat) : Fld := ⟨0+32*z, 30, 30, 0⟩
/-- ZONE.W0.FIRST. -/
def ZONE.W0.FIRST (z : Nat) : Fld := ⟨0+32*z, 17, 0, 0⟩
/-- ZONE.W1.COUNT. -/
def ZONE.W1.COUNT (z : Nat) : Fld := ⟨4+32*z, 18, 0, 1⟩
/-- ZONE.W2.MIN_VALID. -/
def ZONE.W2.MIN_VALID (z : Nat) : Fld := ⟨8+32*z, 18, 0, 1⟩
/-- ZONE.W3.REPORT. -/
def ZONE.W3.REPORT (z : Nat) : Fld := ⟨12+32*z, 0, 0, 0⟩

/-- The configuration fields of a ZONE page. -/
def zoneCfg : List Fld :=
  [ZONE.BANDS.KA, ZONE.BANDS.KB, ZONE.OUT.EN, ZONE.OUT.STREAM]

/-- The read-only live and window fields of a ZONE page. -/
def zoneRo : List Fld :=
  [ZONE.BAND_AGE, ZONE.ZONES, ZONE.REFUSE] ++
  (List.range 10).map ZONE.PROBE_REC

/-- The read-write live and window fields of a ZONE page. -/
def zoneRw : List Fld :=
  [ZONE.PROBE_ZONE]

-- TRIG fields (R225)

/-- TRIG.EVENTS.EVENT_EN. -/
def TRIG.EVENTS.EVENT_EN : Fld := ⟨0x100, 31, 31, 0⟩
/-- TRIG.EVENTS.EVENT_STREAM. -/
def TRIG.EVENTS.EVENT_STREAM : Fld := ⟨0x100, 15, 0, 0⟩
/-- TRIG.ALARM_CFG.EN. -/
def TRIG.ALARM_CFG.EN (k : Nat) : Fld := ⟨0x110+4*k, 31, 31, 0⟩
/-- TRIG.ALARM_CFG.POLARITY. -/
def TRIG.ALARM_CFG.POLARITY (k : Nat) : Fld := ⟨0x110+4*k, 30, 30, 0⟩
/-- TRIG.ALARM_CFG.MODE. -/
def TRIG.ALARM_CFG.MODE (k : Nat) : Fld := ⟨0x110+4*k, 25, 24, 0⟩
/-- TRIG.ALARM_CFG.WIDTH. -/
def TRIG.ALARM_CFG.WIDTH (k : Nat) : Fld := ⟨0x110+4*k, 23, 0, 62500⟩
/-- TRIG.ACTIVE_LO. -/
def TRIG.ACTIVE_LO : Fld := ⟨0x900, 31, 0, 0⟩
/-- TRIG.ACTIVE_HI. -/
def TRIG.ACTIVE_HI : Fld := ⟨0x904, 31, 0, 0⟩
/-- TRIG.TRIG_SEQ. -/
def TRIG.TRIG_SEQ : Fld := ⟨0x908, 31, 0, 0⟩
/-- TRIG.LAST_FRAME. -/
def TRIG.LAST_FRAME : Fld := ⟨0x90C, 31, 0, 0⟩
/-- TRIG.ALARM_STATE. -/
def TRIG.ALARM_STATE : Fld := ⟨0x910, 3, 0, 0⟩
/-- TRIG.REFUSE.CONDITION. -/
def TRIG.REFUSE.CONDITION : Fld := ⟨0x914, 15, 8, 0⟩
/-- TRIG.REFUSE.CODE. -/
def TRIG.REFUSE.CODE : Fld := ⟨0x914, 7, 0, 0⟩
/-- TRIG.ALARM_CLEAR. -/
def TRIG.ALARM_CLEAR : Fld := ⟨0x980, 31, 0, 0⟩
/-- TRIG.W0.EN. -/
def TRIG.W0.EN (c : Nat) : Fld := ⟨0+32*c, 31, 31, 0⟩
/-- TRIG.W0.RELEASE_EVENT. -/
def TRIG.W0.RELEASE_EVENT (c : Nat) : Fld := ⟨0+32*c, 30, 30, 0⟩
/-- TRIG.W0.COMPARE. -/
def TRIG.W0.COMPARE (c : Nat) : Fld := ⟨0+32*c, 29, 28, 0⟩
/-- TRIG.W0.SOURCE. -/
def TRIG.W0.SOURCE (c : Nat) : Fld := ⟨0+32*c, 27, 24, 0⟩
/-- TRIG.W0.LINE. -/
def TRIG.W0.LINE (c : Nat) : Fld := ⟨0+32*c, 23, 23, 0⟩
/-- TRIG.W0.ZONE. -/
def TRIG.W0.ZONE (c : Nat) : Fld := ⟨0+32*c, 11, 0, 0⟩
/-- TRIG.W1.THRESH_ON. -/
def TRIG.W1.THRESH_ON (c : Nat) : Fld := ⟨4+32*c, 31, 0, 0⟩
/-- TRIG.W2.THRESH_OFF. -/
def TRIG.W2.THRESH_OFF (c : Nat) : Fld := ⟨8+32*c, 31, 0, 0⟩
/-- TRIG.W3.ON_FRAMES. -/
def TRIG.W3.ON_FRAMES (c : Nat) : Fld := ⟨12+32*c, 31, 16, 1⟩
/-- TRIG.W3.OFF_FRAMES. -/
def TRIG.W3.OFF_FRAMES (c : Nat) : Fld := ⟨12+32*c, 15, 0, 1⟩
/-- TRIG.W4.ALARM. -/
def TRIG.W4.ALARM (c : Nat) : Fld := ⟨16+32*c, 31, 28, 0⟩
/-- TRIG.W4.EVENT. -/
def TRIG.W4.EVENT (c : Nat) : Fld := ⟨16+32*c, 27, 27, 0⟩
/-- TRIG.W4.FREEZE. -/
def TRIG.W4.FREEZE (c : Nat) : Fld := ⟨16+32*c, 26, 26, 0⟩
/-- TRIG.W4.CAPTURE. -/
def TRIG.W4.CAPTURE (c : Nat) : Fld := ⟨16+32*c, 25, 24, 0⟩
/-- TRIG.W4.CLASS. -/
def TRIG.W4.CLASS (c : Nat) : Fld := ⟨16+32*c, 23, 22, 0⟩
/-- TRIG.W4.SCOPE. -/
def TRIG.W4.SCOPE (c : Nat) : Fld := ⟨16+32*c, 21, 21, 0⟩
/-- TRIG.W4.MARGIN. -/
def TRIG.W4.MARGIN (c : Nat) : Fld := ⟨16+32*c, 15, 0, 0⟩
/-- TRIG.W5.PRE. -/
def TRIG.W5.PRE (c : Nat) : Fld := ⟨20+32*c, 31, 16, 0⟩
/-- TRIG.W5.POST. -/
def TRIG.W5.POST (c : Nat) : Fld := ⟨20+32*c, 15, 0, 0⟩
/-- TRIG.W6.MASK_LO. -/
def TRIG.W6.MASK_LO (c : Nat) : Fld := ⟨24+32*c, 31, 0, 0⟩
/-- TRIG.W7.MASK_HI. -/
def TRIG.W7.MASK_HI (c : Nat) : Fld := ⟨28+32*c, 31, 0, 0⟩

/-- The configuration fields of a TRIG page. -/
def trigCfg : List Fld :=
  [TRIG.EVENTS.EVENT_EN, TRIG.EVENTS.EVENT_STREAM] ++
  (List.range 4).map TRIG.ALARM_CFG.EN ++
  (List.range 4).map TRIG.ALARM_CFG.POLARITY ++
  (List.range 4).map TRIG.ALARM_CFG.MODE ++
  (List.range 4).map TRIG.ALARM_CFG.WIDTH

/-- The read-only live and window fields of a TRIG page. -/
def trigRo : List Fld :=
  [TRIG.ACTIVE_LO, TRIG.ACTIVE_HI, TRIG.TRIG_SEQ, TRIG.LAST_FRAME, 
  TRIG.ALARM_STATE, TRIG.REFUSE.CONDITION, TRIG.REFUSE.CODE]

/-- The command fields of a TRIG page. -/
def trigWc : List Fld :=
  [TRIG.ALARM_CLEAR]

-- CAPT fields (R225)

/-- CAPT.RING_BASE. -/
def CAPT.RING_BASE : Fld := ⟨0x100, 15, 0, 0⟩
/-- CAPT.RING_SIZE. -/
def CAPT.RING_SIZE : Fld := ⟨0x104, 15, 0, 0⟩
/-- CAPT.CLASS.DESC_COUNT. -/
def CAPT.CLASS.DESC_COUNT (k : Nat) : Fld := ⟨0x110+4*k, 31, 16, 0⟩
/-- CAPT.CLASS.DESC_FIRST. -/
def CAPT.CLASS.DESC_FIRST (k : Nat) : Fld := ⟨0x110+4*k, 15, 0, 0⟩
/-- CAPT.SLOTS. -/
def CAPT.SLOTS : Fld := ⟨0x900, 23, 0, 0⟩
/-- CAPT.SLOT_BYTES. -/
def CAPT.SLOT_BYTES : Fld := ⟨0x904, 19, 0, 0⟩
/-- CAPT.RING_SEQ0. -/
def CAPT.RING_SEQ0 : Fld := ⟨0x908, 31, 0, 0⟩
/-- CAPT.OLDEST. -/
def CAPT.OLDEST : Fld := ⟨0x90C, 31, 0, 0⟩
/-- CAPT.CURSOR. -/
def CAPT.CURSOR (k : Nat) : Fld := ⟨0x910+4*k, 15, 0, 0⟩
/-- CAPT.OPEN. -/
def CAPT.OPEN : Fld := ⟨0x920, 3, 0, 0⟩
/-- CAPT.REFUSE. -/
def CAPT.REFUSE : Fld := ⟨0x924, 7, 0, 0⟩
/-- CAPT.W0.STATE. -/
def CAPT.W0.STATE (n : Nat) : Fld := ⟨0+32*n, 31, 30, 0⟩
/-- CAPT.W0.STREAM_EN. -/
def CAPT.W0.STREAM_EN (n : Nat) : Fld := ⟨0+32*n, 29, 29, 0⟩
/-- CAPT.W0.STREAM. -/
def CAPT.W0.STREAM (n : Nat) : Fld := ⟨0+32*n, 15, 0, 0⟩
/-- CAPT.W1.ADDR. -/
def CAPT.W1.ADDR (n : Nat) : Fld := ⟨4+32*n, 29, 0, 0⟩
/-- CAPT.W2.ALLOC. -/
def CAPT.W2.ALLOC (n : Nat) : Fld := ⟨8+32*n, 29, 0, 0⟩
/-- CAPT.W3.FLAGS. -/
def CAPT.W3.FLAGS (n : Nat) : Fld := ⟨12+32*n, 15, 0, 0⟩
/-- CAPT.W4.TRIG_SEQ. -/
def CAPT.W4.TRIG_SEQ (n : Nat) : Fld := ⟨16+32*n, 31, 0, 0⟩
/-- CAPT.W5.FIRST_FRAME. -/
def CAPT.W5.FIRST_FRAME (n : Nat) : Fld := ⟨20+32*n, 31, 0, 0⟩
/-- CAPT.W6.STORED. -/
def CAPT.W6.STORED (n : Nat) : Fld := ⟨24+32*n, 31, 0, 0⟩
/-- CAPT.W7.LOST. -/
def CAPT.W7.LOST (n : Nat) : Fld := ⟨28+32*n, 31, 0, 0⟩

/-- The configuration fields of a CAPT page. -/
def captCfg : List Fld :=
  [CAPT.RING_BASE, CAPT.RING_SIZE] ++
  (List.range 4).map CAPT.CLASS.DESC_COUNT ++
  (List.range 4).map CAPT.CLASS.DESC_FIRST

/-- The read-only live and window fields of a CAPT page. -/
def captRo : List Fld :=
  [CAPT.SLOTS, CAPT.SLOT_BYTES, CAPT.RING_SEQ0, CAPT.OLDEST] ++
  (List.range 4).map CAPT.CURSOR ++
  [CAPT.OPEN, CAPT.REFUSE]

-- RAMAN fields (R259)

/-- RAMAN.PROFILE.DOUBLE. -/
def RAMAN.PROFILE.DOUBLE : Fld := ⟨0x100, 31, 31, 0⟩
/-- RAMAN.PROFILE.SINGLE. -/
def RAMAN.PROFILE.SINGLE : Fld := ⟨0x100, 30, 30, 0⟩
/-- RAMAN.PROFILE.NSHOTS. -/
def RAMAN.PROFILE.NSHOTS : Fld := ⟨0x100, 20, 0, 65536⟩
/-- RAMAN.RZERO. -/
def RAMAN.RZERO : Fld := ⟨0x104, 13, 0, 0⟩
/-- RAMAN.RLEN. -/
def RAMAN.RLEN : Fld := ⟨0x108, 18, 0, 0⟩
/-- RAMAN.DARK_LEN. -/
def RAMAN.DARK_LEN : Fld := ⟨0x10C, 10, 0, 256⟩
/-- RAMAN.REF_FIRST. -/
def RAMAN.REF_FIRST : Fld := ⟨0x110, 18, 0, 0⟩
/-- RAMAN.REF_COUNT. -/
def RAMAN.REF_COUNT : Fld := ⟨0x114, 15, 0, 1024⟩
/-- RAMAN.REF.REF_AGE_MAX. -/
def RAMAN.REF.REF_AGE_MAX : Fld := ⟨0x118, 31, 16, 600⟩
/-- RAMAN.REF.REF_CH. -/
def RAMAN.REF.REF_CH : Fld := ⟨0x118, 1, 0, 0⟩
/-- RAMAN.GAMMA. -/
def RAMAN.GAMMA : Fld := ⟨0x11C, 23, 0, 2592768⟩
/-- RAMAN.DALPHA. -/
def RAMAN.DALPHA : Fld := ⟨0x120, 31, 0, 0⟩
/-- RAMAN.OUT_FIRST. -/
def RAMAN.OUT_FIRST : Fld := ⟨0x124, 18, 0, 0⟩
/-- RAMAN.OUT_COUNT. -/
def RAMAN.OUT_COUNT : Fld := ⟨0x128, 18, 0, 0⟩
/-- RAMAN.STEP. -/
def RAMAN.STEP : Fld := ⟨0x12C, 6, 0, 4⟩
/-- RAMAN.SUM. -/
def RAMAN.SUM : Fld := ⟨0x130, 18, 0, 0⟩
/-- RAMAN.FWD_DELAY. -/
def RAMAN.FWD_DELAY : Fld := ⟨0x134, 23, 0, 0⟩
/-- RAMAN.OUT.STREAM_EN. -/
def RAMAN.OUT.STREAM_EN : Fld := ⟨0x13C, 31, 31, 0⟩
/-- RAMAN.OUT.STREAM. -/
def RAMAN.OUT.STREAM : Fld := ⟨0x13C, 15, 0, 0⟩
/-- RAMAN.WORK_BASE. -/
def RAMAN.WORK_BASE : Fld := ⟨0x140, 15, 0, 0⟩
/-- RAMAN.ALM.ALM_EN. -/
def RAMAN.ALM.ALM_EN (k : Nat) : Fld := ⟨0x180+0x10*k, 31, 31, 0⟩
/-- RAMAN.ALM.ALM_FIRST. -/
def RAMAN.ALM.ALM_FIRST (k : Nat) : Fld := ⟨0x180+0x10*k, 18, 0, 0⟩
/-- RAMAN.ALM.ALM_COUNT. -/
def RAMAN.ALM.ALM_COUNT (k : Nat) : Fld := ⟨0x184+0x10*k, 18, 0, 0⟩
/-- RAMAN.ALM.HIGH. -/
def RAMAN.ALM.HIGH (k : Nat) : Fld := ⟨0x188+0x10*k, 31, 16, 0x7FFF⟩
/-- RAMAN.ALM.LOW. -/
def RAMAN.ALM.LOW (k : Nat) : Fld := ⟨0x188+0x10*k, 15, 0, 0x8001⟩
/-- RAMAN.PROF_SEQ. -/
def RAMAN.PROF_SEQ : Fld := ⟨0x900, 31, 0, 0⟩
/-- RAMAN.SHOTS. -/
def RAMAN.SHOTS : Fld := ⟨0x904, 20, 0, 0⟩
/-- RAMAN.SKIP_LOST. -/
def RAMAN.SKIP_LOST : Fld := ⟨0x908, 31, 0, 0⟩
/-- RAMAN.SKIP_PROBE. -/
def RAMAN.SKIP_PROBE : Fld := ⟨0x90C, 31, 0, 0⟩
/-- RAMAN.SKIP_FORWARD. -/
def RAMAN.SKIP_FORWARD : Fld := ⟨0x910, 31, 0, 0⟩
/-- RAMAN.SKIP_INPUT. -/
def RAMAN.SKIP_INPUT : Fld := ⟨0x914, 31, 0, 0⟩
/-- RAMAN.OVR_FIRST. -/
def RAMAN.OVR_FIRST : Fld := ⟨0x918, 18, 0, 0x7FFFF⟩
/-- RAMAN.OVR_LAST. -/
def RAMAN.OVR_LAST : Fld := ⟨0x91C, 18, 0, 0x7FFFF⟩
/-- RAMAN.T_REF_USED. -/
def RAMAN.T_REF_USED : Fld := ⟨0x920, 31, 0, 0⟩
/-- RAMAN.DALPHA_MEAS. -/
def RAMAN.DALPHA_MEAS : Fld := ⟨0x924, 31, 0, 0⟩
/-- RAMAN.REF_CHECK. -/
def RAMAN.REF_CHECK : Fld := ⟨0x928, 31, 0, 0⟩
/-- RAMAN.REFUSE. -/
def RAMAN.REFUSE : Fld := ⟨0x92C, 7, 0, 0⟩

/-- The configuration fields of a RAMAN page. -/
def ramanCfg : List Fld :=
  [RAMAN.PROFILE.DOUBLE, RAMAN.PROFILE.SINGLE, RAMAN.PROFILE.NSHOTS, 
  RAMAN.RZERO, RAMAN.RLEN, RAMAN.DARK_LEN, RAMAN.REF_FIRST, RAMAN.REF_COUNT, 
  RAMAN.REF.REF_AGE_MAX, RAMAN.REF.REF_CH, RAMAN.GAMMA, RAMAN.DALPHA, 
  RAMAN.OUT_FIRST, RAMAN.OUT_COUNT, RAMAN.STEP, RAMAN.SUM, RAMAN.FWD_DELAY, 
  RAMAN.OUT.STREAM_EN, RAMAN.OUT.STREAM, RAMAN.WORK_BASE] ++
  (List.range 16).map RAMAN.ALM.ALM_EN ++
  (List.range 16).map RAMAN.ALM.ALM_FIRST ++
  (List.range 16).map RAMAN.ALM.ALM_COUNT ++
  (List.range 16).map RAMAN.ALM.HIGH ++
  (List.range 16).map RAMAN.ALM.LOW

/-- The read-only live and window fields of a RAMAN page. -/
def ramanRo : List Fld :=
  [RAMAN.PROF_SEQ, RAMAN.SHOTS, RAMAN.SKIP_LOST, RAMAN.SKIP_PROBE, 
  RAMAN.SKIP_FORWARD, RAMAN.SKIP_INPUT, RAMAN.OVR_FIRST, RAMAN.OVR_LAST, 
  RAMAN.T_REF_USED, RAMAN.DALPHA_MEAS, RAMAN.REF_CHECK, RAMAN.REFUSE]

-- REEL fields (R417)

/-- REEL.REGION_BASE. -/
def REEL.REGION_BASE : Fld := ⟨0x100, 15, 0, 0⟩
/-- REEL.REGION_SIZE. -/
def REEL.REGION_SIZE : Fld := ⟨0x104, 15, 0, 0⟩
/-- REEL.WINDOW.REC_EN. -/
def REEL.WINDOW.REC_EN : Fld := ⟨0x110, 31, 31, 0⟩
/-- REEL.WINDOW.WIN_FIRST. -/
def REEL.WINDOW.WIN_FIRST : Fld := ⟨0x110, 18, 0, 0⟩
/-- REEL.WIN_BINS. -/
def REEL.WIN_BINS : Fld := ⟨0x114, 13, 0, 12243⟩
/-- REEL.STATE. -/
def REEL.STATE : Fld := ⟨0x900, 2, 0, 0⟩
/-- REEL.SHOTS. -/
def REEL.SHOTS : Fld := ⟨0x904, 31, 0, 0⟩
/-- REEL.END_CAUSE. -/
def REEL.END_CAUSE : Fld := ⟨0x908, 7, 0, 0⟩
/-- REEL.USED. -/
def REEL.USED : Fld := ⟨0x90C, 15, 0, 0⟩
/-- REEL.WIN_START. -/
def REEL.WIN_START : Fld := ⟨0x910, 31, 0, 0⟩
/-- REEL.WIN_CYCLES. -/
def REEL.WIN_CYCLES : Fld := ⟨0x914, 17, 0, 0⟩
/-- REEL.REFUSE. -/
def REEL.REFUSE : Fld := ⟨0x918, 7, 0, 0⟩

/-- The configuration fields of a REEL page. -/
def reelCfg : List Fld :=
  [REEL.REGION_BASE, REEL.REGION_SIZE, REEL.WINDOW.REC_EN, REEL.WINDOW.WIN_FIRST, REEL.WIN_BINS]

/-- The read-only live and window fields of a REEL page. -/
def reelRo : List Fld :=
  [REEL.STATE, REEL.SHOTS, REEL.END_CAUSE, REEL.USED, REEL.WIN_START, 
  REEL.WIN_CYCLES, REEL.REFUSE]

-- DDR fields (R311)

/-- DDR.CONFIG.SPEED. -/
def DDR.CONFIG.SPEED : Fld := ⟨0x100, 18, 16, 4⟩
/-- DDR.CONFIG.DENSITY. -/
def DDR.CONFIG.DENSITY : Fld := ⟨0x100, 12, 12, 1⟩
/-- DDR.CONFIG.RANK_FIT. -/
def DDR.CONFIG.RANK_FIT : Fld := ⟨0x100, 9, 8, 0⟩
/-- DDR.CONFIG.SPARE. -/
def DDR.CONFIG.SPARE : Fld := ⟨0x100, 5, 4, 0⟩
/-- DDR.SR_IDLE. -/
def DDR.SR_IDLE : Fld := ⟨0x104, 23, 0, 0⟩
/-- DDR.TIMING.ADD_WR. -/
def DDR.TIMING.ADD_WR : Fld := ⟨0x108, 7, 4, 0⟩
/-- DDR.TIMING.ADD_RD. -/
def DDR.TIMING.ADD_RD : Fld := ⟨0x108, 3, 0, 0⟩
/-- DDR.RANK_STATE.RANK. -/
def DDR.RANK_STATE.RANK (k : Nat) : Fld := ⟨0x900, 4*k+2, 4*k, 0⟩
/-- DDR.DRAM_TEMP.RANK. -/
def DDR.DRAM_TEMP.RANK (k : Nat) : Fld := ⟨0x904, 8*k+2, 8*k, 0⟩
/-- DDR.REF_OWED.RANK. -/
def DDR.REF_OWED.RANK (k : Nat) : Fld := ⟨0x908, 8*k+3, 8*k, 0⟩
/-- DDR.TRAIN.EYE. -/
def DDR.TRAIN.EYE : Fld := ⟨0x90C, 31, 16, 0⟩
/-- DDR.TRAIN.TRAINED. -/
def DDR.TRAIN.TRAINED : Fld := ⟨0x90C, 0, 0, 0⟩
/-- DDR.REFUSE. -/
def DDR.REFUSE : Fld := ⟨0x910, 7, 0, 0⟩

/-- The configuration fields of a DDR page. -/
def ddrCfg : List Fld :=
  [DDR.CONFIG.SPEED, DDR.CONFIG.DENSITY, DDR.CONFIG.RANK_FIT, DDR.CONFIG.SPARE, 
  DDR.SR_IDLE, DDR.TIMING.ADD_WR, DDR.TIMING.ADD_RD]

/-- The read-only live and window fields of a DDR page. -/
def ddrRo : List Fld :=
  (List.range 2).map DDR.RANK_STATE.RANK ++
  (List.range 2).map DDR.DRAM_TEMP.RANK ++
  (List.range 2).map DDR.REF_OWED.RANK ++
  [DDR.TRAIN.EYE, DDR.TRAIN.TRAINED, DDR.REFUSE]

-- MEMX fields (R311)

/-- MEMX.SCRUB.SCRUB_EN. -/
def MEMX.SCRUB.SCRUB_EN : Fld := ⟨0x100, 31, 31, 1⟩
/-- MEMX.SCRUB.SCRUB_INTERVAL. -/
def MEMX.SCRUB.SCRUB_INTERVAL : Fld := ⟨0x100, 23, 0, 1250⟩
/-- MEMX.MIGRATION.AUTO. -/
def MEMX.MIGRATION.AUTO : Fld := ⟨0x104, 31, 31, 1⟩
/-- MEMX.MIGRATION.MIG_INTERVAL. -/
def MEMX.MIGRATION.MIG_INTERVAL : Fld := ⟨0x104, 15, 0, 8⟩
/-- MEMX.FAILING.UE_FAIL. -/
def MEMX.FAILING.UE_FAIL : Fld := ⟨0x108, 16, 16, 1⟩
/-- MEMX.FAILING.CE_LIMIT. -/
def MEMX.FAILING.CE_LIMIT : Fld := ⟨0x108, 15, 0, 64⟩
/-- MEMX.TARGET. -/
def MEMX.TARGET (k : Nat) : Fld := ⟨0x120+4*k, 15, 0, (memTarget k)⟩
/-- MEMX.ERR_ADDR_LO. -/
def MEMX.ERR_ADDR_LO : Fld := ⟨0x900, 31, 0, 0⟩
/-- MEMX.ERR_ADDR_HI. -/
def MEMX.ERR_ADDR_HI : Fld := ⟨0x904, 31, 0, 0⟩
/-- MEMX.ERR_INFO.RANK. -/
def MEMX.ERR_INFO.RANK : Fld := ⟨0x908, 10, 8, 0⟩
/-- MEMX.ERR_INFO.DEVICE. -/
def MEMX.ERR_INFO.DEVICE : Fld := ⟨0x908, 6, 4, 0⟩
/-- MEMX.ERR_INFO.KIND. -/
def MEMX.ERR_INFO.KIND : Fld := ⟨0x908, 1, 0, 0⟩
/-- MEMX.SCRUB_PASS. -/
def MEMX.SCRUB_PASS (s : Nat) : Fld := ⟨0x910+4*s, 31, 0, 0⟩
/-- MEMX.MIG_STATE.TARGET. -/
def MEMX.MIG_STATE.TARGET : Fld := ⟨0x920, 10, 8, 0⟩
/-- MEMX.MIG_STATE.SOURCE. -/
def MEMX.MIG_STATE.SOURCE : Fld := ⟨0x920, 6, 4, 0⟩
/-- MEMX.MIG_STATE.RUNNING. -/
def MEMX.MIG_STATE.RUNNING : Fld := ⟨0x920, 0, 0, 0⟩
/-- MEMX.MIG_PTR. -/
def MEMX.MIG_PTR : Fld := ⟨0x924, 26, 0, 0⟩
/-- MEMX.MAP.SLOT. -/
def MEMX.MAP.SLOT (j : Nat) : Fld := ⟨0x928, 4*j+3, 4*j, 0xF⟩
/-- MEMX.CAPACITY. -/
def MEMX.CAPACITY : Fld := ⟨0x92C, 16, 0, 0⟩
/-- MEMX.FILL_LEFT. -/
def MEMX.FILL_LEFT : Fld := ⟨0x930, 16, 0, 0⟩
/-- MEMX.CMD_RESULT. -/
def MEMX.CMD_RESULT : Fld := ⟨0x934, 7, 0, 0⟩
/-- MEMX.INIT_QUERY.REGION. -/
def MEMX.INIT_QUERY.REGION : Fld := ⟨0x938, 15, 0, 0⟩
/-- MEMX.INIT_QUERY.INIT. -/
def MEMX.INIT_QUERY.INIT : Fld := ⟨0x938, 31, 31, 0⟩
/-- MEMX.INIT_QUERY.TRACKING. -/
def MEMX.INIT_QUERY.TRACKING : Fld := ⟨0x938, 30, 30, 0⟩
/-- MEMX.FILL_FIRST. -/
def MEMX.FILL_FIRST : Fld := ⟨0x980, 15, 0, 0⟩
/-- MEMX.FILL_COUNT. -/
def MEMX.FILL_COUNT : Fld := ⟨0x984, 16, 0, 0⟩
/-- MEMX.FILL_CMD. -/
def MEMX.FILL_CMD : Fld := ⟨0x988, 31, 0, 0⟩
/-- MEMX.MIGRATE. -/
def MEMX.MIGRATE : Fld := ⟨0x98C, 31, 0, 0⟩
/-- MEMX.RETRAIN. -/
def MEMX.RETRAIN : Fld := ⟨0x990, 31, 0, 0⟩

/-- The configuration fields of a MEMX page. -/
def memxCfg : List Fld :=
  [MEMX.SCRUB.SCRUB_EN, MEMX.SCRUB.SCRUB_INTERVAL, MEMX.MIGRATION.AUTO, 
  MEMX.MIGRATION.MIG_INTERVAL, MEMX.FAILING.UE_FAIL, MEMX.FAILING.CE_LIMIT] ++
  (List.range 8).map MEMX.TARGET

/-- The read-only live and window fields of a MEMX page. -/
def memxRo : List Fld :=
  [MEMX.ERR_ADDR_LO, MEMX.ERR_ADDR_HI, MEMX.ERR_INFO.RANK, MEMX.ERR_INFO.DEVICE, 
  MEMX.ERR_INFO.KIND] ++
  (List.range 4).map MEMX.SCRUB_PASS ++
  [MEMX.MIG_STATE.TARGET, MEMX.MIG_STATE.SOURCE, MEMX.MIG_STATE.RUNNING, 
  MEMX.MIG_PTR] ++
  (List.range 8).map MEMX.MAP.SLOT ++
  [MEMX.CAPACITY, MEMX.FILL_LEFT, MEMX.CMD_RESULT, MEMX.INIT_QUERY.INIT, 
  MEMX.INIT_QUERY.TRACKING]

/-- The read-write live and window fields of a MEMX page. -/
def memxRw : List Fld :=
  [MEMX.INIT_QUERY.REGION, MEMX.FILL_FIRST, MEMX.FILL_COUNT]

/-- The command fields of a MEMX page. -/
def memxWc : List Fld :=
  [MEMX.FILL_CMD, MEMX.MIGRATE, MEMX.RETRAIN]

-- SRAM fields (R311)

/-- SRAM.SCRUB.EN. -/
def SRAM.SCRUB.EN : Fld := ⟨0x100, 0, 0, 1⟩
/-- SRAM.SPARED. -/
def SRAM.SPARED : Fld := ⟨0x900, 8, 0, 0⟩
/-- SRAM.LAST_CE.BANK. -/
def SRAM.LAST_CE.BANK : Fld := ⟨0x904, 24, 16, 0⟩
/-- SRAM.LAST_CE.WORD. -/
def SRAM.LAST_CE.WORD : Fld := ⟨0x904, 15, 0, 0⟩
/-- SRAM.LAST_UE.BANK. -/
def SRAM.LAST_UE.BANK : Fld := ⟨0x908, 24, 16, 0⟩
/-- SRAM.LAST_UE.WORD. -/
def SRAM.LAST_UE.WORD : Fld := ⟨0x908, 15, 0, 0⟩
/-- SRAM.PASSES. -/
def SRAM.PASSES : Fld := ⟨0x90C, 31, 0, 0⟩

/-- The configuration fields of a SRAM page. -/
def sramCfg : List Fld :=
  [SRAM.SCRUB.EN]

/-- The read-only live and window fields of a SRAM page. -/
def sramRo : List Fld :=
  [SRAM.SPARED, SRAM.LAST_CE.BANK, SRAM.LAST_CE.WORD, SRAM.LAST_UE.BANK, 
  SRAM.LAST_UE.WORD, SRAM.PASSES]

-- DMA fields (R337)

/-- DMA.CH.IRQ_EN. -/
def DMA.CH.IRQ_EN (c : Nat) : Fld := ⟨0x100+0x10*c, 31, 31, 0⟩
/-- DMA.CH.PRIO. -/
def DMA.CH.PRIO (c : Nat) : Fld := ⟨0x100+0x10*c, 29, 28, 0⟩
/-- DMA.CH.VECTOR. -/
def DMA.CH.VECTOR (c : Nat) : Fld := ⟨0x100+0x10*c, 21, 16, 0⟩
/-- DMA.HEAD. -/
def DMA.HEAD (c : Nat) : Fld := ⟨0x104+0x10*c, 31, 1, 0⟩
/-- DMA.CHAIN_LIMIT. -/
def DMA.CHAIN_LIMIT : Fld := ⟨0x300, 16, 0, 65536⟩
/-- DMA.STARVE. -/
def DMA.STARVE : Fld := ⟨0x304, 4, 0, 16⟩
/-- DMA.CUR_DESC. -/
def DMA.CUR_DESC (c : Nat) : Fld := ⟨0x900+0x10*c, 31, 1, 0⟩
/-- DMA.STATE.DB_PENDING. -/
def DMA.STATE.DB_PENDING (c : Nat) : Fld := ⟨0x904+0x10*c, 16, 16, 0⟩
/-- DMA.STATE.CODE. -/
def DMA.STATE.CODE (c : Nat) : Fld := ⟨0x904+0x10*c, 14, 8, 0⟩
/-- DMA.STATE.STATE. -/
def DMA.STATE.STATE (c : Nat) : Fld := ⟨0x904+0x10*c, 2, 0, 0⟩
/-- DMA.MOVED. -/
def DMA.MOVED (c : Nat) : Fld := ⟨0x908+0x10*c, 23, 0, 0⟩
/-- DMA.FETCHED. -/
def DMA.FETCHED (c : Nat) : Fld := ⟨0x90C+0x10*c, 16, 0, 0⟩
/-- DMA.COMP_COUNT. -/
def DMA.COMP_COUNT (c : Nat) : Fld := ⟨0xB00+8*c, 31, 0, 0⟩
/-- DMA.COMP_SEEN. -/
def DMA.COMP_SEEN (c : Nat) : Fld := ⟨0xB04+8*c, 31, 0, 0⟩
/-- DMA.DOORBELL. -/
def DMA.DOORBELL (c : Nat) : Fld := ⟨0xC00+4*c, 31, 0, 0⟩
/-- DMA.LAST_BUS. -/
def DMA.LAST_BUS : Fld := ⟨0xC80, 7, 0, 0⟩

/-- The configuration fields of a DMA page. -/
def dmaCfg : List Fld :=
  (List.range 32).map DMA.CH.IRQ_EN ++
  (List.range 32).map DMA.CH.PRIO ++
  (List.range 32).map DMA.CH.VECTOR ++
  (List.range 32).map DMA.HEAD ++
  [DMA.CHAIN_LIMIT, DMA.STARVE]

/-- The read-only live and window fields of a DMA page. -/
def dmaRo : List Fld :=
  (List.range 32).map DMA.CUR_DESC ++
  (List.range 32).map DMA.STATE.DB_PENDING ++
  (List.range 32).map DMA.STATE.CODE ++
  (List.range 32).map DMA.STATE.STATE ++
  (List.range 32).map DMA.MOVED ++
  (List.range 32).map DMA.FETCHED ++
  (List.range 32).map DMA.COMP_COUNT ++
  [DMA.LAST_BUS]

/-- The read-write live and window fields of a DMA page. -/
def dmaRw : List Fld :=
  (List.range 32).map DMA.COMP_SEEN

/-- The command fields of a DMA page. -/
def dmaWc : List Fld :=
  (List.range 32).map DMA.DOORBELL

-- CODEC fields (R338)

/-- CODEC.CTX.EN. -/
def CODEC.CTX.EN (k : Nat) : Fld := ⟨0x100+0x10*k, 31, 31, 0⟩
/-- CODEC.CTX.DIR. -/
def CODEC.CTX.DIR (k : Nat) : Fld := ⟨0x100+0x10*k, 30, 30, 0⟩
/-- CODEC.CTX.WRAP. -/
def CODEC.CTX.WRAP (k : Nat) : Fld := ⟨0x100+0x10*k, 29, 29, 0⟩
/-- CODEC.CTX.CARRY. -/
def CODEC.CTX.CARRY (k : Nat) : Fld := ⟨0x100+0x10*k, 28, 28, 1⟩
/-- CODEC.CTX.PREFILTER. -/
def CODEC.CTX.PREFILTER (k : Nat) : Fld := ⟨0x100+0x10*k, 25, 24, 0⟩
/-- CODEC.CTX.HDR_SKIP. -/
def CODEC.CTX.HDR_SKIP (k : Nat) : Fld := ⟨0x100+0x10*k, 23, 16, 48⟩
/-- CODEC.CTX.BLOCK_IN. -/
def CODEC.CTX.BLOCK_IN (k : Nat) : Fld := ⟨0x100+0x10*k, 5, 0, 16⟩
/-- CODEC.SAVE. -/
def CODEC.SAVE (k : Nat) : Fld := ⟨0x104+0x10*k, 29, 0, 0⟩
/-- CODEC.MSG_LIMIT. -/
def CODEC.MSG_LIMIT (k : Nat) : Fld := ⟨0x108+0x10*k, 27, 0, 0⟩
/-- CODEC.SWITCH.STALL. -/
def CODEC.SWITCH.STALL : Fld := ⟨0x200, 15, 0, 4096⟩
/-- CODEC.STATE. -/
def CODEC.STATE (k : Nat) : Fld := ⟨0x900+0x20*k, 2, 0, 0⟩
/-- CODEC.IN_LO. -/
def CODEC.IN_LO (k : Nat) : Fld := ⟨0x904+0x20*k, 31, 0, 0⟩
/-- CODEC.IN_HI. -/
def CODEC.IN_HI (k : Nat) : Fld := ⟨0x908+0x20*k, 15, 0, 0⟩
/-- CODEC.OUT_LO. -/
def CODEC.OUT_LO (k : Nat) : Fld := ⟨0x90C+0x20*k, 31, 0, 0⟩
/-- CODEC.OUT_HI. -/
def CODEC.OUT_HI (k : Nat) : Fld := ⟨0x910+0x20*k, 15, 0, 0⟩
/-- CODEC.ERR.BIT. -/
def CODEC.ERR.BIT (k : Nat) : Fld := ⟨0x914+0x20*k, 10, 8, 0⟩
/-- CODEC.ERR.CODE. -/
def CODEC.ERR.CODE (k : Nat) : Fld := ⟨0x914+0x20*k, 7, 0, 0⟩
/-- CODEC.ERR_POS_LO. -/
def CODEC.ERR_POS_LO (k : Nat) : Fld := ⟨0x918+0x20*k, 31, 0, 0⟩
/-- CODEC.ERR_POS_HI. -/
def CODEC.ERR_POS_HI (k : Nat) : Fld := ⟨0x91C+0x20*k, 15, 0, 0⟩
/-- CODEC.CTX_CMD. -/
def CODEC.CTX_CMD (k : Nat) : Fld := ⟨0xB00+4*k, 31, 0, 0⟩
/-- CODEC.REFUSE.CONTEXT. -/
def CODEC.REFUSE.CONTEXT : Fld := ⟨0xB40, 11, 8, 0⟩
/-- CODEC.REFUSE.CODE. -/
def CODEC.REFUSE.CODE : Fld := ⟨0xB40, 7, 0, 0⟩

/-- The configuration fields of a CODEC page. -/
def codecCfg : List Fld :=
  (List.range 16).map CODEC.CTX.EN ++
  (List.range 16).map CODEC.CTX.DIR ++
  (List.range 16).map CODEC.CTX.WRAP ++
  (List.range 16).map CODEC.CTX.CARRY ++
  (List.range 16).map CODEC.CTX.PREFILTER ++
  (List.range 16).map CODEC.CTX.HDR_SKIP ++
  (List.range 16).map CODEC.CTX.BLOCK_IN ++
  (List.range 16).map CODEC.SAVE ++
  (List.range 16).map CODEC.MSG_LIMIT ++
  [CODEC.SWITCH.STALL]

/-- The read-only live and window fields of a CODEC page. -/
def codecRo : List Fld :=
  (List.range 16).map CODEC.STATE ++
  (List.range 16).map CODEC.IN_LO ++
  (List.range 16).map CODEC.IN_HI ++
  (List.range 16).map CODEC.OUT_LO ++
  (List.range 16).map CODEC.OUT_HI ++
  (List.range 16).map CODEC.ERR.BIT ++
  (List.range 16).map CODEC.ERR.CODE ++
  (List.range 16).map CODEC.ERR_POS_LO ++
  (List.range 16).map CODEC.ERR_POS_HI ++
  [CODEC.REFUSE.CONTEXT, CODEC.REFUSE.CODE]

/-- The command fields of a CODEC page. -/
def codecWc : List Fld :=
  (List.range 16).map CODEC.CTX_CMD

-- PCIE fields (R465)

/-- PCIE.MAX_GEN. -/
def PCIE.MAX_GEN : Fld := ⟨0x100, 1, 0, 3⟩
/-- PCIE.LINK.UP. -/
def PCIE.LINK.UP : Fld := ⟨0x900, 31, 31, 0⟩
/-- PCIE.LINK.WIDTH. -/
def PCIE.LINK.WIDTH : Fld := ⟨0x900, 19, 16, 0⟩
/-- PCIE.LINK.GEN. -/
def PCIE.LINK.GEN : Fld := ⟨0x900, 3, 0, 0⟩
/-- PCIE.PBA. -/
def PCIE.PBA (i : Nat) : Fld := ⟨0x9F8+4*i, 31, 0, 0⟩
/-- PCIE.MSIX.ADDR_LO. -/
def PCIE.MSIX.ADDR_LO (v : Nat) : Fld := ⟨0xC00+16*v, 31, 2, 0⟩
/-- PCIE.MSIX.ADDR_HI. -/
def PCIE.MSIX.ADDR_HI (v : Nat) : Fld := ⟨0xC04+16*v, 31, 0, 0⟩
/-- PCIE.MSIX.DATA. -/
def PCIE.MSIX.DATA (v : Nat) : Fld := ⟨0xC08+16*v, 31, 0, 0⟩
/-- PCIE.MSIX.MASK. -/
def PCIE.MSIX.MASK (v : Nat) : Fld := ⟨0xC0C+16*v, 0, 0, 1⟩

/-- The configuration fields of a PCIE page. -/
def pcieCfg : List Fld :=
  [PCIE.MAX_GEN]

/-- The read-only live and window fields of a PCIE page. -/
def pcieRo : List Fld :=
  [PCIE.LINK.UP, PCIE.LINK.WIDTH, PCIE.LINK.GEN] ++
  (List.range 2).map PCIE.PBA

/-- The read-write live and window fields of a PCIE page. -/
def pcieRw : List Fld :=
  (List.range 64).map PCIE.MSIX.ADDR_LO ++
  (List.range 64).map PCIE.MSIX.ADDR_HI ++
  (List.range 64).map PCIE.MSIX.DATA ++
  (List.range 64).map PCIE.MSIX.MASK

-- ETH fields (R465)

/-- ETH.PORT.MTU. -/
def ETH.PORT.MTU : Fld := ⟨0x100, 29, 16, 1500⟩
/-- ETH.PORT.RSFEC. -/
def ETH.PORT.RSFEC : Fld := ⟨0x100, 1, 1, 0⟩
/-- ETH.PORT.SPEED. -/
def ETH.PORT.SPEED : Fld := ⟨0x100, 0, 0, 1⟩
/-- ETH.VLAN.TAG. -/
def ETH.VLAN.TAG : Fld := ⟨0x104, 31, 31, 0⟩
/-- ETH.VLAN.PCP. -/
def ETH.VLAN.PCP : Fld := ⟨0x104, 14, 12, 0⟩
/-- ETH.VLAN.VID. -/
def ETH.VLAN.VID : Fld := ⟨0x104, 11, 0, 0⟩
/-- ETH.MAC_LO. -/
def ETH.MAC_LO : Fld := ⟨0x108, 31, 0, 0⟩
/-- ETH.MAC_HI. -/
def ETH.MAC_HI : Fld := ⟨0x10C, 15, 0, 0⟩
/-- ETH.IPV4. -/
def ETH.IPV4 : Fld := ⟨0x110, 31, 0, 0⟩
/-- ETH.PREFIX4. -/
def ETH.PREFIX4 : Fld := ⟨0x114, 5, 0, 24⟩
/-- ETH.GATEWAY4. -/
def ETH.GATEWAY4 : Fld := ⟨0x118, 31, 0, 0⟩
/-- ETH.IPV6. -/
def ETH.IPV6 (i : Nat) : Fld := ⟨0x120+4*i, 31, 0, 0⟩
/-- ETH.PREFIX6. -/
def ETH.PREFIX6 : Fld := ⟨0x130, 7, 0, 64⟩
/-- ETH.GATEWAY6. -/
def ETH.GATEWAY6 (i : Nat) : Fld := ⟨0x140+4*i, 31, 0, 0⟩
/-- ETH.FAMILY.IPV6_EN. -/
def ETH.FAMILY.IPV6_EN : Fld := ⟨0x150, 1, 1, 0⟩
/-- ETH.FAMILY.IPV4_EN. -/
def ETH.FAMILY.IPV4_EN : Fld := ⟨0x150, 0, 0, 1⟩
/-- ETH.LINK.UP. -/
def ETH.LINK.UP : Fld := ⟨0x900, 31, 31, 0⟩
/-- ETH.LINK.FEC_LOCK. -/
def ETH.LINK.FEC_LOCK : Fld := ⟨0x900, 8, 8, 0⟩
/-- ETH.QUEUED. -/
def ETH.QUEUED : Fld := ⟨0x904, 15, 0, 0⟩
/-- ETH.REFUSE. -/
def ETH.REFUSE : Fld := ⟨0x908, 7, 0, 0⟩
/-- ETH.DEST.EN. -/
def ETH.DEST.EN (d : Nat) : Fld := ⟨0xC00+0x20*d, 31, 31, 0⟩
/-- ETH.DEST.IPV6. -/
def ETH.DEST.IPV6 (d : Nat) : Fld := ⟨0xC00+0x20*d, 30, 30, 0⟩
/-- ETH.DEST.DSCP. -/
def ETH.DEST.DSCP (d : Nat) : Fld := ⟨0xC00+0x20*d, 21, 16, 0⟩
/-- ETH.DEST.UDP_PORT. -/
def ETH.DEST.UDP_PORT (d : Nat) : Fld := ⟨0xC00+0x20*d, 15, 0, 47010⟩
/-- ETH.DEST.ADDR1. -/
def ETH.DEST.ADDR1 (d : Nat) : Fld := ⟨0xC04+0x20*d, 31, 0, 0⟩
/-- ETH.DEST.ADDR2. -/
def ETH.DEST.ADDR2 (d : Nat) : Fld := ⟨0xC08+0x20*d, 31, 0, 0⟩
/-- ETH.DEST.ADDR3. -/
def ETH.DEST.ADDR3 (d : Nat) : Fld := ⟨0xC0C+0x20*d, 31, 0, 0⟩
/-- ETH.DEST.ADDR4. -/
def ETH.DEST.ADDR4 (d : Nat) : Fld := ⟨0xC10+0x20*d, 31, 0, 0⟩

/-- The configuration fields of a ETH page. -/
def ethCfg : List Fld :=
  [ETH.PORT.MTU, ETH.PORT.RSFEC, ETH.PORT.SPEED, ETH.VLAN.TAG, ETH.VLAN.PCP, 
  ETH.VLAN.VID, ETH.MAC_LO, ETH.MAC_HI, ETH.IPV4, ETH.PREFIX4, ETH.GATEWAY4] ++
  (List.range 4).map ETH.IPV6 ++
  [ETH.PREFIX6] ++
  (List.range 4).map ETH.GATEWAY6 ++
  [ETH.FAMILY.IPV6_EN, ETH.FAMILY.IPV4_EN]

/-- The read-only live and window fields of a ETH page. -/
def ethRo : List Fld :=
  [ETH.LINK.UP, ETH.LINK.FEC_LOCK, ETH.QUEUED, ETH.REFUSE]

/-- The read-write live and window fields of a ETH page. -/
def ethRw : List Fld :=
  (List.range 16).map ETH.DEST.EN ++
  (List.range 16).map ETH.DEST.IPV6 ++
  (List.range 16).map ETH.DEST.DSCP ++
  (List.range 16).map ETH.DEST.UDP_PORT ++
  (List.range 16).map ETH.DEST.ADDR1 ++
  (List.range 16).map ETH.DEST.ADDR2 ++
  (List.range 16).map ETH.DEST.ADDR3 ++
  (List.range 16).map ETH.DEST.ADDR4

-- PTP fields (R465)

/-- PTP.PORT.DOMAIN. -/
def PTP.PORT.DOMAIN : Fld := ⟨0x100, 23, 16, 0⟩
/-- PTP.PORT.TRANSPORT. -/
def PTP.PORT.TRANSPORT : Fld := ⟨0x100, 9, 8, 0⟩
/-- PTP.PORT.PORT. -/
def PTP.PORT.PORT : Fld := ⟨0x100, 4, 4, 0⟩
/-- PTP.PORT.SOURCE. -/
def PTP.PORT.SOURCE : Fld := ⟨0x100, 1, 0, 0⟩
/-- PTP.STEP_THRESH. -/
def PTP.STEP_THRESH : Fld := ⟨0x104, 31, 0, 1000⟩
/-- PTP.SERVO.KP_SHIFT. -/
def PTP.SERVO.KP_SHIFT : Fld := ⟨0x108, 12, 8, 2⟩
/-- PTP.SERVO.KI_SHIFT. -/
def PTP.SERVO.KI_SHIFT : Fld := ⟨0x108, 4, 0, 6⟩
/-- PTP.PPS_OUT.EN. -/
def PTP.PPS_OUT.EN : Fld := ⟨0x10C, 31, 31, 0⟩
/-- PTP.PPS_OUT.WIDTH. -/
def PTP.PPS_OUT.WIDTH : Fld := ⟨0x10C, 25, 0, 62500000⟩
/-- PTP.PPS_OFFSET. -/
def PTP.PPS_OFFSET : Fld := ⟨0x110, 31, 0, 0⟩
/-- PTP.PPS_IN.EN. -/
def PTP.PPS_IN.EN : Fld := ⟨0x114, 1, 1, 0⟩
/-- PTP.PPS_IN.POL. -/
def PTP.PPS_IN.POL : Fld := ⟨0x114, 0, 0, 0⟩
/-- PTP.LOG_DELAY_REQ. -/
def PTP.LOG_DELAY_REQ : Fld := ⟨0x118, 7, 0, 0⟩
/-- PTP.LATENCY.RX_PS. -/
def PTP.LATENCY.RX_PS : Fld := ⟨0x11C, 31, 16, 0⟩
/-- PTP.LATENCY.TX_PS. -/
def PTP.LATENCY.TX_PS : Fld := ⟨0x11C, 15, 0, 0⟩
/-- PTP.ASYM. -/
def PTP.ASYM : Fld := ⟨0x120, 31, 0, 0⟩
/-- PTP.TIME_LO. -/
def PTP.TIME_LO : Fld := ⟨0x900, 31, 0, 0⟩
/-- PTP.TIME_HI. -/
def PTP.TIME_HI : Fld := ⟨0x904, 31, 0, 0⟩
/-- PTP.TICK_LO. -/
def PTP.TICK_LO : Fld := ⟨0x908, 31, 0, 0⟩
/-- PTP.TICK_HI. -/
def PTP.TICK_HI : Fld := ⟨0x90C, 31, 0, 0⟩
/-- PTP.OFFSET. -/
def PTP.OFFSET : Fld := ⟨0x910, 31, 0, 0⟩
/-- PTP.MEAN_PATH. -/
def PTP.MEAN_PATH : Fld := ⟨0x914, 31, 0, 0⟩
/-- PTP.FREQ. -/
def PTP.FREQ : Fld := ⟨0x918, 31, 0, 0⟩
/-- PTP.STATE. -/
def PTP.STATE : Fld := ⟨0x91C, 2, 0, 0⟩
/-- PTP.UTC_OFFSET. -/
def PTP.UTC_OFFSET : Fld := ⟨0x920, 15, 0, 0⟩
/-- PTP.MASTER_LO. -/
def PTP.MASTER_LO : Fld := ⟨0x924, 31, 0, 0⟩
/-- PTP.MASTER_HI. -/
def PTP.MASTER_HI : Fld := ⟨0x928, 31, 0, 0⟩
/-- PTP.PPS_IN_ERR. -/
def PTP.PPS_IN_ERR : Fld := ⟨0x92C, 31, 0, 0⟩
/-- PTP.REFUSE. -/
def PTP.REFUSE : Fld := ⟨0x930, 7, 0, 0⟩
/-- PTP.SET_LO. -/
def PTP.SET_LO : Fld := ⟨0x980, 31, 0, 0⟩
/-- PTP.SET_HI. -/
def PTP.SET_HI : Fld := ⟨0x984, 31, 0, 0⟩
/-- PTP.TIME_CMD. -/
def PTP.TIME_CMD : Fld := ⟨0x988, 31, 0, 0⟩

/-- The configuration fields of a PTP page. -/
def ptpCfg : List Fld :=
  [PTP.PORT.DOMAIN, PTP.PORT.TRANSPORT, PTP.PORT.PORT, PTP.PORT.SOURCE, 
  PTP.STEP_THRESH, PTP.SERVO.KP_SHIFT, PTP.SERVO.KI_SHIFT, PTP.PPS_OUT.EN, 
  PTP.PPS_OUT.WIDTH, PTP.PPS_OFFSET, PTP.PPS_IN.EN, PTP.PPS_IN.POL, 
  PTP.LOG_DELAY_REQ, PTP.LATENCY.RX_PS, PTP.LATENCY.TX_PS, PTP.ASYM]

/-- The read-only live and window fields of a PTP page. -/
def ptpRo : List Fld :=
  [PTP.TIME_LO, PTP.TIME_HI, PTP.TICK_LO, PTP.TICK_HI, PTP.OFFSET, 
  PTP.MEAN_PATH, PTP.FREQ, PTP.STATE, PTP.UTC_OFFSET, PTP.MASTER_LO, 
  PTP.MASTER_HI, PTP.PPS_IN_ERR, PTP.REFUSE]

/-- The read-write live and window fields of a PTP page. -/
def ptpRw : List Fld :=
  [PTP.SET_LO, PTP.SET_HI]

/-- The command fields of a PTP page. -/
def ptpWc : List Fld :=
  [PTP.TIME_CMD]

-- SAHF fields (R465)

/-- SAHF.POINT.B. -/
def SAHF.POINT.B : Fld := ⟨0x100, 31, 16, 0⟩
/-- SAHF.POINT.A. -/
def SAHF.POINT.A : Fld := ⟨0x100, 15, 0, 0⟩
/-- SAHF.LOGS.TROUBLE. -/
def SAHF.LOGS.TROUBLE : Fld := ⟨0x104, 31, 16, 0⟩
/-- SAHF.LOGS.JOURNAL. -/
def SAHF.LOGS.JOURNAL : Fld := ⟨0x104, 15, 0, 0⟩
/-- SAHF.ACCEPT.ETH1. -/
def SAHF.ACCEPT.ETH1 : Fld := ⟨0x108, 2, 2, 0⟩
/-- SAHF.ACCEPT.ETH0. -/
def SAHF.ACCEPT.ETH0 : Fld := ⟨0x108, 1, 1, 0⟩
/-- SAHF.ACCEPT.RING. -/
def SAHF.ACCEPT.RING : Fld := ⟨0x108, 0, 0, 1⟩
/-- SAHF.UDP_PORT. -/
def SAHF.UDP_PORT : Fld := ⟨0x10C, 15, 0, 47010⟩
/-- SAHF.RING.EN. -/
def SAHF.RING.EN (k : Nat) : Fld := ⟨0x110+0x10*k, 31, 31, 0⟩
/-- SAHF.RING.LOG2_SIZE. -/
def SAHF.RING.LOG2_SIZE (k : Nat) : Fld := ⟨0x110+0x10*k, 20, 16, 8⟩
/-- SAHF.RING.VECTOR. -/
def SAHF.RING.VECTOR (k : Nat) : Fld := ⟨0x110+0x10*k, 13, 8, 0⟩
/-- SAHF.RING.COALESCE_N. -/
def SAHF.RING.COALESCE_N (k : Nat) : Fld := ⟨0x110+0x10*k, 7, 0, 1⟩
/-- SAHF.RING.BASE_LO. -/
def SAHF.RING.BASE_LO (k : Nat) : Fld := ⟨0x114+0x10*k, 31, 0, 0⟩
/-- SAHF.RING.BASE_HI. -/
def SAHF.RING.BASE_HI (k : Nat) : Fld := ⟨0x118+0x10*k, 31, 0, 0⟩
/-- SAHF.RING.COALESCE_US. -/
def SAHF.RING.COALESCE_US (k : Nat) : Fld := ⟨0x11C+0x10*k, 15, 0, 0⟩
/-- SAHF.CODEC.EN. -/
def SAHF.CODEC.EN : Fld := ⟨0x210, 31, 31, 0⟩
/-- SAHF.CODEC.WORK. -/
def SAHF.CODEC.WORK : Fld := ⟨0x210, 15, 0, 0⟩
/-- SAHF.RING_HEAD. -/
def SAHF.RING_HEAD (k : Nat) : Fld := ⟨0x900+4*k, 15, 0, 0⟩
/-- SAHF.RING_TAIL. -/
def SAHF.RING_TAIL (k : Nat) : Fld := ⟨0x980+4*k, 15, 0, 0⟩
/-- SAHF.REFUSE. -/
def SAHF.REFUSE : Fld := ⟨0x9C0, 7, 0, 0⟩
/-- SAHF.STREAM.EN. -/
def SAHF.STREAM.EN (s : Nat) : Fld := ⟨0xC00+0x10*s, 31, 31, 0⟩
/-- SAHF.STREAM.DEST. -/
def SAHF.STREAM.DEST (s : Nat) : Fld := ⟨0xC00+0x10*s, 30, 29, 0⟩
/-- SAHF.STREAM.COMPRESS. -/
def SAHF.STREAM.COMPRESS (s : Nat) : Fld := ⟨0xC00+0x10*s, 28, 28, 0⟩
/-- SAHF.STREAM.CTX. -/
def SAHF.STREAM.CTX (s : Nat) : Fld := ⟨0xC00+0x10*s, 27, 24, 0⟩
/-- SAHF.STREAM.TARGET. -/
def SAHF.STREAM.TARGET (s : Nat) : Fld := ⟨0xC00+0x10*s, 19, 16, 0⟩
/-- SAHF.STREAM.ID. -/
def SAHF.STREAM.ID (s : Nat) : Fld := ⟨0xC00+0x10*s, 15, 0, 0⟩
/-- SAHF.STREAM.QUEUE_MAX. -/
def SAHF.STREAM.QUEUE_MAX (s : Nat) : Fld := ⟨0xC04+0x10*s, 15, 0, 64⟩

/-- The configuration fields of a SAHF page. -/
def sahfCfg : List Fld :=
  [SAHF.POINT.B, SAHF.POINT.A, SAHF.LOGS.TROUBLE, SAHF.LOGS.JOURNAL, 
  SAHF.ACCEPT.ETH1, SAHF.ACCEPT.ETH0, SAHF.ACCEPT.RING, SAHF.UDP_PORT] ++
  (List.range 16).map SAHF.RING.EN ++
  (List.range 16).map SAHF.RING.LOG2_SIZE ++
  (List.range 16).map SAHF.RING.VECTOR ++
  (List.range 16).map SAHF.RING.COALESCE_N ++
  (List.range 16).map SAHF.RING.BASE_LO ++
  (List.range 16).map SAHF.RING.BASE_HI ++
  (List.range 16).map SAHF.RING.COALESCE_US ++
  [SAHF.CODEC.EN, SAHF.CODEC.WORK]

/-- The read-only live and window fields of a SAHF page. -/
def sahfRo : List Fld :=
  (List.range 16).map SAHF.RING_HEAD ++
  [SAHF.REFUSE]

/-- The read-write live and window fields of a SAHF page. -/
def sahfRw : List Fld :=
  (List.range 16).map SAHF.RING_TAIL ++
  (List.range 64).map SAHF.STREAM.EN ++
  (List.range 64).map SAHF.STREAM.DEST ++
  (List.range 64).map SAHF.STREAM.COMPRESS ++
  (List.range 64).map SAHF.STREAM.CTX ++
  (List.range 64).map SAHF.STREAM.TARGET ++
  (List.range 64).map SAHF.STREAM.ID ++
  (List.range 64).map SAHF.STREAM.QUEUE_MAX

-- SPIS fields (R374)


-- LEGACY fields (R377)

/-- LEGACY.TRANSLATION. -/
def LEGACY.TRANSLATION (i : Nat) : Fld := ⟨0xC00+4*i, 31, 0, 0⟩

/-- The read-write live and window fields of a LEGACY page. -/
def legacyRw : List Fld :=
  (List.range 256).map LEGACY.TRANSLATION

-- I2CM fields (R354)

/-- I2CM.CONTROL.POLL_EN. -/
def I2CM.CONTROL.POLL_EN : Fld := ⟨0x100, 8, 8, 1⟩
/-- I2CM.CONTROL.FAST. -/
def I2CM.CONTROL.FAST : Fld := ⟨0x100, 0, 0, 0⟩
/-- I2CM.CAGE.LOS. -/
def I2CM.CAGE.LOS (p : Nat) : Fld := ⟨0x900+0x20*p, 1, 1, 0⟩
/-- I2CM.CAGE.PRESENT. -/
def I2CM.CAGE.PRESENT (p : Nat) : Fld := ⟨0x900+0x20*p, 0, 0, 0⟩
/-- I2CM.TEMP. -/
def I2CM.TEMP (p : Nat) : Fld := ⟨0x904+0x20*p, 31, 0, 0⟩
/-- I2CM.VCC. -/
def I2CM.VCC (p : Nat) : Fld := ⟨0x908+0x20*p, 31, 0, 0⟩
/-- I2CM.TX_BIAS. -/
def I2CM.TX_BIAS (p : Nat) : Fld := ⟨0x90C+0x20*p, 31, 0, 0⟩
/-- I2CM.TX_POWER. -/
def I2CM.TX_POWER (p : Nat) : Fld := ⟨0x910+0x20*p, 31, 0, 0⟩
/-- I2CM.RX_POWER. -/
def I2CM.RX_POWER (p : Nat) : Fld := ⟨0x914+0x20*p, 31, 0, 0⟩
/-- I2CM.XFER. -/
def I2CM.XFER : Fld := ⟨0x980, 31, 0, 0⟩
/-- I2CM.XFER_RESULT.DONE. -/
def I2CM.XFER_RESULT.DONE : Fld := ⟨0x984, 9, 9, 0⟩
/-- I2CM.XFER_RESULT.NACK. -/
def I2CM.XFER_RESULT.NACK : Fld := ⟨0x984, 8, 8, 0⟩
/-- I2CM.XFER_RESULT.DATA. -/
def I2CM.XFER_RESULT.DATA : Fld := ⟨0x984, 7, 0, 0⟩

/-- The configuration fields of a I2CM page. -/
def i2cmCfg : List Fld :=
  [I2CM.CONTROL.POLL_EN, I2CM.CONTROL.FAST]

/-- The read-only live and window fields of a I2CM page. -/
def i2cmRo : List Fld :=
  (List.range 2).map I2CM.CAGE.LOS ++
  (List.range 2).map I2CM.CAGE.PRESENT ++
  (List.range 2).map I2CM.TEMP ++
  (List.range 2).map I2CM.VCC ++
  (List.range 2).map I2CM.TX_BIAS ++
  (List.range 2).map I2CM.TX_POWER ++
  (List.range 2).map I2CM.RX_POWER ++
  [I2CM.XFER_RESULT.DONE, I2CM.XFER_RESULT.NACK, I2CM.XFER_RESULT.DATA]

/-- The command fields of a I2CM page. -/
def i2cmWc : List Fld :=
  [I2CM.XFER]

-- AON fields (R438)

/-- AON.WAKE.EN_ALARM. -/
def AON.WAKE.EN_ALARM : Fld := ⟨0x100, 31, 31, 0⟩
/-- AON.WAKE.EN_WAKE_IN. -/
def AON.WAKE.EN_WAKE_IN : Fld := ⟨0x100, 30, 30, 0⟩
/-- AON.WAKE.WAKE_IN_POL. -/
def AON.WAKE.WAKE_IN_POL : Fld := ⟨0x100, 29, 29, 0⟩
/-- AON.WAKE.EN_PFE. -/
def AON.WAKE.EN_PFE : Fld := ⟨0x100, 28, 28, 0⟩
/-- AON.WAKE.EN_HK. -/
def AON.WAKE.EN_HK : Fld := ⟨0x100, 27, 27, 0⟩
/-- AON.WAKE.MODE. -/
def AON.WAKE.MODE : Fld := ⟨0x100, 18, 16, 1⟩
/-- AON.WAKE.RETURN. -/
def AON.WAKE.RETURN : Fld := ⟨0x100, 13, 12, 0⟩
/-- AON.WAKE.SCRIPT_EN. -/
def AON.WAKE.SCRIPT_EN : Fld := ⟨0x100, 8, 8, 0⟩
/-- AON.WAKE.PFE_CH. -/
def AON.WAKE.PFE_CH : Fld := ⟨0x100, 1, 0, 0⟩
/-- AON.RETURN_S. -/
def AON.RETURN_S : Fld := ⟨0x104, 23, 0, 3600⟩
/-- AON.WAKE_AT_LO. -/
def AON.WAKE_AT_LO : Fld := ⟨0x108, 31, 0, 0⟩
/-- AON.WAKE_AT_HI. -/
def AON.WAKE_AT_HI : Fld := ⟨0x10C, 31, 0, 0⟩
/-- AON.WAKE_EVERY. -/
def AON.WAKE_EVERY : Fld := ⟨0x110, 31, 0, 0⟩
/-- AON.ILK_HOLD. -/
def AON.ILK_HOLD : Fld := ⟨0x114, 15, 0, 0⟩
/-- AON.REF_100. -/
def AON.REF_100 : Fld := ⟨0x118, 0, 0, 1⟩
/-- AON.PFE_WINDOW.PFE_HIGH. -/
def AON.PFE_WINDOW.PFE_HIGH : Fld := ⟨0x11C, 31, 16, 0x7FFF⟩
/-- AON.PFE_WINDOW.PFE_LOW. -/
def AON.PFE_WINDOW.PFE_LOW : Fld := ⟨0x11C, 15, 0, 0x8001⟩
/-- AON.RAIL.PG_USE. -/
def AON.RAIL.PG_USE (k : Nat) : Fld := ⟨0x120+4*k, 31, 31, 1⟩
/-- AON.RAIL.GAP. -/
def AON.RAIL.GAP (k : Nat) : Fld := ⟨0x120+4*k, 23, 16, 4⟩
/-- AON.RAIL.WAIT. -/
def AON.RAIL.WAIT (k : Nat) : Fld := ⟨0x120+4*k, 15, 0, 328⟩
/-- AON.SCRIPT_LEN. -/
def AON.SCRIPT_LEN : Fld := ⟨0x140, 11, 0, 0⟩
/-- AON.DRAM_CFG.SPEED. -/
def AON.DRAM_CFG.SPEED (s : Nat) : Fld := ⟨0x144, 8*s+7, 8*s+5, 4⟩
/-- AON.DRAM_CFG.DENSITY. -/
def AON.DRAM_CFG.DENSITY (s : Nat) : Fld := ⟨0x144, 8*s+4, 8*s+4, 1⟩
/-- AON.DRAM_CFG.SPARE. -/
def AON.DRAM_CFG.SPARE (s : Nat) : Fld := ⟨0x144, 8*s+3, 8*s+2, 0⟩
/-- AON.DRAM_CFG.FIT. -/
def AON.DRAM_CFG.FIT (s : Nat) : Fld := ⟨0x144, 8*s+1, 8*s, 0⟩
/-- AON.CLOCK_LO. -/
def AON.CLOCK_LO : Fld := ⟨0x900, 31, 0, 0⟩
/-- AON.CLOCK_HI. -/
def AON.CLOCK_HI : Fld := ⟨0x904, 31, 0, 0⟩
/-- AON.WAKE_RESULT.SLOW_FALLBACK. -/
def AON.WAKE_RESULT.SLOW_FALLBACK : Fld := ⟨0x908, 16, 16, 0⟩
/-- AON.WAKE_RESULT.RAIL_FAIL. -/
def AON.WAKE_RESULT.RAIL_FAIL : Fld := ⟨0x908, 15, 8, 0⟩
/-- AON.WAKE_RESULT.SOURCE. -/
def AON.WAKE_RESULT.SOURCE : Fld := ⟨0x908, 7, 0, 0⟩
/-- AON.RESET_CAUSE. -/
def AON.RESET_CAUSE : Fld := ⟨0x90C, 7, 0, 0⟩
/-- AON.WRITE_ACK. -/
def AON.WRITE_ACK : Fld := ⟨0x910, 31, 0, 0⟩
/-- AON.SCRIPT_RESULT.RESULT. -/
def AON.SCRIPT_RESULT.RESULT : Fld := ⟨0x914, 15, 12, 0⟩
/-- AON.SCRIPT_RESULT.PLAYED. -/
def AON.SCRIPT_RESULT.PLAYED : Fld := ⟨0x914, 11, 0, 0⟩
/-- AON.DRAM_MAP. -/
def AON.DRAM_MAP : Fld := ⟨0x918, 31, 0, 0xFFFFFFFF⟩
/-- AON.SCRIPT_PTR. -/
def AON.SCRIPT_PTR : Fld := ⟨0x980, 10, 0, 0⟩
/-- AON.SCRIPT_HI. -/
def AON.SCRIPT_HI : Fld := ⟨0x984, 31, 0, 0⟩
/-- AON.SCRIPT_LO. -/
def AON.SCRIPT_LO : Fld := ⟨0x988, 31, 0, 0⟩

/-- The configuration fields of a AON page. -/
def aonCfg : List Fld :=
  [AON.WAKE.EN_ALARM, AON.WAKE.EN_WAKE_IN, AON.WAKE.WAKE_IN_POL, 
  AON.WAKE.EN_PFE, AON.WAKE.EN_HK, AON.WAKE.MODE, AON.WAKE.RETURN, 
  AON.WAKE.SCRIPT_EN, AON.WAKE.PFE_CH, AON.RETURN_S, AON.WAKE_AT_LO, 
  AON.WAKE_AT_HI, AON.WAKE_EVERY, AON.ILK_HOLD, AON.REF_100, AON.PFE_WINDOW.PFE_HIGH, 
  AON.PFE_WINDOW.PFE_LOW] ++
  (List.range 6).map AON.RAIL.PG_USE ++
  (List.range 6).map AON.RAIL.GAP ++
  (List.range 6).map AON.RAIL.WAIT ++
  [AON.SCRIPT_LEN] ++
  (List.range 4).map AON.DRAM_CFG.SPEED ++
  (List.range 4).map AON.DRAM_CFG.DENSITY ++
  (List.range 4).map AON.DRAM_CFG.SPARE ++
  (List.range 4).map AON.DRAM_CFG.FIT

/-- The read-only live and window fields of a AON page. -/
def aonRo : List Fld :=
  [AON.CLOCK_LO, AON.CLOCK_HI, AON.WAKE_RESULT.SLOW_FALLBACK, AON.WAKE_RESULT.RAIL_FAIL, 
  AON.WAKE_RESULT.SOURCE, AON.RESET_CAUSE, AON.WRITE_ACK, AON.SCRIPT_RESULT.RESULT, 
  AON.SCRIPT_RESULT.PLAYED, AON.DRAM_MAP]

/-- The read-write live and window fields of a AON page. -/
def aonRw : List Fld :=
  [AON.SCRIPT_PTR, AON.SCRIPT_HI, AON.SCRIPT_LO]

/-- The configuration fields of a block. -/
def Block.cfg : Block → List Fld
  | .foreman => foremanCfg
  | .journal => journalCfg
  | .trouble => troubleCfg
  | .hk => hkCfg
  | .pfe => pfeCfg
  | .tiu => tiuCfg
  | .shot => shotCfg
  | .syn => synCfg
  | .emit => emitCfg
  | .canary => canaryCfg
  | .lane => laneCfg
  | .raml => ramlCfg
  | .trim => trimCfg
  | .chan => chanCfg
  | .phase => phaseCfg
  | .gauge => gaugeCfg
  | .pfilt => pfiltCfg
  | .zone => zoneCfg
  | .trig => trigCfg
  | .capt => captCfg
  | .raman => ramanCfg
  | .reel => reelCfg
  | .ddr => ddrCfg
  | .memx => memxCfg
  | .sram => sramCfg
  | .dma => dmaCfg
  | .codec => codecCfg
  | .pcie => pcieCfg
  | .eth => ethCfg
  | .ptp => ptpCfg
  | .sahf => sahfCfg
  | .i2cm => i2cmCfg
  | .aon => aonCfg
  | .dev => []
  | .tally => []
  | .pwr => []
  | .spis => []
  | .legacy => []

/-- The read-only live and window fields of a block. -/
def Block.ro : Block → List Fld
  | .dev => devRo
  | .foreman => foremanRo
  | .journal => journalRo
  | .trouble => troubleRo
  | .hk => hkRo
  | .pfe => pfeRo
  | .tiu => tiuRo
  | .tally => tallyRo
  | .pwr => pwrRo
  | .shot => shotRo
  | .syn => synRo
  | .emit => emitRo
  | .canary => canaryRo
  | .lane => laneRo
  | .raml => ramlRo
  | .trim => trimRo
  | .chan => chanRo
  | .phase => phaseRo
  | .gauge => gaugeRo
  | .pfilt => pfiltRo
  | .zone => zoneRo
  | .trig => trigRo
  | .capt => captRo
  | .raman => ramanRo
  | .reel => reelRo
  | .ddr => ddrRo
  | .memx => memxRo
  | .sram => sramRo
  | .dma => dmaRo
  | .codec => codecRo
  | .pcie => pcieRo
  | .eth => ethRo
  | .ptp => ptpRo
  | .sahf => sahfRo
  | .i2cm => i2cmRo
  | .aon => aonRo
  | .spis => []
  | .legacy => []

/-- The read-write live and window fields of a block. -/
def Block.rw : Block → List Fld
  | .dev => devRw
  | .foreman => foremanRw
  | .journal => journalRw
  | .trouble => troubleRw
  | .phase => phaseRw
  | .pfilt => pfiltRw
  | .zone => zoneRw
  | .memx => memxRw
  | .dma => dmaRw
  | .pcie => pcieRw
  | .eth => ethRw
  | .ptp => ptpRw
  | .sahf => sahfRw
  | .legacy => legacyRw
  | .aon => aonRw
  | .hk => []
  | .pfe => []
  | .tiu => []
  | .tally => []
  | .pwr => []
  | .shot => []
  | .syn => []
  | .emit => []
  | .canary => []
  | .lane => []
  | .raml => []
  | .trim => []
  | .chan => []
  | .gauge => []
  | .trig => []
  | .capt => []
  | .raman => []
  | .reel => []
  | .ddr => []
  | .sram => []
  | .codec => []
  | .spis => []
  | .i2cm => []

/-- The command registers of a block. -/
def Block.wc : Block → List Fld
  | .dev => devWc
  | .foreman => foremanWc
  | .hk => hkWc
  | .tiu => tiuWc
  | .tally => tallyWc
  | .pwr => pwrWc
  | .canary => canaryWc
  | .phase => phaseWc
  | .pfilt => pfiltWc
  | .trig => trigWc
  | .memx => memxWc
  | .dma => dmaWc
  | .codec => codecWc
  | .ptp => ptpWc
  | .i2cm => i2cmWc
  | .journal => []
  | .trouble => []
  | .pfe => []
  | .shot => []
  | .syn => []
  | .emit => []
  | .lane => []
  | .raml => []
  | .trim => []
  | .chan => []
  | .gauge => []
  | .zone => []
  | .capt => []
  | .raman => []
  | .reel => []
  | .ddr => []
  | .sram => []
  | .pcie => []
  | .eth => []
  | .sahf => []
  | .spis => []
  | .legacy => []
  | .aon => []


/-- A directory entry (R16, R463). `unit` is the line, port or sub-channel the page serves (0 for a
single page); it differs from INSTANCE where the pages of the two lines have BLOCK_IDs of their own. -/
structure Page where
  num      : Nat
  block    : Block
  unit     : Nat
  blockId  : Nat
  inst     : Nat
  domain   : Nat
  boundary : Nat
deriving DecidableEq, Repr

/-- Directory entries from 0 (R463). -/
def directory0 : List Page :=
  [⟨0x000, .dev, 0, 0x0001, 0, 1, 0⟩,
   ⟨0x100, .foreman, 0, 0x1001, 0, 1, 0⟩,
   ⟨0x101, .journal, 0, 0x1002, 0, 1, 0⟩,
   ⟨0x102, .trouble, 0, 0x1003, 0, 1, 0⟩,
   ⟨0x103, .hk, 0, 0x1004, 0, 1, 5⟩,
   ⟨0x104, .pfe, 0, 0x1005, 0, 9, 5⟩,
   ⟨0x105, .tiu, 0, 0x1006, 0, 1, 0⟩,
   ⟨0x106, .tiu, 1, 0x1006, 1, 1, 0⟩,
   ⟨0x107, .tally, 0, 0x1007, 0, 1, 0⟩,
   ⟨0x108, .pwr, 0, 0x1008, 0, 1, 0⟩,
   ⟨0x200, .shot, 0, 0x2001, 0, 10, 1⟩,
   ⟨0x201, .shot, 1, 0x2001, 1, 10, 1⟩,
   ⟨0x202, .syn, 0, 0x2002, 0, 5, 1⟩,
   ⟨0x203, .syn, 1, 0x2003, 0, 6, 1⟩,
   ⟨0x204, .emit, 0, 0x2004, 0, 10, 1⟩,
   ⟨0x205, .emit, 1, 0x2004, 1, 10, 1⟩,
   ⟨0x206, .canary, 0, 0x2005, 0, 10, 1⟩,
   ⟨0x207, .canary, 1, 0x2005, 1, 10, 1⟩,
   ⟨0x300, .lane, 0, 0x3001, 0, 5, 1⟩,
   ⟨0x301, .lane, 1, 0x3002, 0, 6, 1⟩]

/-- Directory entries from 20 (R463). -/
def directory1 : List Page :=
  [⟨0x302, .raml, 0, 0x3003, 0, 8, 1⟩,
   ⟨0x303, .raml, 1, 0x3003, 1, 8, 1⟩,
   ⟨0x304, .trim, 0, 0x3004, 0, 5, 1⟩,
   ⟨0x305, .trim, 1, 0x3004, 1, 6, 1⟩,
   ⟨0x400, .chan, 0, 0x4001, 0, 7, 1⟩,
   ⟨0x401, .chan, 1, 0x4002, 0, 7, 1⟩,
   ⟨0x402, .phase, 0, 0x4003, 0, 7, 1⟩,
   ⟨0x403, .phase, 1, 0x4004, 0, 7, 1⟩,
   ⟨0x404, .gauge, 0, 0x4005, 0, 7, 1⟩,
   ⟨0x405, .gauge, 1, 0x4006, 0, 7, 1⟩,
   ⟨0x406, .pfilt, 0, 0x4007, 0, 7, 2⟩,
   ⟨0x407, .pfilt, 1, 0x4007, 1, 7, 2⟩,
   ⟨0x408, .zone, 0, 0x4008, 0, 7, 2⟩,
   ⟨0x409, .zone, 1, 0x4008, 1, 7, 2⟩,
   ⟨0x40A, .trig, 0, 0x4009, 0, 7, 2⟩,
   ⟨0x40B, .trig, 1, 0x4009, 1, 7, 2⟩,
   ⟨0x40C, .capt, 0, 0x400A, 0, 7, 2⟩,
   ⟨0x40D, .capt, 1, 0x400A, 1, 7, 2⟩,
   ⟨0x40E, .raman, 0, 0x400B, 0, 8, 3⟩,
   ⟨0x40F, .raman, 1, 0x400B, 1, 8, 3⟩]

/-- Directory entries from 40 (R463). -/
def directory2 : List Page :=
  [⟨0x410, .reel, 0, 0x400C, 0, 7, 1⟩,
   ⟨0x411, .reel, 1, 0x400C, 1, 7, 1⟩,
   ⟨0x500, .ddr, 0, 0x5001, 0, 4, 8⟩,
   ⟨0x501, .ddr, 1, 0x5001, 1, 4, 8⟩,
   ⟨0x502, .ddr, 2, 0x5001, 2, 4, 8⟩,
   ⟨0x503, .ddr, 3, 0x5001, 3, 4, 8⟩,
   ⟨0x504, .memx, 0, 0x5002, 0, 4, 0⟩,
   ⟨0x505, .sram, 0, 0x5003, 0, 4, 0⟩,
   ⟨0x506, .dma, 0, 0x5004, 0, 4, 6⟩,
   ⟨0x507, .codec, 0, 0x5005, 0, 11, 7⟩,
   ⟨0x600, .pcie, 0, 0x6001, 0, 2, 4⟩,
   ⟨0x601, .eth, 0, 0x6002, 0, 3, 4⟩,
   ⟨0x602, .eth, 1, 0x6002, 1, 3, 4⟩,
   ⟨0x603, .ptp, 0, 0x6003, 0, 2, 4⟩,
   ⟨0x604, .sahf, 0, 0x6004, 0, 2, 4⟩,
   ⟨0x605, .spis, 0, 0x6005, 0, 2, 4⟩,
   ⟨0x606, .legacy, 0, 0x6006, 0, 2, 4⟩,
   ⟨0x607, .i2cm, 0, 0x6007, 0, 3, 4⟩,
   ⟨0x700, .aon, 0, 0x7001, 0, 0, 9⟩]

/-- The directory of the NHR7020, in entry order (R463). -/
def directory : List Page := directory0 ++ directory1 ++ directory2

/-- N_EVENTS of a block: the event pairs of its page (R16); TRIG has pairs 7 to 10 in instance 0 only. -/
def Block.nEvents : Block → Nat
  | .dev => 5
  | .foreman => 9
  | .journal => 6
  | .trouble => 8
  | .hk => 10
  | .pfe => 8
  | .tiu => 9
  | .tally => 4
  | .pwr => 8
  | .shot => 10
  | .syn => 7
  | .emit => 6
  | .canary => 13
  | .lane => 8
  | .raml => 8
  | .trim => 8
  | .chan => 7
  | .phase => 8
  | .gauge => 5
  | .pfilt => 8
  | .zone => 7
  | .trig => 11
  | .capt => 10
  | .raman => 9
  | .reel => 7
  | .ddr => 9
  | .memx => 21
  | .sram => 7
  | .dma => 11
  | .codec => 11
  | .pcie => 8
  | .eth => 10
  | .ptp => 9
  | .sahf => 12
  | .spis => 7
  | .legacy => 7
  | .i2cm => 6
  | .aon => 8
/-- The DEV page (R463). -/
def pgDev : Nat := 0x000

/-- The FOREMAN page (R463). -/
def pgForeman : Nat := 0x100

/-- The JOURNAL page (R463). -/
def pgJournal : Nat := 0x101

/-- The TROUBLE page (R463). -/
def pgTrouble : Nat := 0x102

/-- The HK page (R463). -/
def pgHk : Nat := 0x103

/-- The PFE page (R463). -/
def pgPfe : Nat := 0x104

/-- The TALLY page (R463). -/
def pgTally : Nat := 0x107

/-- The PWR page (R463). -/
def pgPwr : Nat := 0x108

/-- The MEMX page (R463). -/
def pgMemx : Nat := 0x504

/-- The SRAM page (R463). -/
def pgSram : Nat := 0x505

/-- The DMA page (R463). -/
def pgDma : Nat := 0x506

/-- The CODEC page (R463). -/
def pgCodec : Nat := 0x507

/-- The PCIE page (R463). -/
def pgPcie : Nat := 0x600

/-- The PTP page (R463). -/
def pgPtp : Nat := 0x603

/-- The SAHF page (R463). -/
def pgSahf : Nat := 0x604

/-- The SPIS page (R463). -/
def pgSpis : Nat := 0x605

/-- The LEGACY page (R463). -/
def pgLegacy : Nat := 0x606

/-- The I2CM page (R463). -/
def pgI2cm : Nat := 0x607

/-- The AON page (R463). -/
def pgAon : Nat := 0x700

/-- The TIU page of unit `u` (R463). -/
def pgTiu (u : Nat) : Nat := 0x105 + u

/-- The DDR page of unit `u` (R463). -/
def pgDdr (u : Nat) : Nat := 0x500 + u

/-- The ETH page of unit `u` (R463). -/
def pgEth (u : Nat) : Nat := 0x601 + u

/-- The SHOT page of line `x` (R463). -/
def pgShot (x : Line) : Nat := 0x200 + x.idx

/-- The SYN page of line `x` (R463). -/
def pgSyn (x : Line) : Nat := 0x202 + x.idx

/-- The EMIT page of line `x` (R463). -/
def pgEmit (x : Line) : Nat := 0x204 + x.idx

/-- The CANARY page of line `x` (R463). -/
def pgCanary (x : Line) : Nat := 0x206 + x.idx

/-- The LANE page of line `x` (R463). -/
def pgLane (x : Line) : Nat := 0x300 + x.idx

/-- The RAML page of line `x` (R463). -/
def pgRaml (x : Line) : Nat := 0x302 + x.idx

/-- The TRIM page of line `x` (R463). -/
def pgTrim (x : Line) : Nat := 0x304 + x.idx

/-- The CHAN page of line `x` (R463). -/
def pgChan (x : Line) : Nat := 0x400 + x.idx

/-- The PHASE page of line `x` (R463). -/
def pgPhase (x : Line) : Nat := 0x402 + x.idx

/-- The GAUGE page of line `x` (R463). -/
def pgGauge (x : Line) : Nat := 0x404 + x.idx

/-- The PFILT page of line `x` (R463). -/
def pgPfilt (x : Line) : Nat := 0x406 + x.idx

/-- The ZONE page of line `x` (R463). -/
def pgZone (x : Line) : Nat := 0x408 + x.idx

/-- The TRIG page of line `x` (R463). -/
def pgTrig (x : Line) : Nat := 0x40A + x.idx

/-- The CAPT page of line `x` (R463). -/
def pgCapt (x : Line) : Nat := 0x40C + x.idx

/-- The RAMAN page of line `x` (R463). -/
def pgRaman (x : Line) : Nat := 0x40E + x.idx

/-- The REEL page of line `x` (R463). -/
def pgReel (x : Line) : Nat := 0x410 + x.idx


/-- The page of a number, if the directory lists it (R463). -/
def pageOf (num : Nat) : Option Page := directory.find? (fun p => p.num == num)

/-- The directory entry number of a page (R463). -/
def entryOf (num : Nat) : Option Nat := directory.findIdx? (fun p => p.num == num)

/-- The reset value that the fields of a list give the word at `off`. -/
def wordReset (l : List Fld) (off : Nat) : Nat :=
  l.foldl (fun acc f => if f.off = off then acc + f.reset * 2 ^ f.lo else acc) 0

/-- The implemented bits of the word at `off` in a list of fields. -/
def wordMask (l : List Fld) (off : Nat) : Nat :=
  l.foldl (fun acc f => if f.off = off then acc ||| ((2 ^ (f.hi + 1 - f.lo) - 1) * 2 ^ f.lo) else acc) 0

/-- Whether a list of fields implements the word at `off`. -/
def hasWord (l : List Fld) (off : Nat) : Bool := l.any (fun f => f.off == off)

/-- N_EVENTS of a page: TRIG counts pairs 7 to 10 in instance 0 only (chapter 08). -/
def Page.nEvents (p : Page) : Nat :=
  if p.block = .trig ∧ p.unit = 1 then 7 else p.block.nEvents

/-- Whether a word of the block belongs to instance 0 only: REEL regions, TRIG alarms, RAMAN pair. -/
def Page.lacks (p : Page) (off : Nat) : Bool :=
  p.unit == 1 &&
    ((p.block == .reel && (off == 0x100 || off == 0x104)) ||
     (p.block == .trig && ((0x110 ≤ off && off < 0x120) || off == 0x910 || off == 0x980)) ||
     (p.block == .raman && (off == 0x130 || off == 0x924 || off == 0x928)))

/-- Base and size of the window region of a page, (0, 0) where it has none (R17). -/
def Page.window (p : Page) : Nat × Nat :=
  match p.block with
  | .capt => (0x800000, 0x200000)
  | .zone => (0xA00000, 0x40000)
  | .trig => (0xA40000, 0x8000)
  | .shot => (0xA60000 + 0x2000 * p.unit, 0x2000)
  | _ => (0, 0)

/-- PAGE_CAPS.HAS_WINDOW: the page has a table in its 1 KiB window (R19). DMA's registers from 0xC00 on are
doorbells and no table: its bit is 0. DEDUCED: log entry 115. -/
def Block.hasWindow : Block → Bool
  | .dev | .foreman | .journal | .trouble | .raml | .trim | .chan | .pfilt | .eth | .sahf
  | .legacy | .pcie => true
  | _ => false

/-- The silicon version of the modelled part, the value of IDCODE[31:28] (R463, R464). -/
def siliconVersion : Nat := 1

/-- PAGE_REV: DEV's is the silicon version, every other page's is 1 (R463). -/
def Page.rev (p : Page) : Nat := if p.block = .dev then siliconVersion else 1

/-- PAGE_ID (R19). -/
def Page.id (p : Page) : Nat := p.blockId * 0x10000 + p.inst * 0x100 + p.rev

/-- PAGE_CAPS (R19, R37). -/
def Page.caps (p : Page) : Nat :=
  (if p.window.2 = 0 then 0 else 2 ^ 31) + (if p.block.hasWindow then 2 ^ 30 else 0) +
  (if p.domain = 0 then 2 ^ 29 else 0) + p.nEvents * 2 ^ 24 + p.boundary * 2 ^ 20

/-- The words of the directory in DEV's window (R16). -/
def directoryWord (i : Nat) : Nat :=
  match directory[i / 2]? with
  | none => 0
  | some p =>
    if i % 2 = 0 then p.blockId * 0x10000 + p.num
    else p.domain * 2 ^ 28 + p.boundary * 2 ^ 24 + p.inst * 2 ^ 16 + p.nEvents * 2 ^ 8 + p.rev

/-- Reset values of the header words of a page (R19). -/
def Page.headerReset (p : Page) (off : Nat) : Nat :=
  if off = 0x000 then p.id
  else if off = 0x004 then p.caps
  else if off = 0x02C then p.window.1
  else if off = 0x030 then p.window.2
  else 0

/-- Reset value of a word of a page: header, configuration in both views, live registers, window. -/
def Page.wordReset (p : Page) (off : Nat) : Nat :=
  if off < 0x100 then p.headerReset off
  else if p.block = .dev then (if 0xC00 ≤ off then directoryWord ((off - 0xC00) / 4) else 0)
  else if off < 0x500 then Machine.wordReset p.block.cfg off
  else if off < 0x900 then Machine.wordReset p.block.cfg (off - 0x400)
  else Machine.wordReset p.block.ro off + Machine.wordReset p.block.rw off

/-- Reset value of a word of the table window regions, in both views (R49, R195, R203, R215). -/
def regionReset (a : Nat) : Nat :=
  if a < 0xA00000 then 0
  else if a < 0xA40000 then (if a / 4 % 8 = 1 ∨ a / 4 % 8 = 2 then 1 else 0)
  else if a < 0xA48000 then (if a / 4 % 8 = 3 then 0x00010001 else 0)
  else if 0xA60000 ≤ a ∧ a < 0xA64000 then (if a % 0x1000 < 0x80 ∧ a % 16 = 0 then 250 else 0)
  else 0

/-- The reset value of the word at an address of the register space.
DESIGN CHOICE: log entry 6. DEDUCED: log entry 7. -/
def Layout.reset (a : Nat) : Word :=
  if a < 0x800000 then
    match pageOf (a / 0x1000) with
    | some p => Word.ofNat (p.wordReset (a % 0x1000))
    | none => 0
  else Word.ofNat (regionReset a)

end Sys2Proof.Machine
end

