-- ==== Sys2Proof/Machine/State.lean ====
section
/-!
DEFINITION. The state of the NHR7020, as plain data: every register (one sparse word map over the
register space of R14), the state behind the registers that the chapters give each block, and the
queue of waiting commands. Ticks and slow edges are natural numbers; registers show them modulo
their width.
-/
namespace Sys2Proof.Machine

/-- A sparse map from word addresses to words, addresses strictly rising, no entry equal to what an
unlisted address reads as. -/
abbrev RegMap := List (Nat × Word)

-- ---- time (chapter 00, 13) -------------------------------------------------------------------

/-- The clocks (R10): `cyc` counts 1.6 ns periods since VAON was applied and gives the slow edges;
`tick` is the core tick; `time` is device time in units of 1/327,680,000,000 ns, the exact
increment of a core cycle under FREQ being 8 × (65,536,000,000 + FREQ) of them (R356); `lost` after
the core clock has failed while it should run (R87). DESIGN CHOICE: log entry 5. -/
structure Clock where
  cyc    : Nat := 0
  tick   : Nat := 0
  time   : Nat := 0
  freq   : Int := 0
  coreOn : Bool := false
  lost   : Bool := false
deriving DecidableEq, Repr

-- ---- applying (chapter 01) -------------------------------------------------------------------

/-- An armed page (R23, R24): the link of the write that armed it, the SEQ of the APPLY_SET or STROBE entry
that armed it (0 otherwise), the cycle of arming. -/
structure Armed where
  page : Nat
  link : Nat
  seq  : Nat
  tick : Nat
deriving DecidableEq, Repr

/-- An apply whose journal entry is not yet committed (R25): cycle b, the boundary code, CFG_CHECK
before the apply. -/
structure Applied where
  page     : Nat
  link     : Nat
  seq      : Nat
  boundary : Nat
  rejected : Bool
  tick     : Nat
  oldCheck : Word
deriving DecidableEq, Repr

/-- A queued write of an AON register (R32): its offset, value, source link, latest slow edge. -/
structure AonWrite where
  off   : Nat
  value : Word
  link  : Nat
  due   : Nat
deriving DecidableEq, Repr

/-- The apply machinery and the bus: armed pages, applies in flight, the groups of an armed DMA or
CODEC page still to be copied (page, group; R312), words failing parity, pages whose line was stopped or whose
work is held for a parity fault (R39: SHOT for a line's shots, CHAN and PHASE since a round boundary),
latched high words (R21), the AON queue. -/
structure Bus where
  armed     : List Armed := []
  marks     : List (Nat × Nat) := []
  applied   : List Applied := []
  parityBad : List Nat := []
  faultHold : List Nat := []
  latch     : List (Nat × Word) := []
  aonQueue  : List AonWrite := []
deriving DecidableEq, Repr

-- ---- journal, trouble log (chapter 14) -------------------------------------------------------

/-- A journal entry (R387). -/
structure JEntry where
  seq    : Nat
  time   : Nat
  link   : Nat
  kind   : Nat
  code   : Nat
  page   : Nat
  result : Nat
  flags  : Nat
  digest : Nat
  arg    : Nat
deriving DecidableEq, Repr

/-- The journal store (newest first, at most 4,096), the retention store in AON (newest first, at
most 256), entries not yet copied there, entries waiting for their stream message (oldest first)
with the tick of the first, the first core cycle in which the next entry can commit (R389 to R391). -/
structure Journal where
  entries  : List JEntry := []
  nextSeq  : Nat := 0
  uncopied : List JEntry := []
  retained : List JEntry := []
  outbox   : List JEntry := []
  outFrom  : Nat := 0
  freeAt   : Nat := 0
deriving DecidableEq, Repr

/-- A trouble entry (R393). -/
structure TEntry where
  time     : Nat
  severity : Nat
  page     : Nat
  code     : Nat
  arg      : Nat
deriving DecidableEq, Repr

/-- The trouble log (newest first, at most 2,048), its input queue's fill at a tick, entries and
notifications lost since the last entry that reported them, the handler's notification queue and
the notifications being handled (innermost first), the outbox (R393 to R396). -/
structure Trouble where
  entries  : List TEntry := []
  fill     : Nat := 0
  fillTick : Nat := 0
  dropped  : Nat := 0
  lost     : Nat := 0
  queue    : List TEntry := []
  handling : List TEntry := []
  outbox   : List TEntry := []
  outFrom  : Nat := 0
deriving DecidableEq, Repr

-- ---- launching light (chapter 02) ------------------------------------------------------------

/-- A shot record (R73). -/
structure ShotRec where
  tick  : Nat
  time  : Nat
  seq   : Nat
  round : Nat
  line  : Nat
  group : Nat
  tones : Nat
  flags : Nat
  cfg   : Nat
deriving DecidableEq, Repr

/-- The sequencer of a line. `nextEdge` is the scheduled gate edge of slot `nextSlot` (none while
no slot is scheduled); `extWait` while SHOT waits for TRIG_IN; `lastAccept` the last accepted edge;
`tones` the last launch of each tone and `raman` of the Raman pulse; `echoEnd` the latest echo end
(R59); `slotCount` counts slots for Raman pulses (R57); `calRound` while a calibration round runs
with its dead time from `deadFrom` to `deadTo`; `deadEnd` the slow edge from which DEAD_AGE counts;
`taken` a diagnostic request waiting for the next slot (R61); `calForced` once DEAD_AGE has expired
with a request pending (R60); `ramanDue` the start of the Raman pulse still to come.
DESIGN CHOICE: log entry 5. -/
structure Shot where
  nextSlot    : Nat := 0
  nextEdge    : Option Nat := none
  lastEdge    : Option Nat := none
  extWait     : Bool := false
  lastAccept  : Option Nat := none
  tones       : List (Option Nat) := List.replicate 8 none
  raman       : Option Nat := none
  echoEnd     : Nat := 0
  slotCount   : Nat := 0
  sinceCal    : Nat := 0
  calRound    : Bool := false
  deadFrom    : Option Nat := none
  deadTo      : Nat := 0
  inDead      : Bool := false
  deadEnd     : Nat := 0
  holdTo      : Option Nat := none
  newPlan     : Bool := false
  appliedFlag : Bool := false
  taken       : Bool := false
  calForced   : Bool := false
  ramanDue    : Option Nat := none
  nextSeq     : Nat := 0
deriving DecidableEq, Repr

/-- A slot on its way down the line: its shot record, the register space as it stood at its launch (the
slot configuration of R125), whether a lane gain changed at its first sample (R102), the ticks of a
hold before it (R62), whether CHAN leaves its traces unprocessed for a parity fault (R138) or because
a reel block failed its CRC (R405), whether PHASE or GAUGE stands under the response of R39, whether CHAN found the
guard of its round short (R126). -/
structure Slot where
  shot     : ShotRec
  cfg      : RegMap
  gainStep : Bool := false
  hold     : Nat := 0
  chanHold : Bool := false
  phaseHold : Bool := false
  guardHold : Bool := false
deriving DecidableEq, Repr

-- ---- emitters and Canary (chapter 03) --------------------------------------------------------

/-- A colour loop (R79 to R81): the readings since the last run, the integrator, consecutive runs in
the lock window and outside the fault window, whether the laser has been LOCKED, the slow edge from
which its 120 s run, the tick from which results of the
compensation input count, the tick of the next run. -/
structure ColourLoop where
  sum      : Int := 0
  count    : Nat := 0
  integ    : Int := 0
  inRuns   : Nat := 0
  outRuns  : Nat := 0
  wasLocked : Bool := false
  enabled  : Option Nat := none
  hkFrom   : Nat := 0
  nextRun  : Nat := 0
deriving DecidableEq, Repr

/-- The output cells of a line (R68, R77, R84, R85): what EMIT asks of each (a gate with the tick at which it turns off,
the steady enables), the cell's copy of the permit, and the levels at the balls. -/
structure Cells where
  soaOn    : Bool := false
  soaOff   : Nat := 0
  soaFrom  : Nat := 0
  ramOn    : Bool := false
  ramOff   : Nat := 0
  ramFrom  : Nat := 0
  seedOn   : Bool := false
  boostOn  : Bool := false
  permit   : Bool := false
  gateSoa  : Bool := false
  gateRam  : Bool := false
  enSeed   : Bool := false
  enBoost  : Bool := false
deriving DecidableEq, Repr

/-- One copy of a CANARY page (R96): its configuration words by page offset, its state.
DEDUCED: log entry 112. -/
structure Copy where
  cfg   : RegMap := []
  state : Nat := 0
deriving DecidableEq, Repr

/-- A lit slot whose windows are open (R88): its launch tick, whether it launched only a Raman pulse, whether
its reflection check has failed, whether its witness verdict has fallen, whether it has failed either check, the
launch of the slot after it, which ends its windows (R90). -/
structure LitSlot where
  launch    : Nat
  ramanOnly : Bool
  reflFail  : Bool := false
  judged    : Bool := false
  failed    : Bool := false
  next      : Option Nat := none
deriving DecidableEq, Repr

/-- The Canary of a line. `cut` is the decision cycle of a cause whose gates are still to go low;
`step` the probe's step (R93), 0 outside a probe; `settle` the slow edge from which the seed has
been settled; `stepEnd` the slow edge at which step 3 ends; `session` the slow edge at which the
service session ends; `drive` the tick since which each emitter is driven (true) or not; `spHeld` the
codes driven at the decision of a cause, until d + 3, `wasPermit` whether the permit stood until d + 2 (R85); `probeDue` the slow edge of the next automatic probe, and
`probeHeld` the slow edges left while Service mode holds the count (R95). -/
structure Canary where
  copy0      : Copy := {}
  copy1      : Copy := {}
  cut        : Option Nat := none
  step       : Nat := 0
  settle     : Option Nat := none
  stepEnd    : Nat := 0
  fails      : Nat := 0
  lit        : List LitSlot := []
  probeDue   : Option Nat := none
  darkFrom   : Nat := 0
  stuckLight : Bool := false
  stuckOn    : List Bool := [false, false, false, false]
  drive      : List (Bool × Nat) := [(false, 0), (false, 0), (false, 0), (false, 0)]
  needSoa    : Bool := false
  needRam    : Bool := false
  diagReq    : Bool := false
  diagSlot   : Option Nat := none
  diagSoa    : Bool := false
  diagRam    : Bool := false
  session    : Option Nat := none
  noWitness  : Bool := false
  spHeld     : List Nat := [0, 0, 0, 0]
  wasPermit  : Bool := false
  probeHeld  : Option Nat := none
deriving DecidableEq, Repr

-- ---- coherent lanes and calibrations (chapter 04, R71, R230) ---------------------------------

/-- A field calibration (R114 to R119, R71, R230): a pending request, the iteration and passes done
in it, sums of the offset passes per core and of the tone passes per core and sample residue, the
field words kept for a failure, calibration rounds without a pass, a return to the factory set
waiting for its boundary; whether the calibration round in progress began with the request pending (R118). -/
structure CalRun where
  pending    : Bool := false
  running    : Bool := false
  iter       : Nat := 0
  pass       : Nat := 0
  sums       : List Int := []
  count      : Nat := 0
  bins       : List (List Int) := []
  binCount   : Nat := 0
  saved      : List Word := []
  savedValid : Bool := false
  starve     : Nat := 0
  ran        : Bool := false
  factory    : Bool := false
  whole      : Bool := false
deriving DecidableEq, Repr

/-- A trim page (R110 to R113, R229): the last eight die-temperature readings (newest first), the
HK tick of the last one, its field calibration. -/
structure TrimSt where
  temps    : List Int := []
  lastTick : Option Nat := none
  cal      : CalRun := {}
deriving DecidableEq, Repr

/-- A slot of the lane stream: where it ended, its slot word once passed (R107). -/
structure SlotSpan where
  slot : Slot
  stop : Option Nat := none
  word : Option Nat := none
deriving DecidableEq, Repr

/-- The statistics of a lane over the round in progress (R108). -/
structure LaneAcc where
  sum  : Int := 0
  sq   : Nat := 0
  n    : Nat := 0
  ovr  : Nat := 0
  peak : Nat := 0
deriving DecidableEq, Repr

/-- The lanes of a line (R100 to R108): slots of the stream (newest first), STUCK cores, cores that were STUCK at
some time since the last slot word, statistics, a gain change waiting for its slot. -/
structure LaneSt where
  spans     : List SlotSpan := []
  stuck     : List Bool := List.replicate 8 false
  stuckSlot : List Bool := List.replicate 8 false
  acc       : List LaneAcc := List.replicate 4 {}
  gainStep  : Bool := false
deriving DecidableEq, Repr

/-- The lane PLL, common to both lines (R106): locked or not since a tick, earlier losses. -/
structure Pll where
  locked : Bool := false
  since  : Nat := 0
  losses : List (Nat × Nat) := []
deriving DecidableEq, Repr

-- ---- traces and points (chapters 05, 06) ------------------------------------------------------

/-- A branch word of R135: the value of a bin in one polarisation. -/
structure BinVal where
  rr   : Int
  ri   : Int
  amp  : Nat
  qual : Nat
deriving DecidableEq, Repr

/-- The header of a block of a trace (R135); FLAGS: 4 NOT_PROCESSED, 2 LAST, 1 FIRST. -/
structure SentHead where
  seq   : Nat
  tone  : Nat
  q     : Nat
  count : Nat
  flags : Nat
  cfg   : Word
deriving DecidableEq, Repr

/-- A trace (R124): its tone, whether it is only a notice, the next block, the cycle from which the
next block may leave, the cycle in which the first bin of each block left, the bins delivered (X and Y). -/
structure Trace where
  tone   : Nat
  notice : Bool := false
  next   : Nat := 0
  free   : Nat := 0
  starts : List Nat := []
  last   : Bool := false
  bins   : List (BinVal × BinVal) := []
deriving DecidableEq, Repr

/-- A shot on its way through CHAN, PHASE, GAUGE and PFILT: its traces, whether it is a gap shot
(R156), the next point, the ticks of the shots before it (newest first, R154), the line's EPOCH at
it, counts of its points; the PFILT frame it belongs to, whether it opens that frame's input, ends an
input slot, and is the frame's output instant (R167). -/
structure PhaseShot where
  slot     : Slot
  traces   : List Trace
  gap      : Bool
  next     : Nat := 0
  ticks    : List Nat
  epoch    : Nat
  overload : Bool := false
  faded    : Nat := 0
  settling : Nat := 0
  clipped  : Nat := 0
  frame    : Option Nat := none
  first    : Bool := false
  sample   : Bool := false
  out      : Bool := false
deriving DecidableEq, Repr

/-- PHASE of a line: the shots in flight (oldest first), the ticks of the last shots (newest first),
the last traced shot (R157), the cycle of the apply that asks for a restart at the next traced shot, the pending
out-of-service command (R158): SET or not, first point, count; a pending clear of the map; the newest block header of
each tone path (R135); the newest point block header (SEQ, first point, count) and point word (R162). -/
structure PhaseSt where
  shots    : List PhaseShot := []
  ticks    : List Nat := []
  traced   : Option Slot := none
  restart  : Option Nat := none
  oos      : Option (Bool × Nat × Nat) := none
  oosClear : Bool := false
  heads    : List (Option SentHead) := List.replicate 8 none
  block    : Option (Nat × Nat × Nat) := none
  word     : Nat := 0
deriving DecidableEq, Repr

-- ---- point frames (chapter 07) ----------------------------------------------------------------

/-- A gap record of PFILT, ZONE or RAMAN (R186, R203, R236). -/
structure GapRec where
  cause      : Nat
  firstSeq   : Nat := 0
  slots      : Nat := 0
  tick       : Nat := 0
  time       : Nat := 0
  ticks      : Nat := 0
  firstFrame : Nat := 0
  frames     : Nat := 0
  firstPoint : Nat := 0
  points     : Nat := 0
deriving DecidableEq, Repr

/-- A point frame on its way to release (R167 to R189): the register space at its boundary; the first
input slot's SEQ, COUNT and exponent; input slots, slots and gap shots so far, the last slot's stamps;
whether all its slots have come, whether it ends unemitted and for which cause; what its first
sample does to each point's state (R181: 0 nothing, 1 TAINT = L, 2 decimator cleared, 3 all cleared);
the values so far (newest point first), counts and flags; its gap records; the range of LOST points
with the first and last such shot; the cycle in which its last point word came; whether the band states clear
with it (R199) and it follows a ZONE apply, the conditions that are set inactive with it (R206), and which of PFILT
(bit 0), ZONE (1) and TRIG (2) a configuration fault held at its boundary (R39). -/
structure PFrame where
  seq      : Nat
  cfg      : RegMap
  firstSeq : Nat
  count    : Nat
  expo     : Nat
  startTick : Nat
  startTime : Nat := 0
  slots    : Nat := 0
  shots    : Nat := 0
  gapShots : Nat := 0
  traced   : Bool := false
  lastTick : Nat := 0
  lastTime : Nat := 0
  closed   : Bool := false
  abandon  : Bool := false
  endCause : Nat := 9
  action   : Nat := 0
  applied  : Bool := false
  vals     : List Nat := []
  invalid  : Nat := 0
  clipped  : Nat := 0
  causes   : Nat := 0
  frozen   : Bool := false
  gaps     : List GapRec := []
  lost     : Option (Nat × Nat) := none
  lostShot : Option (ShotRec × ShotRec) := none
  ready    : Option Nat := none
  bandClear : Bool := false
  zoneNew  : Bool := false
  condReset : Nat := 0
  held     : Nat := 0
deriving DecidableEq, Repr

/-- A freeze request of TRIG (R174): condition, frame, points. -/
structure FreezeReq where
  cond  : Nat
  frame : Nat
  first : Nat
  count : Nat
deriving DecidableEq, Repr

/-- PFILT of a line: frames from the oldest not yet released to the one in progress, the next
FRAME_SEQ, whether the first frame is still to start, since when the page has been disabled, the
geometry and exponent of the last shot, what an apply does to the points at the next frame's first
sample, whether the next frame follows an apply, the credit's last TICK (none while no frame has
been decided since C was set), records waiting for the next frame released with the gap headers of the frames
they stand for (R214), freeze requests on their way, LAG_EFF of the last apply (R175), the last frame released,
and where the line's shots stopped, with the cause its record gives, until the next shot comes (R9). -/
structure PfSt where
  frames   : List PFrame := []
  nextSeq  : Nat := 0
  starting : Bool := true
  offSince : Option Nat := some 0
  geom     : Option (List Nat) := none
  action   : Nat := 0
  applied  : Bool := false
  prevTick : Option Nat := none
  pending  : List GapRec := []
  freezes  : List FreezeReq := []
  lag      : Nat := 0
  lastRel  : Nat := 0
  heads    : List (Nat × List Byte) := []
  stopped  : Option (Nat × Nat) := none
deriving DecidableEq, Repr

-- ---- zones, triggers, capture (chapter 08) -----------------------------------------------------

/-- A zone's reductions in a frame (R198). -/
structure ZoneRec where
  zone    : Nat
  rangeBad : Bool
  indet   : Bool
  nvalid  : Nat
  mean    : Int
  rms     : Nat
  min     : Int
  max     : Int
  peak    : Nat
  point   : Nat
  zc      : Nat
  bandA   : Nat
  bandB   : Nat
deriving DecidableEq, Repr

/-- A released frame on its way through ZONE and TRIG: the frame, its release cycle, values, band
differences (R197), whether BAND_AGE is still short, the zones still to reduce, the completion cycle of
the last of all its zones, the rank of the next, the records so far, the conditions met and released in it with their values, whether the combinations have been decided. -/
structure ZFrame where
  frame    : PFrame
  rel      : Nat
  vals     : List Int
  bands    : List (Int × Int)
  settling : Bool
  zones    : List Nat
  last     : Nat
  rank     : Nat := 0
  recs     : List ZoneRec := []
  met      : List (Nat × Int) := []
  released : List (Nat × Int) := []
  combined : Bool := false
deriving DecidableEq, Repr

/-- An ALARM edge on its way to a ball (R211): the cycle it leaves, whether it asserts. -/
structure AlarmEdge where
  ball  : Nat
  tick  : Nat
  raise : Bool
deriving DecidableEq, Repr

/-- ZONE and TRIG of a line (R196 to R210): released frames not yet through TRIG (oldest first), RUN and ACTIVE of
each condition, the reduction credit with its last TICK, the run of frames the reduction stream sends
nothing for, whether the next reduction frame sent follows an apply, the next TRIG_SEQ; what applies since the last frame
boundary ask of the next frame (PFrame); the balls that an active condition names. -/
structure ZoneSt where
  frames   : List ZFrame := []
  conds    : List (Nat × Bool) := List.replicate 64 (0, false)
  credit   : Nat := 0
  prevTick : Option Nat := none
  skipped  : Option GapRec := none
  applied  : Bool := false
  nextTrig : Nat := 0
  zoneNew  : Bool := false
  bandClear : Bool := false
  condReset : Nat := 0
  balls    : Nat := 0
deriving DecidableEq, Repr

/-- An open segment (R217 to R223): its descriptor, class, buffer and stream; the trigger; its span
`first` to `stop` with the next frame to copy; its points; what is stored and lost. -/
structure Seg where
  desc     : Nat
  cls      : Nat
  addr     : Nat
  alloc    : Nat
  stream   : Option Nat
  trigTick : Nat
  trigTime : Nat
  trigSeq  : Nat
  first    : Nat
  stop     : Nat
  next     : Nat
  point    : Nat
  points   : Nat
  stored   : Nat := 0
  offset   : Nat := 64
  lost     : Nat := 0
  lostVals : Nat := 0
  flags    : Nat := 0
  retrig   : Nat := 0
  preShort : Nat := 0
  cfg      : Nat := 0
deriving DecidableEq, Repr

/-- A history ring as it was laid out at its last restart (R212): its first byte, the size of a slot, SLOTS, and the
FRAME_SEQ of slot 0. -/
structure Ring where
  base      : Nat := 0
  slotBytes : Nat := 0
  slots     : Nat := 0
  seq0      : Nat := 0
deriving DecidableEq, Repr

/-- CAPT of a line (R211 to R222): the open segment of each class, the newest frame released or gap-headed in the ring,
the gap-headed frames still in it, a ring restart waiting for the next frame boundary, classes whose
next descriptor is still to be read, the ring, and the ring before a geometry change, in which the frames of the old
geometry still stand. -/
structure CaptSt where
  segs    : List (Option Seg) := [none, none, none, none]
  newest  : Option Nat := none
  gapped  : List Nat := []
  restart : Bool := false
  reading : List Bool := [false, false, false, false]
  ring    : Ring := {}
  past    : Option Ring := none
deriving DecidableEq, Repr

-- ---- temperature profiles (chapter 09) -----------------------------------------------------------

/-- A Raman pulse whose trace is still to come (R227, R231): its shot record, t_p, the register space at
t_p, whether the Canary was in PROBE and whether a RAML input was off the balls at t_p. -/
structure RamPulse where
  shot  : ShotRec
  start : Nat
  time  : Nat
  cfg   : RegMap
  probe : Bool
  input : Bool
deriving DecidableEq, Repr

/-- A profile (R233): its configuration, PROF_SEQ, pulses counted, ticks of the first and last with the
device time of the first, whether a pulse was skipped and whether it follows an apply; the dark sums;
the overrange span; why it aborts, if it does; the cycle at which readout may start, whether it has
been read out and its readout has ended; a sample lost for its value or a state error; the cycle at
which readout ends; the frame of pass 2 with its release cycle. -/
structure Profile where
  cfg     : RegMap
  seq     : Nat
  shots   : Nat := 0
  first   : Nat
  time    : Nat
  last    : Nat := 0
  skipped : Bool := false
  applied : Bool
  double  : Bool
  darkAs  : Int := 0
  darkS   : Int := 0
  ovr     : Option (Nat × Nat) := none
  abort   : Option Nat := none
  readAt  : Nat := 0
  read    : Bool := false
  readEnd : Bool := false
  nonpos  : Bool := false
  ready   : Nat := 0
  frame   : Option (List Byte × Nat) := none
deriving DecidableEq, Repr

/-- RAMAN of a line: pulses without trace (oldest first), the last pulses fired (t_p, WIDTH, newest
first, R242), the profile in progress, profiles that have ended (oldest first), the next PROF_SEQ,
whether SINGLE mode has had its profile, whether the next profile follows an apply, whether one profile follows
another (so that the page waits for a start of profile, R226), whether profiles are held for a parity fault of the
page (R236), and the active words of the page at the last start of a profile (R241). -/
structure RamanSt where
  pulses  : List RamPulse := []
  fired   : List (Nat × Nat) := []
  prof    : Option Profile := none
  ended   : List Profile := []
  nextSeq : Nat := 0
  singleDone : Bool := false
  applied : Bool := false
  running : Bool := false
  held    : Bool := false
  good    : Option RegMap := none
deriving DecidableEq, Repr

/-- PFE (R249 to R257): the channel visited, conversions done in the visit, conversions still to
discard, the last conversions of the visit (newest first: code, valid, flag bits), GAIN in force of each
channel, valid small conversions in a row, compliance runs of each channel (passes, failures), whether
the conversion in progress is marked OPEN, the tick at which it ends, valid results (channel, tick,
TEMP, newest first), a calibration visit requested, the tick at which the one in progress ends, the
results that replace the factory trims of each gain code, the offset and gain trims in force for the conversion in
progress (R257), and whether it began under a parity fault of the page (R39). -/
structure PfeSt where
  ch      : Option Nat := none
  n       : Nat := 0
  settle  : Nat := 0
  recent  : List (Int × Bool × Nat) := []
  gains   : List Nat := [0, 0, 0, 0]
  small   : Nat := 0
  comply  : List (Nat × Nat) := List.replicate 4 (0, 0)
  openNow : Bool := false
  endAt   : Nat := 0
  results : List (Nat × Nat × Int) := []
  calReq  : Bool := false
  calEnd  : Option Nat := none
  trims   : List (Option (Int × Int)) := List.replicate 8 none
  eff     : Int × Int := (0, 0)
  held    : Bool := false
deriving DecidableEq, Repr

-- ---- messages (chapter 13) ----------------------------------------------------------------------

/-- A message on its way to a stream (R364, R365): stream id, TYPE, payload, the tick and time of its
source's handing it over, for a point frame its line and FRAME_SEQ. -/
structure Msg where
  stream  : Nat
  type    : Nat
  payload : List Byte
  tick    : Nat
  time    : Nat
  frame   : Option (Nat × Nat) := none
deriving DecidableEq, Repr

/-- A message that a stream table entry has taken (R365, R369): the tick at which it was queued, the
destination the entry named (0 ETH0, 1 ETH1, 2 ring) with its index, the codec context if it asked for
one. -/
structure QMsg where
  msg    : Msg
  tick   : Nat
  dest   : Nat
  target : Nat
  ctx    : Option Nat
deriving DecidableEq, Repr

/-- A LINK gap record reserved on a stream (R369). -/
structure LinkGap where
  cause : Nat
  tick  : Nat
  time  : Nat
  lost  : Nat
  type  : Nat
deriving DecidableEq, Repr

/-- A message being sent on an Ethernet port: its source, the fragments still to leave (R367). -/
structure StreamOut where
  src   : QMsg
  type  : Nat
  flags : Nat
  time  : Nat
  count : Nat
  index : Nat
  rest  : List (List Byte)
deriving DecidableEq, Repr

/-- The stream of a table entry (R368, R369): the next SEQ, queued messages and reserved gap records (oldest
first), the message in fragments on its way. -/
structure StreamSt where
  seq   : Nat := 0
  queue : List QMsg := []
  gaps  : List LinkGap := []
  out   : Option StreamOut := none
deriving DecidableEq, Repr

/-- A ring in host memory (R345 to R347): whether it is enabled, the entries from HEAD to the tail, messages
completed, messages since the last interrupt with the tick of the first of them, an interrupt
withheld by a mask. -/
structure RingSt where
  live    : Bool := false
  entries : List HostEntry := []
  total   : Nat := 0
  since   : Nat := 0
  first   : Nat := 0
  held    : Bool := false
deriving DecidableEq, Repr

/-- A reply kept for retries (R373): the command's source, UDP port, SEQ, CODE and CRC, the reply's
payload. -/
structure RetryEnt where
  source : Nat
  port   : Nat
  seq    : Word
  code   : Nat
  crc    : Word
  reply  : List Byte
deriving DecidableEq, Repr

/-- SAHF: the 64 streams, the 16 rings, the retry caches by link code, packets of replies waiting for ring
1 with the tick of each (R347), whether the codec's work area was found uninitialised (R465), the stream
entry that each ring served last. -/
structure SahfSt where
  streams  : List StreamSt := List.replicate 64 {}
  rings    : List RingSt := List.replicate 16 {}
  retry    : List (List RetryEnt) := List.replicate 10 []
  replies  : List (List Byte × Nat) := []
  noCodec  : Bool := false
  ringRot  : List Nat := List.replicate 16 63
deriving DecidableEq, Repr

/-- A cached neighbour (R351): address family, address, MAC address. -/
structure Neigh where
  ipv6 : Bool
  addr : Nat
  mac  : Nat
deriving DecidableEq, Repr

/-- A reply waiting at a port (R351, R353): where it goes, its packet, the tick at which it was queued. -/
structure EthReply where
  ipv6 : Bool
  addr : Nat
  port : Nat
  pkt  : List Byte
  tick : Nat
deriving DecidableEq, Repr

/-- An Ethernet port (R348 to R353): PTP event frames, replies and answering frames that wait, the stream
entry served last, the cycle at which the serialiser is free, the neighbour cache (oldest first) with
the tick of its last refresh, next hops being resolved (family, address, tick of the last try), echo
replies in the present second, the frames that left (newest first; the model's record). -/
structure EthPort where
  ptp     : List (List Byte) := []
  replies : List EthReply := []
  ctl     : List (List Byte) := []
  rot     : Nat := 63
  free    : Nat := 0
  cache   : List Neigh := []
  fresh   : Nat := 0
  wants   : List (Bool × Nat × Nat) := []
  echoAt  : Nat := 0
  echoes  : Nat := 0
  sent    : List (List Byte) := []
deriving DecidableEq, Repr

/-- A foreign master (R358): its port identity, its last Announce, the ticks of the Announces taken from it. -/
structure Foreign where
  source : BitVec 80
  ann    : Announce
  seen   : List Nat
deriving DecidableEq, Repr

/-- The PTP block and the PPS balls (R357 to R361): the foreign masters, the port identity of the master, the log of its announce interval, a
two-step Sync that waits for its Follow_Up (sequenceId, t2, correction), the last Sync (t1, t2,
correction), the Delay_Req under way (sequenceId, t3 once it has left), the next one and the tick of
the last; the mean path in picoseconds once known; ticks of the last Sync and of the last PPS_IN edge with whether
its absence has been counted; measurements in a row within 100 ns and above STEP_THRESH; whether ACQUIRE
has stepped; PPS_OUT, the tick at which it falls, the tick until which it is suppressed; the tick of the
last SET; the tick of the servo's last step with the SEQ of its journal entry. -/
structure PtpSt where
  foreign : List Foreign := []
  master  : Option (BitVec 80) := none
  logInt  : Int := 1
  twoStep : Option (Nat × Int × Int) := none
  lastM   : Option (Int × Int × Int) := none
  dreq    : Option (Nat × Option Int) := none
  dseq    : Nat := 0
  dreqAt  : Nat := 0
  path    : Option Int := none
  syncAt  : Nat := 0
  ppsAt   : Option Nat := none
  ppsGone : Bool := false
  good    : Nat := 0
  bad     : Nat := 0
  stepped : Bool := false
  ppsOut  : Bool := false
  outEnd  : Nat := 0
  quiet   : Nat := 0
  setAt   : Option Nat := none
  stepAt  : Option (Nat × Nat) := none
deriving DecidableEq, Repr

/-- The serial ports (R354, R374 to R376): tick of the last poll of each cage, the bytes that the SPI slave
returned in its last frame, what the NHR4010 port returns in the next frame, the tick at which its last
frame ended, what it shifted out last. -/
structure SerialSt where
  pollAt  : List Nat := [0, 0]
  spi     : List Byte := []
  legacy  : Word := 0
  legEnd  : Option Nat := none
  legOut  : Word := 0
deriving DecidableEq, Repr


-- ---- a line ----------------------------------------------------------------------------------

/-- The state behind the pages of one line (R60, R73, R71, R115). -/
structure LineSt where
  shot  : Shot := {}
  /-- Slots launched whose record SHOT has not yet passed on (oldest first). -/
  slots : List Slot := []
  /-- Gate edge and group of the last waveform SYN started, with the configuration it started under. -/
  fired : Option Slot := none
  loopSeed  : ColourLoop := {}
  loopRaman : ColourLoop := {}
  cells : Cells := {}
  can   : Canary := {}
  lane  : LaneSt := {}
  trim  : TrimSt := {}
  raml  : TrimSt := {}
  /-- The DAC calibration of SYN (R71). -/
  dac   : CalRun := {}
  /-- The tick at which the next calibration pass of the coherent lanes, and of the Raman lanes, may
  start in the dead time in progress (R115, R230). -/
  passAt  : Nat := 0
  rpassAt : Nat := 0
  phase : PhaseSt := {}
  pf    : PfSt := {}
  zone  : ZoneSt := {}
  capt  : CaptSt := {}
  raman : RamanSt := {}
deriving DecidableEq, Repr

-- ---- the device ------------------------------------------------------------------------------

/-- Balls: INTERLOCK_n with the slow edge of its last change, whether REFCLK_IN is present; the level that each
ALARM cell, powered from CTRL, holds when deasserted, by the last POLARITY applied (R442).
DESIGN CHOICE: log entry 113. -/
structure Pins where
  interlock     : Bool := true
  interlockFrom : Nat := 0
  refPresent    : Bool := true
  alarmIdle     : List Bool := [false, false, false, false]
deriving DecidableEq, Repr

/-- The PCI Express function: function mask of MSI-X, vectors for which messages were sent and memory
writes issued (newest first; the model's record of what left the device); the answer to the last read of
BAR0 or access of BAR2 (status: 0 done, 1 poisoned, a bus error code otherwise plus 16; data). DEDUCED: log entry 7. -/
structure Pcie where
  funcMask : Bool := true
  sent     : List Nat := []
  writes   : List (Nat × List Byte) := []
  reply    : Option (Nat × List Byte) := none
deriving DecidableEq, Repr

/-- A conversion of HK in progress: its input, slot, whether it is urgent, its start, its ACQ, whether its
result goes to the data register, whether it began under a parity fault of the page (R39). -/
structure HkConv where
  input  : Nat
  slot   : Nat
  urgent : Bool
  start  : Nat
  acq    : Nat
  data   : Bool
  held   : Bool := false
deriving DecidableEq, Repr

/-- The housekeeping converter (chapter 10): the newest code of each input with its result tick, the end of its
sampling; smallest and largest code and results of each input since the last telemetry; the
conversion in progress; the next slot of the pass (none between passes); urgent requests (oldest
first); whether the next sequence conversion, or the one in progress, is protected; start and end of
the last pass; whether the table has changed; the tick of the last telemetry. -/
structure Hk where
  mirror  : List (Option (Nat × Nat)) := List.replicate 24 none
  tel     : List (Nat × Nat × Nat) := List.replicate 24 (0, 0, 0)
  conv    : Option HkConv := none
  slot    : Option Nat := none
  queue   : List Nat := []
  shield  : Bool := false
  passAt  : Option Nat := none
  passEnd : Nat := 0
  renew   : Bool := false
  telAt   : Nat := 0
deriving DecidableEq, Repr

/-- A time-interval unit (R274 to R277): the configuration of the measurement it is armed for, the cycle
from which it is armed, the start (tick, time), the end (tick, COUNT, timeout, same cycle) whose result
is still to be shown. -/
structure Tiu where
  armed   : Option Nat := none
  cfg     : RegMap := []
  start   : Option (Nat × Nat) := none
  result  : Option (Nat × Nat × Bool × Bool) := none
  resStart : Nat × Nat := (0, 0)
deriving DecidableEq, Repr

/-- A request waiting at a sub-channel (R287 to R289): port, logical line, arrival, the bytes of a write
(none where a byte is not enabled; no list for a read), whether its MISS has counted, whether it has urgency 3. -/
structure MemReq where
  port    : Nat
  line    : Nat
  tick    : Nat
  bytes   : Option (List (Option Byte))
  missed  : Bool := false
  urgent  : Bool := false
deriving DecidableEq, Repr

/-- The DRAM behind MEMX (chapter 11): contents by physical byte (rank × 2^33 + byte), lines that carry the
poison syndrome, the initialisation bitmap, regions being tracked with the lines written, the
requests of each sub-channel (oldest first), the row open in a bank (key rank × 32 + bank address); per
rank the tick since which it has had no request, the cycle of the self-refresh entry it is in, the cycle its
last refresh fell due or was issued, the cycle of its last mode-register read, the cycle from which it accepts
commands after refreshes; the sub-channels of which a rank has left self-refresh for an access while a DDR page
was armed; corrected lines per rank and position in
this scrub pass, seconds of the last CE log entries, totals per device position; ranks declared failing;
the scrubber's next line and last read; the fill's next region and the regions it has left; the cycle of the last migration copy; the ends
of retrainings; the last request answered (port, line, status: 0 done, 1 poisoned, 2 uninitialised, 3 outside
the address space, 4 out of service; data). -/
structure MemSt where
  cells    : List Host.Cell := []
  poison   : List Nat := []
  initMap  : Nat := 0
  tracking : List (Nat × Nat) := []
  queues   : List (List MemReq) := [[], [], [], []]
  idleFrom : List Nat := List.replicate 8 0
  rows     : List (Nat × Nat) := []
  refAt    : List Nat := List.replicate 8 0
  mr4At    : List Nat := List.replicate 8 0
  busy     : List Nat := List.replicate 8 0
  woken    : List Nat := []
  srFrom   : List (Option Nat) := List.replicate 8 none
  ces      : List (Nat × Nat) := []
  ceLogged : List (Nat × Nat) := []
  ceDev    : List Nat := [0, 0, 0, 0, 0]
  failing  : List Nat := []
  scrub    : List Nat := [0, 0, 0, 0]
  scrubAt  : List Nat := [0, 0, 0, 0]
  fill     : Option (Nat × Nat) := none
  migAt    : Nat := 0
  retrain  : List (Option Nat) := [none, none, none, none]
  reply    : Option (Nat × Nat × Nat × List Byte) := none
deriving DecidableEq, Repr

/-- A DMA descriptor as fetched (R314): its address, source, destination, length in bytes, CTRL. -/
structure DmaDesc where
  addr : Nat
  src  : Nat
  dst  : Nat
  len  : Nat
  ctrl : Nat
deriving DecidableEq, Repr

/-- A DMA channel (R317 to R324): the descriptor address to fetch next, the current descriptor, bytes
moved, whether a partial write met poison, the code with which its data are complete, a LINK read on its
way. -/
structure DmaCh where
  fetch  : Option Nat := none
  desc   : Option DmaDesc := none
  moved  : Nat := 0
  poison : Bool := false
  done   : Option Nat := none
  link   : Bool := false
deriving DecidableEq, Repr

/-- The DMA engine (R320): the channels, the channel last granted at each level, the consecutive bursts
each level has seen granted above it, the levels of the channel interrupts (R323). -/
structure DmaSt where
  chans  : List DmaCh := List.replicate 32 {}
  last   : List Nat := [31, 31, 31, 31]
  starve : List Nat := [0, 0, 0, 0]
  irq    : List Bool := List.replicate 32 false
deriving DecidableEq, Repr

/-- The prefilter of a codec context (R327): bytes of the message so far, the low byte of a unit, the
last unit. -/
structure Filt where
  pos  : Nat := 0
  half : Option Byte := none
  prev : Nat := 0
deriving DecidableEq, Repr

/-- A codec context (R326 to R335). The filtered bytes since the history reset (the last 32,768) and
their number, the Adler-32 so far, the prefilter, input not yet coded and output not yet drained (`none`
ends a message). A compress context: whether a message has begun and whether a stream has, bits not yet a
byte. A decompress context: the part of the stream it is in (0 start, 1 block header, 2 stored bytes, 3
coded symbols, 4 check value), BFINAL, stored bytes left, code lengths in force, bits of the first input byte
already read, input bytes consumed, bytes of the output message. Both: whether the state lies in the
save area, the tick since which it stalls, whether the stall has been counted. -/
structure CodecCtx where
  isOpen  : Bool := false
  hist    : List Byte := []
  total   : Nat := 0
  adler   : Nat × Nat := (1, 0)
  filt    : Filt := {}
  input   : List (Option Byte) := []
  output  : List (Option Byte) := []
  inMsg   : Bool := false
  begun   : Bool := false
  bits    : List Bool := []
  phase   : Nat := 0
  final   : Bool := false
  left    : Nat := 0
  lits    : List Nat := []
  dists   : List Nat := []
  bitPos  : Nat := 0
  used    : Nat := 0
  msgLen  : Nat := 0
  saved   : Bool := false
  stall   : Option Nat := none
  held    : Bool := false
deriving DecidableEq, Repr

/-- CODEC (R326, R335): its contexts, the context each engine holds (compressor, decompressor). -/
structure CodecSt where
  ctx    : List CodecCtx := List.replicate 16 {}
  comp   : Option Nat := none
  decomp : Option Nat := none
deriving DecidableEq, Repr

/-- The point-state SRAM (R159, R308): words keyed by bank × 65,536 + word, unlisted words 0; words with
an uncorrectable error; the word that the scrubber reads next in every bank, the cycle in which it last read. -/
structure SramSt where
  words   : List (Nat × Word) := []
  bad     : List Nat := []
  swept   : Nat := 0
  sweptAt : Nat := 0
deriving DecidableEq, Repr

/-- The ALARM outputs (R210, R211): edges on their way, the cycle each PULSE ends, the assertion of each
ball, and the cycle in which its last assertion edge left. -/
structure AlarmSt where
  edges : List AlarmEdge := []
  stops : List (Option Nat) := [none, none, none, none]
  on    : List Bool := [false, false, false, false]
  raised : List (Option Nat) := [none, none, none, none]
deriving DecidableEq, Repr

/-- Power state (chapter 15): mode, powered domains (bit c for domain c), thermal shutdown's
condition, the lines taken out of service (R411), whether every wake source is ignored since a thermal
shutdown (R432), whether HOST runs reduced (R421). -/
structure Pwr where
  mode    : Nat := 0
  domains : Nat := 1
  hot     : Bool := false
  outs    : List Bool := [false, false]
  noWake  : Bool := false
  reduced : Bool := false
deriving DecidableEq, Repr

/-- The always-on domain apart from its registers (chapter 15): VAON; the wake script, entries not listed 0;
whether the alarm is armed; the AON clock in 1/64 ns as it stood at slow edge `clockAt`; the PWR_EN outputs;
the last rail of the sequence going up, the rail to come up next, the slow edge at which it was enabled, the
slow edge at which the sequence began; whether a link has written DRAM_CFG since the map was last built; what
CTRL waits for (0 off or booted, 1 the boot after power-up, 2 the
boot after a warm reset); the source of the wake under way; wake sources held during Down 1→0; rising edges of the
sources PFE and HK not yet judged (R432); TEST_MODE; the mode before a warm reset. -/
structure AonSt where
  vaon    : Bool := true
  script  : List (Nat × BitVec 64) := []
  alarm   : Bool := true
  clock   : Nat := 0
  clockAt : Nat := 0
  rails   : List Bool := [false, false, false, false, false, false]
  goal    : Option Nat := none
  rail    : Nat := 0
  railAt  : Option Nat := none
  upAt    : Nat := 0
  dramSet : Bool := false
  booting : Nat := 0
  source  : Nat := 0
  held    : List Nat := []
  edges   : List Nat := []
  test    : Bool := false
  before  : Nat := 0
deriving DecidableEq, Repr

-- ---- Foreman (chapter 14) ------------------------------------------------------------------------

/-- The steps of procedures: of mode changes (R422), the wake script (R434), LINE_OUT and LINE_IN by their
numbers (R411, R412), a calibration, the patch procedures, a recording, REEL_PLAY by its numbers (7 the feed,
R405), emitter swaps, a migration. -/
inductive PStep where
  | up12 | up23 | down32 | down21 | down10 | across | script
  | lineOut (n : Nat)
  | lineIn (n : Nat)
  | cal | patchLoad | patchSwap | patchCommit | reelRecord
  | reelPlay (n : Nat)
  | emitBegin | emitEnd | migrate
deriving DecidableEq, Repr

/-- An open procedure (R382): its command code, the SEQ of its command entry, the link code, its operands
(ADDR, and a second number where it has one), the cause of its MODE entry; the kinds of the steps still to
complete, the one in progress first; steps completed; whether the one in progress has begun, in which part it
is, the tick of its beginning; pages whose applies it waits for with their APPLY_REFUSED at the arm; what it
compares with later; what the check codes of the DRAM lines read show while a step runs. -/
structure Proc where
  code  : Nat
  seq   : Nat
  link  : Nat
  arg   : Nat := 0
  arg2  : Nat := 0
  cause : Nat := 0
  plan  : List PStep := []
  step  : Nat := 0
  begun : Bool := false
  part  : Nat := 0
  since : Nat := 0
  waits : List (Nat × Nat) := []
  mark  : Nat := 0
  ecc   : List (Nat × Ecc) := []
deriving DecidableEq, Repr

/-- The Foreman: open procedures (oldest first), the images in the two patch banks, a swap or revert waiting
for its boundary (cause 5 or 6, R409), ticks of the last restarts under a patch bank (R386), pages whose
CFG_FAULT it has counted (R397), calibrations to ask for again (page, due tick), the tick of the last look at
CAL_ADVISED and of the last request to each TRIM page (R398), the entry of the wake script in progress with
its start and COUNT (R434), the tick of the MODE entry of the wake from which RETURN counts with the profiles
released until then (R435); for each emitter under replacement (4 × line + e) ON and DUTY_MAX from before
(R413); the digests of the banks as they were verified (R385, R408), the link that wrote the mailbox's GO (R381). -/
structure FmSt where
  procs   : List Proc := []
  banks   : List (List Byte) := [[], []]
  swap    : Option Nat := none
  crashes : List Nat := []
  faults  : List Nat := []
  retries : List (Nat × Nat) := []
  calAt   : Option Nat := none
  calReq  : List (Option Nat) := [none, none]
  entry   : Option (Nat × Nat) := none
  wakeAt  : Option Nat := none
  profs   : List Nat := [0, 0]
  emitOld : List (Nat × Nat × Nat) := []
  digests : List Nat := [0, 0]
  mbx     : Nat := 0
deriving DecidableEq, Repr

-- ---- reels (chapter 14) ----------------------------------------------------------------------------

/-- A recording of one line (R399 to R403): whether it waits for its frame boundary or runs; the register
space, FRAME_SEQ, TRIG_SEQ, EPOCH, first shot at that boundary; shots and entries written, the next slot; the
ticks before the first shot, the state of the replayed points and bands as they are taken, out-of-service
bits, zone, condition and freeze state; whether the band states have been taken; the cause for which it is to
end. -/
structure ReelLine where
  armed   : Bool := false
  running : Bool := false
  ended   : Bool := false
  cfg     : RegMap := []
  first   : Option ShotRec := none
  frame0  : Nat := 0
  trig0   : Nat := 0
  epoch   : Nat := 0
  shots   : Nat := 0
  entries : Nat := 0
  nextSeq : Nat := 0
  ticks   : List Nat := []
  points  : List (Nat × List Word) := []
  bands   : List (Nat × List Word) := []
  oos     : List Byte := []
  zones   : List Byte := []
  conds   : List Byte := []
  freezes : List Byte := []
  banded  : Bool := false
  stop    : Option Nat := none
deriving DecidableEq, Repr

/-- A recorded window while a reel plays (R404, R405): its line, the tick of its first core cycle, its samples. -/
structure ReelWin where
  line  : Line
  start : Nat
  codes : Lanes
deriving DecidableEq, Repr

/-- REEL: its lines; offsets of the shot area and of the next byte in it; whether a replay has been set up or
runs; the next entry, the bytes left, the tick of the first fed entry and its recorded TICK; the windows fed;
the SHOT.SEQ of recorded lines; an entry whose line was bad (R404); what the check codes of DRAM lines show while the
reel plays, where they are not clean (R404). DEDUCED: log entry 51. -/
structure ReelSt where
  lineA   : ReelLine := {}
  lineB   : ReelLine := {}
  shotOff : Nat := 0
  ptr     : Nat := 0
  playing : Bool := false
  feedAt  : Nat := 0
  next    : Nat := 0
  left    : Nat := 0
  base    : Option (Nat × Nat) := none
  windows : List ReelWin := []
  bad     : Bool := false
  faults  : List (Nat × Ecc) := []
deriving DecidableEq, Repr

-- ---- boundary scan (chapter 16) ---------------------------------------------------------------------

/-- The TAP (R458, R459): held in reset by TRST_n; the instruction in force (0 BYPASS, 1 IDCODE,
2 SAMPLE/PRELOAD, 3 EXTEST, 4 EXTEST_PULSE, 5 EXTEST_TRAIN, 6 HIGHZ, 7 CLAMP); the cells of the output balls in
the model's order (GATE_SOA, GATE_RAM, EN_SEED, EN_BOOST of line A, of line B, ALARM0 to ALARM3, PPS_OUT); what
IDCODE or SAMPLE last captured. -/
structure TapSt where
  reset   : Bool := true
  ir      : Nat := 1
  cells   : List Bool := []
  sampled : List Bool := []
  idcode  : Word := 0
deriving DecidableEq, Repr

/-- The device apart from the queue of waiting commands. -/
structure Dev where
  clk   : Clock := {}
  /-- The register space (R14). -/
  regs  : RegMap := []
  /-- The AON registers in the always-on domain; `regs` holds the copy that links read (R32). -/
  aon   : RegMap := []
  bus   : Bus := {}
  jr    : Journal := {}
  tr    : Trouble := {}
  lineA : LineSt := {}
  lineB : LineSt := {}
  pins  : Pins := {}
  pcie  : Pcie := {}
  hk    : Hk := {}
  pfe   : PfeSt := {}
  tiu0  : Tiu := {}
  tiu1  : Tiu := {}
  pll   : Pll := {}
  sram  : SramSt := {}
  mem   : MemSt := {}
  dma   : DmaSt := {}
  codec : CodecSt := {}
  alarm : AlarmSt := {}
  /-- Messages handed to SAHF and not yet routed (oldest first, R365). -/
  inbox : List Msg := []
  sahf  : SahfSt := {}
  eth0  : EthPort := {}
  eth1  : EthPort := {}
  ptp   : PtpSt := {}
  ser   : SerialSt := {}
  pwr   : Pwr := {}
  aonSt : AonSt := {}
  fm    : FmSt := {}
  reel  : ReelSt := {}
  tap   : TapSt := {}
  /-- Levels of the page interrupts, in directory order (R35). -/
  irq   : List Bool := List.replicate 59 false
  /-- The rollback value to which PATCH_COMMIT has blown the fuses (R410); 0 before the first. -/
  fuse  : Nat := 0
  /-- The model's own counter of free values taken. -/
  freeCtr : Nat := 0
deriving DecidableEq, Repr

/-- The state: the commands that wait, first in first out, and the device. -/
structure State where
  pending : List Instr := []
  dev     : Dev := {}
deriving DecidableEq, Repr

/-- Why the machine stops. DESIGN CHOICE: log entry 106. -/
inductive Fault where
  /-- Raised by RAIL_STEP out of the order of R446, whose last sentence leaves the behaviour
  unspecified. Safe: the machine stops. -/
  | railOutOfOrder
deriving DecidableEq, Repr

/-- Why a command has no meaning. -/
inductive Refusal where
  /-- Raised by an arm of exec whose command has no meaning yet. Safe: the machine stops. -/
  | notModelled (mnemonic : String)
deriving DecidableEq, Repr

/-- The machine as it is when VAON has just been applied: only AON is powered, every register holds
its reset value, no command waits. DESIGN CHOICE: log entry 6. DEDUCED: log entry 8. -/
def State.reset : State := {}

end Sys2Proof.Machine
end

