-- ==== Sys2Proof/Machine/Deflate.lean ====
section
/-!
DEFINITION. The formats of the stream codec (chapter 12, R327 to R333): prefilter, matches, DEFLATE
blocks, check values, inflation.
-/
namespace Sys2Proof.Machine

/-- The n low bits of a number, least significant first. -/
def lsbBits : Nat → Nat → List Bool
  | 0, _ => []
  | n + 1, v => (v % 2 == 1) :: lsbBits n (v / 2)

/-- The n low bits of a Huffman code, most significant first. -/
def msbBits (n v : Nat) : List Bool := (lsbBits n v).reverse

/-- The number whose bits a list holds, least significant first. -/
def bitsVal : List Bool → Nat
  | [] => 0
  | b :: bs => bit b + 2 * bitsVal bs

/-- The whole bytes at the front of a bit list, at most n of them, and the bits left. -/
def takeBytes : Nat → List Bool → List Byte × List Bool
  | 0, l => ([], l)
  | n + 1, l =>
    if l.length < 8 then ([], l)
    else
      let r := takeBytes n (l.drop 8)
      (BitVec.ofNat 8 (bitsVal (l.take 8)) :: r.1, r.2)

/-- A bit list padded with zeros to whole bytes. -/
def padBits (l : List Bool) : List Bool := l ++ List.replicate ((8 - l.length % 8) % 8) false

/-- The Adler-32 sums after a byte (RFC 1950). -/
def adlerByte (s : Nat × Nat) (b : Byte) : Nat × Nat :=
  let a := (s.1 + b.toNat) % 65521
  (a, (s.2 + a) % 65521)

/-- The check value of Adler-32 sums, most significant byte first. -/
def adlerBytes (s : Nat × Nat) : List Byte := beBytes 4 (s.2 * 65536 + s.1)

-- ---- prefilter (R327) ------------------------------------------------------------------------------

/-- A byte of a message through the prefilter, or its inverse: the bytes that leave. -/
def filtByte (skip : Nat) (inverse : Bool) (f : Filt) (b : Byte) : Filt × List Byte :=
  if f.pos < skip then ({ f with pos := f.pos + 1 }, [b])
  else
    match f.half with
    | none => ({ f with pos := f.pos + 1, half := some b }, [])
    | some l =>
      let u := l.toNat + 256 * b.toNat
      let v := if inverse then (u + f.prev) % 65536 else (u + 65536 - f.prev) % 65536
      ({ pos := f.pos + 1, half := none, prev := if inverse then v else u }, leBytes 2 v)

/-- Bytes of a message through the prefilter. -/
def filtBytes (skip : Nat) (inverse : Bool) : Filt → List Byte → Filt × List Byte
  | f, [] => (f, [])
  | f, b :: bs =>
    let r := filtByte skip inverse f b
    let s := filtBytes skip inverse r.1 bs
    (s.1, r.2 ++ s.2)

/-- The end of a message: an odd final byte passes unchanged. -/
def filtEnd (f : Filt) : List Byte := f.half.toList

-- ---- compression (R328, R329) ------------------------------------------------------------------------

/-- What the compressor emits at a position. -/
inductive Token where
  | lit (b : Byte)
  | copy (len dist : Nat)
deriving DecidableEq, Repr

/-- The byte at a position. -/
def byteOf (x : Array Byte) (i : Nat) : Nat := (x.getD i 0).toNat

/-- The hash of three bytes at a position (R328). -/
def hashAt (x : Array Byte) (j : Nat) : Nat :=
  (byteOf x j * 16 ^^^ byteOf x (j + 1) * 4 ^^^ byteOf x (j + 2)) % 4096

/-- The largest position below `i` and not below `lo` with a hash, searching n positions. -/
def lastHash (x : Array Byte) (h lo : Nat) : Nat → Nat → Option Nat
  | 0, _ => none
  | n + 1, i =>
    if i ≤ lo then none
    else if hashAt x (i - 1) = h then some (i - 1) else lastHash x h lo n (i - 1)

/-- The bytes from j and i that agree, at most n of them. -/
def matchLen (x : Array Byte) (j i : Nat) : Nat → Nat
  | 0 => 0
  | n + 1 => if byteOf x j = byteOf x i then 1 + matchLen x (j + 1) (i + 1) n else 0

/-- The tokens of a block from position i to e, with fuel (R328). -/
def tokensFrom (x : Array Byte) (e : Nat) : Nat → Nat → List Token
  | 0, _ => []
  | fuel + 1, i =>
    if e < i then []
    else
      let found := if i + 2 ≤ e then lastHash x (hashAt x i) (i - 32768) 32768 i else none
      let n := match found with
        | none => 0
        | some j => matchLen x j i (min 258 (e + 1 - i))
      if 3 ≤ n then .copy n (i - found.getD 0) :: tokensFrom x e fuel (i + n)
      else .lit (x.getD i 0) :: tokensFrom x e fuel (i + 1)

/-- The tokens of a block after a history. -/
def blockTokens (hist block : List Byte) : List Token :=
  if block.isEmpty then []
  else tokensFrom (hist ++ block).toArray (hist.length + block.length - 1) block.length hist.length

/-- Base and extra bits of the length symbols 257 to 285 (RFC 1951). -/
def lengthCode : List (Nat × Nat) :=
  [(3, 0), (4, 0), (5, 0), (6, 0), (7, 0), (8, 0), (9, 0), (10, 0), (11, 1), (13, 1), (15, 1), (17, 1), (19, 2),
   (23, 2), (27, 2), (31, 2), (35, 3), (43, 3), (51, 3), (59, 3), (67, 4), (83, 4), (99, 4), (115, 4), (131, 5),
   (163, 5), (195, 5), (227, 5), (258, 0)]

/-- Base and extra bits of the distance symbols 0 to 29 (RFC 1951). -/
def distCode : List (Nat × Nat) :=
  [(1, 0), (2, 0), (3, 0), (4, 0), (5, 1), (7, 1), (9, 2), (13, 2), (17, 3), (25, 3), (33, 4), (49, 4), (65, 5),
   (97, 5), (129, 6), (193, 6), (257, 7), (385, 7), (513, 8), (769, 8), (1025, 9), (1537, 9), (2049, 10),
   (3073, 10), (4097, 11), (6145, 11), (8193, 12), (12289, 12), (16385, 13), (24577, 13)]

/-- The symbol of a value: the last entry whose base does not exceed it. -/
def symbolOf (l : List (Nat × Nat)) (v : Nat) : Nat := (l.filter fun e => e.1 ≤ v).length - 1

/-- The fixed code of a literal/length symbol (RFC 1951). -/
def fixedLit (s : Nat) : List Bool :=
  if s < 144 then msbBits 8 (0x30 + s)
  else if s < 256 then msbBits 9 (0x190 + (s - 144))
  else if s < 280 then msbBits 7 (s - 256)
  else msbBits 8 (0xC0 + (s - 280))

/-- The bits of a token under the fixed codes. -/
def tokenBits : Token → List Bool
  | .lit b => fixedLit b.toNat
  | .copy n dist =>
    let s := symbolOf lengthCode n
    let t := symbolOf distCode dist
    let le := lengthCode.getD s (0, 0)
    let de := distCode.getD t (0, 0)
    fixedLit (257 + s) ++ lsbBits le.2 (n - le.1) ++ msbBits 5 t ++ lsbBits de.2 (dist - de.1)

/-- A block under the fixed codes (R329). -/
def fixedBlock (final : Bool) (hist block : List Byte) : List Bool :=
  final :: lsbBits 2 1 ++ (blockTokens hist block).flatMap tokenBits ++ fixedLit 256

/-- A stored block after the bits `pre` of the byte in progress. -/
def storedBlock (pre : List Bool) (final : Bool) (block : List Byte) : List Bool :=
  padBits (pre ++ final :: lsbBits 2 0) ++
    (leBytes 2 block.length ++ leBytes 2 (65535 - block.length) ++ block).flatMap fun b => lsbBits 8 b.toNat

/-- A block as it is emitted: fixed codes unless they need more than 8n + 40 bits (R329); `pre` are the
bits of the byte in progress, which lead the result. -/
def codeBlock (pre : List Bool) (final stored : Bool) (hist block : List Byte) : List Bool :=
  let f := fixedBlock final hist block
  if !stored && f.length ≤ 8 * block.length + 40 then pre ++ f else storedBlock pre final block

-- ---- inflation (R332, R333) -----------------------------------------------------------------------------

/-- What reading from a bit stream gives: too few bits, an error code of R333, a value and the rest. -/
inductive Got (α : Type) where
  | more
  | bad (code : Nat)
  | ok (v : α) (rest : List Bool)

/-- Sequencing of reads. -/
def Got.andThen {α β : Type} (g : Got α) (f : α → List Bool → Got β) : Got β :=
  match g with
  | .more => .more
  | .bad c => .bad c
  | .ok v r => f v r

/-- n bits as a number, least significant first. -/
def getBits (n : Nat) (l : List Bool) : Got Nat :=
  if l.length < n then .more else .ok (bitsVal (l.take n)) (l.drop n)

/-- The symbols of a code of given length, rising. -/
def symbolsOf (lens : List Nat) (n : Nat) : List Nat := (lens.zipIdx.filter fun e => e.1 == n).map (·.2)

/-- A symbol of a canonical Huffman code (RFC 1951), `fuel` lengths still to try from length n. -/
def getSymAux (lens : List Nat) : Nat → Nat → Nat → Nat → List Bool → Got Nat
  | 0, _, _, _, _ => .bad 1
  | _ + 1, _, _, _, [] => .more
  | fuel + 1, n, code, first, b :: rest =>
    let code := 2 * code + bit b
    let first := 2 * first
    let syms := symbolsOf lens n
    if first ≤ code ∧ code < first + syms.length then .ok (syms.getD (code - first) 0) rest
    else getSymAux lens fuel (n + 1) code (first + syms.length) rest

/-- A symbol of the code with these lengths. -/
def getSym (lens : List Nat) (l : List Bool) : Got Nat := getSymAux lens 15 1 0 0 l

/-- The sum of 2^(15 − length) over the codes: 2^15 for a complete set. -/
def kraft (lens : List Nat) : Nat := (lens.map fun n => if n = 0 then 0 else 2 ^ (15 - n)).sum

/-- Whether a code-length set is complete. -/
def complete (lens : List Nat) : Bool := kraft lens == 2 ^ 15

/-- Whether a distance set is allowed: complete, a single code, or none (RFC 1951). -/
def distAllowed (lens : List Nat) : Bool :=
  complete lens || (decide (kraft lens < 2 ^ 15) && decide ((lens.filter (· != 0)).length ≤ 1))

/-- The literal/length code lengths of the fixed codes. -/
def fixedLits : List Nat :=
  List.replicate 144 8 ++ List.replicate 112 9 ++ List.replicate 24 7 ++ List.replicate 8 8

/-- The distance code lengths of the fixed codes. -/
def fixedDists : List Nat := List.replicate 32 5

/-- The order of code-length code lengths (RFC 1951). -/
def clOrder : List Nat := [16, 17, 18, 0, 8, 7, 9, 6, 10, 5, 11, 4, 12, 3, 13, 2, 14, 1, 15]

/-- n three-bit numbers. -/
def getThrees : Nat → List Bool → Got (List Nat)
  | 0, l => .ok [] l
  | n + 1, l => (getBits 3 l).andThen fun v r => (getThrees n r).andThen fun vs r => .ok (v :: vs) r

/-- Code lengths of a dynamic block until `want` have come, with fuel (RFC 1951). -/
def getLens (cl : List Nat) (want : Nat) : Nat → List Nat → List Bool → Got (List Nat)
  | 0, acc, l => .ok acc l
  | fuel + 1, acc, l =>
    if want ≤ acc.length then .ok acc l
    else
      (getSym cl l).andThen fun s r =>
        if s < 16 then getLens cl want fuel (acc ++ [s]) r
        else
          (getBits (if s = 16 then 2 else if s = 17 then 3 else 7) r).andThen fun e r =>
            let n := (if s = 18 then 11 else 3) + e
            if s = 16 ∧ acc.isEmpty then .bad 1
            else if want < acc.length + n then .bad 3
            else getLens cl want fuel (acc ++ List.replicate n (if s = 16 then (acc.getLast?).getD 0 else 0)) r

/-- The code lengths of a dynamic block's header. -/
def getDynamic (l : List Bool) : Got (List Nat × List Nat) :=
  (getBits 5 l).andThen fun hlit r => (getBits 5 r).andThen fun hdist r => (getBits 4 r).andThen fun hclen r =>
    if 286 < hlit + 257 ∨ 30 < hdist + 1 then .bad 1
    else
      (getThrees (hclen + 4) r).andThen fun vs r =>
        let cl := (List.range 19).map fun s => ((clOrder.zip vs).find? fun e => e.1 == s).elim 0 (·.2)
        if !complete cl then .bad 1
        else
          (getLens cl (hlit + 257 + (hdist + 1)) 320 [] r).andThen fun lens r =>
            let a := lens.take (hlit + 257)
            let b := lens.drop (hlit + 257)
            if !complete a || !distAllowed b then .bad 1 else .ok (a, b) r

/-- A block header (R332): BFINAL and what follows. -/
inductive BlockHead where
  | stored (len : Nat)
  | coded (lits dists : List Nat)

/-- Reads a block header; a stored block begins at the next byte. -/
def getBlock (l : List Bool) : Got (Bool × BlockHead) :=
  (getBits 1 l).andThen fun f r => (getBits 2 r).andThen fun t r =>
    match t with
    | 0 =>
      let r := r.drop (r.length % 8)
      (getBits 16 r).andThen fun n r => (getBits 16 r).andThen fun m r =>
        if n + m = 65535 then .ok (f == 1, .stored n) r else .bad 4
    | 1 => .ok (f == 1, .coded fixedLits fixedDists) r
    | 2 => (getDynamic r).andThen fun p r => .ok (f == 1, .coded p.1 p.2) r
    | _ => .bad 1

/-- What a symbol of a coded block stands for. -/
inductive Sym where
  | lit (b : Byte)
  | copy (len dist : Nat)
  | stop

/-- Reads a literal, a match or the end of a block. -/
def getToken (lits dists : List Nat) (l : List Bool) : Got Sym :=
  (getSym lits l).andThen fun s r =>
    if s < 256 then .ok (.lit (BitVec.ofNat 8 s)) r
    else if s = 256 then .ok .stop r
    else
      match lengthCode[s - 257]? with
      | none => .bad 1
      | some le =>
        (getBits le.2 r).andThen fun x r =>
          (getSym dists r).andThen fun t r =>
            match distCode[t]? with
            | none => .bad 1
            | some de => (getBits de.2 r).andThen fun y r => .ok (.copy (le.1 + x) (de.1 + y)) r

/-- The zlib header of RFC 1950 (R332). -/
def getZlib (l : List Bool) : Got Unit :=
  (getBits 8 l).andThen fun cmf r => (getBits 8 r).andThen fun flg r =>
    if cmf % 16 = 8 ∧ cmf / 16 ≤ 7 ∧ flg / 32 % 2 = 0 ∧ (cmf * 256 + flg) % 31 = 0 then .ok () r else .bad 6

/-- What the context's configuration fixes for the decompressor: WRAP, the prefilter's skip if it is
on, MSG_LIMIT. -/
structure InflateCfg where
  wrap  : Bool
  skip  : Option Nat
  limit : Nat

/-- Bytes that inflation yields: into the history, the check value and the output message. -/
def yields (g : InflateCfg) (c : CodecCtx) (bs : List Byte) : CodecCtx :=
  let h := c.hist ++ bs
  let f := match g.skip with
    | none => (c.filt, bs)
    | some k => filtBytes k true c.filt bs
  { c with hist := h.drop (h.length - 32768), total := c.total + bs.length,
           adler := bs.foldl adlerByte c.adler, filt := f.1, msgLen := c.msgLen + bs.length,
           output := c.output ++ f.2.map some }

/-- The output message ends (R332). -/
def endsMessage (c : CodecCtx) : CodecCtx :=
  { c with output := c.output ++ (filtEnd c.filt).map some ++ [none], filt := {}, msgLen := 0 }

/-- The stream ends: the history is reset and the next byte begins a new stream (R332). -/
def endsStream (c : CodecCtx) : CodecCtx :=
  { endsMessage c with hist := [], total := 0, adler := (1, 0), phase := 0, final := false }

/-- After a block: the next header, the check value, or the end of the stream. -/
def afterBlock (g : InflateCfg) (c : CodecCtx) (r : List Bool) : CodecCtx × List Bool :=
  if !c.final then ({ c with phase := 1 }, r)
  else if g.wrap then ({ c with phase := 4 }, r.drop (r.length % 8))
  else (endsStream c, r.drop (r.length % 8))

/-- n bytes copied from a distance back, one by one, so that a match may overlap its own output. -/
def copyBack : Nat → Nat → List Byte → List Byte
  | 0, _, _ => []
  | n + 1, dist, h =>
    let b := h.getD (h.length - dist) 0
    b :: copyBack n dist (h ++ [b])

/-- One element of the stream. -/
def inflateStep (g : InflateCfg) (c : CodecCtx) (l : List Bool) : Got CodecCtx :=
  let tooLong (n : Nat) : Bool := g.limit != 0 && decide (g.limit < c.msgLen + n)
  match c.phase with
  | 0 =>
    if l.isEmpty then .more
    else if g.wrap then (getZlib l).andThen fun _ r => .ok { c with phase := 1 } r
    else .ok { c with phase := 1 } l
  | 1 =>
    (getBlock l).andThen fun h r =>
      let c := { c with final := h.1 }
      match h.2 with
      | .stored 0 =>
        let e := if c.final then c else endsMessage c
        let a := afterBlock g e r
        .ok a.1 a.2
      | .stored n => .ok { c with phase := 2, left := n } r
      | .coded a b => .ok { c with phase := 3, lits := a, dists := b } r
  | 2 =>
    (getBits 8 l).andThen fun b r =>
      if tooLong 1 then .bad 3
      else
        let c := { yields g c [BitVec.ofNat 8 b] with left := c.left - 1 }
        if c.left = 0 then let a := afterBlock g c r; .ok a.1 a.2 else .ok c r
  | 3 =>
    (getToken c.lits c.dists l).andThen fun t r =>
      match t with
      | .lit b => if tooLong 1 then .bad 3 else .ok (yields g c [b]) r
      | .copy n dist =>
        if c.total < dist then .bad 2
        else if tooLong n then .bad 3
        else .ok (yields g c (copyBack n dist c.hist)) r
      | .stop => let a := afterBlock g c r; .ok a.1 a.2
  | _ =>
    if l.length < 32 then .more
    else
      let b := takeBytes 4 l
      if b.1 = adlerBytes c.adler then .ok (endsStream c) b.2 else .bad 5

/-- Elements of the stream up to the next block end, or until the bits run out or an error is found: its
code with the bits left. -/
def inflateBlock (g : InflateCfg) : Nat → CodecCtx → List Bool → CodecCtx × List Bool × Option Nat
  | 0, c, l => (c, l, none)
  | fuel + 1, c, l =>
    match inflateStep g c l with
    | .more => (c, l, none)
    | .bad e => (c, l, some e)
    | .ok c' r => if c.phase ≠ 0 ∧ c'.phase ≤ 1 then (c', r, none) else inflateBlock g fuel c' r

end Sys2Proof.Machine
end

