-- ==== Sys2Proof/Machine/Ops.lean ====
section
/-!
DEFINITION. The named operations over the register space, the clocks and the sparse memories.
-/
namespace Sys2Proof.Machine

-- ---- sparse maps ------------------------------------------------------------------------------

/-- What a sparse map holds at a key: the listed entry, or the default. -/
def Sparse.get {α : Type} (dflt : Nat → α) : List (Nat × α) → Nat → α
  | [], k => dflt k
  | (j, w) :: r, k => if j = k then w else Sparse.get dflt r k

/-- A sparse map with one key written: every other entry of the key goes, and the new one stands in its place among the
rising keys unless it equals the default. A map in canonical form (`Sparse.wf`) stays in it. -/
def Sparse.set {α : Type} [DecidableEq α] (dflt : Nat → α) :
    List (Nat × α) → Nat → α → List (Nat × α)
  | [], k, v => if v = dflt k then [] else [(k, v)]
  | (j, w) :: r, k, v =>
    if j < k then (j, w) :: Sparse.set dflt r k v
    else
      let t := ((j, w) :: r).filter fun e => e.1 != k
      if v = dflt k then t else (k, v) :: t

/-- The keys of a sparse map rise strictly from above `lo`, and no entry equals the default. -/
def Sparse.wfFrom {α : Type} [DecidableEq α] (dflt : Nat → α) : Option Nat → List (Nat × α) → Bool
  | _, [] => true
  | lo, (j, w) :: r =>
    (match lo with | none => true | some l => decide (l < j)) && decide (w ≠ dflt j) &&
      Sparse.wfFrom dflt (some j) r

/-- The canonical form of a sparse map. -/
def Sparse.wf {α : Type} [DecidableEq α] (dflt : Nat → α) (m : List (Nat × α)) : Bool :=
  Sparse.wfFrom dflt none m

/-- A sparse map with consecutive keys written from a list. -/
def Sparse.setList {α : Type} [DecidableEq α] (dflt : Nat → α) (m : List (Nat × α)) (k : Nat) :
    List α → List (Nat × α)
  | [] => m
  | v :: vs => Sparse.setList dflt (Sparse.set dflt m k v) (k + 1) vs

-- ---- registers --------------------------------------------------------------------------------

/-- The word at an address of the register space. -/
def rd (m : RegMap) (a : Nat) : Word := Sparse.get Layout.reset m a

/-- The register space with the word at an address written. -/
def wr (m : RegMap) (a : Nat) (v : Word) : RegMap := Sparse.set Layout.reset m a v

/-- The canonical form of a register map. -/
def RegMap.wf (m : RegMap) : Bool := Sparse.wf Layout.reset m

/-- The base address of a page. -/
def pageBase (p : Nat) : Nat := p * 4096

/-- A field of the word at `base + f.off`. -/
def Fld.at (f : Fld) (m : RegMap) (base : Nat) : Nat := bitsOf (rd m (base + f.off)).toNat f.hi f.lo

/-- The register space with a field of the word at `base + f.off` written. -/
def Fld.put (f : Fld) (m : RegMap) (base v : Nat) : RegMap :=
  wr m (base + f.off) (Word.ofNat (putBits (rd m (base + f.off)).toNat f.hi f.lo v))

/-- The width of a field. -/
def Fld.width (f : Fld) : Nat := f.hi + 1 - f.lo

/-- A field in the active view of a page (R12). -/
def act (m : RegMap) (p : Nat) (f : Fld) : Nat := f.at m (pageBase p + 0x400)

/-- A signed field in the active view of a page. -/
def actS (m : RegMap) (p : Nat) (f : Fld) : Int := signed f.width (act m p f)

/-- A field in the shadow view of a page, or a live field. -/
def liv (m : RegMap) (p : Nat) (f : Fld) : Nat := f.at m (pageBase p)

/-- A signed live field. -/
def livS (m : RegMap) (p : Nat) (f : Fld) : Int := signed f.width (liv m p f)

/-- A configuration field in a chosen view: `v` = 0 shadow, 0x400 active. -/
def cfgIn (m : RegMap) (v p : Nat) (f : Fld) : Nat := f.at m (pageBase p + v)

/-- CTRL.EN of the shadow (R19). -/
def enShadow (m : RegMap) (p : Nat) : Bool := bitOf (rd m (pageBase p + 0x008)).toNat 0

/-- CTRL.EN_ACTIVE (R19). -/
def enActive (m : RegMap) (p : Nat) : Bool := bitOf (rd m (pageBase p + 0x008)).toNat 8

/-- CTRL.EN in a chosen view. -/
def enIn (m : RegMap) (v p : Nat) : Bool := if v = 0 then enShadow m p else enActive m p

/-- The device with a live or shadow field written. -/
def Dev.setLiv (d : Dev) (p : Nat) (f : Fld) (v : Nat) : Dev :=
  { d with regs := f.put d.regs (pageBase p) v }

/-- The device with a signed live field written. -/
def Dev.setLivS (d : Dev) (p : Nat) (f : Fld) (v : Int) : Dev :=
  d.setLiv p f (unsigned f.width v)

/-- The device with an active field written. -/
def Dev.setAct (d : Dev) (p : Nat) (f : Fld) (v : Nat) : Dev :=
  { d with regs := f.put d.regs (pageBase p + 0x400) v }

/-- The device with a word of the register space written. -/
def Dev.setWord (d : Dev) (a : Nat) (v : Word) : Dev := { d with regs := wr d.regs a v }

/-- The device with a 64-bit value written to two live words, low and high. -/
def Dev.setPair (d : Dev) (p lo hi v : Nat) : Dev :=
  (d.setWord (pageBase p + lo) (Word.ofNat v)).setWord (pageBase p + hi) (Word.ofNat (v / 2 ^ 32))

/-- The 64-bit value of two live words. -/
def Dev.pair (d : Dev) (p lo hi : Nat) : Nat :=
  (rd d.regs (pageBase p + lo)).toNat + 2 ^ 32 * (rd d.regs (pageBase p + hi)).toNat

-- ---- lines ------------------------------------------------------------------------------------

/-- The state of one line. -/
def Dev.line (d : Dev) (x : Line) : LineSt :=
  match x with
  | .a => d.lineA
  | .b => d.lineB

/-- The device with the state of one line replaced. -/
def Dev.setLine (d : Dev) (x : Line) (l : LineSt) : Dev :=
  match x with
  | .a => { d with lineA := l }
  | .b => { d with lineB := l }

/-- The device with the state of one line changed. -/
def Dev.onLine (d : Dev) (x : Line) (f : LineSt → LineSt) : Dev := d.setLine x (f (d.line x))

-- ---- power domains ----------------------------------------------------------------------------

/-- Whether a power domain is on (codes of R16). DEDUCED: log entry 10. -/
def Dev.domainOn (d : Dev) (c : Nat) : Bool := bitOf d.pwr.domains c

/-- Whether the domain of a page is on. -/
def Dev.pageOn (d : Dev) (p : Nat) : Bool :=
  match pageOf p with
  | some pg => d.domainOn pg.domain
  | none => false

-- ---- time -------------------------------------------------------------------------------------

/-- The slow edges in a number of 1.6 ns periods: edge n falls at floor(n × 625,000,000 / 32,768). -/
def slowOf (cyc : Nat) : Nat := (cyc + 1) * 32768 / 625000000 - (if (cyc + 1) * 32768 % 625000000 = 0 then 1 else 0)

/-- Slow edges since VAON was applied. -/
def Dev.slow (d : Dev) : Nat := slowOf d.clk.cyc

/-- Device time in nanoseconds, 64 bits (R10). -/
def Dev.timeNs (d : Dev) : Nat := d.clk.time / 327680000000 % 2 ^ 64

/-- Device time at a core tick not far behind or ahead, in nanoseconds. -/
def Dev.timeAt (d : Dev) (t : Nat) : Nat :=
  let step := (8 * (65536000000 + d.clk.freq)).toNat
  (d.clk.time + (t - d.clk.tick) * step - (d.clk.tick - t) * step) / 327680000000 % 2 ^ 64

/-- The register space with the AON copy refreshed from the always-on domain (R32). -/
def refreshAon (regs aon : RegMap) : RegMap :=
  aon.foldl (fun m e => wr m e.1 e.2) (regs.filter fun e => e.1 / 4096 != 0x700)

/-- n core cycles pass. -/
def Dev.advance (d : Dev) (n : Nat) : Dev :=
  let c := d.clk
  let c' : Clock :=
    if c.coreOn then
      { c with cyc := c.cyc + n, tick := c.tick + n,
               time := c.time + n * (8 * (65536000000 + c.freq)).toNat }
    else { c with cyc := c.cyc + n }
  if slowOf c.cyc = slowOf c'.cyc then { d with clk := c' }
  else { d with clk := c', regs := refreshAon d.regs d.aon }

/-- The clock moves on to a core tick, if that lies ahead. DESIGN CHOICE: log entry 3. -/
def Dev.advanceTo (d : Dev) (t : Nat) : Dev :=
  if d.clk.tick < t then d.advance (t - d.clk.tick) else d

/-- The first 1.6 ns period of slow edge n. -/
def slowStart (n : Nat) : Nat := n * 625000000 / 32768

/-- The clock moves on to slow edge n, if that lies ahead. DESIGN CHOICE: log entry 3. -/
def Dev.advanceSlow (d : Dev) (n : Nat) : Dev :=
  if d.clk.cyc < slowStart n then d.advance (slowStart n - d.clk.cyc) else d

/-- The state of the always-on domain changed. -/
def Dev.onAon (d : Dev) (f : AonSt → AonSt) : Dev := { d with aonSt := f d.aonSt }

-- ---- copying words (R18, R23) -------------------------------------------------------------------

/-- Whether an address lies in the selected words of a range. -/
def inRange (base size : Nat) (keep : Nat → Bool) (a : Nat) : Bool :=
  decide (base ≤ a) && decide (a < base + size) && keep (a - base)

/-- The selected words of a range of `m0` copied onto the range at `dst` of `m`. -/
def copyWords (m0 : RegMap) (src dst size : Nat) (keep : Nat → Bool) (m : RegMap) : RegMap :=
  (m0.filter fun e => inRange src size keep e.1).foldl (fun m e => wr m (e.1 - src + dst) e.2)
    (m.filter fun e => !inRange dst size keep e.1)

-- ---- free values ------------------------------------------------------------------------------

/-- The next free value. DESIGN CHOICE: log entry 38. -/
def Dev.free (d : Dev) : BitVec 64 := Config.free d.freeCtr

/-- The device after a free value has been taken. -/
def Dev.tookFree (d : Dev) : Dev := { d with freeCtr := d.freeCtr + 1 }

end Sys2Proof.Machine
end

