-- ==== Sys2Proof/Machine/Flags.lean ====
section
/-!
DEFINITION. Levels and counts: STATUS bits (R33), event pairs (R34), the trouble log (R393 to R396),
the journal (R387 to R391), page interrupts (R35), and the settling of outputs after every command.
-/
namespace Sys2Proof.Machine

/-- Link codes (R340); STROBE and UPD are the sources of R30. -/
def linkCode : Link → Nat
  | .pcie => 0
  | .ring => 1
  | .eth0 => 2
  | .eth1 => 3
  | .spi => 4
  | .legacy => 5
  | .foreman => 6
  | .dma => 7
  | .strobe => 8
  | .upd => 9

/-- The link code of the hardware itself in journal entries (R387). -/
def linkHardware : Nat := 0xF0

-- ---- STATUS -----------------------------------------------------------------------------------

/-- Bit n of a page's STATUS (R19). -/
def Dev.status (d : Dev) (p n : Nat) : Bool := bitOf (rd d.regs (pageBase p + 0x010)).toNat n

/-- The device with bit n of a page's STATUS at a level (R33). -/
def Dev.setStatus (d : Dev) (p n : Nat) (b : Bool) : Dev :=
  d.setWord (pageBase p + 0x010)
    (Word.ofNat (putBits (rd d.regs (pageBase p + 0x010)).toNat n n (bit b)))

-- ---- event pairs ------------------------------------------------------------------------------

/-- The address of COUNT n of a page; SEEN n stands 4 above (R19). -/
def countAddr (p n : Nat) : Nat := pageBase p + 0x040 + 8 * n

/-- COUNT of an event pair; AON counts in its own domain. -/
def Dev.count (d : Dev) (p n : Nat) : Nat :=
  (rd (if p = pgAon then d.aon else d.regs) (countAddr p n)).toNat

/-- A word of a page written in the page's own home: AON words live in the always-on domain. -/
def Dev.setHome (d : Dev) (a : Nat) (v : Word) : Dev :=
  if a / 4096 = pgAon then { d with aon := wr d.aon a v } else d.setWord a v

/-- Bit n of a page's STATUS in the page's own home. -/
def Dev.statusHome (d : Dev) (p n : Nat) : Bool :=
  bitOf (rd (if p = pgAon then d.aon else d.regs) (pageBase p + 0x010)).toNat n

/-- Bit n of a page's STATUS at a level, in the page's own home (R33). -/
def Dev.setStatusHome (d : Dev) (p n : Nat) (b : Bool) : Dev :=
  let a := pageBase p + 0x010
  d.setHome a (Word.ofNat (putBits (rd (if p = pgAon then d.aon else d.regs) a).toNat n n (bit b)))

/-- One event counted: 32 bits, saturating; events that find it saturated are not counted (R34). -/
def Dev.bump (d : Dev) (p n : Nat) : Dev :=
  if d.pageOn p then
    if d.count p n = 0xFFFFFFFF then d
    else d.setHome (countAddr p n) (Word.ofNat (d.count p n + 1))
  else d

/-- Whether counting one more event saturates the pair. -/
def Dev.saturates (d : Dev) (p n : Nat) : Bool := d.pageOn p && d.count p n == 0xFFFFFFFE

/-- A rising edge of a wake source of Watch waits to be judged: in Watch, and in a mode change (R424, R432). -/
def Dev.wakeEdge (d : Dev) (source : Nat) : Dev :=
  if (d.pwr.mode = 1 ∨ d.fm.procs.any fun p => p.code == 0x0101) ∧ !d.aonSt.edges.contains source then
    { d with aonSt := { d.aonSt with edges := source :: d.aonSt.edges } }
  else d

-- ---- trouble log ------------------------------------------------------------------------------

/-- Severities (R394). -/
def sevNote : Nat := 0
/-- Severity WARNING. -/
def sevWarning : Nat := 1
/-- Severity ERROR. -/
def sevError : Nat := 2
/-- Severity CRITICAL. -/
def sevCritical : Nat := 3

/-- FOREMAN.STATE is RUNNING (R416). -/
def Dev.foremanRuns (d : Dev) : Bool := liv d.regs pgForeman FOREMAN.STATE == 2

/-- The place of a notification in the hardware queue, highest severity first, then arrival (R396). -/
def queueInsert (e : TEntry) : List TEntry → List TEntry
  | [] => [e]
  | h :: r => if h.severity < e.severity then e :: h :: r else h :: queueInsert e r

/-- Whether a trouble entry is sent on the trouble stream (R395). -/
def Dev.troubleSent (d : Dev) (sev : Nat) : Bool :=
  let m := act d.regs pgTrouble TROUBLE.STREAM_MIN
  d.domainOn 2 && act d.regs pgSahf SAHF.LOGS.TROUBLE != 0 && (2 ≤ sev || (min m 2) ≤ sev)

/-- An entry written to the trouble log: the store, TOTAL, the stream. -/
def Dev.logStore (d : Dev) (e : TEntry) : Dev :=
  let t := d.tr
  let sent := d.troubleSent e.severity
  let t := { t with entries := (e :: t.entries).take 2048,
                    outFrom := if !sent then t.outFrom
                      else if e.severity = sevCritical then 0
                      else if t.outbox.isEmpty then d.clk.tick else t.outFrom,
                    outbox := if sent then t.outbox ++ [e] else t.outbox }
  let d := { d with tr := t }
  d.setLiv pgTrouble TROUBLE.TOTAL (liv d.regs pgTrouble TROUBLE.TOTAL + 1)

/-- ENTRY counts on the TROUBLE page; when it saturates, EVENT_SATURATED is logged (R34). -/
def Dev.countEntry (d : Dev) : Dev :=
  let sat := d.saturates pgTrouble 4
  let d := d.bump pgTrouble 4
  if sat then d.logStore ⟨d.timeNs, sevNote, pgTrouble, 0x7F, 4⟩ else d

/-- An event of the TROUBLE page itself: counted, EVENT_SATURATED logged when it saturates (R34). -/
def Dev.ownEvent (d : Dev) (n : Nat) : Dev :=
  let sat := d.saturates pgTrouble n
  let d := d.bump pgTrouble n
  if sat then (d.logStore ⟨d.timeNs, sevNote, pgTrouble, 0x7F, n⟩).countEntry else d

/-- A notification reaches the error handler: it preempts a lower one, waits in the queue of eight,
or is lost (R396). -/
def Dev.notify (d : Dev) (e : TEntry) : Dev :=
  let outranks : Bool := match d.tr.handling with
    | [] => true
    | h :: _ => decide (h.severity < e.severity)
  if d.foremanRuns && outranks then { d with tr := { d.tr with handling := e :: d.tr.handling } }
  else if d.tr.queue.length < 8 then
    { d with tr := { d.tr with queue := queueInsert e d.tr.queue } }
  else
    let d := { d with tr := { d.tr with lost := d.tr.lost + 1 } }
    let n := liv d.regs pgTrouble TROUBLE.LOST_ERRORS
    (d.setLiv pgTrouble TROUBLE.LOST_ERRORS (min (n + 1) 0xFFFFFFFF)).ownEvent 5

/-- An entry with its notification and its events on the TROUBLE page: ENTRY, and CRITICAL for that
severity. -/
def Dev.logEntry (d : Dev) (e : TEntry) : Dev :=
  let d := d.logStore e
  let d := if 1 ≤ e.severity then d.notify e else d
  let d := d.countEntry
  if e.severity = sevCritical then d.ownEvent 7 else d

/-- The entries that wait in the input queue of the trouble block now: one leaves it per core cycle (R395). -/
def Dev.troubleFill (d : Dev) : Nat := d.tr.fill - (d.clk.tick - d.tr.fillTick)

/-- The DROPPED entry, once the input queue has room (R395). -/
def Dev.reportDropped (d : Dev) : Dev :=
  if d.tr.dropped = 0 ∨ 64 < d.troubleFill then d
  else
    let d := d.logEntry ⟨d.timeNs, sevNote, pgTrouble, 0x86, d.tr.dropped⟩
    { d with tr := { d.tr with dropped := 0 } }

/-- An entry offered to the trouble block: one is accepted per core cycle behind a queue of 64; an
entry that meets a full queue is dropped and counted, and a DROPPED entry follows when room returns
(R395). -/
def Dev.trouble (d : Dev) (page code sev arg : Nat) : Dev :=
  if !d.domainOn 1 then d
  else
    let fill := d.troubleFill
    if 64 < fill then
      let d := { d with tr := { d.tr with dropped := d.tr.dropped + 1 } }
      let n := liv d.regs pgTrouble TROUBLE.DROPPED
      (d.setLiv pgTrouble TROUBLE.DROPPED (min (n + 1) 0xFFFFFFFF)).ownEvent 6
    else
      let d := d.reportDropped
      let d := { d with tr := { d.tr with fill := fill + 1, fillTick := d.clk.tick } }
      d.logEntry ⟨d.timeNs, sev, page, code, arg % 2 ^ 40⟩

/-- An event counted; when its counter saturates, EVENT_SATURATED is logged once (R34). -/
def Dev.event (d : Dev) (p n : Nat) : Dev :=
  let sat := d.saturates p n
  let d := d.bump p n
  if sat then d.trouble p 0x7F sevNote n else d

/-- k events counted at once. -/
def Dev.events (d : Dev) (p n : Nat) : Nat → Dev
  | 0 => d
  | k + 1 => (d.event p n).events p n k

/-- An event counted and logged with its own argument (R394). DEDUCED: log entry 30. -/
def Dev.eventLog (d : Dev) (p n sev arg : Nat) : Dev := (d.event p n).trouble p n sev arg

/-- An event counted and logged as a WARNING with the low bits of its COUNT (R394, last row).
DEDUCED: log entry 30. -/
def Dev.eventWarn (d : Dev) (p n : Nat) : Dev :=
  let d := d.event p n
  d.trouble p n sevWarning (d.count p n)

-- ---- journal ----------------------------------------------------------------------------------

/-- Entry kinds (R387). -/
def kindCommand : Nat := 1
/-- KIND APPLY. -/
def kindApply : Nat := 2
/-- KIND APPLY_SET. -/
def kindApplySet : Nat := 3
/-- KIND STROBE. -/
def kindStrobe : Nat := 4
/-- KIND MODE. -/
def kindMode : Nat := 5
/-- KIND TIME_STEP. -/
def kindTimeStep : Nat := 6
/-- KIND RESTART. -/
def kindRestart : Nat := 7
/-- KIND RESTARTED. -/
def kindRestarted : Nat := 8
/-- KIND PROC_STEP. -/
def kindProcStep : Nat := 9
/-- KIND PROC_END. -/
def kindProcEnd : Nat := 10
/-- KIND PATCH. -/
def kindPatch : Nat := 11
/-- KIND MARK. -/
def kindMark : Nat := 12
/-- KIND POWER_ON. -/
def kindPowerOn : Nat := 13

/-- The content of a journal entry that its source supplies; the journal adds SEQ, TIME and the
REPLAY flag. -/
structure JSource where
  link   : Nat
  kind   : Nat
  code   : Nat := 0
  page   : Nat := 0
  result : Nat := 0
  flags  : Nat := 0
  digest : Nat := 0
  arg    : Nat := 0
deriving DecidableEq, Repr

/-- OLDEST_SEQ of a journal: the oldest of the entries kept, or NEXT_SEQ when none is. -/
def Journal.oldest (j : Journal) : Nat :=
  match j.entries.getLast? with
  | some e => e.seq
  | none => j.nextSeq

/-- One entry committed (R387, R389): one per core cycle, so that entries of one cycle take the cycles that follow, and
TIME is that of the commit cycle; SEQ increments and wraps at 2^32, the newest 4,096 are kept, the entry waits for its
retention copy and, when a stream is named, for its message. DEDUCED: log entry 148. -/
def Dev.journal (d : Dev) (s : JSource) : Dev :=
  if !d.domainOn 1 then d
  else
    let replay := if d.pwr.mode = 6 then 2 else 0
    let at' := max d.clk.tick d.jr.freeAt
    let e : JEntry := ⟨d.jr.nextSeq, d.timeAt at', s.link, s.kind, s.code, s.page, s.result,
      s.flags + replay, s.digest, s.arg % 2 ^ 64⟩
    let streams := d.domainOn 2 && act d.regs pgSahf SAHF.LOGS.JOURNAL != 0
    let j := { d.jr with
      freeAt := at' + 1, entries := (e :: d.jr.entries).take 4096, nextSeq := (d.jr.nextSeq + 1) % 2 ^ 32,
      uncopied := d.jr.uncopied ++ [e],
      outFrom := if streams && d.jr.outbox.isEmpty then d.clk.tick else d.jr.outFrom,
      outbox := if streams then d.jr.outbox ++ [e] else d.jr.outbox }
    let d := { d with jr := j }
    let d := d.setLiv pgJournal JOURNAL.NEXT_SEQ j.nextSeq
    let d := d.setLiv pgJournal JOURNAL.OLDEST_SEQ j.oldest
    d.event pgJournal 4

/-- The 32 bytes of a journal entry (R387). -/
def JEntry.bytes (e : JEntry) : List Byte :=
  leBytes 4 e.seq ++ leBytes 8 e.time ++ leBytes 1 e.link ++ leBytes 1 e.kind ++
  leBytes 2 e.code ++ leBytes 2 e.page ++ leBytes 1 e.result ++ leBytes 1 e.flags ++
  leBytes 4 e.digest ++ leBytes 8 e.arg

/-- The 16 bytes of a trouble entry (R393). -/
def TEntry.bytes (e : TEntry) : List Byte :=
  leBytes 8 e.time ++ leBytes 2 (e.severity * 2 ^ 14 + e.page) ++ leBytes 1 e.code ++
  leBytes 5 e.arg

-- ---- bus errors -------------------------------------------------------------------------------

/-- Bus error codes (R42). -/
inductive BusErr where
  | unmapped | reserved | width | domainOff | aonBusy | uninit
deriving DecidableEq, Repr

/-- The number of a bus error code (R42). -/
def BusErr.code : BusErr → Nat
  | .unmapped => 1
  | .reserved => 2
  | .width => 3
  | .domainOff => 4
  | .aonBusy => 5
  | .uninit => 6

/-- A bus error is recorded: BUS_ERR_ADDR, BUS_ERR_INFO, DEV event 4 and the trouble log (R42). -/
def Dev.busError (d : Dev) (a : Nat) (e : BusErr) (link : Nat) : Dev :=
  if !d.domainOn 1 then d
  else
    let d := d.setLiv pgDev DEV.BUS_ERR_ADDR a
    let d := d.setLiv pgDev DEV.BUS_ERR_INFO.LINK link
    let d := d.setLiv pgDev DEV.BUS_ERR_INFO.CODE e.code
    d.eventLog pgDev 4 sevWarning (a % 2 ^ 24 + e.code * 2 ^ 24 + link * 2 ^ 32)

/-- A write over the bus to a register of a page: the bus error DOMAIN_OFF while the page's domain is
off (R42), the register's effect otherwise. -/
def Dev.guarded (d : Dev) (k : Link) (p off : Nat) (f : Dev → Dev) : Dev :=
  if d.pageOn p then f d else d.busError (pageBase p + off) .domainOff (linkCode k)

-- ---- interrupts -------------------------------------------------------------------------------

/-- Whether some event pair below n has its IRQ_EN bit set and COUNT different from SEEN. -/
def irqPendAny (m : RegMap) (p en : Nat) : Nat → Bool
  | 0 => false
  | n + 1 =>
    (bitOf en n && rd m (countAddr p n) != rd m (countAddr p n + 4)) || irqPendAny m p en n

/-- IRQ_PEND of a page (R19), bit n for pair n below k. -/
def irqPend (m : RegMap) (p en : Nat) : Nat → Nat
  | 0 => 0
  | n + 1 =>
    (if bitOf en n && rd m (countAddr p n) != rd m (countAddr p n + 4) then 2 ^ n else 0) +
      irqPend m p en n

/-- The interrupt of a page is raised while any bit of IRQ_PEND is 1 (R35). -/
def Dev.irqRaised (d : Dev) (pg : Page) : Bool :=
  let en := (rd d.regs (pageBase pg.num + 0x014)).toNat
  if en = 0 then false else d.domainOn pg.domain && irqPendAny d.regs pg.num en pg.nEvents

/-- One MSI-X message on a vector: sent, or kept in the pending-bit array while masked (R343). No
message leaves while the link is down. -/
def Dev.msix (d : Dev) (v : Nat) : Dev :=
  if !d.domainOn 2 || liv d.regs pgPcie PCIE.LINK.UP == 0 then d
  else if d.pcie.funcMask || liv d.regs pgPcie (PCIE.MSIX.MASK v) == 1 then
    let w := rd d.regs (pageBase pgPcie + 0x9F8 + 4 * (v / 32))
    d.setWord (pageBase pgPcie + 0x9F8 + 4 * (v / 32)) (w ||| Word.ofNat (2 ^ (v % 32)))
  else { d with pcie := { d.pcie with sent := v :: d.pcie.sent } }

/-- The message of a page's interrupt on the vector that IRQ_ROUTE gives its entry (R35). -/
def Dev.irqMessage (d : Dev) (entry : Nat) : Dev :=
  if liv d.regs pgDev (DEV.IRQ_ROUTE.EN entry) = 1 then
    d.msix (liv d.regs pgDev (DEV.IRQ_ROUTE.VECTOR entry))
  else d

/-- The channel interrupt of a DMA channel: IRQ_EN = 1 and COMP_COUNT ≠ COMP_SEEN (R323). -/
def Dev.chanRaised (d : Dev) (c : Nat) : Bool :=
  d.pageOn pgDma && liv d.regs pgDma (DMA.COMP_COUNT c) != liv d.regs pgDma (DMA.COMP_SEEN c) &&
    act d.regs pgDma (DMA.CH.IRQ_EN c) == 1

/-- The message of a channel interrupt, on the channel's vector (R323). -/
def Dev.chanMessage (d : Dev) (c : Nat) : Dev := d.msix (act d.regs pgDma (DMA.CH.VECTOR c))

/-- The channel interrupts follow the completion pairs, with a message for each that rises. -/
def settleChans (d : Dev) : Dev :=
  let levels := (List.range 32).map d.chanRaised
  let d' := (List.range 32).foldl (fun e c =>
    if levels.getD c false && !d.dma.irq.getD c false then e.chanMessage c else e) d
  { d' with dma := { d'.dma with irq := levels } }

/-- The interrupt levels of all pages, in directory order. -/
def Dev.irqLevels (d : Dev) : List Bool := directory.map d.irqRaised

/-- Messages for the entries whose level has risen, from entry i on. -/
def irqRises (d : Dev) : Nat → List Bool → List Bool → Dev
  | _, [], _ => d
  | _, _ :: _, [] => d
  | i, new :: ns, old :: os =>
    irqRises (if new && !old then d.irqMessage i else d) (i + 1) ns os

-- ---- outputs ----------------------------------------------------------------------------------

/-- The levels of the gate and enable balls of a line: what EMIT asks for, gated by the cell's
permit, by INTERLOCK_n through the clock-free path (R86) and by the presence of the core clock
(R87). -/
def Cells.drive (c : Cells) (tick : Nat) (ok : Bool) : Cells :=
  { c with gateSoa := c.soaOn && c.soaFrom ≤ tick && tick < c.soaOff && c.permit && ok,
           gateRam := c.ramOn && c.ramFrom ≤ tick && tick < c.ramOff && c.permit && ok,
           enSeed := c.seedOn && c.permit && ok, enBoost := c.boostOn && c.permit && ok }

/-- Whether the clock-free paths let light out: INTERLOCK_n high, core clock present, and the EMIT
domain on (R75). -/
def Dev.lightPath (d : Dev) : Bool := d.pins.interlock && d.clk.coreOn && d.domainOn 10

/-- What boundary scan puts on the output balls, in the order of the cells: none while the TAP is in reset or an
instruction is in force that leaves the balls alone (R458, R459); an empty list drives nothing (HIGHZ). -/
def Dev.scan (d : Dev) : Option (List Bool) :=
  if d.tap.reset || !d.domainOn 1 then none
  else if d.tap.ir = 6 then some []
  else if d.tap.ir = 3 ∨ d.tap.ir = 4 ∨ d.tap.ir = 5 ∨ d.tap.ir = 7 then some d.tap.cells
  else none

/-- The gate and enable balls of a line under boundary scan: what the cells hold, behind the clock-free interlock
path (R459). -/
def Cells.scanned (c : Cells) (b : List Bool) (ok : Bool) : Cells :=
  { c with gateSoa := b.getD 0 false && ok, gateRam := b.getD 1 false && ok,
           enSeed := b.getD 2 false && ok, enBoost := b.getD 3 false && ok }

/-- The emitter balls of both lines follow the state. -/
def settleBalls (d : Dev) : Dev :=
  let t := d.clk.tick
  match d.scan with
  | none =>
    let ok := d.lightPath
    { d with lineA := { d.lineA with cells := d.lineA.cells.drive t ok },
             lineB := { d.lineB with cells := d.lineB.cells.drive t ok } }
  | some b =>
    let ok := d.pins.interlock && d.domainOn 10
    { d with lineA := { d.lineA with cells := d.lineA.cells.scanned b ok },
             lineB := { d.lineB with cells := d.lineB.cells.scanned (b.drop 4) ok } }

/-- The idle levels of the ALARM cells follow the POLARITY in force, stay while SENSE is off, and are low without
CTRL (R442). DEDUCED: log entry 89. -/
def settleAlarms (d : Dev) : Dev :=
  let idle : List Bool :=
    if !d.domainOn 1 then [false, false, false, false]
    else if !d.domainOn 7 then d.pins.alarmIdle
    else (List.range 4).map fun k => act d.regs (pgTrig .a) (TRIG.ALARM_CFG.POLARITY k) == 1
  { d with pins := { d.pins with alarmIdle := idle } }

/-- The level at ball ALARM k: its idle level unless it is asserted; EN = 0, Replay and SENSE off hold it
deasserted (R210, R442). DEDUCED: log entry 89. -/
def Dev.alarmBall (d : Dev) (k : Nat) : Bool :=
  let on : Bool := d.domainOn 7 && d.pwr.mode != 6 &&
    act d.regs (pgTrig .a) (TRIG.ALARM_CFG.EN k) == 1 && d.alarm.on.getD k false
  d.domainOn 1 && (d.pins.alarmIdle.getD k false != on)

/-- The level at an output ball, by the order of the cells; none while it is not driven.
DESIGN CHOICE: log entry 113. -/
def Dev.ball (d : Dev) (i : Nat) : Option Bool :=
  let emit : List Bool :=
    let f (c : Cells) : List Bool := [c.gateSoa, c.gateRam, c.enSeed, c.enBoost]
    f d.lineA.cells ++ f d.lineB.cells
  match d.scan with
  | some b =>
    if d.tap.ir = 6 then none
    else if i < 8 then some (emit.getD i false)
    else some (b.getD i false)
  | none =>
    if i < 8 then some (emit.getD i false)
    else if i < 12 then some (d.alarmBall (i - 8))
    else if d.domainOn 2 then some d.ptp.ppsOut
    else none

/-- The outputs follow the state after a command: the trouble log's report of dropped entries, the balls, then the DMA channel and page
interrupts with a message for each that rises (R35). -/
def settle (d : Dev) : Dev :=
  let d := settleChans (settleBalls (settleAlarms d.reportDropped))
  let levels := d.irqLevels
  { irqRises d 0 levels d.irq with irq := levels }

/-- The outcome of a command whose effect on the device is `d`: the queue stays as it is. -/
def done (s : State) (d : Dev) : Host.Outcome State Fault Refusal :=
  .next { s with dev := settle d }

/-- What an empty queue does: a core cycle passes; with the core clock off, one slow edge passes.
DESIGN CHOICE: log entry 1. -/
def execIdle (s : State) : Host.Outcome State Fault Refusal :=
  done s (if s.dev.clk.coreOn then s.dev.advance 1 else s.dev.advanceSlow (s.dev.slow + 1))

end Sys2Proof.Machine
end

