-- ==== Sys2Proof/Machine/Plan.lean ====
section
/-!
DEFINITION. Tone plans: the region of R49, the waveform synthesis of R50 and R51, the clearances of
R53, the period rule of R56, the plan check of R52 and the hold of R62. Every function reads the
active view of a register map, so that a candidate configuration is judged as a map in which it is
already active.
-/
namespace Sys2Proof.Machine

/-- The base of the active tone plan of a line (R17, R49). -/
def planBase (x : Line) : Nat := 0xA60000 + 0x2000 * x.idx + 0x1000

/-- A field of the active tone plan. -/
def planFld (m : RegMap) (x : Line) (f : Fld) : Nat := f.at m (planBase x)

/-- A field of the active SHOT page. -/
def shotFld (m : RegMap) (x : Line) (f : Fld) : Nat := act m (pgShot x) f

/-- N_GROUPS. -/
def nGroups (m : RegMap) (x : Line) : Nat := shotFld m x SHOT.ROUND_CTRL.N_GROUPS

/-- COH_EN. -/
def cohEn (m : RegMap) (x : Line) : Bool := shotFld m x SHOT.ROUND_CTRL.COH_EN == 1

/-- RAMAN_CTRL.EN. -/
def ramanEn (m : RegMap) (x : Line) : Bool := shotFld m x SHOT.RAMAN_CTRL.EN == 1

/-- The tone mask of group g. -/
def groupMask (m : RegMap) (x : Line) (g : Nat) : Nat := planFld m x (SHOT.GROUP.TONES g)

/-- The tones of a mask, rising. -/
def maskTones (mask : Nat) : List Nat := (List.range 8).filter fun t => bitOf mask t

/-- The groups that count for the plan: 0 to N − 1, at most eight. -/
def planGroups (m : RegMap) (x : Line) : List Nat := List.range (min (nGroups m x) 8)

/-- The tones that the plan launches: those of groups 0 to N − 1 while COH_EN = 1 (R52). -/
def launchedTones (m : RegMap) (x : Line) : List Nat :=
  if cohEn m x then
    (List.range 8).filter fun t => (planGroups m x).any fun g => bitOf (groupMask m x g) t
  else []

/-- DUR of a tone. -/
def toneDur (m : RegMap) (x : Line) (t : Nat) : Nat := planFld m x (SHOT.TONE.DUR t)

/-- SYN.DAC_CTRL.ALIGN of the line. -/
def synAlign (m : RegMap) (x : Line) : Nat := act m (pgSyn x) SYN.DAC_CTRL.ALIGN

/-- Length of a tone's waveform in core cycles, ceil((DUR + ALIGN) / 4) (R53). -/
def toneCycles (m : RegMap) (x : Line) (t : Nat) : Nat := ceilDiv (toneDur m x t + synAlign m x) 4

/-- The round trip with guard, 2 × (LINE_LEN + GUARD) core cycles (R53). -/
def clearCycles (m : RegMap) (x : Line) : Nat :=
  2 * (shotFld m x SHOT.LINE_LEN + shotFld m x SHOT.GUARD)

/-- The clearance T_clear of a tone (R53). -/
def toneClear (m : RegMap) (x : Line) (t : Nat) : Nat := clearCycles m x + toneCycles m x t

/-- The Raman clearance R_min (R53). -/
def ramanClear (m : RegMap) (x : Line) : Nat :=
  max (clearCycles m x + shotFld m x SHOT.RAMAN_TIMING.WIDTH) 62500

/-- The largest of a list, 0 when empty. -/
def maxOf (l : List Nat) : Nat := l.foldl max 0

/-- w_max over the launched tones (R56). -/
def waveMax (m : RegMap) (x : Line) : Nat := maxOf ((launchedTones m x).map (toneCycles m x))

/-- The largest clearance of the launched tones (TCLEAR_MAX). -/
def toneClearMax (m : RegMap) (x : Line) : Nat := maxOf ((launchedTones m x).map (toneClear m x))

/-- The slot length of the AUTO mode (R56); the tone terms are left out when COH_EN = 0. -/
def autoSlot (m : RegMap) (x : Line) : Nat :=
  let n := max (nGroups m x) 1
  let clear := clearCycles m x
  let wmax := waveMax m x
  let s := if cohEn m x then max (max (ceilDiv (clear + wmax) n) (wmax + 64)) 512 else 512
  if ramanEn m x then
    max (max s (ceilDiv (ramanClear m x) (max (shotFld m x SHOT.RAMAN_CTRL.EVERY) 1)))
      (shotFld m x SHOT.RAMAN_TIMING.OFFSET + shotFld m x SHOT.RAMAN_TIMING.WIDTH + 32)
  else s

/-- PERIOD_MODE = FIXED. -/
def fixedPeriod (m : RegMap) (x : Line) : Bool := shotFld m x SHOT.ROUND_CTRL.PERIOD_MODE == 1

/-- The slot length s of a configuration (R56). -/
def planSlot (m : RegMap) (x : Line) : Nat :=
  if fixedPeriod m x then shotFld m x SHOT.ROUND_PERIOD / max (nGroups m x) 1 else autoSlot m x

/-- The round period P of a configuration (R56). -/
def planPeriod (m : RegMap) (x : Line) : Nat :=
  if fixedPeriod m x then shotFld m x SHOT.ROUND_PERIOD else nGroups m x * autoSlot m x

-- ---- the plan check (R52) ---------------------------------------------------------------------

/-- What a plan check finds: the code, the tone or group concerned, the shortfall in core cycles. -/
structure PlanResult where
  code      : Nat
  item      : Nat := 0
  shortfall : Nat := 0
deriving DecidableEq, Repr

/-- TONE_TWICE: the lowest group that repeats a tone of an earlier group. -/
def toneTwice (m : RegMap) (x : Line) : Option PlanResult :=
  ((planGroups m x).find? fun g =>
    (List.range g).any fun h => groupMask m x g &&& groupMask m x h != 0).map fun g => ⟨1, g, 0⟩

/-- EMPTY_GROUP. -/
def emptyGroup (m : RegMap) (x : Line) : Option PlanResult :=
  if cohEn m x then
    ((planGroups m x).find? fun g => groupMask m x g == 0).map fun g => ⟨2, g, 0⟩
  else none

/-- Whether the descriptor of a tone is refused under BAD_WAVEFORM. -/
def badTone (m : RegMap) (x : Line) (t : Nat) : Bool :=
  let shape := planFld m x (SHOT.TONE.SHAPE t)
  let bw := planFld m x (SHOT.TONE.BW t)
  let dur := toneDur m x t
  shape == 3 || dur < 25 || 50000 < dur || (shape != 0 && bw == 0) || (shape == 0 && bw != 0) ||
    200 < bw || dur < 2 * planFld m x (SHOT.TONE.EDGE t)

/-- BAD_WAVEFORM: the lowest launched tone whose descriptor is refused. -/
def badWaveform (m : RegMap) (x : Line) : Option PlanResult :=
  ((launchedTones m x).find? (badTone m x)).map fun t => ⟨3, t, 0⟩

/-- RELAUNCH: a FIXED period below the clearance of a launched tone; names the tone of largest
clearance, the lowest among equals. -/
def relaunch (m : RegMap) (x : Line) : Option PlanResult :=
  let c := toneClearMax m x
  let p := shotFld m x SHOT.ROUND_PERIOD
  if fixedPeriod m x && p < c then
    ((launchedTones m x).find? fun t => toneClear m x t == c).map fun t => ⟨4, t, c - p⟩
  else none

/-- PERIOD_SHAPE. -/
def periodShape (m : RegMap) (x : Line) : Option PlanResult :=
  let n := nGroups m x
  let bad : Bool :=
    n == 0 || 8 < n ||
    (if fixedPeriod m x then
       shotFld m x SHOT.ROUND_PERIOD % max n 1 != 0 ||
       planSlot m x < max 512 (if cohEn m x then waveMax m x + 64 else 0)
     else 2 ^ 24 ≤ planPeriod m x)
  if bad then some ⟨5, 0, 0⟩ else none

/-- RAMAN_RATE: in a FIXED plan the interval EVERY × s falls below R_min. With EVERY = 0 the one
multiple is slot 0 (R57), so no two pulses come close and the plan falls under RAMAN_PLACE.
DEDUCED: log entry 119. -/
def ramanRate (m : RegMap) (x : Line) : Option PlanResult :=
  let i := shotFld m x SHOT.RAMAN_CTRL.EVERY * planSlot m x
  if ramanEn m x && fixedPeriod m x && 0 < i && i < ramanClear m x then some ⟨6, 0, ramanClear m x - i⟩
  else none

/-- RAMAN_PLACE, judged like the other Raman terms of R56 only while RAMAN_CTRL.EN = 1. DEDUCED: log entry 119. -/
def ramanPlace (m : RegMap) (x : Line) : Option PlanResult :=
  let w := shotFld m x SHOT.RAMAN_TIMING.WIDTH
  let o := shotFld m x SHOT.RAMAN_TIMING.OFFSET
  if ramanEn m x && (w == 0 || shotFld m x SHOT.RAMAN_CTRL.EVERY == 0 || o < waveMax m x + 32 ||
      planSlot m x < o + w + 32) then some ⟨7, 0, 0⟩ else none

/-- LENGTH. -/
def lengthBad (m : RegMap) (x : Line) : Option PlanResult :=
  let l := shotFld m x SHOT.LINE_LEN
  let g := shotFld m x SHOT.GROUP_INDEX
  let okLen : Bool := (64 ≤ l && l ≤ 491520) || (l == 0 && !enActive m (pgShot x))
  if okLen && 91751 ≤ g && g ≤ 101580 then none else some ⟨8, 0, 0⟩

/-- AMP_SUM. -/
def ampSum (m : RegMap) (x : Line) (g : Nat) : Nat :=
  ((maskTones (groupMask m x g)).map fun t => planFld m x (SHOT.TONE.AMP t)).sum

/-- AMP_SUM: the lowest group whose amplitudes sum above 32,767. -/
def ampSumBad (m : RegMap) (x : Line) : Option PlanResult :=
  if cohEn m x then
    ((planGroups m x).find? fun g => 32767 < ampSum m x g).map fun g => ⟨9, g, 0⟩
  else none

/-- TRIG_MODE. -/
def trigModeBad (m : RegMap) (x : Line) : Option PlanResult :=
  if shotFld m x SHOT.TRIG_CTRL.MODE = 3 then some ⟨10, 0, 0⟩ else none

/-- The plan check: the lowest code among the rules that fail (R52). -/
def planCheck (m : RegMap) (x : Line) : PlanResult :=
  (([toneTwice m x, emptyGroup m x, badWaveform m x, relaunch m x, periodShape m x, ramanRate m x,
     ramanPlace m x, lengthBad m x, ampSumBad m x, trigModeBad m x].filterMap id).head?).getD ⟨0, 0, 0⟩

/-- A plan check's result in PLAN_RESULT and SHORTFALL. -/
def Dev.putPlanResult (d : Dev) (x : Line) (r : PlanResult) : Dev :=
  let d := d.setLiv (pgShot x) SHOT.PLAN_RESULT.CODE r.code
  let d := d.setLiv (pgShot x) SHOT.PLAN_RESULT.ITEM r.item
  d.setLiv (pgShot x) SHOT.SHORTFALL r.shortfall

-- ---- the hold of R62 --------------------------------------------------------------------------

/-- How far past `base + at` a launch must wait to clear an earlier one by `clear`. -/
def lateBy (last : Option Nat) (clear base off : Nat) : Nat :=
  match last with
  | none => 0
  | some l => l + clear - (base + off)

/-- The smallest H that lets every launch of a round starting at tick b + H keep R54 (R62).
DEDUCED: log entry 32. -/
def holdNeeded (m : RegMap) (x : Line) (s : Shot) (b : Nat) : Nat :=
  let slot := planSlot m x
  let tones := if cohEn m x then
      (planGroups m x).flatMap fun g => (maskTones (groupMask m x g)).map fun t =>
        lateBy (s.tones.getD t none) (toneClear m x t) b (g * slot)
    else []
  let ramans := if ramanEn m x then
      ((planGroups m x).filter fun g => g % max (shotFld m x SHOT.RAMAN_CTRL.EVERY) 1 == 0).map
        fun g => lateBy s.raman (ramanClear m x) b (g * slot + shotFld m x SHOT.RAMAN_TIMING.OFFSET)
    else []
  maxOf (tones ++ ramans)

/-- Whether one slot g at gate edge t, with its Raman pulse if `pulse`, keeps R54 (R66). -/
def slotClears (m : RegMap) (x : Line) (s : Shot) (g t : Nat) (pulse : Bool) : Bool :=
  (if cohEn m x then
     (maskTones (groupMask m x g)).all fun i =>
       lateBy (s.tones.getD i none) (toneClear m x i) t 0 == 0
   else true) &&
  (if pulse then
     lateBy s.raman (ramanClear m x) t (shotFld m x SHOT.RAMAN_TIMING.OFFSET) == 0
   else true)

-- ---- waveform synthesis (R50, R51) ------------------------------------------------------------

/-- ENV at lane sample n of a tone. -/
def envAt (dur edge n : Nat) : Int :=
  if n < edge then envRamp n edge
  else if dur ≤ n + edge then envRamp (dur - 1 - n) edge
  else 32767

/-- The chirp step of a tone: start frequency and step in 2^-48 cycle (R50). -/
def chirpOf (m : RegMap) (x : Line) (t : Nat) : Int × Int :=
  let bw := planFld m x (SHOT.TONE.BW t)
  let dur := toneDur m x t
  let f0 : Int := ((bw * 2 ^ 49 + 5000) / 10000 : Nat)
  let k : Int := ((bw * 2 ^ 49 + 2500 * dur) / (5000 * dur) : Nat)
  match planFld m x (SHOT.TONE.SHAPE t) with
  | 1 => (-f0, k)
  | 2 => (f0, -k)
  | _ => (0, 0)

/-- The phase of a tone's chirp at lane sample n, in 2^-48 cycle: PHASE0 plus the sum of f over the
earlier samples. -/
def chirpPhase (m : RegMap) (x : Line) (t n : Nat) : Nat :=
  let c := chirpOf m x t
  let p : Int := (planFld m x (SHOT.TONE.PHASE0 t) * 2 ^ 32 : Nat) + (n : Int) * c.1 +
    ((n * (n - 1) / 2 : Nat) : Int) * c.2
  unsigned 48 p

/-- The carrier index k = 2t − 7. -/
def carrierIndex (t : Nat) : Int := 2 * (t : Int) - 7

/-- The complex value of a tone at lane sample n (R50); 0 after its DUR. -/
def toneValue (m : RegMap) (x : Line) (t n : Nat) : Int × Int :=
  let dur := toneDur m x t
  if dur ≤ n then (0, 0)
  else
    let c := cosSin16 (chirpPhase m x t n / 2 ^ 32)
    let k := cosSin20 (((carrierIndex t * (n : Int)) % 20).toNat)
    let zr := asrRound (c.1 * k.1 - c.2 * k.2) 15
    let zi := asrRound (c.2 * k.1 + c.1 * k.2) 15
    let e := envAt dur (planFld m x (SHOT.TONE.EDGE t)) n
    let vr := asrRound (zr * e) 15
    let vi := asrRound (zi * e) 15
    let amp : Int := planFld m x (SHOT.TONE.AMP t)
    (asrRound (vr * amp) 15, asrRound (vi * amp) 15)

/-- The sums of a group's tones at lane sample n before the shift of R51. -/
def groupSum (m : RegMap) (x : Line) (mask n : Nat) : Int × Int :=
  (maskTones mask).foldl (fun s t => let v := toneValue m x t n; (s.1 + v.1, s.2 + v.2)) (0, 0)

/-- The shift and saturation of a DAC code (R51): the code and whether it saturated. -/
def dacCode (sum : Int) : Int × Bool :=
  let v := asr (sum + 2) 2
  (clamp (-8192) 8191 v, v < -8192 || 8191 < v)

/-- The I and Q codes of a line's DAC pair at lane sample n of the waveform of a group (R51). -/
def dacPair (m : RegMap) (x : Line) (mask n : Nat) : Int × Int :=
  let s := groupSum m x mask n
  ((dacCode s.1).1, (dacCode s.2).1)

/-- The longest DUR of a group, w of R77. -/
def groupDur (m : RegMap) (x : Line) (mask : Nat) : Nat :=
  maxOf ((maskTones mask).map (toneDur m x))

/-- CLIP counts of a waveform: lane samples in which the I or the Q code saturates (R51). Each tone
value lies within AMP + 1 of zero, so sums of amplitudes up to 32,757 cannot saturate. -/
def clipCount (m : RegMap) (x : Line) (mask : Nat) : Nat :=
  if ((maskTones mask).map fun t => planFld m x (SHOT.TONE.AMP t)).sum ≤ 32757 then 0
  else
    ((List.range (groupDur m x mask)).filter fun n =>
      let s := groupSum m x mask n
      (dacCode s.1).2 || (dacCode s.2).2).length

/-- The SOA gate length L_SOA in core cycles (R77). -/
def soaGate (m : RegMap) (x : Line) (mask : Nat) : Nat :=
  ceilDiv (groupDur m x mask + synAlign m x + act m (pgEmit x) EMIT.GATE_CTRL.SOA_TAIL) 4

end Sys2Proof.Machine
end

