-- ==== Sys2Proof/Machine/Tiu.lean ====
section
/-!
DEFINITION. The time-interval units (chapter 10, R274 to R278).
-/
namespace Sys2Proof.Machine

/-- A unit. -/
def Dev.tiu (d : Dev) (u : Nat) : Tiu := if u = 0 then d.tiu0 else d.tiu1

/-- A unit replaced, with ARMED and STARTED. -/
def setTiu (d : Dev) (u : Nat) (t : Tiu) : Dev :=
  let d := if u = 0 then { d with tiu0 := t } else { d with tiu1 := t }
  (d.setStatus (pgTiu u) 8 t.armed.isSome).setStatus (pgTiu u) 9 t.start.isSome

/-- A field of a unit's page in a register map. -/
def tiuFld (m : RegMap) (u : Nat) (f : Fld) : Nat := act m (pgTiu u) f

/-- The refusal of a TIU apply (R278). -/
def tiuCheck (m : RegMap) (u : Nat) : Option Nat :=
  let mode := tiuFld m u TIU.MODE
  if mode = 3 then some 1
  else if mode ≠ 0 ∧ (tiuFld m u TIU.SOURCES.START_SRC = 0 ∨ tiuFld m u TIU.SOURCES.STOP_SRC = 0) then some 2
  else none

/-- Whether a unit neither measures nor owes a result. -/
def tiuIdle (t : Tiu) : Bool := t.armed.isNone && t.start.isNone && t.result.isNone

/-- A unit armed from a cycle on, under the configuration in force. -/
def armFrom (d : Dev) (u tick : Nat) : Dev :=
  setTiu d u { d.tiu u with armed := some tick, cfg := d.regs, start := none }

/-- What an apply of a TIU page changes at once: CONTINUOUS arms an idle unit (R275). -/
def tiuApplied (u : Nat) (d : Dev) : Dev :=
  if tiuFld d.regs u TIU.MODE = 2 ∧ tiuIdle (d.tiu u) then armFrom d u d.clk.tick else d

/-- TIU_ARM (R275). -/
def tiuArm (u : Nat) (d : Dev) : Dev :=
  let mode := tiuFld d.regs u TIU.MODE
  if (mode = 1 ∨ mode = 2) ∧ tiuIdle (d.tiu u) then armFrom d u d.clk.tick else d

/-- Whether one edge is both a start and a stop edge of a unit (R276): one source, and one polarity where the source has
edges of two. -/
def oneSource (m : RegMap) (u : Nat) : Bool :=
  let src := tiuFld m u TIU.SOURCES.START_SRC
  src == tiuFld m u TIU.SOURCES.STOP_SRC &&
    (src == 15 || tiuFld m u TIU.SOURCES.START_POL == tiuFld m u TIU.SOURCES.STOP_POL)

/-- A measurement ends (R275): in CONTINUOUS mode with one source the edge that stops it starts the next. -/
def tiuEnd (d : Dev) (u stop count : Nat) (timeout same : Bool) : Dev :=
  let t := d.tiu u
  let chain := !timeout && oneSource t.cfg u && tiuFld d.regs u TIU.MODE == 2 && oneSource d.regs u
  setTiu d u
    { t with armed := if chain then t.armed else none, cfg := if chain then d.regs else t.cfg,
             start := if chain then some (d.clk.tick, d.timeNs) else none,
             result := some (stop, count, timeout, same), resStart := t.start.getD (0, 0) }

/-- A measurement ends by TIMEOUT, or at the counter's end (R275). -/
def tiuExpire (d : Dev) (u : Nat) : Dev :=
  match (d.tiu u).start with
  | none => d
  | some (s, _) =>
    let lim := tiuFld (d.tiu u).cfg u TIU.TIMEOUT
    let n := if lim = 0 then 2 ^ 48 - 1 else lim
    tiuEnd (d.event (pgTiu u) 5) u (s + n) n true false

/-- A stop edge meets a measurement that has started (R275). -/
def stopStarted (d : Dev) (u s : Nat) : Dev :=
  let cfg := (d.tiu u).cfg
  let lim := tiuFld cfg u TIU.TIMEOUT
  if lim ≠ 0 ∧ lim < d.clk.tick - s then tiuExpire d u
  else if d.clk.tick - s < tiuFld cfg u TIU.HOLDOFF then d
  else tiuEnd d u d.clk.tick (d.clk.tick - s) false (d.clk.tick == s)

/-- TIU_START_EDGE (R275, R276). -/
def tiuStartEdge (u : Nat) (same : Bool) (d : Dev) : Dev :=
  let t := d.tiu u
  match t.start with
  | some (s, _) => if oneSource t.cfg u then stopStarted d u s else d.event (pgTiu u) 7
  | none =>
    match t.armed with
    | none => if t.result.isSome && tiuFld d.regs u TIU.MODE == 2 then d.event (pgTiu u) 7 else d
    | some a =>
      if d.clk.tick < a then d.event (pgTiu u) 7
      else
        let d := setTiu d u { t with start := some (d.clk.tick, d.timeNs) }
        let differ := tiuFld t.cfg u TIU.SOURCES.START_SRC != tiuFld t.cfg u TIU.SOURCES.STOP_SRC
        if same && differ && tiuFld t.cfg u TIU.HOLDOFF == 0 then tiuEnd d u d.clk.tick 0 false true
        else d

/-- TIU_STOP_EDGE (R275). -/
def tiuStopEdge (u : Nat) (d : Dev) : Dev :=
  let t := d.tiu u
  match t.start with
  | some (s, _) => stopStarted d u s
  | none =>
    match t.armed with
    | none => d
    | some a =>
      if oneSource t.cfg u then tiuStartEdge u false d
      else if d.clk.tick < a then d else d.event (pgTiu u) 6

/-- The configuration whose sources a unit watches: that of its measurement, else the one in force. -/
def tiuWatch (d : Dev) (u : Nat) : RegMap :=
  if (d.tiu u).armed.isSome || (d.tiu u).start.isSome then (d.tiu u).cfg else d.regs

/-- Whether a unit takes an edge of a source as a start (or stop) edge: its source and its polarity. -/
def tiuTakes (m : RegMap) (u code : Nat) (rising stop : Bool) : Bool :=
  let f := tiuFld m u
  if stop then f TIU.SOURCES.STOP_SRC == code && (f TIU.SOURCES.STOP_POL == 0) == rising
  else f TIU.SOURCES.START_SRC == code && (f TIU.SOURCES.START_POL == 0) == rising

/-- An edge of a source reaches a unit in the present cycle (R275, R276). -/
def tiuSees (code : Nat) (rising : Bool) (d : Dev) (u : Nat) : Dev :=
  let m := tiuWatch d u
  if tiuTakes m u code rising false then tiuStartEdge u false d
  else if tiuTakes m u code rising true then tiuStopEdge u d
  else d

/-- An edge of a source of R274 in the present cycle, its edge cycle, at both units: TRIG_IN, PPS_IN, PPS_OUT, the gates,
the ALARM balls and UPD reach them by themselves. Gates have the one edge that R274 places. DEDUCED: log entry 138. -/
def tiuEdge (code : Nat) (rising : Bool) (d : Dev) : Dev :=
  if d.domainOn 1 && d.clk.coreOn then tiuSees code rising (tiuSees code rising d 0) 1 else d

/-- Whether a unit watches the comparator of a line's monitor tap, and a level lies above its own (R274). -/
def tiuMonitors (d : Dev) (x : Line) (mV u : Nat) : Bool :=
  let m := tiuWatch d u
  tiuFld m u TIU.MON_LEVEL < mV &&
    (tiuTakes m u (12 + x.idx) true false || tiuTakes m u (12 + x.idx) true true)

/-- The monitor tap of a line rises to a level in cycle t, at the comparators of the units (R274): the register cycle
is two later. DEDUCED: log entry 138. -/
def tiuTap (x : Line) (mV t : Nat) (d : Dev) : Dev :=
  [0, 1].foldl (fun d u =>
    if d.domainOn 1 && d.clk.coreOn && tiuMonitors d x mV u then tiuSees (12 + x.idx) true (d.advanceTo (t + 2)) u
    else d) d

/-- TIU_START (R274): an edge of source COMMAND. DEDUCED: log entry 49. -/
def tiuStart (u : Nat) (d : Dev) : Dev :=
  if tiuFld (d.tiu u).cfg u TIU.SOURCES.START_SRC = 15 then tiuStartEdge u false d else d

/-- TIU_STOP (R274). DEDUCED: log entry 49. -/
def tiuStop (u : Nat) (d : Dev) : Dev :=
  if tiuFld (d.tiu u).cfg u TIU.SOURCES.STOP_SRC = 15 then tiuStopEdge u d else d

/-- TIU_TIMEOUT (R275). -/
def tiuTimeout (u : Nat) (d : Dev) : Dev :=
  match (d.tiu u).start with
  | none => d
  | some (s, _) =>
    let lim := tiuFld (d.tiu u).cfg u TIU.TIMEOUT
    tiuExpire (d.advanceTo (s + if lim = 0 then 2 ^ 48 - 1 else lim)) u

/-- TIU_CANCEL (R277). -/
def tiuCancel (u : Nat) (d : Dev) : Dev :=
  setTiu d u { d.tiu u with armed := none, start := none, result := none }

/-- TIU_RESULT (R277): two cycles after the stop or timeout. -/
def tiuResult (u : Nat) (d : Dev) : Dev :=
  let t := d.tiu u
  let p := pgTiu u
  match t.result with
  | none => d
  | some (stop, count, timeout, same) =>
    let d := d.advanceTo (stop + 2)
    let ovr := rd d.regs (countAddr p 4) != rd d.regs (countAddr p 4 + 4)
    let d := (d.setLiv p TIU.COUNT_LO (count % 2 ^ 32)).setLiv p TIU.COUNT_HI (count / 2 ^ 32)
    let d := d.setPair p 0x908 0x90C t.resStart.1
    let d := d.setPair p 0x910 0x914 t.resStart.2
    let d := d.setLiv p TIU.FLAGS (bit ovr * 8 + bit same * 4 + bit timeout * 2 + 1)
    let d := if ovr then d.event p 8 else d
    let d := d.event p 4
    let d := setTiu d u { d.tiu u with result := none }
    if (d.tiu u).start.isNone && tiuFld d.regs u TIU.MODE == 2 then armFrom d u (d.clk.tick + 1) else d

/-- A CMD word: ARM, then START, STOP and CANCEL. START and STOP of one word are one edge where the unit has COMMAND as
its one source (R276). -/
def tiuCmd (u : Nat) (v : Word) (d : Dev) : Dev :=
  let d := if bitOf v.toNat 0 then tiuArm u d else d
  let one : Bool := bitOf v.toNat 1 && oneSource (d.tiu u).cfg u
  let d := if bitOf v.toNat 1 then tiuStart u d else d
  let d := if bitOf v.toNat 2 && !one then tiuStop u d else d
  if bitOf v.toNat 3 then tiuCancel u d else d

/-- TIU_ARM (R275). -/
def execTiuArm (k : Link) (u : Fin 2) (s : State) : Host.Outcome State Fault Refusal :=
  done s (s.dev.guarded k (pgTiu u.val) 0x980 (tiuArm u.val))

/-- TIU_START (R274). -/
def execTiuStart (k : Link) (u : Fin 2) (s : State) : Host.Outcome State Fault Refusal :=
  done s (s.dev.guarded k (pgTiu u.val) 0x980 (tiuStart u.val))

/-- TIU_STOP (R274). -/
def execTiuStop (k : Link) (u : Fin 2) (s : State) : Host.Outcome State Fault Refusal :=
  done s (s.dev.guarded k (pgTiu u.val) 0x980 (tiuStop u.val))

/-- TIU_CANCEL (R277). -/
def execTiuCancel (k : Link) (u : Fin 2) (s : State) : Host.Outcome State Fault Refusal :=
  done s (s.dev.guarded k (pgTiu u.val) 0x980 (tiuCancel u.val))

/-- TIU_START_EDGE (R275). -/
def execTiuStartEdge (u : Fin 2) (same : Bool) (s : State) : Host.Outcome State Fault Refusal :=
  done s (tiuStartEdge u.val same s.dev)

/-- TIU_STOP_EDGE (R275). -/
def execTiuStopEdge (u : Fin 2) (s : State) : Host.Outcome State Fault Refusal := done s (tiuStopEdge u.val s.dev)

/-- TIU_TIMEOUT (R275). -/
def execTiuTimeout (u : Fin 2) (s : State) : Host.Outcome State Fault Refusal := done s (tiuTimeout u.val s.dev)

/-- TIU_RESULT (R277). -/
def execTiuResult (u : Fin 2) (s : State) : Host.Outcome State Fault Refusal := done s (tiuResult u.val s.dev)

end Sys2Proof.Machine
end

