-- ==== Sys2Proof/Machine/Canary.lean ====
section
/-!
DEFINITION. Emitters, colour hold and the Canary (chapter 03).
-/
namespace Sys2Proof.Machine

/-- The index of an emitter (chapter 03). -/
def emitterIdx : Emitter → Nat
  | .seed => 0
  | .soa => 1
  | .boost => 2
  | .raman => 3

/-- The index of a colour loop (R79). -/
def laserIdx : Laser → Nat
  | .seed => 0
  | .raman => 1

/-- The emitter index of a gated output (R77). -/
def gateIdx : Gate → Nat
  | .soa => 1
  | .raman => 3

/-- The Canary of a line changed. -/
def Dev.onCan (d : Dev) (x : Line) (f : Canary → Canary) : Dev :=
  d.onLine x fun l => { l with can := f l.can }

/-- The output cells of a line changed. -/
def Dev.onCells (d : Dev) (x : Line) (f : Cells → Cells) : Dev :=
  d.onLine x fun l => { l with cells := f l.cells }

/-- CANARY.STATE of a line (R82). -/
def canState (d : Dev) (x : Line) : Nat := liv d.regs (pgCanary x) CANARY.STATE

/-- Whether the state of a line's Canary lets light out: PROBE or PERMIT (R82). -/
def canLit (d : Dev) (x : Line) : Bool := canState d x == 1 || canState d x == 2

/-- Whether the power mode is one in which lines emit of themselves: Survey, Listen, Full (R82). -/
def emittingMode (d : Dev) : Bool := d.pwr.mode == 3 || d.pwr.mode == 4 || d.pwr.mode == 5

/-- A line's Canary takes a state: the register, both copies, the PERMIT bit, and SHOT's DARK bit. -/
def setCanState (d : Dev) (x : Line) (st : Nat) : Dev :=
  let d := d.setLiv (pgCanary x) CANARY.STATE st
  let d := d.setStatus (pgCanary x) 8 (st == 2)
  let d := d.setStatus (pgShot x) 11 (!(st == 1 || st == 2))
  d.onCan x fun c => { c with copy0 := { c.copy0 with state := st },
                              copy1 := { c.copy1 with state := st } }

/-- A configuration field of a line's CANARY page in its copy 0 (R84, R96). DEDUCED: log entry 112. -/
def canCfg (d : Dev) (x : Line) (f : Fld) : Nat := liv (d.line x).can.copy0.cfg (pgCanary x) f

/-- A verdict that either copy forms from its own configuration (R85, R96). -/
def eitherCopy (d : Dev) (x : Line) (verdict : RegMap → Bool) : Bool :=
  verdict (d.line x).can.copy0.cfg || verdict (d.line x).can.copy1.cfg

/-- The PERMIT bit of STATUS: cleared at d + 2 of a cause, at once with any other way to a dark state (R85). -/
def permitShown (d : Dev) (x : Line) : Bool :=
  let c := (d.line x).can
  canState d x == 2 || match c.cut with
    | some t => c.wasPermit && d.clk.tick < t + 2
    | none => false

/-- SETPT_e.ON of the active EMIT page. -/
def setptOn (d : Dev) (x : Line) (e : Nat) : Bool := act d.regs (pgEmit x) (EMIT.SETPT.ON e) == 1

/-- The cap on the booster and Raman codes in force: SERVICE_PUMP in a session, RESTART_PUMP in a
probe, none otherwise (R93, R97). -/
def pumpCap (d : Dev) (x : Line) : Option Nat :=
  if (d.line x).can.session.isSome then some (canCfg d x CANARY.PUMP.SERVICE_PUMP)
  else if canState d x = 1 then some (canCfg d x CANARY.PUMP.RESTART_PUMP)
  else none

/-- The set-point code an emitter is driven at while its line is lit (R76). -/
def litCode (d : Dev) (x : Line) (e : Nat) : Nat :=
  let level := act d.regs (pgEmit x) (EMIT.SETPT.LEVEL e)
  if !setptOn d x e then 0
  else if e = 2 ∨ e = 3 then
    match pumpCap d x with
    | some c => min level c
    | none => level
  else level

/-- SP_EFF_e: the code actually driven (R76): 0 while the line is dark, and from d + 3 of a cause; the
DIAG code in a diagnostic pulse (R92). -/
def spEff (d : Dev) (x : Line) (e : Nat) : Nat :=
  let c := (d.line x).can
  let held : Bool := match c.cut with
    | some t => d.clk.tick < t + 3
    | none => false
  let pulse : Option Nat := match c.diagSlot with
    | none => none
    | some t =>
      if e = 1 ∧ c.diagSoa ∧ t ≤ d.clk.tick ∧ d.clk.tick < t + 250 then
        some (canCfg d x CANARY.DIAG.DIAG_SOA)
      else if e = 3 ∧ c.diagRam ∧ t + 250 ≤ d.clk.tick ∧ d.clk.tick < t + 500 then
        some (canCfg d x CANARY.DIAG.DIAG_RAM)
      else none
  if held then c.spHeld.getD e 0
  else if canLit d x then pulse.getD (litCode d x e)
  else 0

-- ---- causes -----------------------------------------------------------------------------------

/-- Whether a cause has scope line (R83): BREAK, REFLECTION and SERVICE_END. -/
def lineScope (code : Nat) : Bool := code == 1 || code == 2 || code == 15

/-- The event pair that reports a cause: its own where it has one, LINE_OFF or ALL_OFF otherwise. -/
def causePair (code : Nat) : Nat :=
  match code with
  | 1 => 6
  | 2 => 7
  | 8 => 8
  | 12 => 12
  | 15 => 4
  | _ => 5

/-- The events that a cause counts on the page that raised it, whatever it changes: BREAK,
REFLECTION and DIAG_FAIL on the raising line's page, INTERLOCK on both (R83). -/
def countCause (d : Dev) (lines : List Line) (code : Nat) : Dev :=
  if code = 1 ∨ code = 2 ∨ code = 8 ∨ code = 12 then
    lines.foldl (fun d y => d.event (pgCanary y) (causePair code)) d
  else d

/-- The line bits of CAUSE for the lines that raised it. -/
def lineBits (lines : List Line) : Nat := lines.foldl (fun n y => n ||| 2 ^ y.idx) 0

/-- A page records a cause with the tick and device time of the decision cycle (R83). -/
def recordCause (d : Dev) (y : Line) (code bits : Nat) : Dev :=
  let d := d.setLiv (pgCanary y) CANARY.CAUSE.CODE code
  let d := d.setLiv (pgCanary y) CANARY.CAUSE.LINES bits
  let d := d.setPair (pgCanary y) 0x908 0x90C d.clk.tick
  d.setPair (pgCanary y) 0x910 0x914 d.timeNs

/-- A line goes dark: the state changes, the gates follow 12 cycles after the decision, and of a cause the codes
and the permit bit with d + 3 and d + 2 (R76, R85); the probe or session ends. -/
def goDark (d : Dev) (y : Line) (st : Nat) (cause : Bool) : Dev :=
  let held := if cause then (List.range 4).map (spEff d y) else [0, 0, 0, 0]
  let permit := cause && canState d y == 2
  let wasLit := canLit d y
  let d := setCanState d y st
  let d := d.setStatus (pgCanary y) 11 false
  d.onCan y fun c =>
    { c with cut := if wasLit then some d.clk.tick else c.cut,
             spHeld := if wasLit then held else c.spHeld,
             wasPermit := if wasLit then permit else c.wasPermit,
             step := 0, settle := none, session := none, noWitness := false, diagReq := false,
             darkFrom := if wasLit then d.clk.tick else c.darkFrom }

/-- A line-scope cause moves one line to LINE_OFF, unless it is LINE_OFF or LATCHED already; the
automatic probe counts from the decision, and holds from the start in Service mode (R83, R95). -/
def toLineOff (d : Dev) (y : Line) (code bits : Nat) : Dev :=
  if canState d y = 3 ∨ canState d y = 4 then d
  else
    let d := goDark d y 3 true
    let wait := canCfg d y CANARY.PROBES.EVERY * 32768
    let due := d.slow + wait
    let service := d.pwr.mode == 7
    let d := d.onCan y fun c =>
      { c with probeDue := if service then none else some due, probeHeld := if service then some wait else none }
    (recordCause d y code bits).event (pgCanary y) 4

/-- An all-scope cause moves one line to LATCHED, unless it is LATCHED already: then its page keeps the cause that
latched it, also when the same cause latches the other line (R83). DEDUCED: log entry 121. -/
def toLatched (d : Dev) (y : Line) (code bits : Nat) : Dev :=
  if canState d y = 4 then d
  else
    let d := goDark d y 4 true
    let d := d.onCan y fun c => { c with probeDue := none, probeHeld := none }
    (recordCause d y code bits).event (pgCanary y) 5

/-- Whether both pages declare the lines two ends of one fibre (R83). -/
def paired (d : Dev) : Bool :=
  canCfg d .a CANARY.PAIRED == 1 && canCfg d .b CANARY.PAIRED == 1

/-- A cause in its decision cycle, raised by the lines of `lines` (R83). -/
def raiseCause (d : Dev) (lines : List Line) (code : Nat) : Dev :=
  if !d.domainOn 10 then d
  else
    let bits := lineBits lines
    let x := lines.headD .a
    let d := countCause d lines code
    let d := d.trouble (pgCanary x) (causePair code) sevCritical (code + bits * 256)
    if code = 15 then
      if canState d x = 1 ∨ canState d x = 2 then recordCause (goDark d x 0 true) x code bits
      else d
    else if lineScope code then
      let d := toLineOff d x code bits
      if paired d then toLineOff d x.other code bits else d
    else toLatched (toLatched d .a code bits) .b code bits

-- ---- probes -----------------------------------------------------------------------------------

/-- EMIT.STATUS LOCKED of a laser (R81). -/
def laserLocked (d : Dev) (x : Line) (l : Nat) : Bool := d.status (pgEmit x) (8 + l)

/-- A line enters PROBE: the permit is given, the seed is driven, the failure count restarts
(R93 step 1, R88). -/
def enterProbe (d : Dev) (x : Line) : Dev :=
  let d := setCanState d x 1
  let on := setptOn d x 0
  let locked := laserLocked d x 0
  let t := d.clk.tick
  let sl := d.slow
  let d := d.onCells x fun c => { c with permit := true, seedOn := on, boostOn := false }
  let d := d.onCan x fun c =>
    { c with cut := none, step := 1, fails := 0, lit := [], probeDue := none, probeHeld := none,
             settle := if locked then some sl else none,
             drive := if on then c.drive.set 0 (true, t) else c.drive }
  d.event (pgCanary x) 9

/-- PROBE_START (R82): a line in OFF enters PROBE when CTRL.EN = 1 and the mode allows emission. -/
def probeStart (x : Line) (d : Dev) : Dev :=
  if d.domainOn 10 && canState d x == 0 && enActive d.regs (pgCanary x) &&
      (emittingMode d || (d.pwr.mode == 7 && (d.line x).can.session.isSome)) then enterProbe d x
  else d

/-- SEED_SETTLED (R93 steps 2 and 3): once the seed has been LOCKED for SEED_SETTLE slow edges the
booster rises and the line's slots launch for RESTART_LEN slow edges. -/
def seedSettled (x : Line) (d : Dev) : Dev :=
  let c := (d.line x).can
  match c.settle with
  | none => d
  | some n =>
    if canState d x = 1 ∧ c.step = 1 ∧ laserLocked d x 0 then
      let d := d.advanceSlow (n + canCfg d x CANARY.SEED_SETTLE)
      let on := setptOn d x 2
      let t := d.clk.tick
      let stop := d.slow + canCfg d x CANARY.RESTART_LEN
      let d := d.onCells x fun c => { c with boostOn := on }
      d.onCan x fun c => { c with step := 3, stepEnd := stop, settle := none,
                                  drive := if on then c.drive.set 2 (true, t) else c.drive }
    else d

/-- PROBE_PASS (R93 step 4). -/
def probePass (x : Line) (d : Dev) : Dev :=
  let c := (d.line x).can
  if canState d x = 1 ∧ c.step = 3 then
    let d := d.advanceSlow c.stepEnd
    let d := setCanState d x 2
    let d := d.onCan x fun c => { c with step := 0 }
    d.event (pgCanary x) 10
  else d

/-- AUTO_PROBE (R95). -/
def autoProbe (x : Line) (d : Dev) : Dev :=
  match (d.line x).can.probeDue with
  | none => d
  | some n =>
    if canState d x = 3 ∧ canCfg d x CANARY.PROBES.AUTO = 1 ∧ emittingMode d then
      enterProbe (d.advanceSlow n) x
    else d

/-- The conditions of R94 under which RESTART is accepted. The copies agree when they are equal and COPY_FAULT is
clear: R96 has them agree again when the page is applied anew. STUCK_ON and STUCK_LIGHT are looked for on the
restarted line. DEDUCED: log entry 112. DEDUCED: log entry 122. -/
def restartOk (d : Dev) (x : Line) (key : Nat) : Bool :=
  let c := (d.line x).can
  key == 0x5245 && (canState d x == 3 || canState d x == 4) &&
  d.pins.interlock && d.pins.interlockFrom + 32768 ≤ d.slow &&
  c.copy0 == c.copy1 && !d.status (pgCanary x) 10 &&
  (List.range 2).all (fun l => laserLocked d x l && !d.status (pgEmit x) (12 + l)) &&
  !c.stuckLight && c.stuckOn.all (! ·) &&
  (liv d.regs (pgCanary x) CANARY.CAUSE.CODE != 14 || !d.pwr.hot)

/-- A line goes to OFF from a dark state (R94). -/
def toOff (d : Dev) (x : Line) : Dev :=
  (setCanState d x 0).onCan x fun c => { c with probeDue := none, probeHeld := none }

/-- RESTART (R94). -/
def restart (x : Line) (key : Nat) (d : Dev) : Dev :=
  if restartOk d x key then
    if enActive d.regs (pgCanary x) && emittingMode d then enterProbe d x else toOff d x
  else d.event (pgCanary x) 11

/-- SERVICE_OPEN (R97). -/
def serviceOpen (x : Line) (key : Nat) (noWitness : Bool) (seconds : Nat) (d : Dev) : Dev :=
  if key == 0x5356 && 1 ≤ seconds && seconds ≤ 60 && d.pwr.mode == 7 && d.pins.interlock &&
      (canState d x == 0 || canState d x == 3) then
    let stop := d.slow + seconds * 32768
    let d := toOff d x
    let d := d.onCan x fun c => { c with session := some stop, noWitness := noWitness }
    let d := d.setStatus (pgCanary x) 11 true
    if enActive d.regs (pgCanary x) then enterProbe d x else d
  else d

/-- A session ends with the cause SERVICE_END (R97). -/
def endSession (x : Line) (d : Dev) : Dev :=
  let d := raiseCause d [x] 15
  let d := d.setStatus (pgCanary x) 11 false
  d.onCan x fun c => { c with session := none, noWitness := false }

/-- SERVICE_STOP (R97): SECONDS = 0 written with the key. -/
def serviceStop (x : Line) (key : Nat) (d : Dev) : Dev :=
  if key = 0x5356 ∧ d.pwr.mode = 7 ∧ (d.line x).can.session.isSome then endSession x d else d

/-- SERVICE_END (R97): the session's slow edges have passed. DEDUCED: log entry 36. -/
def serviceEnd (x : Line) (d : Dev) : Dev :=
  match (d.line x).can.session with
  | none => d
  | some n => endSession x (d.advanceSlow n)

-- ---- outputs off ------------------------------------------------------------------------------

/-- A line's emitters are no longer driven from tick t. -/
def undrive (c : Canary) (t : Nat) : Canary :=
  { c with drive := c.drive.map fun e => if e.1 then (false, t) else e }

/-- GATES_OFF for one line (R85): 12 cycles after the decision every output of the line is low. -/
def gatesOffLine (d : Dev) (x : Line) : Dev :=
  match (d.line x).can.cut with
  | none => d
  | some t =>
    let d := d.advanceTo (t + 12)
    let d := d.onCells x fun c =>
      { c with permit := false, soaOn := false, ramOn := false, seedOn := false, boostOn := false }
    d.onCan x fun c => undrive { c with cut := none, diagSlot := none } (t + 12)

/-- GATES_OFF (R85). -/
def gatesOff (d : Dev) : Dev := gatesOffLine (gatesOffLine d .a) .b

/-- GATE_END (R77): a gate turns off at its scheduled cycle. -/
def gateEnd (x : Line) (g : Gate) (d : Dev) : Dev :=
  let c := (d.line x).cells
  match g with
  | .soa =>
    if c.soaOn then
      let d := d.advanceTo c.soaOff
      let d := d.onCells x fun c => { c with soaOn := false }
      d.onCan x fun k => { k with drive := k.drive.set 1 (false, c.soaOff) }
    else d
  | .raman =>
    if c.ramOn then
      let d := d.advanceTo c.ramOff
      let d := d.onCells x fun c => { c with ramOn := false }
      d.onCan x fun k => { k with drive := k.drive.set 3 (false, c.ramOff) }
    else d

/-- The low level of INTERLOCK_n is captured: both pages show it, and two cycles later it is the cause INTERLOCK
(R86). -/
def interlockOpen (d : Dev) : Dev :=
  if d.domainOn 10 && d.clk.coreOn then
    let d := d.setStatus (pgCanary .a) 9 true
    let d := d.setStatus (pgCanary .b) 9 true
    raiseCause (d.advance 2) [.a, .b] 12
  else d

/-- INTERLOCK_FALL (R86): the balls go low at once; the first core-clock edge captures the level. While there is no
such edge, CLOCK_RETURN or the domain's power-up captures it. DEDUCED: log entry 36. -/
def interlockFall (d : Dev) : Dev :=
  interlockOpen { d with pins := { d.pins with interlock := false, interlockFrom := d.slow } }

/-- INTERLOCK_RISE (R455, R94): only starts the time that RESTART requires. -/
def interlockRise (d : Dev) : Dev :=
  let d := { d with pins := { d.pins with interlock := true, interlockFrom := d.slow } }
  if d.domainOn 10 then
    (d.setStatus (pgCanary .a) 9 false).setStatus (pgCanary .b) 9 false
  else d

/-- CLOCK_LOSS (R87). -/
def clockLoss (d : Dev) : Dev :=
  if d.clk.coreOn then { d with clk := { d.clk with coreOn := false, lost := true } } else d

/-- CLOCK_RETURN (R87): the cause CLOCK_LOSS, and INTERLOCK for a ball that fell while no edge captured it (R86). -/
def clockReturn (d : Dev) : Dev :=
  if d.clk.lost then
    let d := raiseCause { d with clk := { d.clk with coreOn := true, lost := false } } [.a, .b] 13
    if !d.pins.interlock && !d.status (pgCanary .a) 9 then interlockOpen d else d
  else d

-- ---- colour hold ------------------------------------------------------------------------------

/-- A line's colour loop. -/
def loopOf (d : Dev) (x : Line) (l : Laser) : ColourLoop :=
  match l with
  | .seed => (d.line x).loopSeed
  | .raman => (d.line x).loopRaman

/-- A line's colour loop changed. -/
def Dev.onLoop (d : Dev) (x : Line) (l : Laser) (f : ColourLoop → ColourLoop) : Dev :=
  d.onLine x fun s =>
    match l with
    | .seed => { s with loopSeed := f s.loopSeed }
    | .raman => { s with loopRaman := f s.loopRaman }

/-- The temperature of a thermistor code in 1/256 °C (R79): 256 × (1/v − 273.15), rounded half away from zero, for
v = 1/298.15 + ln(R/R0)/B, which is never 0 and may be negative; a v of less than one unit of the fixed point is
taken as one. DEDUCED: log entry 123. -/
def thermTemp (rref r0 b code : Nat) : Int :=
  let lnR := fxLn (rref * code) (r0 * (65536 - code))
  let inv : Int := (20 * fxOne).fdiv 5963 + lnR.fdiv (b : Int)
  let v : Int := if inv = 0 then 1 else inv
  let num : Int := 25600 * fxOne - 6992640 * v
  roundHalfAway (if v < 0 then -num else num) (100 * v).natAbs

/-- THERMISTOR_SAMPLE (R79). -/
def thermistorSample (x : Line) (l : Laser) (code : Nat) (d : Dev) : Dev :=
  if !d.domainOn 10 then d
  else
    let i := laserIdx l
    let p := pgEmit x
    if 65000 < code ∨ code < 500 then
      if d.status p (12 + i) then d
      else
        let d := (d.setStatus p (12 + i) true).event p 5
        let d := d.setLiv p (EMIT.DUTY i) 0
        raiseCause d [x] 10
    else
      let t := thermTemp (act d.regs p (EMIT.THERM_REF.R_REF i)) (act d.regs p (EMIT.THERM.R0 i))
        (act d.regs p (EMIT.THERM.B i)) code
      let d := d.setStatus p (12 + i) false
      d.onLoop x l fun s => { s with sum := s.sum + t, count := s.count + 1 }

/-- The compensation temperature of a run (R80): 6,400 until the input named by COMP_SRC has given a
result; the last value while the input is stale; else from the newest code. With it, COMP_STALE. -/
def compTemp (d : Dev) (x : Line) (l : Laser) : Int × Bool :=
  let i := laserIdx l
  let p := pgEmit x
  let src := act d.regs p (EMIT.TEC_COMP.COMP_SRC i)
  if src = 31 then (6400, false)
  else
    match d.hk.mirror.getD src none with
    | none => (6400, true)
    | some (code, t) =>
      if t < (loopOf d x l).hkFrom then (6400, true)
      else if d.clk.tick < t + 62500000 then
        (asr (((code : Int) - act d.regs p (EMIT.COMP_MAP.C_OFS i)) *
            actS d.regs p (EMIT.COMP_MAP.C_GAIN i) + 128) 8, false)
      else (livS d.regs p (EMIT.T_COMP i), true)

/-- COLOUR_LOOP_RUN (R80, R81). A run with no reading since the last one takes the T of that one.
DEDUCED: log entry 124. -/
def colourLoopRun (x : Line) (l : Laser) (d : Dev) : Dev :=
  if !d.domainOn 10 then d
  else
    let i := laserIdx l
    let p := pgEmit x
    let s := loopOf d x l
    let d := d.advanceTo s.nextRun
    let d := d.onLoop x l fun s => { s with sum := 0, count := 0, nextRun := d.clk.tick + 312500 }
    if d.status p (12 + i) || d.pwr.hot then d.setLiv p (EMIT.DUTY i) 0
    else
      let t := if s.count = 0 then livS d.regs p (EMIT.TEMP i) else roundHalfAway s.sum s.count
      let comp := compTemp d x l
      let term : Int :=
        if act d.regs p (EMIT.TEC_COMP.COMP_SRC i) = 31 then 0
        else asr (actS d.regs p (EMIT.TEC_COMP.COMP i) * (comp.1 - 6400) + 2048) 12
      let setEff := actS d.regs p (EMIT.TEC_SET.SET i) + term
      let e := t - setEff
      let kp : Int := act d.regs p (EMIT.LOOP.KP i)
      let ki : Int := act d.regs p (EMIT.LOOP.KI i)
      let dmax : Int := act d.regs p (EMIT.LIMIT.DUTY_MAX i)
      let u := asr (kp * e + asr s.integ 16) 8
      let duty := clamp (-dmax) dmax u
      let integ := if duty = u then clamp (-2 ^ 47) (2 ^ 47 - 1) (s.integ + ki * e) else s.integ
      let d := d.setLivS p (EMIT.TEMP i) t
      let d := d.setLivS p (EMIT.SET_EFF i) setEff
      let d := d.setLivS p (EMIT.DUTY i) duty
      let d := d.setLivS p (EMIT.T_COMP i) comp.1
      let d := d.setStatus p (10 + i) comp.2
      let inWin : Bool := e.natAbs ≤ act d.regs p (EMIT.LIMIT.LOCK_WIN i)
      let inRuns := if inWin then s.inRuns + 1 else 0
      let was := laserLocked d x i
      let locks : Bool := !was && 2000 ≤ inRuns
      let d := if locks then (d.setStatus p (8 + i) true).setStatus p (14 + i) false else d
      let d := if was && !inWin then (d.setStatus p (8 + i) false).event p 4 else d
      let wasLocked := s.wasLocked || locks
      let far : Bool := 16 * act d.regs p (EMIT.LIMIT.FAULT_WIN i) < e.natAbs
      let outRuns := if wasLocked && far then s.outRuns + 1 else 0
      let d := d.onLoop x l fun s =>
        { s with integ := integ, inRuns := inRuns, outRuns := outRuns, wasLocked := wasLocked,
                 enabled := if locks then none else s.enabled }
      let sl := d.slow
      let d := if i = 0 ∧ canState d x = 1 then
          d.onCan x fun c =>
            if c.step = 1 then
              { c with settle := if locks then some sl else if was && inWin then c.settle
                                 else none }
            else c
        else d
      if outRuns = 200 then raiseCause d [x] 9 else d

/-- LOCK_FAIL (R81): 120 s after the apply that enabled the loop. -/
def lockFail (x : Line) (l : Laser) (d : Dev) : Dev :=
  match (loopOf d x l).enabled with
  | none => d
  | some n =>
    let d := d.advanceSlow (n + 120 * 32768)
    if laserLocked d x (laserIdx l) then d
    else d.setStatus (pgEmit x) (14 + laserIdx l) true

-- ---- sense checks -----------------------------------------------------------------------------

/-- A comparator's level at its ball becomes a cause: it is registered 2 core cycles after the ball and decided in
the next (R85). -/
def raiseAtBall (d : Dev) (x : Line) (code : Nat) : Dev := raiseCause (d.advance 3) [x] code

/-- A sense check of a line has failed, by a reading at the ball in the present cycle (R78). -/
def senseFails (d : Dev) (x : Line) (code : Nat) : Dev :=
  raiseAtBall (d.setLiv (pgCanary x) CANARY.VERDICT (liv d.regs (pgCanary x) CANARY.VERDICT ||| 1)) x code

/-- A reading below SNS_MIN of an emitter, in mV, by either copy. -/
def senseLow (d : Dev) (x : Line) (e mV : Nat) : Bool :=
  eitherCopy d x fun m => mV < liv m (pgCanary x) (CANARY.SENSE.SNS_MIN e)

/-- A reading above SNS_MIN of an emitter, by either copy. -/
def senseAbove (d : Dev) (x : Line) (e mV : Nat) : Bool :=
  eitherCopy d x fun m => liv m (pgCanary x) (CANARY.SENSE.SNS_MIN e) < mV

/-- A reading above SNS_MAX of an emitter, by either copy. -/
def senseHigh (d : Dev) (x : Line) (e mV : Nat) : Bool :=
  eitherCopy d x fun m => liv m (pgCanary x) (CANARY.SENSE.SNS_MAX e) < mV

/-- A driven emitter's reading against its window (R78). -/
def windowCheck (d : Dev) (x : Line) (e mV : Nat) : Dev :=
  if senseLow d x e mV then senseFails d x 5
  else if senseHigh d x e mV then senseFails d x 6
  else d

/-- SENSE_CHECK (R78): a steady emitter driven for 32,768 cycles against its window; an emitter not
driven for 32,768 cycles against SNS_MIN. DESIGN CHOICE: log entry 35. -/
def senseCheck (x : Line) (e : Emitter) (mV : Nat) (d : Dev) : Dev :=
  if !d.domainOn 10 then d
  else
    let i := emitterIdx e
    let dr := (d.line x).can.drive.getD i (false, 0)
    if d.clk.tick < dr.2 + 32768 then d
    else if dr.1 then
      if i = 0 ∨ i = 2 then windowCheck d x i mV else d
    else
      let high : Bool := senseAbove d x i mV
      let was := (d.line x).can.stuckOn.getD i false
      let d := d.onCan x fun c => { c with stuckOn := c.stuckOn.set i high }
      if high && !was then raiseAtBall d x 7 else d

/-- Whether a gated emitter's present gate is its diagnostic pulse (R92), which DIAG_SAMPLE checks. -/
def inDiag (d : Dev) (x : Line) (g : Gate) : Bool :=
  let c := (d.line x).can
  let k := (d.line x).cells
  match c.diagSlot with
  | none => false
  | some t =>
    match g with
    | .soa => c.diagSoa && k.soaFrom == t
    | .raman => c.diagRam && k.ramFrom == t + 250

/-- GATED_SENSE_CHECK (R78): 120 cycles after a gate of at least 125 cycles turns on. -/
def gatedSenseCheck (x : Line) (g : Gate) (mV : Nat) (d : Dev) : Dev :=
  let c := (d.line x).cells
  let go (from' off : Nat) (on diag : Bool) (clear : Canary → Canary) : Dev :=
    if on && !diag && from' + 125 ≤ off then
      let d := d.advanceTo (from' + 120)
      windowCheck (d.onCan x clear) x (gateIdx g) mV
    else d
  match g with
  | .soa => go c.soaFrom c.soaOff c.soaOn (inDiag d x .soa) fun k => { k with needSoa := false }
  | .raman => go c.ramFrom c.ramOff c.ramOn (inDiag d x .raman) fun k => { k with needRam := false }

-- ---- break and reflection checks ---------------------------------------------------------------

/-- The lit slots launched before tick t whose witness verdict has fallen pass out of their windows, oldest first:
one that has failed no check ends a run of failures (R88). -/
def retireLit (t : Nat) (c : Canary) : Canary :=
  let past (s : LitSlot) : Bool := s.launch < t && s.judged
  { c with lit := c.lit.filter fun s => !past s,
           fails := if (c.lit.filter past).any fun s => !s.failed then 0 else c.fails }

/-- A lit slot changed, found by its launch. -/
def onLit (launch : Nat) (f : LitSlot → LitSlot) (c : Canary) : Canary :=
  { c with lit := c.lit.map fun s => if s.launch = launch then f s else s }

/-- A lit slot has failed a check, the first of it (R88, R89): the second of two consecutive failures raises BREAK
when it is a witness failure, REFLECTION otherwise. -/
def slotFails (d : Dev) (x : Line) (s : LitSlot) (code : Nat) : Dev :=
  if s.failed then d
  else
    let d := d.onCan x (retireLit s.launch)
    let n := (d.line x).can.fails + 1
    let d := d.onCan x fun c => { onLit s.launch (fun s => { s with failed := true }) c with fails := n }
    if n = 2 then raiseCause d [x] code else d

/-- Whether window cycle k of a lit slot comes before the next slot's launch, which ends the windows (R90). -/
def LitSlot.inside (s : LitSlot) (k : Nat) : Bool :=
  match s.next with
  | none => true
  | some t => s.launch + k < t

/-- Whether MON_BACK at a level in window cycle k is a reflection by one copy (R88). -/
def reflects (x : Line) (k mV : Nat) (m : RegMap) : Bool :=
  let p := pgCanary x
  decide (liv m p CANARY.BLANK ≤ k) && k ≤ liv m p CANARY.OBS_END && liv m p CANARY.BACK.REFL_MAX < mV

/-- MON_BACK_CROSSING (R88): the first crossing of REFL_MAX in window cycles BLANK to OBS_END of the newest lit slot;
a verdict of a dark line is discarded. -/
def monBackCrossing (x : Line) (cycle mV : Nat) (d : Dev) : Dev :=
  let p := pgCanary x
  match (d.line x).can.lit.getLast? with
  | none => tiuTap x mV d.clk.tick d
  | some s =>
    let d := tiuTap x mV (s.launch + cycle) d
    if eitherCopy d x (reflects x cycle mV) && s.inside cycle && !s.reflFail then
      let d := d.advanceTo (s.launch + cycle + 3)
      if canLit d x then
        let d := d.onCan x (onLit s.launch fun s => { s with reflFail := true })
        slotFails (d.setLiv p CANARY.VERDICT (liv d.regs p CANARY.VERDICT ||| 4)) x s 2
      else d
    else d

/-- The cycles from `lo` to `hi` in which a level, given by its steps (cycle, mV) in rising order, 0 before the first,
is above a threshold. -/
def cyclesAbove (lo hi thr : Nat) : List (Nat × Nat) → Nat
  | [] => 0
  | (c, v) :: rest =>
    let stop := match rest with
      | [] => hi + 1
      | e :: _ => min e.1 (hi + 1)
    (if thr < v then stop - max c lo else 0) + cyclesAbove lo hi thr rest

/-- The last window cycle of a lit slot's witness check by one copy: WIT_END, or the last before the next slot's
launch (R88, R90). -/
def witnessEnd (x : Line) (s : LitSlot) (m : RegMap) : Nat :=
  let e := liv m (pgCanary x) CANARY.WIT_END
  match s.next with
  | none => e
  | some t => min e (t - s.launch - 1)

/-- The witness count of a lit slot by one copy (R88), from the steps of MON_BACK in its window cycles. -/
def witnessCount (x : Line) (s : LitSlot) (steps : List (Nat × Nat)) (m : RegMap) : Nat :=
  let p := pgCanary x
  cyclesAbove (liv m p CANARY.WIT_START) (witnessEnd x s m)
    (if s.ramanOnly then liv m p CANARY.BS_MIN_R else liv m p CANARY.BACK.BS_MIN) steps

/-- WITNESS_VERDICT (R88): the oldest lit slot still to be judged passes or fails by the level that MON_BACK had in
its window cycles; a verdict of a dark line is discarded. DESIGN CHOICE: log entry 35. -/
def witnessVerdict (x : Line) (steps : List (Nat × Nat)) (d : Dev) : Dev :=
  let p := pgCanary x
  match (d.line x).can.lit.find? (!·.judged) with
  | none => d
  | some s =>
    let m := (d.line x).can.copy0.cfg
    let d := d.advanceTo (s.launch + witnessEnd x s m + 3)
    let d := d.onCan x (onLit s.launch fun s => { s with judged := true })
    let d := d.setLiv p CANARY.WIT_SEEN (witnessCount x s steps m)
    if canLit d x && !(d.line x).can.noWitness &&
        eitherCopy d x (fun m => witnessCount x s steps m < liv m p CANARY.WIT_COUNT) then
      slotFails (d.setLiv p CANARY.VERDICT (liv d.regs p CANARY.VERDICT ||| 2)) x s 1
    else d

/-- MON_OUT_CROSSING (R83): MON_OUT at a level in the present cycle: above OUT_MAX, OVERPOWER; above DARK_MAX from
10 ms after the line went dark, STUCK_LIGHT. -/
def monOutCrossing (x : Line) (mV : Nat) (d : Dev) : Dev :=
  if !d.domainOn 10 then d
  else
    let p := pgCanary x
    let stuck : Bool := !canLit d x && (d.line x).can.darkFrom + 6250000 ≤ d.clk.tick &&
      eitherCopy d x fun m => liv m p CANARY.OUT.DARK_MAX < mV
    let d := d.onCan x fun c => { c with stuckLight := stuck }
    if eitherCopy d x fun m => liv m p CANARY.OUT.OUT_MAX < mV then raiseAtBall d x 3
    else if stuck then raiseAtBall d x 4
    else d

-- ---- two copies -------------------------------------------------------------------------------

/-- COPY_MISMATCH (R96): a word of one copy (offset 0x900: its state) is found to hold v; when the
copies then differ, the all-scope cause follows in the next cycle. DEDUCED: log entry 112. -/
def copyMismatch (x : Line) (second : Bool) (off : Nat) (v : Word) (d : Dev) : Dev :=
  if !d.domainOn 10 then d
  else
    let put (c : Copy) : Copy :=
      if off = 0x900 then { c with state := v.toNat }
      else { c with cfg := wr c.cfg (pageBase (pgCanary x) + off) v }
    let d := d.onCan x fun c =>
      if second then { c with copy1 := put c.copy1 } else { c with copy0 := put c.copy0 }
    if (d.line x).can.copy0 = (d.line x).can.copy1 then d
    else
      let d := d.advance 1
      let d := d.setStatus (pgCanary x) 10 true
      let d := if d.status (pgCanary x) 2 then d
        else (d.setStatus (pgCanary x) 2 true).eventLog (pgCanary x) 1 sevError off
      raiseCause d [x] 11

-- ---- diagnostic pulses ------------------------------------------------------------------------

/-- The diagnostic slot starting at tick t is served (R92): one pulse for each gated emitter that
needs diagnosis; DIAG_AGE restarts. DEDUCED: log entry 31. -/
def serveDiag (d : Dev) (x : Line) (t : Nat) : Dev :=
  let c := (d.line x).can
  let d := d.onCells x fun k =>
    let k := if c.needSoa then { k with soaOn := true, soaFrom := t, soaOff := t + 250 } else k
    if c.needRam then { k with ramOn := true, ramFrom := t + 250, ramOff := t + 500 } else k
  let d := d.onCan x fun c =>
    let drive := if c.needSoa then c.drive.set 1 (true, t) else c.drive
    { c with diagReq := false, diagSlot := some t, diagSoa := c.needSoa, diagRam := c.needRam,
             needSoa := false, needRam := false,
             drive := if c.needRam then drive.set 3 (true, t + 250) else drive }
  d.setLiv (pgCanary x) CANARY.DIAG_AGE 0

/-- DIAG_SAMPLE (R92): 120 cycles into a diagnostic pulse. -/
def diagSample (x : Line) (g : Gate) (mV : Nat) (d : Dev) : Dev :=
  let c := (d.line x).can
  match c.diagSlot with
  | none => d
  | some t =>
    match g with
    | .soa =>
      if c.diagSoa then
        let d := d.advanceTo (t + 120)
        if eitherCopy d x fun m => mV < liv m (pgCanary x) CANARY.DIAG_SNS.DIAG_SNS_SOA then raiseAtBall d x 8
        else d
      else d
    | .raman =>
      if c.diagRam then
        let d := d.advanceTo (t + 370)
        if eitherCopy d x fun m => mV < liv m (pgCanary x) CANARY.DIAG_SNS.DIAG_SNS_RAM then raiseAtBall d x 8
        else d
      else d

/-- A slot's launch ends the windows of the lit slots before it (R90). -/
def endWindows (launch : Nat) (c : Canary) : Canary :=
  { c with lit := c.lit.map fun s => if s.next.isNone && s.launch < launch then { s with next := some launch } else s }

/-- The bookkeeping of a lit slot (R88, R91): its windows open, the verdict bits restart, gates
shorter than 125 cycles leave their emitter in need of diagnosis, DIAG_AGE advances, with the slot that first
creates the need too. DEDUCED: log entry 125. -/
def litSlot (d : Dev) (x : Line) (launch : Nat) (ramanOnly : Bool) (soaLen ramLen : Option Nat) : Dev :=
  let short (l : Option Nat) (need : Bool) : Bool :=
    match l with
    | none => need
    | some n => n < 125
  let d := d.onCan x fun c =>
    let r := retireLit launch c
    { r with lit := r.lit ++ [{ launch := launch, ramanOnly := ramanOnly }],
             needSoa := short soaLen c.needSoa, needRam := short ramLen c.needRam }
  let d := d.setLiv (pgCanary x) CANARY.VERDICT 0
  let c := (d.line x).can
  let age := liv d.regs (pgCanary x) CANARY.DIAG_AGE
  if c.needSoa || c.needRam then d.setLiv (pgCanary x) CANARY.DIAG_AGE (min (age + 1) 0x7FF)
  else d.setLiv (pgCanary x) CANARY.DIAG_AGE 0

/-- GATE_END (R77). -/
def execGateEnd (x : Line) (g : Gate) (s : State) :
    Host.Outcome State Fault Refusal :=
  done s (gateEnd x g s.dev)

/-- THERMISTOR_SAMPLE (R79). -/
def execThermistorSample (x : Line) (l : Laser) (code : BitVec 16) (s : State) :
    Host.Outcome State Fault Refusal :=
  done s (thermistorSample x l code.toNat s.dev)

/-- COLOUR_LOOP_RUN (R80). -/
def execColourLoopRun (x : Line) (l : Laser) (s : State) :
    Host.Outcome State Fault Refusal :=
  done s (colourLoopRun x l s.dev)

/-- LOCK_FAIL (R81). -/
def execLockFail (x : Line) (l : Laser) (s : State) :
    Host.Outcome State Fault Refusal :=
  done s (lockFail x l s.dev)

/-- SENSE_CHECK (R78). -/
def execSenseCheck (x : Line) (e : Emitter) (mV : Nat) (s : State) :
    Host.Outcome State Fault Refusal :=
  done s (senseCheck x e mV s.dev)

/-- GATED_SENSE_CHECK (R78). -/
def execGatedSenseCheck (x : Line) (g : Gate) (mV : Nat) (s : State) :
    Host.Outcome State Fault Refusal :=
  done s (gatedSenseCheck x g mV s.dev)

/-- MON_BACK_CROSSING (R88). -/
def execMonBackCrossing (x : Line) (cycle mV : Nat) (s : State) :
    Host.Outcome State Fault Refusal :=
  done s (monBackCrossing x cycle mV s.dev)

/-- WITNESS_VERDICT (R88). -/
def execWitnessVerdict (x : Line) (steps : List (Nat × Nat)) (s : State) :
    Host.Outcome State Fault Refusal :=
  done s (witnessVerdict x steps s.dev)

/-- MON_OUT_CROSSING (R83). -/
def execMonOutCrossing (x : Line) (mV : Nat) (s : State) :
    Host.Outcome State Fault Refusal :=
  done s (monOutCrossing x mV s.dev)

/-- GATES_OFF (R85). -/
def execGatesOff (s : State) :
    Host.Outcome State Fault Refusal :=
  done s (gatesOff s.dev)

/-- COPY_MISMATCH (R96). -/
def execCopyMismatch (x : Line) (second : Bool) (off : BitVec 12) (v : Word) (s : State) :
    Host.Outcome State Fault Refusal :=
  done s (copyMismatch x second off.toNat v s.dev)

/-- INTERLOCK_FALL (R86). -/
def execInterlockFall (s : State) :
    Host.Outcome State Fault Refusal :=
  done s (interlockFall s.dev)

/-- INTERLOCK_RISE (R455). -/
def execInterlockRise (s : State) :
    Host.Outcome State Fault Refusal :=
  done s (interlockRise s.dev)

/-- CLOCK_LOSS (R87). -/
def execClockLoss (s : State) :
    Host.Outcome State Fault Refusal :=
  done s (clockLoss s.dev)

/-- CLOCK_RETURN (R87). -/
def execClockReturn (s : State) :
    Host.Outcome State Fault Refusal :=
  done s (clockReturn s.dev)

/-- DIAG_SAMPLE (R92). -/
def execDiagSample (x : Line) (g : Gate) (mV : Nat) (s : State) :
    Host.Outcome State Fault Refusal :=
  done s (diagSample x g mV s.dev)

/-- PROBE_START (R82). -/
def execProbeStart (x : Line) (s : State) :
    Host.Outcome State Fault Refusal :=
  done s (probeStart x s.dev)

/-- SEED_SETTLED (R93). -/
def execSeedSettled (x : Line) (s : State) :
    Host.Outcome State Fault Refusal :=
  done s (seedSettled x s.dev)

/-- PROBE_PASS (R93). -/
def execProbePass (x : Line) (s : State) :
    Host.Outcome State Fault Refusal :=
  done s (probePass x s.dev)

/-- AUTO_PROBE (R95). -/
def execAutoProbe (x : Line) (s : State) :
    Host.Outcome State Fault Refusal :=
  done s (autoProbe x s.dev)

/-- RESTART (R94). -/
def execRestart (k : Link) (x : Line) (key : BitVec 16) (s : State) :
    Host.Outcome State Fault Refusal :=
  done s (s.dev.guarded k (pgCanary x) 0x980 (restart x key.toNat))

/-- SERVICE_OPEN (R97). -/
def execServiceOpen (k : Link) (x : Line) (key : BitVec 16) (noWitness : Bool) (seconds : BitVec 6) (s : State) :
    Host.Outcome State Fault Refusal :=
  done s (s.dev.guarded k (pgCanary x) 0x984 (serviceOpen x key.toNat noWitness seconds.toNat))

/-- SERVICE_STOP (R97). -/
def execServiceStop (k : Link) (x : Line) (key : BitVec 16) (s : State) :
    Host.Outcome State Fault Refusal :=
  done s (s.dev.guarded k (pgCanary x) 0x984 (serviceStop x key.toNat))

/-- SERVICE_END (R97). -/
def execServiceEnd (x : Line) (s : State) :
    Host.Outcome State Fault Refusal :=
  done s (serviceEnd x s.dev)

end Sys2Proof.Machine
end

