-- ==== Sys2Proof/Machine/Lanes.lean ====
section
/-!
DEFINITION. Coherent receive lanes (chapter 04): slots and slot words, health, statistics, interleave
trims, and the field calibrations of the lanes, of SYN (R71) and of the Raman lanes (R229, R230).
-/
namespace Sys2Proof.Machine

/-- A field of a slot's own configuration (active view at its launch, R125). -/
def Slot.act (s : Slot) (p : Nat) (f : Fld) : Nat := Machine.act s.cfg p f

/-- A signed field of a slot's own configuration. -/
def Slot.actS (s : Slot) (p : Nat) (f : Fld) : Int := Machine.actS s.cfg p f

-- ---- slot words -------------------------------------------------------------------------------

/-- A lane's input selection (R120): 0 BALLS, 1 SHORT, 2 TONE, 3 PATTERN. -/
def laneInput (m : RegMap) (x : Line) (j : Nat) : Nat := act m (pgLane x) (LANE.INPUT.SEL j)

/-- MASK bit of a lane. -/
def laneEnabled (m : RegMap) (x : Line) (j : Nat) : Bool :=
  bitOf (act m (pgLane x) LANE.MASK.LANE_EN) j

/-- Whether the lane PLL was out of lock at some time from tick a to tick b (R106). -/
def Pll.lostIn (p : Pll) (a b : Nat) : Bool :=
  p.losses.any (fun l => l.1 < b && a < l.2) || (!p.locked && p.since < b)

/-- The code a lane passes on for sample n under a configuration (R106, R107, R120): 0 while LOST or disabled,
the pattern when selected. -/
def laneCodeIn (m : RegMap) (x : Line) (lost : Bool) (j : Nat) (n : Int) (raw : Int) : Int :=
  if lost || !laneEnabled m x j then 0
  else if laneInput m x j = 3 then (n + 512 * (j : Int)) % 4096 - 2048
  else raw

/-- The code a lane passes on for sample n of a slot. -/
def laneCode (s : Slot) (x : Line) (lost : Bool) (j : Nat) (n : Int) (raw : Int) : Int :=
  laneCodeIn s.cfg x lost j n raw

/-- The code of lane j for the absolute lane sample u (the core tick times 4), which no slot covers: n counts on
from sample 0 of the line's last slot before it, and is u before the first (R106, R107, R120). -/
def idleCode (d : Dev) (x : Line) (j : Nat) (u raw : Int) : Int :=
  let before := (d.line x).lane.spans.find? fun s => 4 * (s.slot.shot.tick : Int) ≤ u
  let n := match before with
    | some s => u - 4 * (s.slot.shot.tick : Int)
    | none => u
  let t := (u / 4).toNat
  laneCodeIn d.regs x (d.pll.lostIn t (t + 1)) j n raw

/-- Whether a code is an overrange code (R104). -/
def isOvr (v : Int) : Bool := v == -2048 || v == 2047

/-- The GAIN field of a slot word: the codes in force (R107). -/
def gainBits (m : RegMap) (x : Line) : Nat :=
  ((List.range 4).map fun j => act m (pgLane x) (LANE.GAIN.CODE j) * 16 ^ j).sum

/-- The BAD bits of a slot (R105): lanes disabled, or with a core STUCK at some time in the slot. -/
def badBits (m : RegMap) (x : Line) (stuck : List Bool) : Nat :=
  ((List.range 4).map fun j =>
    if !laneEnabled m x j || stuck.getD (2 * j) false || stuck.getD (2 * j + 1) false then 2 ^ j
    else 0).sum

/-- A slot word from its parts (R107). -/
def slotWordOf (s : Slot) (x : Line) (lost : Bool) (stuck : List Bool) (ovr : Nat) : Nat :=
  bit lost * 2 ^ 31 + bit s.gainStep * 2 ^ 30 + badBits s.cfg x stuck * 2 ^ 24 + ovr * 2 ^ 20 +
    gainBits s.cfg x

/-- The slot word of a span, or what it would be so far while the slot is open: without overrange
bits, which no reader of an open slot uses. -/
def spanWord (d : Dev) (x : Line) (s : SlotSpan) : Nat :=
  match s.word with
  | some w => w
  | none =>
    slotWordOf s.slot x (d.pll.lostIn s.slot.shot.tick (s.stop.getD (d.clk.tick + 1)))
      (d.line x).lane.stuckSlot 0

/-- The line's lanes changed. -/
def Dev.onLane (d : Dev) (x : Line) (f : LaneSt → LaneSt) : Dev :=
  d.onLine x fun l => { l with lane := f l.lane }

/-- A new slot of the lane stream begins at its gate edge; the slot before it ends there (R100). -/
def openSlot (d : Dev) (x : Line) (s : Slot) : Dev :=
  d.onLane x fun l =>
    let spans := match l.spans with
      | [] => []
      | h :: r => (if h.stop.isNone then { h with stop := some s.shot.tick } else h) :: r
    { l with spans := ({ slot := s } :: spans).take 2048, gainStep := false }

/-- The slot stream of a line ends at a tick without a new slot (R64). -/
def closeSlots (d : Dev) (x : Line) (t : Nat) : Dev :=
  d.onLane x fun l =>
    match l.spans with
    | [] => l
    | h :: r => { l with spans := (if h.stop.isNone then { h with stop := some t } else h) :: r }

/-- The samples of lane j among the four lists. -/
def laneOf (s : Lanes) (j : Nat) : List Int :=
  match j with
  | 0 => s.xi
  | 1 => s.xq
  | 2 => s.yi
  | _ => s.yq

/-- The codes that lane j passes on over a slot, from the converter codes. -/
def slotCodes (s : Slot) (x : Line) (lost : Bool) (samples : Lanes) (j : Nat) : List Int :=
  (laneOf samples j).zipIdx.map fun e => laneCode s x lost j (e.2 : Int) e.1

/-- A lane's statistics over a further stretch of codes (R108). -/
def LaneAcc.add (a : LaneAcc) (codes : List Int) : LaneAcc :=
  codes.foldl (fun a v =>
    { sum := a.sum + v, sq := a.sq + v.natAbs * v.natAbs, n := a.n + 1,
      ovr := a.ovr + bit (isOvr v), peak := max a.peak v.natAbs }) a

/-- The codes of the statistics window of a slot (R108). -/
def statWindow (m : RegMap) (x : Line) (codes : List Int) : List Int :=
  let start := 4 * act m (pgLane x) LANE.STAT_START
  let len := 4 * act m (pgLane x) LANE.STAT_LEN
  if len = 0 then codes else (codes.drop start).take len

/-- LOW_j is set while RMS_j is below 16 × RMS_LOW (R108). -/
def showLow (d : Dev) (x : Line) : Dev :=
  let p := pgLane x
  (List.range 4).foldl (fun d j =>
    d.setStatus p (16 + j) (liv d.regs p (LANE.RMS j) < 16 * act d.regs p LANE.HEALTH.RMS_LOW)) d

/-- The statistics of a completed round are published (R108): floor(x + 0.5) roundings; a round with
no sample leaves the values in place. -/
def publishStats (d : Dev) (x : Line) : Dev :=
  let p := pgLane x
  let go (d : Dev) (j : Nat) : Dev :=
    let a := (d.line x).lane.acc.getD j {}
    if a.n = 0 then d
    else
      let mean : Int := (32 * a.sum + (a.n : Int)).fdiv (2 * (a.n : Int))
      -- floor(16·sqrt(sq/n) + 0.5): the largest r with (2r − 1)² · n ≤ 1024 · sq
      let rms := (isqrt (1024 * a.sq / a.n) + 1) / 2
      let d := d.setLivS p (LANE.MEAN j) mean
      let d := d.setLiv p (LANE.RMS j) rms
      let d := d.setLiv p (LANE.OVR j) (min a.ovr (2 ^ 24 - 1))
      let d := d.setLiv p (LANE.PEAK j) a.peak
      d.setStatus p (8 + j) (a.ovr != 0)
  let d := showLow ((List.range 4).foldl go d) x
  d.onLane x fun l => { l with acc := List.replicate 4 {} }

/-- The oldest span whose slot has ended and whose word has not been passed. -/
def oldestOpen (l : List SlotSpan) : Option SlotSpan :=
  l.reverse.find? fun s => s.word.isNone && s.stop.isSome

/-- The list with the word of the span of a slot set. -/
def setWordOf (l : List SlotSpan) (seq w : Nat) : List SlotSpan :=
  l.map fun s => if s.slot.shot.seq = seq ∧ s.word.isNone then { s with word := some w } else s

/-- SLOT_WORD (R107, R108): the oldest slot that has ended gives its word 20 cycles after its last
sample; statistics start with the first slot of a round and are published with its last, so that a round cut short
leaves nothing behind. -/
def slotWord (x : Line) (samples : Lanes) (d : Dev) : Dev :=
  if d.pwr.mode = 6 then d
  else
    match oldestOpen (d.line x).lane.spans with
    | none => d
    | some sp =>
      let s := sp.slot
      let p := pgLane x
      let stop := sp.stop.getD 0
      let d := d.advanceTo (stop + 19)
      let lost := d.pll.lostIn s.shot.tick stop
      let codes := (List.range 4).map (slotCodes s x lost samples)
      let ovr := (codes.zipIdx.map fun e => if e.1.any isOvr then 2 ^ e.2 else 0).sum
      let w := slotWordOf s x lost (d.line x).lane.stuckSlot ovr
      let counted : Bool := s.shot.flags &&& 0x8C == 0
      let acc0 := if s.shot.group = 0 then List.replicate 4 {} else (d.line x).lane.acc
      let d := d.onLane x fun l =>
        { l with spans := setWordOf l.spans s.shot.seq w, stuckSlot := l.stuck,
                 acc := if counted then
                     acc0.zipIdx.map fun e => e.1.add (statWindow s.cfg x (codes.getD e.2 []))
                   else acc0 }
      let d := d.setLiv p LANE.SLOT_WORD w
      let d := d.setLiv p LANE.SLOT_SEQ s.shot.seq
      let d := if ovr = 0 then d else d.event p 4
      if s.shot.group + 1 = act s.cfg (pgShot x) SHOT.ROUND_CTRL.N_GROUPS then publishStats d x else d

-- ---- health -----------------------------------------------------------------------------------

/-- STATUS.STUCK_j from the cores (R105). -/
def laneStuck (l : LaneSt) (j : Nat) : Bool :=
  l.stuck.getD (2 * j) false || l.stuck.getD (2 * j + 1) false

/-- CORE_STUCK (R105). -/
def coreStuck (x : Line) (k : Nat) (d : Dev) : Dev :=
  let j := k / 2
  let p := pgLane x
  if d.pageOn p && d.pll.locked && laneEnabled d.regs x j && laneInput d.regs x j % 2 == 0 then
    let was := laneStuck (d.line x).lane j
    let d := d.onLane x fun l =>
      { l with stuck := l.stuck.set k true, stuckSlot := l.stuckSlot.set k true }
    let d := d.setStatus p (12 + j) true
    if was then d else d.event p 5
  else d

/-- STUCK_CLEARED (R105): the core's code has changed. -/
def stuckCleared (x : Line) (k : Nat) (d : Dev) : Dev :=
  let d := d.onLane x fun l => { l with stuck := l.stuck.set k false }
  if d.pageOn (pgLane x) then
    d.setStatus (pgLane x) (12 + k / 2) (laneStuck (d.line x).lane (k / 2))
  else d

/-- LANE_PLL_LOSS (R106). -/
def lanePllLoss (d : Dev) : Dev :=
  if d.pll.locked then
    let d := { d with pll := { d.pll with locked := false, since := d.clk.tick } }
    let one (d : Dev) (x : Line) : Dev :=
      if d.pageOn (pgLane x) then (d.setStatus (pgLane x) 20 false).event (pgLane x) 6 else d
    one (one d .a) .b
  else d

/-- The count of unchanged samples restarts as lock returns: no core is STUCK then (R105). The slots in which a core was
STUCK before keep it. DEDUCED: log entry 127. -/
def restartStuck (d : Dev) (x : Line) : Dev :=
  let d := d.onLane x fun l => { l with stuck := List.replicate 8 false }
  if d.pageOn (pgLane x) then (List.range 4).foldl (fun d j => d.setStatus (pgLane x) (12 + j) false) d else d

/-- LANE_PLL_LOCK (R105, R106). -/
def lanePllLock (d : Dev) : Dev :=
  if d.pll.locked then d
  else
    let d := { d with pll :=
      { locked := true, since := d.clk.tick,
        losses := ((d.pll.since, d.clk.tick) :: d.pll.losses).take 64 } }
    let one (d : Dev) (x : Line) : Dev :=
      restartStuck (if d.pageOn (pgLane x) then d.setStatus (pgLane x) 20 true else d) x
    one (one d .a) .b

-- ---- trims ------------------------------------------------------------------------------------

/-- A trim page and its registers: TRIM with eight cores, RAML with two lanes. -/
structure TrimKind where
  raman : Bool
  n     : Nat
  eff   : Nat
  target : Nat
  field : Nat
  node  : Nat
deriving DecidableEq, Repr

/-- The TRIM page (R110). -/
def trimKind : TrimKind := ⟨false, 8, 0x900, 0x920, 0x940, 0x20⟩

/-- The trims of the RAML page (R229). -/
def ramlKind : TrimKind := ⟨true, 2, 0x900, 0x908, 0x910, 0x10⟩

/-- The page of a trim kind. -/
def TrimKind.page (k : TrimKind) (x : Line) : Nat := if k.raman then pgRaml x else pgTrim x

/-- The state of a trim kind. -/
def trimSt (d : Dev) (x : Line) (k : TrimKind) : TrimSt :=
  if k.raman then (d.line x).raml else (d.line x).trim

/-- The state of a trim kind changed. -/
def Dev.onTrim (d : Dev) (x : Line) (k : TrimKind) (f : TrimSt → TrimSt) : Dev :=
  d.onLine x fun l => if k.raman then { l with raml := f l.raml } else { l with trim := f l.trim }

/-- The signed fields of a trim word: OFFSET, GAIN, SKEW (R110). -/
def trimFields (w : Word) : List Int :=
  [signed 10 (bitsOf w.toNat 9 0), signed 10 (bitsOf w.toNat 19 10), signed 8 (bitsOf w.toNat 27 20)]

/-- The range of trim field i. -/
def trimClamp (i : Nat) (v : Int) : Int := if i = 2 then clamp (-128) 127 v else clamp (-512) 511 v

/-- A trim word from its signed fields. -/
def trimWord (l : List Int) : Word :=
  Word.ofNat (unsigned 10 (l.getD 0 0) + unsigned 10 (l.getD 1 0) * 2 ^ 10 +
    unsigned 8 (l.getD 2 0) * 2 ^ 20)

/-- The five nodes of the factory tables, in 1/256 °C (R111). -/
def trimNodes : List Int := [-10240, 0, 6400, 17920, 26880]

/-- Interpolation in a table of five values at die temperature T (R111). -/
def trimInterp (v : List Int) (t : Int) : Int :=
  let node (i : Nat) := trimNodes.getD i 0
  let val (i : Nat) := v.getD i 0
  if t ≤ node 0 then val 0
  else if node 4 ≤ t then val 4
  else
    let i := ((List.range 4).filter fun i => node i ≤ t).length - 1
    val i + roundHalfAway ((val (i + 1) - val i) * (t - node i)) (node (i + 1) - node i).toNat

/-- FIELD_VALID of a trim page. -/
def fieldValid (d : Dev) (x : Line) (k : TrimKind) : Bool := d.status (k.page x) 8

/-- A word of a trim page. -/
def trimReg (d : Dev) (x : Line) (k : TrimKind) (base i : Nat) : Word :=
  rd d.regs (pageBase (k.page x) + base + 4 * i)

/-- DIE_TEMP of a trim page, in 1/256 °C. -/
def dieTemp (d : Dev) (x : Line) (k : TrimKind) : Int :=
  if k.raman then livS d.regs (pgRaml x) RAML.DIE_TEMP else livS d.regs (pgTrim x) TRIM.DIE_TEMP

/-- The unclamped target fields of core i (R111); the Raman lanes have no SKEW (R229). -/
def targetFields (d : Dev) (x : Line) (k : TrimKind) (i : Nat) : List Int :=
  let t := dieTemp d x k
  let nodes := (List.range 5).map fun n => trimFields (trimReg d x k (0xC00 + k.node * n) i)
  let fld := trimFields (trimReg d x k k.field i)
  (List.range 3).map fun j =>
    if k.raman ∧ j = 2 then 0
    else trimInterp (nodes.map fun n => n.getD j 0) t + (if fieldValid d x k then fld.getD j 0 else 0)

/-- TARGET of every core recomputed; TRIM_LIMIT while any field is clamped (R111). -/
def computeTargets (d : Dev) (x : Line) (k : TrimKind) : Dev :=
  let all := (List.range k.n).map fun i => targetFields d x k i
  let clamped := all.map fun l => l.zipIdx.map fun e => trimClamp e.2 e.1
  let d := (List.range k.n).foldl (fun d i =>
    d.setWord (pageBase (k.page x) + k.target + 4 * i) (trimWord (clamped.getD i []))) d
  d.setStatus (k.page x) (if k.raman then 11 else 13) (all != clamped)

/-- EFF takes TARGET at once on every core (R113, R116). -/
def effToTarget (d : Dev) (x : Line) (k : TrimKind) : Dev :=
  (List.range k.n).foldl (fun d i =>
    d.setWord (pageBase (k.page x) + k.eff + 4 * i) (trimReg d x k k.target i)) d

/-- One LSB from a towards b. -/
def stepTo (a b : Int) : Int := if a < b then a + 1 else if b < a then a - 1 else a

/-- MODE of a trim page: 0 TRACK, 1 HOLD, 2 MANUAL; 3 is HOLD. -/
def trimMode (d : Dev) (x : Line) (k : TrimKind) : Nat :=
  let m := if k.raman then act d.regs (pgRaml x) RAML.MODE else act d.regs (pgTrim x) TRIM.CONTROL.MODE
  if m = 3 then 1 else m

/-- A round boundary of the line steps every field of EFF by one LSB towards TARGET in TRACK mode
(R113). -/
def trackStep (d : Dev) (x : Line) (k : TrimKind) : Dev :=
  if d.pageOn (k.page x) && trimMode d x k == 0 then
    (List.range k.n).foldl (fun d i =>
      let e := trimFields (trimReg d x k k.eff i)
      let t := trimFields (trimReg d x k k.target i)
      d.setWord (pageBase (k.page x) + k.eff + 4 * i)
        (trimWord ((List.range 3).map fun j => stepTo (e.getD j 0) (t.getD j 0)))) d
  else d

/-- The die temperature that HK publishes for a code, in 1/256 °C (R263). -/
def hkDieTemp (code : Nat) : Int := roundHalfAway ((code : Int) * 128 - 349632) 5

/-- CAL_ADVISED of TRIM follows FIELD_VALID, DIE_TEMP, CAL_TEMP and ADVISE_STEP (R119). -/
def showAdvised (d : Dev) (x : Line) (k : TrimKind) : Dev :=
  if k.raman then d
  else
    let p := pgTrim x
    d.setStatus p 10 (fieldValid d x k && 64 * act d.regs p TRIM.CONTROL.ADVISE_STEP <
      (livS d.regs p TRIM.DIE_TEMP - livS d.regs p TRIM.CAL_TEMP).natAbs)

/-- One reading of a trim page's die temperature (R112): the mean of the last eight, floor(x + 0.5);
a reading not refreshed since the previous one sets TEMP_STALE and holds. -/
def readDieTemp (d : Dev) (x : Line) (k : TrimKind) : Dev :=
  let p := k.page x
  if !d.pageOn p then d
  else
    let staleBit := if k.raman then 14 else 9
    let staleEvent := if k.raman then 7 else 6
    let st := trimSt d x k
    let fresh : Option (Nat × Nat) := match d.hk.mirror.getD (1 + x.idx) none with
      | none => none
      | some (c, t) => match st.lastTick with
        | none => some (c, t)
        | some t0 => if t0 < t then some (c, t) else none
    match fresh with
    | none =>
      if d.status p staleBit then d else (d.setStatus p staleBit true).event p staleEvent
    | some (c, t) =>
      let temps := (hkDieTemp c :: st.temps).take 8
      let n : Int := (temps.length : Int)
      let mean := (2 * temps.sum + n).fdiv (2 * n)
      let d := d.onTrim x k fun s => { s with temps := temps, lastTick := some t }
      let d := d.setStatus p staleBit false
      let d := if k.raman then d.setLivS p RAML.DIE_TEMP mean else d.setLivS p TRIM.DIE_TEMP mean
      showAdvised (computeTargets d x k) x k

/-- TRIM_TEMP_READ (R112, R229): TRIM and RAML of the line read their die temperature. -/
def trimTempRead (x : Line) (d : Dev) : Dev := readDieTemp (readDieTemp d x trimKind) x ramlKind

-- ---- SYN trims (R70) --------------------------------------------------------------------------

/-- The trim in use of SYN, factory or field, k = 0 phase, 1 gain, 2 Q offset, 3 I offset (R70, R71):
the factory value interpolates on the launch die temperature of HK, taken as 0 °C before HK has a result.
DESIGN CHOICE: log entry 128. -/
def synInUse (d : Dev) (x : Line) (k : Nat) : Int :=
  let f := [SYN.IQ_FIELD.PHASE, SYN.IQ_FIELD.GAIN, SYN.OFS_FIELD.Q_OFS, SYN.OFS_FIELD.I_OFS].getD k
    SYN.IQ_FIELD.PHASE
  if d.status (pgSyn x) 8 then livS d.regs (pgSyn x) f
  else
    let t := match d.hk.mirror.getD 3 none with
      | some (c, _) => hkDieTemp c
      | none => 0
    if d.status (pgSyn x) 0 then (Config.synTrim x.idx k t).toInt else 0

/-- The effective trim: in use plus the host adjustment, clipped to 10 bits (R70). -/
def synEff (d : Dev) (x : Line) (k : Nat) : Int :=
  let f := [SYN.IQ_ADJ.PHASE_ADJ, SYN.IQ_ADJ.GAIN_ADJ, SYN.OFS_ADJ.Q_OFS_ADJ,
    SYN.OFS_ADJ.I_OFS_ADJ].getD k SYN.IQ_ADJ.PHASE_ADJ
  clamp (-512) 511 (synInUse d x k + actS d.regs (pgSyn x) f)

-- ---- field calibrations -----------------------------------------------------------------------

/-- What a calibration reads of its own kind: its pages, event and status numbers. -/
structure CalKind where
  which  : Nat          -- 0 lanes (TRIM and LANE), 1 SYN, 2 RAML
  passes : Nat          -- passes of one iteration
  offs   : Nat          -- of which the first are offset passes
deriving DecidableEq, Repr

/-- The lane calibration: O, O, T, T, T, T (R116). -/
def calLane : CalKind := ⟨0, 6, 2⟩
/-- The DAC calibration: Z, Z, S, S (R71). -/
def calDac : CalKind := ⟨1, 4, 2⟩
/-- The Raman calibration: D, D, G, G (R230). -/
def calRaman : CalKind := ⟨2, 4, 2⟩

/-- The page whose events and status a calibration uses. -/
def CalKind.page (k : CalKind) (x : Line) : Nat :=
  match k.which with
  | 0 => pgTrim x
  | 1 => pgSyn x
  | _ => pgRaml x

/-- The state of a calibration. -/
def calRun (d : Dev) (x : Line) (k : CalKind) : CalRun :=
  match k.which with
  | 0 => (d.line x).trim.cal
  | 1 => (d.line x).dac
  | _ => (d.line x).raml.cal

/-- The state of a calibration changed. -/
def Dev.onCal (d : Dev) (x : Line) (k : CalKind) (f : CalRun → CalRun) : Dev :=
  d.onLine x fun l =>
    match k.which with
    | 0 => { l with trim := { l.trim with cal := f l.trim.cal } }
    | 1 => { l with dac := f l.dac }
    | _ => { l with raml := { l.raml with cal := f l.raml.cal } }

/-- STATUS bits: CAL_PENDING, CAL_STARVED (SYN has none). -/
def CalKind.pendBit (k : CalKind) : Nat := [12, 9, 9].getD k.which 0
/-- The CAL_STARVED bit, if the page has one. -/
def CalKind.starveBit (k : CalKind) : Option Nat := [some 11, none, some 10].getD k.which none
/-- The CAL_FAILED event. -/
def CalKind.failEvent (_ : CalKind) : Nat := 5
/-- The CAL_STARVED event. -/
def CalKind.starveEvent (k : CalKind) : Nat := [7, 6, 6].getD k.which 6

/-- CAL_ACTIVE on the pages of a calibration: LANE and TRIM show it together (R114). -/
def setCalActive (d : Dev) (x : Line) (k : CalKind) (b : Bool) : Dev :=
  let d := d.setStatus (k.page x) 4 b
  if k.which = 0 then d.setStatus (pgLane x) 4 b else d

/-- Whether a calibration of the coherent lanes' converters (or of the Raman lanes') takes its passes as they fit. -/
def passesRun (d : Dev) (x : Line) (raman : Bool) : Bool :=
  if raman then (calRun d x calRaman).pending && trimMode d x ramlKind == 0
  else ((calRun d x calLane).pending && trimMode d x trimKind == 0) || (calRun d x calDac).pending

/-- A request for a field calibration (R114, R71, R230); one pending or running takes it in. In a dead time in which no
pass was to run, the first pass starts with the request at the earliest (R115). -/
def requestCal (d : Dev) (x : Line) (k : CalKind) : Dev :=
  if (calRun d x k).pending then d
  else
    let raman := k.which == 2
    let t := d.clk.tick
    let d := if passesRun d x raman then d
      else d.onLine x fun l =>
        if raman then { l with rpassAt := max l.rpassAt t } else { l with passAt := max l.passAt t }
    let d := d.onCal x k fun c => { c with pending := true, starve := 0, ran := false, whole := false }
    d.setStatus (k.page x) k.pendBit true

/-- Whether a line has a calibration request pending (R60). -/
def calPending (d : Dev) (x : Line) : Bool :=
  (calRun d x calLane).pending || (calRun d x calDac).pending || (calRun d x calRaman).pending

/-- The field words of a calibration's page. -/
def fieldWords (d : Dev) (x : Line) (k : CalKind) : List Word :=
  match k.which with
  | 0 => (List.range 8).map (trimReg d x trimKind trimKind.field)
  | 1 => [rd d.regs (pageBase (pgSyn x) + 0x908), rd d.regs (pageBase (pgSyn x) + 0x90C)]
  | _ => (List.range 2).map (trimReg d x ramlKind ramlKind.field)

/-- The field words written; for the trims, TARGET follows and EFF takes it at once in TRACK mode. -/
def putFieldWords (d : Dev) (x : Line) (k : CalKind) (l : List Word) (valid : Bool) : Dev :=
  let base := [0x940, 0x908, 0x910].getD k.which 0
  let d := l.zipIdx.foldl (fun d e => d.setWord (pageBase (k.page x) + base + 4 * e.2) e.1) d
  let d := d.setStatus (k.page x) 8 valid
  match k.which with
  | 0 => showAdvised (effToTarget (computeTargets d x trimKind) x trimKind) x trimKind
  | 1 => d
  | _ => effToTarget (computeTargets d x ramlKind) x ramlKind

/-- CAL_STATE shows the iteration and the passes completed in it. -/
def showCalState (d : Dev) (x : Line) (k : CalKind) : Dev :=
  let c := calRun d x k
  match k.which with
  | 0 => (d.setLiv (pgTrim x) TRIM.CAL_STATE.ITER c.iter).setLiv (pgTrim x) TRIM.CAL_STATE.PASSES c.pass
  | 1 => (d.setLiv (pgSyn x) SYN.CAL_STATE.ITER c.iter).setLiv (pgSyn x) SYN.CAL_STATE.PASSES c.pass
  | _ => d

/-- A calibration ends: the request is cleared. -/
def endCal (d : Dev) (x : Line) (k : CalKind) : Dev :=
  let d := d.onCal x k fun c => { factory := c.factory }
  let d := d.setStatus (k.page x) k.pendBit false
  showCalState (setCalActive d x k false) x k

/-- CAL_DONE on a page: the event, CAL_COUNT and CAL_TIME (R19, R116). -/
def calDoneOn (d : Dev) (p : Nat) : Dev :=
  let d := d.setWord (pageBase p + 0x020) (rd d.regs (pageBase p + 0x020) + 1)
  let d := d.setPair p 0x024 0x028 d.timeNs
  d.event p 3

/-- A calibration converges (R116). -/
def calConverges (d : Dev) (x : Line) (k : CalKind) : Dev :=
  let d := endCal d x k
  let d := calDoneOn d (k.page x)
  if k.which = 0 then
    let d := calDoneOn d (pgLane x)
    showAdvised (d.setLivS (pgTrim x) TRIM.CAL_TEMP (dieTemp d x trimKind)) x trimKind
  else d

/-- A calibration fails (R117): the field values from before it return; the log names the event's COUNT (R394) with
the core and the line above its 32 bits. DESIGN CHOICE: log entry 126. -/
def calFails (d : Dev) (x : Line) (k : CalKind) (core : Nat) : Dev :=
  let c := calRun d x k
  let d := putFieldWords d x k c.saved c.savedValid
  let d := (endCal d x k).event (k.page x) k.failEvent
  d.trouble (k.page x) k.failEvent sevWarning
    (d.count (k.page x) k.failEvent + core * 2 ^ 32 + x.idx * 2 ^ 35)

/-- ITER_MAX of a calibration: TRIM's for the lanes and SYN (R71), RAML's own. -/
def iterMax (d : Dev) (x : Line) (k : CalKind) : Nat :=
  if k.which = 2 then act d.regs (pgRaml x) RAML.ITER_MAX else act d.regs (pgTrim x) TRIM.ITER_MAX

/-- Sums of a sample list by index residue: entry r sums the samples n with (first + step·n) mod m
= r. -/
def residueSums (m first step : Nat) (l : List Int) : List Int :=
  (List.range m).map fun r =>
    (l.zipIdx.filterMap fun e => if (first + step * e.2) % m = r then some e.1 else none).sum

/-- Entrywise sum of two lists, the shorter extended by zeros. -/
def addLists (a b : List Int) : List Int :=
  (List.range (max a.length b.length)).map fun i => a.getD i 0 + b.getD i 0

/-- The complex amplitude, up to a common positive factor, of residue sums at the frequency of k
turns per m samples: the sum of x·exp(−2πi·k·r/m), in fixed point. -/
def toneAmp (k m : Nat) (sums : List Int) : Int × Int :=
  sums.zipIdx.foldl (fun a e =>
    let cs := fxCosSin (k * e.2) m
    (a.1 + e.1 * cs.1, a.2 - e.1 * cs.2)) (0, 0)

/-- |A|² of an amplitude. -/
def norm2 (a : Int × Int) : Nat := a.1.natAbs * a.1.natAbs + a.2.natAbs * a.2.natAbs

/-- An angle reduced to (−π, π]. -/
def wrapAngle (a : Int) : Int := if fxPi < a then a - 2 * fxPi else if a ≤ -fxPi then a + 2 * fxPi else a

/-- −round_half_away(20·log10(sqrt(num/den)) / q), q given as 1/r: −round(10·r·log10(num/den)).
DEDUCED: log entry 37. -/
def gainChange (r num den : Nat) : Int :=
  -roundHalfAway ((10 * r : Nat) * fxLn num den) fxLn10.toNat

/-- A signed change read from a free value, for an amplitude of zero, whose logarithm and argument
the manual does not give. -/
def freeChange (v : BitVec 64) : Int := v.toInt

/-- The changes of one iteration of the lane calibration, per core: offset, gain, skew (R116).
DEDUCED: log entry 37. -/
def laneChanges (free : BitVec 64) (c : CalRun) : List (List Int) :=
  let amps := (List.range 8).map fun k => toneAmp 7 16 (c.bins.getD k [])
  let a0 := amps.getD 0 (0, 0)
  (List.range 8).map fun k =>
    let a := amps.getD k (0, 0)
    let off := -roundHalfAway (8 * c.sums.getD k 0) (max c.count 1)
    if k = 0 then [off, 0, 0]
    else if norm2 a = 0 ∨ norm2 a0 = 0 then [off, freeChange free, freeChange free]
    else
      [off, gainChange 2000 (norm2 a) (norm2 a0),
       -roundHalfAway (wrapAngle (fxArg a.2 a.1 - fxArg a0.2 a0.1) * 128000) (14 * fxPi).toNat]

/-- The changes of one iteration of the DAC calibration: [PHASE, GAIN], [Q_OFS, I_OFS] (R71). -/
def dacChanges (free : BitVec 64) (c : CalRun) : List (List Int) :=
  let n := max c.count 1
  let aI := toneAmp 1 20 (c.bins.getD 0 [])
  let aQ := toneAmp 1 20 (c.bins.getD 1 [])
  let ofs (s : Int) : Int := -roundHalfAway (3906 * s) (1000 * n)
  let zero : Bool := norm2 aI == 0 || norm2 aQ == 0
  let gain := if zero then freeChange free else gainChange 200 (norm2 aQ) (norm2 aI)
  let phase := if zero then freeChange free
    else -roundHalfAway (18000 * wrapAngle (fxArg aI.2 aI.1 - fxArg aQ.2 aQ.1) - 9000 * fxPi) fxPi.toNat
  [[phase, gain], [ofs (c.sums.getD 1 0), ofs (c.sums.getD 0 0)]]

/-- The changes of one iteration of the Raman calibration, per lane: offset, gain (R230). -/
def ramanChanges (free : BitVec 64) (c : CalRun) : List (List Int) :=
  (List.range 2).map fun j =>
    let n := max c.count 1
    let mD := c.sums.getD j 0
    let diff := (c.bins.getD j []).getD 0 0 * n - mD * (max c.binCount 1 : Nat)
    let den := 4096 * n * max c.binCount 1
    let gain := if diff ≤ 0 then freeChange free
      else -roundHalfAway (20 * 2000 * fxLn diff.toNat den) fxLn10.toNat
    [-roundHalfAway (8 * mD) n, gain, 0]

/-- The new field words after an iteration's changes (R116, R71): added to the trim in use, clamped
to each field's range. -/
def newFields (d : Dev) (x : Line) (k : CalKind) (ch : List (List Int)) : List Word :=
  if k.which = 1 then
    let g (i j : Nat) := (ch.getD i []).getD j 0
    let v (i : Nat) (c : Int) : Nat := unsigned 10 (clamp (-512) 511 (synInUse d x i + c))
    [Word.ofNat (v 0 (g 0 0) * 2 ^ 16 + v 1 (g 0 1)), Word.ofNat (v 2 (g 1 0) * 2 ^ 16 + v 3 (g 1 1))]
  else
    let kind := if k.which = 0 then trimKind else ramlKind
    let old := fieldWords d x k
    let valid := fieldValid d x kind
    (List.range kind.n).map fun i =>
      let f := if valid then trimFields (old.getD i 0) else [0, 0, 0]
      trimWord ((List.range 3).map fun j => trimClamp j (f.getD j 0 + (ch.getD i []).getD j 0))

/-- The end of an iteration: the new trims, then convergence or failure is judged (R116, R117). -/
def endIteration (d : Dev) (x : Line) (k : CalKind) : Dev :=
  let c := calRun d x k
  let ch := match k.which with
    | 0 => laneChanges d.free c
    | 1 => dacChanges d.free c
    | _ => ramanChanges d.free c
  let d := d.tookFree
  let sizes := ch.map fun l => maxOf (l.map Int.natAbs)
  let big := maxOf sizes
  let core := sizes.findIdx (· == big)
  let d := putFieldWords d x k (newFields d x k ch) true
  let d := d.onCal x k fun c =>
    { c with iter := c.iter + 1, pass := 0, sums := [], count := 0, bins := [], binCount := 0 }
  let d := showCalState d x k
  if 128 < big then calFails d x k core
  else if big ≤ 1 then calConverges d x k
  else if iterMax d x k ≤ (calRun d x k).iter then calFails d x k core
  else d

/-- Whether a pass of 4,608 cycles that starts at tick t fits the dead time in progress (R115). -/
def passFits (d : Dev) (x : Line) (t : Nat) : Bool :=
  (d.line x).shot.inDead && t + 4608 ≤ (d.line x).shot.deadTo

/-- One pass measured: an offset pass adds to the sums, another to the residue sums. -/
def addPass (d : Dev) (x : Line) (k : CalKind) (sums : List Int) (n : Nat) (bins : List (List Int))
    (nb : Nat) : Dev :=
  let c := calRun d x k
  let d := if c.running then d
    else
      let fw := fieldWords d x k
      let v := d.status (k.page x) 8
      setCalActive (d.onCal x k fun c => { c with running := true, saved := fw, savedValid := v,
                                                  iter := 0, pass := 0 }) x k true
  let off : Bool := (calRun d x k).pass < k.offs
  let d := d.onCal x k fun c =>
    if off then { c with sums := addLists c.sums sums, count := c.count + n, pass := c.pass + 1,
                         ran := true, starve := 0 }
    else { c with bins := (List.range (max c.bins.length bins.length)).map fun i =>
                    addLists (c.bins.getD i []) (bins.getD i []),
                  binCount := c.binCount + nb, pass := c.pass + 1, ran := true, starve := 0 }
  let d := match k.starveBit with
    | some b => d.setStatus (k.page x) b false
    | none => d
  let d := showCalState d x k
  if (calRun d x k).pass = k.passes then endIteration d x k else d

/-- The code that a converter gives in a cycle: 0 while the lane PLL is out of lock (R106, R228). -/
def lockedCode (d : Dev) (t : Nat) (raw : Int) : Int := if d.pll.lostIn t (t + 1) then 0 else raw

/-- LANE_CAL_PASS (R115, R116): a pass of the lane calibration ends. `cores` holds the samples of the
eight cores over the measured part, core k's sample i being lane sample 2i + (k mod 2). -/
def laneCalPass (x : Line) (cores : List (List Int)) (d : Dev) : Dev :=
  let at0 := (d.line x).passAt
  if (calRun d x calLane).pending && trimMode d x trimKind == 0 && passFits d x at0 &&
      d.pageOn (pgTrim x) && d.pwr.mode != 6 then
    let d := d.advanceTo (at0 + 4608)
    let d := d.onLine x fun l => { l with passAt := at0 + 4608 }
    let cores := cores.zipIdx.map fun c =>
      c.1.zipIdx.map fun e => lockedCode d (at0 + 256 + (2 * e.2 + c.2 % 2) / 4) e.1
    let sums := cores.map List.sum
    let bins := cores.zipIdx.map fun e => residueSums 16 (e.2 % 2) 2 e.1
    let d := d.event (pgTrim x) 4
    addPass d x calLane sums (cores.headD []).length bins (cores.headD []).length
  else d

/-- DAC_CAL_PASS (R71): a pass of the DAC calibration ends, after the last lane pass. -/
def dacCalPass (x : Line) (xi xq : List Int) (d : Dev) : Dev :=
  let at0 := (d.line x).passAt
  let laneWaits := (calRun d x calLane).pending && trimMode d x trimKind == 0
  if (calRun d x calDac).pending && !laneWaits && passFits d x at0 && d.pageOn (pgSyn x) &&
      d.pwr.mode != 6 then
    let d := d.advanceTo (at0 + 4608)
    let d := d.onLine x fun l => { l with passAt := at0 + 4608 }
    addPass d x calDac [xi.sum, xq.sum] xi.length [residueSums 20 0 1 xi, residueSums 20 0 1 xq]
      xi.length
  else d

/-- RAMAN_CAL_PASS (R230): a pass of the Raman calibration ends. -/
def ramanCalPass (x : Line) (antiStokes stokes : List Int) (d : Dev) : Dev :=
  let at0 := (d.line x).rpassAt
  if (calRun d x calRaman).pending && trimMode d x ramlKind == 0 && passFits d x at0 &&
      d.pageOn (pgRaml x) && d.pwr.mode != 6 then
    let d := d.advanceTo (at0 + 4608)
    let d := d.onLine x fun l => { l with rpassAt := at0 + 4608 }
    let d := d.event (pgRaml x) 4
    let codes (l : List Int) : List Int := l.zipIdx.map fun e => lockedCode d (at0 + 256 + 2 * e.2) e.1
    addPass d x calRaman [(codes antiStokes).sum, (codes stokes).sum] antiStokes.length
      [[(codes antiStokes).sum], [(codes stokes).sum]] antiStokes.length
  else d

/-- A calibration round starts for one calibration (R118). -/
def calRoundStarts (d : Dev) (x : Line) (k : CalKind) : Dev :=
  d.onCal x k fun c => { c with whole := c.pending, ran := false }

/-- The end of a calibration round for one calibration (R118): sixteen rounds without a pass, through each of which it
was pending, starve it. -/
def calRoundEnds (d : Dev) (x : Line) (k : CalKind) : Dev :=
  let c := calRun d x k
  if c.pending && c.whole && !c.ran then
    let d := d.onCal x k fun c => { c with starve := c.starve + 1 }
    if c.starve + 1 = 16 then
      let d := match k.starveBit with
        | some b => d.setStatus (k.page x) b true
        | none => d
      d.event (k.page x) k.starveEvent
    else d
  else d.onCal x k fun c => { c with ran := false }

/-- The return to the factory set at a boundary (R119): fields cleared, a calibration in progress
abandoned; at an idle boundary EFF takes the factory TARGET at once in TRACK mode (R113). -/
def toFactory (d : Dev) (x : Line) (k : CalKind) (idle : Bool) : Dev :=
  let was := (calRun d x k).running
  let zeros := (fieldWords d x k).map fun _ => (0 : Word)
  let base := [0x940, 0x908, 0x910].getD k.which 0
  let d := zeros.zipIdx.foldl (fun d e => d.setWord (pageBase (k.page x) + base + 4 * e.2) e.1) d
  let d := d.setStatus (k.page x) 8 false
  let d := d.onCal x k fun c => { c with factory := false }
  let zeroTime (d : Dev) (p : Nat) : Dev := d.setPair p 0x024 0x028 0
  let d := zeroTime d (k.page x)
  let d := if k.which = 0 then showAdvised (zeroTime d (pgLane x)) x trimKind else d
  let go (d : Dev) (t : TrimKind) : Dev :=
    let d := computeTargets d x t
    if idle && trimMode d x t == 0 then effToTarget d x t else d
  let d := match k.which with
    | 0 => go d trimKind
    | 1 => d
    | _ => go d ramlKind
  if was then endCal d x k else d

/-- Returns to the factory set that wait for a round boundary of the line. -/
def factoryBoundary (d : Dev) (x : Line) (idle : Bool) : Dev :=
  [calLane, calDac, calRaman].foldl (fun d k =>
    if (calRun d x k).factory then toFactory d x k idle else d) d

/-- SLOT_WORD (R107). -/
def execSlotWord (x : Line) (samples : Lanes) (s : State) :
    Host.Outcome State Fault Refusal :=
  done s (slotWord x samples s.dev)

/-- CORE_STUCK (R105). -/
def execCoreStuck (x : Line) (core : Fin 8) (s : State) :
    Host.Outcome State Fault Refusal :=
  done s (coreStuck x core.val s.dev)

/-- LANE_PLL_LOSS (R106). -/
def execLanePllLoss (s : State) :
    Host.Outcome State Fault Refusal :=
  done s (lanePllLoss s.dev)

/-- LANE_PLL_LOCK (R106): REFCLK_IN is there and the lane PLL runs, which it does from Standby on (R362, R421). -/
def execLanePllLock (s : State) :
    Host.Outcome State Fault Refusal :=
  done s (if s.dev.pins.refPresent && s.dev.domainOn 10 then lanePllLock s.dev else s.dev)

/-- TRIM_TEMP_READ (R112, R229). -/
def execTrimTempRead (x : Line) (s : State) :
    Host.Outcome State Fault Refusal :=
  done s (trimTempRead x s.dev)

/-- LANE_CAL_PASS (R116). -/
def execLaneCalPass (x : Line) (cores : List (List Int)) (s : State) :
    Host.Outcome State Fault Refusal :=
  done s (laneCalPass x cores s.dev)

/-- DAC_CAL_PASS (R71). -/
def execDacCalPass (x : Line) (xi xq : List Int) (s : State) :
    Host.Outcome State Fault Refusal :=
  done s (dacCalPass x xi xq s.dev)

/-- RAMAN_CAL_PASS (R230). -/
def execRamanCalPass (x : Line) (antiStokes stokes : List Int) (s : State) :
    Host.Outcome State Fault Refusal :=
  done s (ramanCalPass x antiStokes stokes s.dev)

/-- STUCK_CLEARED (R105). -/
def execStuckCleared (x : Line) (core : Fin 8) (s : State) :
    Host.Outcome State Fault Refusal :=
  done s (stuckCleared x core.val s.dev)

end Sys2Proof.Machine
end

