-- ==== Sys2Proof/Machine/Mem.lean ====
section
/-!
DEFINITION. The two memories as their users meet them (chapter 11): the point-state SRAM with its
error reports, the DRAM address map, line contents, initialisation, poison and the line code, and
failing ranks. The requests, refresh and commands of MEMX stand in MemCmd.
-/
namespace Sys2Proof.Machine

-- ---- point-state SRAM -------------------------------------------------------------------------

/-- The key of a word of a bank. DEDUCED: log entry 54. -/
def sramKey (bank word : Nat) : Nat := bank * 65536 + word

/-- A word of the SRAM. DEDUCED: log entry 54. -/
def Dev.sramGet (d : Dev) (bank word : Nat) : Word :=
  Sparse.get (fun _ => (0 : Word)) d.sram.words (sramKey bank word)

/-- A word of the SRAM written; valid check bits go with it. -/
def Dev.sramSet (d : Dev) (bank word : Nat) (v : Word) : Dev :=
  let k := sramKey bank word
  { d with sram := { d.sram with words := Sparse.set (fun _ => (0 : Word)) d.sram.words k v,
                                 bad := d.sram.bad.filter (· != k) } }

/-- A corrected word reported (R310). -/
def Dev.sramCe (d : Dev) (bank word : Nat) : Dev :=
  ((d.setLiv pgSram SRAM.LAST_CE.BANK bank).setLiv pgSram SRAM.LAST_CE.WORD word).event pgSram 4

/-- An uncorrectable word reported (R310). -/
def Dev.sramUe (d : Dev) (bank word : Nat) : Dev :=
  ((d.setLiv pgSram SRAM.LAST_UE.BANK bank).setLiv pgSram SRAM.LAST_UE.WORD word).eventWarn pgSram 5

/-- What an owner's read of n consecutive words of one bank finds (R308): the report, and whether an
error is uncorrectable. `ecc` is what the first word shows. -/
def Dev.sramCheck (d : Dev) (bank word n : Nat) (ecc : SramEcc) : Dev × Bool :=
  let k := sramKey bank word
  let found := d.sram.bad.find? fun b => k ≤ b && b < k + n
  match found with
  | some b => (d.sramUe bank (b % 65536), true)
  | none =>
    match ecc with
    | .clean => (d, false)
    | .single => (d.sramCe bank word, false)
    | .double => (d.sramUe bank word, true)

-- ---- the address map --------------------------------------------------------------------------

/-- Outcome of a DRAM access as its user meets it. -/
inductive MemStatus where
  | ok | poisoned | uninit | unmapped | off
deriving DecidableEq, Repr

/-- The number of in-map ranks, NL (R284). -/
def Dev.inMap (d : Dev) : Nat :=
  ((List.range 8).filter fun j => liv d.regs pgMemx (MEMX.MAP.SLOT j) != 15).length

/-- MAP[j]. -/
def Dev.mapSlot (d : Dev) (j : Nat) : Nat := liv d.regs pgMemx (MEMX.MAP.SLOT j)

/-- Regions of the DRAM address space, MEMX.CAPACITY. -/
def Dev.capacity (d : Dev) : Nat := liv d.regs pgMemx MEMX.CAPACITY

/-- Lines of a rank (R283). -/
def Dev.rankLines (d : Dev) : Nat :=
  if act d.regs (pgDdr (d.mapSlot 0 / 2)) DDR.CONFIG.DENSITY = 0 then 2 ^ 26 else 2 ^ 27

/-- RANK_STATE of a physical rank. -/
def Dev.rankState (d : Dev) (p : Nat) : Nat := liv d.regs (pgDdr (p / 2)) (DDR.RANK_STATE.RANK (p % 2))

/-- RANK_STATE of a physical rank written. -/
def Dev.setRankState (d : Dev) (p v : Nat) : Dev :=
  d.setLiv (pgDdr (p / 2)) (DDR.RANK_STATE.RANK (p % 2)) v

/-- The spare rank, if there is one (R284). -/
def Dev.spare (d : Dev) : Option Nat := (List.range 8).find? fun p => d.rankState p == 3

/-- Whether a migration runs (R304). -/
def Dev.migrating (d : Dev) : Bool := liv d.regs pgMemx MEMX.MIG_STATE.RUNNING == 1

/-- The rank and line within it of a line of the address space (R286, R304). -/
def Dev.physLine (d : Dev) (line : Nat) : Option (Nat × Nat) :=
  let r := line / 16384
  let n := d.inMap
  if d.capacity ≤ r ∨ n = 0 then none
  else
    let p := d.mapSlot (r % n)
    let l := r / n * 16384 + line % 16384
    if d.migrating && liv d.regs pgMemx MEMX.MIG_STATE.SOURCE == p &&
        l < liv d.regs pgMemx MEMX.MIG_PTR then
      some (liv d.regs pgMemx MEMX.MIG_STATE.TARGET, l)
    else some (p, l)

/-- The logical region of a line of a rank, if the rank is in the map. -/
def Dev.regionOf (d : Dev) (p l : Nat) : Option Nat :=
  let n := d.inMap
  ((List.range n).find? fun j => d.mapSlot j == p).map fun j => l / 16384 * n + j

/-- The line of the address space that a line of a rank holds: the spare's copied lines are the source's (R304). -/
def Dev.lineOf (d : Dev) (p l : Nat) : Option Nat :=
  let q := if d.migrating && liv d.regs pgMemx MEMX.MIG_STATE.TARGET == p &&
      l < liv d.regs pgMemx MEMX.MIG_PTR then liv d.regs pgMemx MEMX.MIG_STATE.SOURCE
    else p
  (d.regionOf q l).map fun r => r * 16384 + l % 16384

/-- Whether a region is initialised (R300). -/
def Dev.initialised (d : Dev) (r : Nat) : Bool := bitOf d.mem.initMap r

/-- Whether every region from r on is initialised, n of them. -/
def Dev.allInit (d : Dev) (r n : Nat) : Bool :=
  (List.range n).all fun i => d.initialised (r + i)

/-- The memory state changed. -/
def Dev.onMem (d : Dev) (f : MemSt → MemSt) : Dev := { d with mem := f d.mem }

/-- The key of a physical line. -/
def lineKey (p l : Nat) : Nat := p * 2 ^ 27 + l

/-- The canonical form of the DRAM's bytes: addresses strictly rising, none listed that holds 0, what an unlisted byte
reads as. -/
def Memory.wf (m : List Host.Cell) : Bool := Sparse.wf (fun _ => (0 : Byte)) m

/-- The bytes of a physical line. DESIGN CHOICE: log entry 50. -/
def Dev.lineData (d : Dev) (p l : Nat) : List Byte :=
  (List.range 64).map fun i => Sparse.get (fun _ => (0 : Byte)) d.mem.cells (lineKey p l * 64 + i)

/-- A physical line's bytes replaced. -/
def Dev.putLine (d : Dev) (p l : Nat) (bytes : List Byte) : Dev :=
  d.onMem fun m =>
    { m with cells := Sparse.setList (fun _ => (0 : Byte)) m.cells (lineKey p l * 64) bytes }

/-- Whether a physical line carries the poison syndrome (R298). -/
def Dev.isPoisoned (d : Dev) (p l : Nat) : Bool := d.mem.poison.contains (lineKey p l)

/-- A physical line poisoned or cleaned. -/
def Dev.setPoison (d : Dev) (p l : Nat) (b : Bool) : Dev :=
  d.onMem fun m =>
    let rest := m.poison.filter (· != lineKey p l)
    { m with poison := if b then lineKey p l :: rest else rest }

-- ---- queues and ranks (R287 to R293) --------------------------------------------------------------

/-- The requests of a sub-channel. -/
def Dev.memQueue (d : Dev) (s : Nat) : List MemReq := d.mem.queues.getD s []

/-- The requests of a sub-channel replaced. -/
def Dev.setQueue (d : Dev) (s : Nat) (q : List MemReq) : Dev :=
  d.onMem fun m => { m with queues := m.queues.set s q }

/-- The rank of a request's line. -/
def reqRank (d : Dev) (r : MemReq) : Nat := ((d.physLine r.line).map (·.1)).getD 0

/-- The bank of a line of a rank: bank group and bank of R283. -/
def bankOf (d : Dev) (p l : Nat) : Nat :=
  p * 32 + (if d.rankLines = 2 ^ 26 then bitsOf l 9 6 else bitsOf l 10 6)

/-- The row of a line (R283). -/
def rowOf (d : Dev) (l : Nat) : Nat := if d.rankLines = 2 ^ 26 then l / 2 ^ 10 else l / 2 ^ 11

/-- Bank and row of a request. -/
def reqRow (d : Dev) (r : MemReq) : Nat × Nat :=
  match d.physLine r.line with
  | none => (0, 0)
  | some (p, l) => (bankOf d p l, rowOf d l)

/-- The answer to a request. -/
def Dev.answer (d : Dev) (port line status : Nat) (data : List Byte) : Dev :=
  d.onMem fun m => { m with reply := some (port, line, status, data) }

/-- Whether a rank is in self-refresh. -/
def Dev.inSr (d : Dev) (p : Nat) : Bool := (d.mem.srFrom.getD p none).isSome

/-- Whether self-refresh entry of a rank is under way: idle for SR_IDLE, the entry command not yet
issued (R292). -/
def srEntering (d : Dev) (p : Nat) : Bool :=
  let n := act d.regs (pgDdr (p / 2)) DDR.SR_IDLE
  n ≠ 0 && !d.inSr p && !((d.memQueue (p / 2)).any fun r => reqRank d r == p) &&
    d.mem.idleFrom.getD p 0 + n ≤ d.clk.tick && d.rankState p != 0 && d.rankState p != 6

/-- The rows of a rank closed by a refresh. -/
def closeRows (d : Dev) (p : Nat) : Dev :=
  d.onMem fun m => { m with rows := m.rows.filter fun e => e.1 / 32 != p }

/-- tRFC in core cycles, rounded up: 160 ns at 16 Gb, 130 ns at 8 Gb (R290). -/
def refreshCycles (d : Dev) : Nat := if d.rankLines = 2 ^ 26 then 82 else 100

/-- n refreshes of a rank, the first in the present cycle or `wait` after it, back to back (R290, R291): the rank
accepts commands after the last, and the next falls due from it. -/
def Dev.issueRefreshes (d : Dev) (p wait n : Nat) : Dev :=
  if n = 0 then d
  else
    let t := d.clk.tick + wait
    closeRows (d.onMem fun m => { m with refAt := m.refAt.set p (t + (n - 1) * refreshCycles d),
                                         busy := m.busy.set p (t + n * refreshCycles d) }) p

/-- A rank without queued requests pays its owed refreshes (R290) and counts as idle from here. -/
def payRefresh (d : Dev) (p : Nat) : Dev :=
  if (d.memQueue (p / 2)).any fun r => reqRank d r == p then d
  else
    let owed := liv d.regs (pgDdr (p / 2)) (DDR.REF_OWED.RANK (p % 2))
    let d := (d.setLiv (pgDdr (p / 2)) (DDR.REF_OWED.RANK (p % 2)) 0).issueRefreshes p 10 owed
    d.onMem fun m => { m with idleFrom := m.idleFrom.set p d.clk.tick }

/-- A rank leaves self-refresh. -/
def leaveSr (d : Dev) (p : Nat) : Dev :=
  let d := if d.rankState p = 2 then d.setRankState p 1 else d
  d.onMem fun m => { m with srFrom := m.srFrom.set p none, idleFrom := m.idleFrom.set p d.clk.tick,
                            refAt := m.refAt.set p d.clk.tick }

/-- The cycles from a rank's exit command to its first command (R292). -/
def exitCycles (d : Dev) : Nat := if d.rankLines = 2 ^ 26 then 128 else 191

/-- An access reaches a rank (R292): one that still accepts commands gives up its entry into self-refresh; one in
self-refresh leaves it, its exit command no sooner than 24 core cycles after entry. An armed DDR page waits for
SR_EXIT. DEDUCED: log entry 140. -/
def Dev.wake (d : Dev) (p : Nat) : Dev :=
  match d.mem.srFrom.getD p none with
  | some t =>
    if d.rankState p = 6 then d
    else
      let d := (d.advanceTo (t + 24))
      let d := leaveSr (d.advance (exitCycles d)) p
      if d.status (pgDdr (p / 2)) 1 then d.onMem fun m => { m with woken := (p / 2) :: m.woken } else d
  | none =>
    if srEntering d p then
      (d.event (pgDdr (p / 2)) 5).onMem fun m => { m with idleFrom := m.idleFrom.set p d.clk.tick }
    else d

/-- An access waits until a rank accepts commands: through a training of its sub-channel (R293), its exit from
self-refresh (R292), refreshes being issued (R290, R291). DEDUCED: log entry 140. -/
def Dev.awaitRank (d : Dev) (p : Nat) : Dev :=
  let d := match d.mem.retrain.getD (p / 2) none with
    | some t => d.advanceTo t
    | none => d.wake p
  d.advanceTo (d.mem.busy.getD p 0)

/-- The row of a bank opened by a command. -/
def openRow (d : Dev) (row : Nat × Nat) : Dev :=
  d.onMem fun m => { m with rows := Sparse.set (fun _ => 0) m.rows row.1 (row.2 + 1) }

-- ---- failing ranks (R303 to R306) ---------------------------------------------------------------

/-- NO_SPARE and MIGRATING of MEMX.STATUS follow the ranks. -/
def Dev.showSpare (d : Dev) : Dev :=
  (d.setStatus pgMemx 11 d.spare.isNone).setStatus pgMemx 9 d.migrating

/-- A migration starts (R304, R305). -/
def Dev.startMigration (d : Dev) (source target : Nat) : Dev :=
  let d := d.setLiv pgMemx MEMX.MIG_STATE.SOURCE source
  let d := d.setLiv pgMemx MEMX.MIG_STATE.TARGET target
  let d := d.setLiv pgMemx MEMX.MIG_STATE.RUNNING 1
  let d := d.setLiv pgMemx MEMX.MIG_PTR 0
  let d := d.setRankState source 5
  let d := d.onMem fun m => { m with migAt := d.clk.tick }
  d.showSpare

/-- A sub-channel becomes degraded (R306). -/
def Dev.degrade (d : Dev) (p : Nat) : Dev :=
  if d.status (pgDdr (p / 2)) 8 then d
  else
    let d := d.setStatus (pgDdr (p / 2)) 8 true
    let d := d.setStatus pgMemx 8 true
    d.eventLog pgMemx 12 sevError (p * 2 ^ 36)

/-- A rank is declared failing (R303, R305, R306). -/
def Dev.declareFailing (d : Dev) (p : Nat) : Dev :=
  if d.mem.failing.contains p then d
  else
    let isSpare := d.rankState p == 3
    let d := d.onMem fun m => { m with failing := p :: m.failing }
    let d := d.setRankState p 4
    let d := d.eventLog pgMemx 10 sevError (p * 2 ^ 36)
    if d.migrating ∧ p = liv d.regs pgMemx MEMX.MIG_STATE.SOURCE then d
    else if d.migrating then
      let d := d.degrade p
      if p = liv d.regs pgMemx MEMX.MIG_STATE.TARGET then
        let src := liv d.regs pgMemx MEMX.MIG_STATE.SOURCE
        let d := d.setLiv pgMemx MEMX.MIG_STATE.RUNNING 0
        (d.setRankState src (if d.mem.failing.contains src then 4 else 1)).showSpare
      else d
    else
      match d.spare with
      | some t =>
        if act d.regs pgMemx MEMX.MIGRATION.AUTO = 1 ∧ !isSpare then d.startMigration p t
        else d.showSpare
      | none => d.showSpare

-- ---- the line code (R294 to R298) ---------------------------------------------------------------

/-- ERR_ADDR and ERR_INFO of a line (R295). -/
def Dev.memError (d : Dev) (line p device kind : Nat) : Dev :=
  let d := d.setPair pgMemx 0x900 0x904 (line * 64)
  let d := d.setLiv pgMemx MEMX.ERR_INFO.RANK p
  let d := d.setLiv pgMemx MEMX.ERR_INFO.DEVICE device
  d.setLiv pgMemx MEMX.ERR_INFO.KIND kind

/-- The argument of a MEMX trouble entry (R394). -/
def memArg (line top : Nat) : Nat := line * 64 % 2 ^ 36 + top * 2 ^ 36

/-- The write-back of a corrected line waits in its queue with urgency 3 (R295). -/
def Dev.queueBack (d : Dev) (line : Nat) : Dev :=
  match d.physLine line with
  | none => d
  | some (p, l) =>
    d.setQueue (p / 2) (d.memQueue (p / 2) ++
      [{ port := 7, line := line, tick := d.clk.tick, bytes := some ((d.lineData p l).map some), urgent := true }])

/-- A corrected line (R295): its write-back queued, counted, logged once a second per rank and position, and held
against CE_LIMIT. -/
def Dev.correctedLine (d : Dev) (line p dev : Nat) : Dev :=
  let d := (d.memError line p dev 1).queueBack line
  let k := p * 8 + dev
  let n := Sparse.get (fun _ => 0) d.mem.ces k + 1
  let second := d.clk.tick / 625000000
  let logged := Sparse.get (fun _ => 0) d.mem.ceLogged k == second + 1
  let d := d.onMem fun m =>
    { m with ces := Sparse.set (fun _ => 0) m.ces k n,
             ceLogged := Sparse.set (fun _ => 0) m.ceLogged k (second + 1),
             ceDev := m.ceDev.set dev (m.ceDev.getD dev 0 + 1) }
  let d := d.event pgMemx 4
  let d := if logged then d else d.trouble pgMemx 4 sevNote (memArg line dev)
  let limit := act d.regs pgMemx MEMX.FAILING.CE_LIMIT
  if limit ≠ 0 ∧ limit ≤ n then d.declareFailing p else d

/-- A read of a line of an initialised region through the line code: whether its data are bad.
DESIGN CHOICE: log entry 50. -/
def Dev.codeLine (d : Dev) (line p l : Nat) (ecc : Ecc) : Dev × Bool :=
  if d.isPoisoned p l then
    ((d.memError line p 0 3).eventLog pgMemx 5 sevError (memArg line p), true)
  else
    match ecc with
    | .clean => (d, false)
    | .corrected dev => (d.correctedLine line p dev.val, false)
    | .uncorrectable =>
      let d := (d.memError line p 0 2).eventLog pgMemx 5 sevError (memArg line p)
      let d := d.setPoison p l true
      (if act d.regs pgMemx MEMX.FAILING.UE_FAIL = 1 then d.declareFailing p else d, true)

-- ---- accesses ---------------------------------------------------------------------------------

/-- Whether the sub-channel of a rank is in service: trained, or in a training that its requests wait
through (R293). -/
def Dev.subUp (d : Dev) (p : Nat) : Bool :=
  d.status (pgDdr (p / 2)) 9 || (d.mem.retrain.getD (p / 2) none).isSome

/-- The first line of a list that does not exist, lies on a sub-channel out of service, or lies in an
uninitialised region: what that makes of the access. -/
def Dev.lineBar (d : Dev) : List Nat → MemStatus
  | [] => .ok
  | line :: rest =>
    match d.physLine line with
    | none => .unmapped
    | some (p, _) =>
      if !d.subUp p then .off
      else if !d.initialised (line / 16384) then .uninit
      else d.lineBar rest

/-- The lines that n bytes from an address touch. -/
def linesOf (addr n : Nat) : List Nat :=
  if n = 0 then [] else (List.range ((addr + n - 1) / 64 - addr / 64 + 1)).map (· + addr / 64)

/-- The byte at an address of the DRAM address space. -/
def Dev.byteAt (d : Dev) (a : Nat) : Byte :=
  match d.physLine (a / 64) with
  | none => 0
  | some (p, l) => Sparse.get (fun _ => (0 : Byte)) d.mem.cells (lineKey p l * 64 + a % 64)

/-- n bytes from an address. -/
def Dev.bytesAt (d : Dev) (a n : Nat) : List Byte := (List.range n).map fun i => d.byteAt (a + i)

/-- A full write into an uninitialised region: tracked, and the region initialised when every line has
come (R301). -/
def Dev.trackLine (d : Dev) (line : Nat) : Dev :=
  let r := line / 16384
  if d.initialised r then d
  else
    let b := 2 ^ (line % 16384)
    match d.mem.tracking.find? fun e => e.1 == r with
    | some e =>
      let v := e.2 ||| b
      if v = 2 ^ 16384 - 1 then
        d.onMem fun m => { m with initMap := m.initMap ||| 2 ^ r,
                                  tracking := m.tracking.filter fun t => t.1 != r }
      else d.onMem fun m => { m with tracking := m.tracking.map fun t => if t.1 = r then (r, v) else t }
    | none =>
      if d.mem.tracking.length < 16 then
        d.onMem fun m => { m with tracking := m.tracking ++ [(r, b)] }
      else d.event pgMemx 8

/-- One line written with some of its bytes (R297, R298, R301); a partial write reads the line, which shows `ecc`. -/
def Dev.writeLine (d : Dev) (line : Nat) (bytes : List (Option Byte)) (ecc : Ecc := .clean) : Dev × MemStatus :=
  match d.physLine line with
  | none => (d, .unmapped)
  | some (p, l) =>
    if !d.domainOn 4 || !d.subUp p then (d, .off)
    else if bytes.all Option.isSome && bytes.length == 64 then
      (((d.putLine p l (bytes.map fun b => b.getD 0)).setPoison p l false).trackLine line, .ok)
    else if !d.initialised (line / 16384) then (d.event pgMemx 7, .uninit)
    else
      let r := d.codeLine line p l ecc
      let old := r.1.lineData p l
      let d := r.1.putLine p l (old.zipIdx.map fun e => (bytes.getD e.2 none).getD e.1)
      if r.2 then ((d.setPoison p l true).event pgMemx 6, .poisoned) else (d, .ok)

/-- A request served (R294 to R298, R300): its answer. DEDUCED: log entry 52. -/
def serveReq (d : Dev) (r : MemReq) (ecc : Ecc) : Dev :=
  match d.physLine r.line with
  | none => d.answer r.port r.line 3 []
  | some (p, l) =>
    match r.bytes with
    | none =>
      if !d.initialised (r.line / 16384) then (d.event pgMemx 7).answer r.port r.line 2 []
      else
        let c := d.codeLine r.line p l ecc
        c.1.answer r.port r.line (bit c.2) (if c.2 then [] else c.1.lineData p l)
    | some b =>
      let w := d.writeLine r.line b ecc
      w.1.answer r.port r.line (match w.2 with
        | .ok => 0
        | .poisoned => 1
        | .uninit => 2
        | .unmapped => 3
        | .off => 4) []

/-- The waiting requests of a sub-channel that satisfy `f` are served, oldest first. DEDUCED: log entry 52. -/
def Dev.serveOlder (d : Dev) (s : Nat) (f : MemReq → Bool) : Dev :=
  let q := d.memQueue s
  if q.any f then
    (q.filter f).foldl (fun d r => serveReq d r .clean) (d.setQueue s (q.filter fun r => !f r))
  else d

/-- Whether a waiting write of the whole line answers a read of it (R289). -/
def Dev.forwards (d : Dev) (line : Nat) : Bool :=
  match d.physLine line with
  | none => false
  | some (p, _) =>
    match ((d.memQueue (p / 2)).filter fun r => r.line == line && r.bytes.isSome).getLast? with
    | some r => (r.bytes.getD []).all Option.isSome
    | none => false

/-- An access of a port reaches a line at once (R288 to R293): it waits for the rank, and every older request to its
row goes before it. DEDUCED: log entries 52, 140. -/
def Dev.reachLine (d : Dev) (line : Nat) : Dev :=
  match d.physLine line with
  | none => d
  | some (p, l) =>
    let d := d.awaitRank p
    let row := (bankOf d p l, rowOf d l)
    openRow (payRefresh (d.serveOlder (p / 2) fun r => reqRow d r == row) p) row

/-- What the check code of a line shows: clean where the list has nothing of it. -/
def eccOf (faults : List (Nat × Ecc)) (line : Nat) : Ecc :=
  ((faults.find? fun e => e.1 == line).map (·.2)).getD .clean

/-- Every line of a list is reached and goes through the line code, `faults` saying what the codes show; whether any is
bad, with the first bad line. A line that a waiting write answers is not read (R289). -/
def Dev.codeLines (d : Dev) (faults : List (Nat × Ecc)) : List Nat → Option Nat → Dev × Option Nat
  | [], bad => (d, bad)
  | line :: rest, bad =>
    match d.physLine line with
    | none => d.codeLines faults rest bad
    | some (p, l) =>
      let held := d.forwards line
      let d := d.reachLine line
      let r := if held then (d, false) else d.codeLine line p l (eccOf faults line)
      r.1.codeLines faults rest (if bad.isNone && r.2 then some line else bad)

/-- Some regions of a fill complete (R302): waiting requests to them are served, their lines hold zeros with valid
check bytes, and they are initialised. -/
def Dev.fillRegions (d : Dev) (first n : Nat) : Dev :=
  let inside (line : Nat) : Bool := first ≤ line / 16384 && line / 16384 < first + n
  let d := (List.range 4).foldl (fun d s => d.serveOlder s fun r => inside r.line) d
  let clear (k : Nat) : Bool := match d.lineOf (k / 2 ^ 27) (k % 2 ^ 27) with
    | none => false
    | some line => inside line
  d.onMem fun m =>
    { m with cells := m.cells.filter fun e => !clear (e.1 / 64), poison := m.poison.filter fun k => !clear k,
             tracking := m.tracking.filter fun t => t.1 < first || first + n ≤ t.1,
             initMap := m.initMap ||| ((2 ^ n - 1) * 2 ^ first) }

/-- A fill under way has completed more of its regions, in ascending order, when an access meets it: how many is a
free value; the last one ends with FILL_DONE (R302). DESIGN CHOICE: log entry 141. -/
def Dev.fillStep (d : Dev) : Dev :=
  match d.mem.fill with
  | none => d
  | some (next, left) =>
    if left = 0 then d
    else
      let k := d.free.toNat % left
      let d := (d.tookFree.fillRegions next k).onMem fun m => { m with fill := some (next + k, left - k) }
      d.setLiv pgMemx MEMX.FILL_LEFT (left - k)

/-- A read of n bytes, `faults` saying what the check codes of its lines show: status, first bad line, data (R294,
R300). DEDUCED: log entry 51. -/
def Dev.memReadWith (d : Dev) (addr n : Nat) (faults : List (Nat × Ecc)) :
    Dev × MemStatus × Option Nat × List Byte :=
  if !d.domainOn 4 then (d, .off, none, [])
  else
    let d := d.fillStep
    let ls := linesOf addr n
    match d.lineBar ls with
    | .ok =>
      let r := d.codeLines faults ls none
      (r.1, if r.2.isSome then .poisoned else .ok, r.2, r.1.bytesAt addr n)
    | .uninit => (d.event pgMemx 7, .uninit, none, [])
    | s => (d, s, none, [])

/-- A read of n bytes whose first line shows `ecc`. -/
def Dev.memRead (d : Dev) (addr n : Nat) (ecc : Ecc) : Dev × MemStatus × Option Nat × List Byte :=
  d.memReadWith addr n [(addr / 64, ecc)]

/-- The bytes that a write of a list from an address puts into one line. -/
def lineBytes (addr : Nat) (data : List Byte) (line : Nat) : List (Option Byte) :=
  (List.range 64).map fun i =>
    if line * 64 + i < addr then none else data[line * 64 + i - addr]?

/-- Lines reached and written one by one with the bytes that `data` gives each; the status of the first that fails,
else of the last that met poison. -/
def Dev.writeLines (d : Dev) (data : Nat → List (Option Byte)) : List Nat → Ecc → MemStatus → Dev × MemStatus
  | [], _, st => (d, st)
  | line :: rest, ecc, st =>
    let r := (d.reachLine line).writeLine line (data line) ecc
    r.1.writeLines data rest (if (data line).all Option.isSome then ecc else .clean)
      (if st = .ok ∨ st = .poisoned then (if r.2 = .ok then st else r.2) else st)

/-- A write of bytes from an address; the first line that it writes in part shows `ecc` (R297).
DEDUCED: log entry 51. -/
def Dev.memWrite (d : Dev) (addr : Nat) (data : List Byte) (ecc : Ecc := .clean) : Dev × MemStatus :=
  if !d.domainOn 4 then (d, .off) else d.fillStep.writeLines (lineBytes addr data) (linesOf addr data.length) ecc .ok

/-- Whether any line that n bytes from an address touch lies on a degraded sub-channel (R306). -/
def Dev.touchesDegraded (d : Dev) (addr n : Nat) : Bool :=
  (List.range (if n = 0 then 0 else (addr + n - 1) / 2 ^ 20 - addr / 2 ^ 20 + 1)).any fun i =>
    match d.physLine ((addr / 2 ^ 20 + i) * 16384) with
    | none => false
    | some (p, _) => d.status (pgDdr (p / 2)) 8

-- ---- SAHF's inbox -----------------------------------------------------------------------------

/-- A source hands a message to SAHF (R365): stream 0 sends nothing. -/
def Dev.handOver (d : Dev) (stream type : Nat) (payload : List Byte)
    (frame : Option (Nat × Nat) := none) : Dev :=
  if stream = 0 then d
  else { d with inbox := d.inbox ++
    [{ stream := stream, type := type, payload := payload, tick := d.clk.tick, time := d.timeNs,
       frame := frame }] }

/-- A word of the active mirror of a page as CFG_CHECK takes it: 0 where the page does not implement it (R19). -/
def mirrorWord (m : RegMap) (p off : Nat) : Word :=
  match pageOf p with
  | some pg => if hasWord pg.block.cfg off && !pg.lacks off then rd m (pageBase p + 0x400 + off) else 0
  | none => 0

/-- CFG_CHECK: CRC-32C of the active mirror of a page (R19). -/
def cfgCheck (m : RegMap) (p : Nat) : Word :=
  crc32c ((List.range 256).flatMap fun i => leBytes 4 (mirrorWord m p (0x100 + 4 * i)).toNat)

/-- The 64 bytes of a gap record (R370). -/
def GapRec.bytes (g : GapRec) (source line lostMsgs firstType : Nat) (cfg : Word) : List Byte :=
  leBytes 8 g.tick ++ leBytes 8 g.time ++ leBytes 8 g.ticks ++ leBytes 4 g.firstSeq ++
  leBytes 4 g.slots ++ leBytes 4 g.firstFrame ++ leBytes 4 g.frames ++ leBytes 4 g.firstPoint ++
  leBytes 4 g.points ++ leBytes 1 source ++ leBytes 1 g.cause ++ leBytes 1 line ++ leBytes 1 0 ++
  leBytes 4 lostMsgs ++ leBytes 4 firstType ++ leBytes 4 cfg.toNat

end Sys2Proof.Machine
end

