-- ==== Sys2Proof/Machine/Capt.lean ====
section
/-!
DEFINITION. The history ring and capture segments (chapter 08, R211 to R223).
-/
namespace Sys2Proof.Machine

-- ---- sequence numbers modulo 2^32 ---------------------------------------------------------------

/-- a + k modulo 2^32. -/
def seqAdd (a k : Nat) : Nat := (a + k) % 2 ^ 32

/-- The steps from b to a modulo 2^32, as a signed number. -/
def seqDiff (a b : Nat) : Int := signed 32 (a + 2 ^ 32 - b % 2 ^ 32)

/-- a is b or comes before it, modulo 2^32. -/
def seqLe (a b : Nat) : Bool := 0 ≤ seqDiff b a

/-- a comes before b, modulo 2^32. -/
def seqLt (a b : Nat) : Bool := 0 < seqDiff b a

-- ---- the ring ---------------------------------------------------------------------------------

/-- CAPT of a line changed. -/
def Dev.onCapt (d : Dev) (x : Line) (f : CaptSt → CaptSt) : Dev :=
  d.onLine x fun l => { l with capt := f l.capt }

/-- Whether a line has a valid ring, STATUS.RING_VALID. -/
def ringValid (d : Dev) (x : Line) : Bool := d.status (pgCapt x) 9

/-- SLOTS of a line's ring; the register shows 24 bits of it. -/
def ringSlots (d : Dev) (x : Line) : Nat := (d.line x).capt.ring.slots

/-- Whether a frame comes before the ring's last restart. -/
def beforeRing (d : Dev) (x : Line) (f : Nat) : Bool := seqLt f (d.line x).capt.ring.seq0

/-- The ring in which a frame stands: one before a geometry change stands in the ring of its own geometry.
DEDUCED: log entry 131. -/
def ringOf (d : Dev) (x : Line) (f : Nat) : Option Ring :=
  if !ringValid d x then none
  else if beforeRing d x f then (d.line x).capt.past
  else some (d.line x).capt.ring

/-- The slot of a frame in a ring (R212): its address. -/
def Ring.addr (r : Ring) (f : Nat) : Nat :=
  r.base + unsigned 32 (seqDiff f r.seq0) % max r.slots 1 * r.slotBytes

/-- The DRAM address of a frame's slot (R212). -/
def ringAddr (d : Dev) (x : Line) (f : Nat) : Nat := ((ringOf d x f).getD (d.line x).capt.ring).addr f

/-- The oldest frame that a ring still holds when frame n is its newest (R214). -/
def Ring.oldest (r : Ring) (n : Nat) : Nat :=
  if seqDiff n r.seq0 < (r.slots : Int) then r.seq0 else seqAdd n (2 ^ 32 - (r.slots - 1) % 2 ^ 32)

/-- The oldest readable frame (R214): SLOTS − 1 before the newest, but not before the restart. -/
def oldestFrame (d : Dev) (x : Line) : Nat :=
  let r := (d.line x).capt.ring
  match (d.line x).capt.newest with
  | none => r.seq0
  | some n => r.oldest n

/-- OLDEST shows it. -/
def showOldest (d : Dev) (x : Line) : Dev := d.setLiv (pgCapt x) CAPT.OLDEST (oldestFrame d x)

/-- Bytes of a point frame of n points (R183). -/
def frameBytes (n : Nat) : Nat := (48 + 2 * n + 7) / 8 * 8

-- ---- descriptors ------------------------------------------------------------------------------

/-- The address of word w of a descriptor. -/
def descAddr (n w : Nat) : Nat := 0x800000 + 32 * n + 4 * w

/-- A field of the segment table. -/
def descFld (m : RegMap) (f : Fld) : Nat := f.at m 0x800000

/-- A field of the segment table written. -/
def Dev.setDesc (d : Dev) (f : Fld) (v : Nat) : Dev := { d with regs := f.put d.regs 0x800000 v }

/-- The open segment of a class. -/
def segOf (d : Dev) (x : Line) (c : Nat) : Option Seg := (d.line x).capt.segs.getD c none

/-- The open segment of a class replaced, with OPEN and OPEN_ANY. -/
def setSeg (d : Dev) (x : Line) (c : Nat) (s : Option Seg) : Dev :=
  let d := d.onCapt x fun k => { k with segs := k.segs.set c s }
  let bits := ((List.range 4).map fun i => bit (segOf d x i).isSome * 2 ^ i).sum
  let d := d.setLiv (pgCapt x) CAPT.OPEN bits
  d.setStatus (pgCapt x) 8 (bits != 0)

/-- The cursor of a class advances round its descriptors (R215). -/
def advanceCursor (d : Dev) (x : Line) (c : Nat) : Dev :=
  let p := pgCapt x
  let first := act d.regs p (CAPT.CLASS.DESC_FIRST c)
  let count := act d.regs p (CAPT.CLASS.DESC_COUNT c)
  let cur := liv d.regs p (CAPT.CURSOR c)
  d.setLiv p (CAPT.CURSOR c) (if first + count ≤ cur + 1 then first else cur + 1)

-- ---- segments ---------------------------------------------------------------------------------

/-- Segment flags (R220). -/
def segDone : Nat := 0
/-- TRUNCATED. -/
def segTruncated : Nat := 1
/-- OVERFLOW. -/
def segOverflow : Nat := 2
/-- PRE_CLIPPED. -/
def segPreClipped : Nat := 3
/-- STOPPED. -/
def segStopped : Nat := 4
/-- GEOMETRY. -/
def segGeometry : Nat := 5
/-- ABORTED. -/
def segAborted : Nat := 6
/-- STREAMED. -/
def segStreamed : Nat := 7
/-- OPEN. -/
def segOpen : Nat := 8
/-- REFUSED. -/
def segRefused : Nat := 9

/-- A flag set. -/
def Seg.mark (s : Seg) (n : Nat) : Seg := { s with flags := putBits s.flags n n 1 }

/-- The 64-byte segment header (R220). -/
def Seg.header (s : Seg) (x : Line) : List Byte :=
  leBytes 8 s.trigTick ++ leBytes 8 s.trigTime ++ leBytes 4 s.trigSeq ++ leBytes 4 s.first ++
  leBytes 4 s.stop ++ leBytes 4 s.stored ++ leBytes 4 s.lost ++ leBytes 4 s.lostVals ++
  leBytes 4 s.point ++ leBytes 4 s.points ++ leBytes 2 s.flags ++
  leBytes 1 (x.idx * 128 + s.cls) ++ leBytes 1 0 ++ leBytes 4 s.retrig ++ leBytes 4 s.preShort ++
  leBytes 4 s.cfg

/-- A segment message (R364): part 0 frame record, 1 gap header, 2 segment header. -/
def segMessage (d : Dev) (x : Line) (s : Seg) (part : Nat) (body : List Byte) : Dev :=
  match s.stream with
  | none => d
  | some id =>
    d.handOver id 0x06 (leBytes 2 s.desc ++ leBytes 1 part ++ leBytes 1 (x.idx * 128 + s.cls) ++
      leBytes 4 0 ++ body)

/-- Bytes of one frame record of a segment. -/
def recordBytes (points : Nat) : Nat := 48 + (2 * points + 7) / 8 * 8

/-- A descriptor's result words. -/
def showDesc (d : Dev) (s : Seg) (state : Nat) : Dev :=
  let d := d.setDesc (CAPT.W0.STATE s.desc) state
  let d := d.setDesc (CAPT.W3.FLAGS s.desc) s.flags
  let d := d.setDesc (CAPT.W4.TRIG_SEQ s.desc) s.trigSeq
  let d := d.setDesc (CAPT.W5.FIRST_FRAME s.desc) s.first
  let d := d.setDesc (CAPT.W6.STORED s.desc) s.stored
  d.setDesc (CAPT.W7.LOST s.desc) s.lost

/-- A segment ends (R218, R220, R222, R223): frames of its span that are not in the buffer are LOST, the
header is rewritten and streamed, the descriptor goes to DONE, the cursor advances. -/
def endSegment (d : Dev) (x : Line) (c : Nat) (s : Seg) : Dev :=
  let span := (seqDiff s.stop s.first + 1).toNat
  let lost := span - s.stored
  let s := { s with lost := lost, lostVals := lost * s.points,
                    flags := putBits (putBits s.flags segOpen segOpen 0) segDone segDone 1 }
  let d := (d.memWrite s.addr (s.header x)).1
  let d := segMessage d x s 2 (s.header x)
  let d := showDesc d s 3
  let d := advanceCursor d x c
  let d := setSeg d x c none
  let d := d.onCapt x fun k => { k with reading := k.reading.set c true }
  let d := d.event (pgCapt x) 4
  let d := if bitOf s.flags segTruncated then d.event (pgCapt x) 5 else d
  if bitOf s.flags segOverflow then d.event (pgCapt x) 6 else d

/-- Every open segment of a line ends with a flag (R222, R306). -/
def endSegments (d : Dev) (x : Line) (flag : Nat) : Dev :=
  (List.range 4).foldl (fun d c =>
    match segOf d x c with
    | none => d
    | some s => endSegment d x c (s.mark flag)) d

/-- The last frame of a segment: a geometry change ends it at the frame before (R222), whatever extends it. -/
def Seg.extend (s : Seg) (stop : Nat) : Seg :=
  if bitOf s.flags segGeometry then s else { s with stop := if seqLt s.stop stop then stop else s.stop }

/-- Open segments end at the frame before a geometry change, frame `last` (R222): the frames of their span that are
still in flight are copied first. -/
def geometrySegments (d : Dev) (x : Line) (last : Nat) : Dev :=
  (List.range 4).foldl (fun d c =>
    match segOf d x c with
    | none => d
    | some s =>
      if bitOf s.flags segGeometry then d
      else
        let s := s.mark segGeometry
        setSeg d x c (some { s with stop := if seqLt last s.stop then last else s.stop })) d

/-- Whether the slot of frame `f`, once it is written, destroys a frame that a segment still has to copy. -/
def destroys (d : Dev) (x : Line) (f : Nat) (s : Seg) : Bool :=
  let k := (d.line x).capt
  match ringOf d x f, k.past with
  | none, _ => false
  | some r, past =>
    if !seqLe s.next s.stop then false
    else if beforeRing d x s.next == beforeRing d x f then seqLt s.next (r.oldest f)
    else match past with
      | none => false
      | some q =>
        let a := r.addr f
        let n := (seqDiff (if seqLt s.stop k.ring.seq0 then s.stop else seqAdd k.ring.seq0 (2 ^ 32 - 1)) s.next + 1).toNat
        beforeRing d x s.next &&
          (List.range n).any fun i =>
            let b := q.addr (seqAdd s.next i)
            a < b + q.slotBytes && b < a + r.slotBytes

/-- The ring's slot of frame f is written: segments still to copy what stood there end with OVERFLOW (R222). -/
def overflowSegments (d : Dev) (x : Line) (f : Nat) : Dev :=
  (List.range 4).foldl (fun d c =>
    match segOf d x c with
    | none => d
    | some s => if destroys d x f s then endSegment d x c (s.mark segOverflow) else d) d

/-- A ring restarts at a frame boundary (R212): the older history is discarded, and the open segments end as ABORTED
(R222); after a geometry change their frames may still be copied. -/
def restartRing (d : Dev) (x : Line) (f count : Nat) (geo : Bool) : Dev :=
  let p := pgCapt x
  let sb := (frameBytes count + 63) / 64 * 64
  let slots := act d.regs p CAPT.RING_SIZE * 2 ^ 20 / sb
  let keep : Bool := geo && ringValid d x
  let d := if keep then d else endSegments d x segAborted
  let d := d.setLiv p CAPT.SLOT_BYTES sb
  let d := d.setLiv p CAPT.SLOTS slots
  let d := d.setLiv p CAPT.RING_SEQ0 f
  let d := d.setStatus p 9 (2 ≤ slots && enActive d.regs p)
  let base := act d.regs p CAPT.RING_BASE * 2 ^ 20
  let d := d.onCapt x fun k =>
    { k with restart := false, newest := if keep then k.newest else none, gapped := if keep then k.gapped else [],
             ring := ⟨base, sb, slots, f⟩, past := if keep then some k.ring else none }
  showOldest d x

/-- Bytes are written into the slot of a frame, from a byte of it on. -/
def ringPut (d : Dev) (x : Line) (f off : Nat) (bytes : List Byte) : Dev :=
  match ringOf d x f with
  | none => d
  | some r => (d.memWrite (r.addr f + off) bytes).1

/-- A frame's header, with the values that share its line, or a gap header stands in the ring (R214): the frame is
there to be read. -/
def ringWrite (d : Dev) (x : Line) (f : Nat) (bytes : List Byte) (gap : Bool) : Dev :=
  match ringOf d x f with
  | none => d
  | some _ =>
    let d := ringPut d x f 0 bytes
    let d := d.onCapt x fun k => { k with newest := some f }
    let old := oldestFrame d x
    let late : Bool := beforeRing d x f || (List.range 4).any fun c => (segOf d x c).any fun s => beforeRing d x s.next
    let d := d.onCapt x fun k =>
      { k with gapped := (if gap then f :: k.gapped else k.gapped).filter fun g => late || seqLe old g,
               past := if late then k.past else none }
    overflowSegments (showOldest d x) x f

/-- SEGMENT_COPY (R219 to R224): the next frame of an open segment is copied into its buffer and
stream; an uncorrectable word of its context ends it. DESIGN CHOICE: log entry 42. -/
def segmentCopy (x : Line) (c : Nat) (ecc : Ecc) (d : Dev) : Dev :=
  match segOf d x c with
  | none => d
  | some s =>
    let have' : Bool := match (d.line x).capt.newest with
      | none => false
      | some n => seqLe s.next n
    let chk := d.sramCheck 283 (16 * (4 * x.idx + c)) 16 .clean
    let d := if chk.2 then
        (chk.1.sramSet 283 (16 * (4 * x.idx + c)) 0).eventLog (pgCapt x) 9 sevError (c + x.idx * 2 ^ 24)
      else d
    if chk.2 then endSegment d x c (s.mark segAborted)
    else if !(have' && seqLe s.next s.stop) then d
    else if d.touchesDegraded s.addr (s.alloc * 64) then endSegment d x c (s.mark segAborted)
    else
      let f := s.next
      let s := { s with next := seqAdd f 1 }
      let a := ringAddr d x f
      let gap := (d.line x).capt.gapped.contains f
      let n := if gap then 48 else 48 + 2 * (s.point + s.points)
      if d.touchesDegraded a n then setSeg d x c (some s)
      else
        let r := d.memRead a n ecc
        let d := r.1
        if r.2.1 ≠ .ok then setSeg d x c (some s)
        else
          let raw := r.2.2.2
          let body := if gap then raw
            else (raw.take 24 ++ leBytes 4 s.points ++ (raw.drop 28).take 20) ++
              padTo 8 ((raw.drop (48 + 2 * s.point)).take (2 * s.points))
          let d := segMessage d x s (if gap then 1 else 0) body
          if bitOf s.flags segTruncated || s.alloc * 64 < s.offset + body.length then
            setSeg d x c (some (s.mark segTruncated))
          else
            let d := (d.memWrite (s.addr + s.offset) body).1
            setSeg d x c (some { s with stored := s.stored + 1, offset := s.offset + body.length })

/-- SEGMENT_END (R218): the END frame has been copied. -/
def segmentEnd (x : Line) (c : Nat) (d : Dev) : Dev :=
  match segOf d x c with
  | none => d
  | some s => if seqLt s.stop s.next then endSegment d x c s else d

/-- DESC_READ (R218). -/
def descRead (x : Line) (c : Nat) (d : Dev) : Dev :=
  d.onCapt x fun k => { k with reading := k.reading.set c false }

/-- The line whose open segment, or else whose classes, hold a descriptor. -/
def descLine (d : Dev) (n : Nat) : Line :=
  if (List.range 4).any fun c => (segOf d .b c).any fun s => s.desc == n then .b else .a

/-- DESC_WRITE (R215, R216). -/
def descWrite (n w : Nat) (v : Word) (d : Dev) : Dev :=
  if descFld d.regs (CAPT.W0.STATE n) = 2 then d.event (pgCapt (descLine d n)) 8
  else
    match w with
    | 0 =>
      let d := d.setDesc (CAPT.W0.STREAM_EN n) (bitsOf v.toNat 29 29)
      let d := d.setDesc (CAPT.W0.STREAM n) (bitsOf v.toNat 15 0)
      if bitsOf v.toNat 31 30 = 1 then d.setDesc (CAPT.W0.STATE n) 1 else d
    | 1 => d.setDesc (CAPT.W1.ADDR n) v.toNat
    | 2 => d.setDesc (CAPT.W2.ALLOC n) v.toNat
    | _ => d

/-- What a START finds (R217): the descriptor opened or acted on, NO_DESC. -/
structure StartResult where
  dev    : Dev
  desc   : Option Nat
  noDesc : Bool

/-- A START for frame f on class c (R217): retrigger, open, or NO_DESC. One that finds no ring (R213), or CAPT disabled
or held, carries NO_DESC. DEDUCED: log entry 132. -/
def startSegment (d : Dev) (x : Line) (c f post pre point points : Nat) (trigTick trigTime trigSeq : Nat)
    (cfg : Nat) : StartResult :=
  let p := pgCapt x
  match segOf d x c with
  | some s =>
    let stop := seqAdd f post
    let s := { s.extend stop with retrig := s.retrig + 1 }
    ⟨setSeg d x c (some s), some s.desc, false⟩
  | none =>
    if !ringValid d x || !enActive d.regs p || d.status p 2 then ⟨d.event p 7, none, true⟩
    else
      let n := liv d.regs p (CAPT.CURSOR c)
      let addr := descFld d.regs (CAPT.W1.ADDR n) * 64
      let alloc := descFld d.regs (CAPT.W2.ALLOC n)
      if descFld d.regs (CAPT.W0.STATE n) ≠ 1 ∨ act d.regs p (CAPT.CLASS.DESC_COUNT c) = 0 then
        ⟨d.event p 7, none, true⟩
      else
        let oldest := oldestFrame d x
        let start := seqAdd f (2 ^ 32 - pre)
        let short := if seqLt start oldest then (seqDiff oldest start).toNat else 0
        let s : Seg :=
          { desc := n, cls := c, addr := addr, alloc := alloc,
            stream := if descFld d.regs (CAPT.W0.STREAM_EN n) = 1 then
              some (descFld d.regs (CAPT.W0.STREAM n)) else none,
            trigTick := trigTick, trigTime := trigTime, trigSeq := trigSeq,
            first := seqAdd start short, stop := seqAdd f post, next := seqAdd start short,
            point := point, points := points, preShort := short, cfg := cfg }
        let fits : Bool := 64 + recordBytes points ≤ alloc * 64 &&
          addr + alloc * 64 ≤ d.capacity * 2 ^ 20 &&
          d.allInit (addr / 2 ^ 20) ((addr + alloc * 64 - 1) / 2 ^ 20 - addr / 2 ^ 20 + 1) &&
          !d.touchesDegraded addr (alloc * 64)
        if !fits then
          ⟨advanceCursor (showDesc (d.event p 7) (s.mark segRefused) 3) x c, none, true⟩
        else
          let s := s.mark segOpen
          let s := if s.stream.isSome then s.mark segStreamed else s
          let s := if short = 0 then s else s.mark segPreClipped
          let d := showDesc d s 2
          let d := (d.memWrite addr (s.header x)).1
          ⟨setSeg d x c (some s), some n, false⟩

/-- EXTEND (R217). -/
def extendSegment (d : Dev) (x : Line) (c f post : Nat) : Dev × Option Nat :=
  match segOf d x c with
  | none => (d, none)
  | some s =>
    let stop := seqAdd f post
    (setSeg d x c (some (s.extend stop)), some s.desc)

/-- STOP (R217). -/
def stopSegment (d : Dev) (x : Line) (c f : Nat) : Dev × Option Nat :=
  match segOf d x c with
  | none => (d, none)
  | some s => (setSeg d x c (some { s.mark segStopped with stop := f }), some s.desc)

/-- SEGMENT_COPY (R219). -/
def execSegmentCopy (x : Line) (c : Fin 4) (ecc : Ecc) (s : State) :
    Host.Outcome State Fault Refusal :=
  done s (segmentCopy x c.val ecc s.dev)

/-- SEGMENT_END (R218). -/
def execSegmentEnd (x : Line) (c : Fin 4) (s : State) :
    Host.Outcome State Fault Refusal :=
  done s (segmentEnd x c.val s.dev)

/-- DESC_READ (R218). -/
def execDescRead (x : Line) (c : Fin 4) (s : State) :
    Host.Outcome State Fault Refusal :=
  done s (descRead x c.val s.dev)

/-- DESC_WRITE (R216). -/
def execDescWrite (k : Link) (n : BitVec 16) (w : Fin 8) (v : Word) (s : State) :
    Host.Outcome State Fault Refusal :=
  done s (if s.dev.domainOn 7 then descWrite n.toNat w.val v s.dev
    else s.dev.busError (descAddr n.toNat w.val) .domainOff (linkCode k))

end Sys2Proof.Machine
end

