-- ==== Sys2Proof/Machine/ReelTap.lean ====
section
/-!
DEFINITION. Where REEL touches the pipeline (R399, R403, R405): the recording of a line, what ends it, the
pace of a replay.
-/
namespace Sys2Proof.Machine

/-- The recording of a line. -/
def ReelSt.line (r : ReelSt) (x : Line) : ReelLine :=
  match x with
  | .a => r.lineA
  | .b => r.lineB

/-- The recording of a line changed. -/
def Dev.onReel (d : Dev) (x : Line) (f : ReelLine → ReelLine) : Dev :=
  match x with
  | .a => { d with reel := { d.reel with lineA := f d.reel.lineA } }
  | .b => { d with reel := { d.reel with lineB := f d.reel.lineB } }

/-- Whether a line waits for its frame boundary or records (R399). -/
def ReelLine.active (l : ReelLine) : Bool := l.armed || l.running

/-- A recording of a line is to end for a cause of R403, unless one stands already. A change of what the
image holds ends only a recording whose image has been taken, or whose place has been laid out. -/
def endReel (d : Dev) (x : Line) (cause : Nat) : Dev :=
  let laid : Bool := (d.reel.line x).first.isSome || (d.reel.line x.other).running
  d.onReel x fun l =>
    if l.active && l.stop.isNone && (cause != 3 || laid) then { l with stop := some cause } else l

/-- Whether a line's recording has taken its image and a shot belongs to it (R399). -/
def ReelLine.covers (l : ReelLine) (seq : Nat) : Bool :=
  match l.first with
  | some f => l.active && seqLe f.seq seq
  | none => false

/-- The core tick at which the device stands when a line's pipeline, fed by recorded shots, stands at the
recorded tick t (R405). -/
def replayTick (d : Dev) (t : Nat) : Nat :=
  match d.reel.base with
  | some b => ((b.1 : Int) + (t : Int) - (b.2 : Int)).toNat
  | none => d.clk.tick

/-- The clock moves on to the time at which a line's pipeline stands at tick t of its shots: in Replay at the
pace of the feed. -/
def Dev.reach (d : Dev) (t : Nat) : Dev :=
  if d.pwr.mode = 6 then d.advanceTo (replayTick d t) else d.advanceTo t

/-- The samples of lane j that a replay shows from absolute lane sample a on, n of them: those of the
recorded windows, 0 where none covers (R405). -/
def replayCodes (d : Dev) (x : Line) (j : Nat) (a : Int) (n : Nat) : List Int :=
  let ws := d.reel.windows.filter fun w => w.line == x
  (List.range n).map fun i =>
    let s : Int := a + (i : Int)
    match ws.find? fun w =>
      4 * (w.start : Int) ≤ s && s < 4 * (w.start : Int) + ((laneOf w.codes j).length : Int) with
    | some w => (laneOf w.codes j).getD (s - 4 * (w.start : Int)).toNat 0
    | none => 0

end Sys2Proof.Machine
end

