-- ==== Sys2Proof/Machine/Chan.lean ====
section
/-!
DEFINITION. Tone separation and pulse compression (chapter 05).
-/
namespace Sys2Proof.Machine

-- ---- filter and kernel ------------------------------------------------------------------------

/-- Terms of the modified Bessel function I0 as a series in q = x²/4, fixed point. -/
def fxI0Aux (q : Int) : Nat → Nat → Int → Int → Int
  | 0, _, _, acc => acc
  | n + 1, k, t, acc =>
    let t' := (fxMul t q).fdiv ((k * k : Nat) : Int)
    fxI0Aux q n (k + 1) t' (acc + t')

/-- I0(x) for q = x²/4 in fixed point. -/
def fxI0 (q : Int) : Int := fxI0Aux q 48 1 fxOne fxOne

/-- The coefficient c[n] of R129, n = 0 to 128. -/
def chanCoef (n : Nat) : Int :=
  if n = 0 then 26214
  else
    let q : Int := (49 * ((16384 - n * n : Nat) : Int) * fxOne).fdiv (4 * 16384)
    let s := (fxCosSin n 20).2
    roundHalfAway (262144 * s * fxI0 q) ((n : Int) * fxPi * fxI0 ((49 * fxOne).fdiv 4)).toNat

/-- The 257 taps c[−128] to c[128]. -/
def chanTaps : List Int := (List.range 257).map fun i => chanCoef (if i < 128 then 128 - i else i - 128)

/-- Lk of a tone's trace (R130). -/
def kernelLen (m : RegMap) (x : Line) (t : Nat) : Nat := (toneDur m x t + 7) / 8

/-- The window value W[j] of R131. -/
def windowTap (w lk j : Nat) : Int :=
  let a := ((2 * j + 1) * 32768 + lk / 2) / lk % 65536
  let c1 := (cosSin16 a).1
  let c2 := (cosSin16 (2 * a % 65536)).1
  clamp 0 32767 (
    match w with
    | 0 => 32767
    | 1 => 16384 - asr (16384 * c1 + 16384) 15
    | 2 => 17694 - asr (15073 * c1 + 16384) 15
    | _ => 13762 - asr (16384 * c1 + 16384) 15 + asr (2621 * c2 + 16384) 15)

/-- The kernel tap (hr[j], hi[j]) of a tone (R130). -/
def kernelTap (m : RegMap) (x : Line) (t j : Nat) : Int × Int :=
  let n := 8 * j
  let c := chirpOf m x t
  let ph : Int := (n : Int) * c.1 + ((n * (n - 1) / 2 : Nat) : Int) * c.2
  let cs := cosSin16 (unsigned 48 ph / 2 ^ 32)
  let e := envAt (toneDur m x t) (planFld m x (SHOT.TONE.EDGE t)) n
  let w := windowTap (act m (pgChan x) (CHAN.TONE_CFG.WINDOW t)) (kernelLen m x t) j
  (asrRound (asrRound (cs.1 * e) 15 * w) 15, -asrRound (asrRound (cs.2 * e) 15 * w) 15)

/-- The kernel of a tone. -/
def kernel (m : RegMap) (x : Line) (t : Nat) : List (Int × Int) :=
  (List.range (kernelLen m x t)).map (kernelTap m x t)

/-- The sum of products of two lists, to the length of the shorter. -/
def dot (a b : List Int) : Int := (List.zipWith (· * ·) a b).sum

-- ---- samples of a window ----------------------------------------------------------------------

/-- A slot of the lane stream as a window meets it: lane samples from `from'` to before `stop` counted
from the window's first sample, its slot, its slot word. -/
structure Covered where
  start : Int
  stop  : Int
  span  : SlotSpan
  word  : Nat
deriving DecidableEq, Repr

/-- The slots that a window of n lane samples overlaps, the first sample being absolute sample a. -/
def coveredBy (d : Dev) (x : Line) (a : Int) (n : Nat) : List Covered :=
  ((d.line x).lane.spans.map fun s =>
      let lo := 4 * (s.slot.shot.tick : Int) - a
      let hi := match s.stop with
        | some t => 4 * (t : Int) - a
        | none => (n : Int)
      ({ start := lo, stop := hi, span := s, word := spanWord d x s } : Covered)).filter
    fun c => c.start < (n : Int) && 0 < c.stop

/-- The codes of lane j over a window whose first sample is absolute sample a, as the lanes pass them on in each slot
and outside every slot (R106, R107, R120). -/
def windowCodes (d : Dev) (x : Line) (a : Int) (cov : List Covered) (j : Nat) (raw : List Int) : List Int :=
  raw.zipIdx.map fun e =>
    match cov.find? fun c => c.start ≤ (e.2 : Int) && (e.2 : Int) < c.stop with
    | some c => laneCode c.span.slot x (bitOf c.word 31) j ((e.2 : Int) - c.start) e.1
    | none => idleCode d x j (a + (e.2 : Int)) e.1

/-- The mixed samples of one polarisation over a window whose first sample is u (R127). -/
def mixed (m : RegMap) (x : Line) (t : Nat) (u : Int) (xi xq : List Int) : List (Int × Int) :=
  (xi.zip xq).zipIdx.map fun e =>
    let n : Int := u + (e.2 : Int)
    let cs := cosSin20 ((carrierIndex t * (n - (synAlign m x : Int))) % 20).toNat
    let i := e.1.1
    let q := e.1.2
    (asr (i * cs.1 + q * cs.2 + 2048) 12, asr (q * cs.1 - i * cs.2 + 2048) 12)

/-- n filtered samples of a mixed window, eight lane samples apart (R128). -/
def filtered (mx : List (Int × Int)) (n : Nat) : List (Int × Int) :=
  (List.range n).map fun b =>
    let w := (mx.drop (8 * b)).take 257
    (asr (dot chanTaps (w.map (·.1)) + 131072) 18, asr (dot chanTaps (w.map (·.2)) + 131072) 18)

/-- One compressed bin from the filtered samples that start at it: components and whether one was
clamped (R132). -/
def compress (h : List (Int × Int)) (s : Nat) (y : List (Int × Int)) : Int × Int × Bool :=
  let hr := h.map (·.1)
  let hi := h.map (·.2)
  let yr := y.map (·.1)
  let yi := y.map (·.2)
  let r := asrRound (dot hr yr - dot hi yi) s
  let i := asrRound (dot hr yi + dot hi yr) s
  let cr := clamp (-32767) 32767 r
  let ci := clamp (-32767) 32767 i
  (cr, ci, cr != r || ci != i)

/-- The quality byte of a bin whose window is samples `lo` to `hi` of the block's window (R134). -/
def qualityOf (cov : List Covered) (pol : Nat) (ovr : List Nat) (lo hi : Nat) (sat : Bool) : Nat :=
  let met := cov.filter fun c => c.start ≤ (hi : Int) && (lo : Int) < c.stop
  let lost := met.any fun c => bitOf c.word 31
  let gain := cov.any fun c => bitOf c.word 30 && c.start ≤ (hi : Int) && (lo : Int) ≤ c.start + 15
  let bad := met.any fun c => bitOf c.word (24 + 2 * pol) || bitOf c.word (25 + 2 * pol)
  let ov := ovr.any fun i => lo ≤ i && i ≤ hi
  bit lost * 16 + bit sat * 8 + bit gain * 4 + bit bad * 2 + bit ov

/-- The bins of a block in one polarisation, from the codes of its two lanes. -/
def polBins (m : RegMap) (x : Line) (t pol b0 count : Nat) (cov : List Covered) (xi xq : List Int) :
    List BinVal :=
  let h := kernel m x t
  let zo := act m (pgChan x) CHAN.ZERO
  let s := act m (pgChan x) (CHAN.TONE_CFG.SHIFT t)
  let y := filtered (mixed m x t (8 * (b0 : Int) + (zo : Int) - 128) xi xq) (count + h.length - 1)
  let ovr := ((xi.zip xq).zipIdx.filter fun e => isOvr e.1.1 || isOvr e.1.2).map (·.2)
  (List.range count).map fun i =>
    let v := compress h s (y.drop i)
    { rr := v.1, ri := v.2.1, amp := isqrt (v.1.natAbs * v.1.natAbs + v.2.1.natAbs * v.2.1.natAbs),
      qual := qualityOf cov pol ovr (8 * i) (8 * (i + h.length - 1) + 256) v.2.2 }

/-- The 64-bit branch word of a bin value (R135). -/
def branchWord (v : BinVal) : Nat :=
  unsigned 16 v.rr + unsigned 16 v.ri * 2 ^ 16 + v.amp * 2 ^ 32 + v.qual * 2 ^ 48

-- ---- traces -----------------------------------------------------------------------------------

/-- Whether a record carries COHERENT (R73). -/
def isCoherent (s : Slot) : Bool := bitOf s.shot.flags 0

/-- GUARD_SHORT of a configuration (R126). -/
def guardShort (m : RegMap) (x : Line) : Bool :=
  8 * shotFld m x SHOT.GUARD < act m (pgChan x) CHAN.ZERO + 256

/-- Whether CHAN processes the traces of a coherent slot (R126, R138). -/
def chanProcesses (s : Slot) (x : Line) : Bool :=
  enActive s.cfg (pgChan x) && !s.guardHold && !s.chanHold

/-- The traces or notices of a shot (R124, R138). -/
def tracesOf (s : Slot) (x : Line) : List Trace :=
  if isCoherent s then
    (maskTones s.shot.tones).map fun t => { tone := t, notice := !chanProcesses s x,
                                            last := !chanProcesses s x }
  else []

/-- The first shot in flight with an unfinished trace of tone t, if any. -/
def traceShot (d : Dev) (x : Line) (t : Nat) : Option PhaseShot :=
  (d.line x).phase.shots.find? fun s => s.traces.any fun r => r.tone == t && !r.last

/-- PHASE of a line changed. -/
def Dev.onPhase (d : Dev) (x : Line) (f : PhaseSt → PhaseSt) : Dev :=
  d.onLine x fun l => { l with phase := f l.phase }

/-- One shot in flight replaced. -/
def Dev.onShot (d : Dev) (x : Line) (seq : Nat) (f : PhaseShot → PhaseShot) : Dev :=
  d.onPhase x fun p =>
    { p with shots := p.shots.map fun s => if s.slot.shot.seq = seq then f s else s }

/-- The header of block q of a trace of a shot, `count` bins of `len` (R135); a notice is one of no bins. -/
def blockHead (x : Line) (s : Slot) (tone q count len : Nat) (notice : Bool) : SentHead :=
  { seq := s.shot.seq, tone := tone, q := q, count := count,
    flags := bit (q == 0) + 2 * bit (notice || len ≤ 1024 * q + count) + 4 * bit notice,
    cfg := cfgCheck s.cfg (pgChan x) }

/-- A tone path of a line delivers a block header. -/
def showHead (d : Dev) (x : Line) (h : SentHead) : Dev :=
  d.onPhase x fun p => { p with heads := p.heads.set h.tone (some h) }

/-- The notices of a shot leave their tone paths (R135). -/
def sendNotices (d : Dev) (x : Line) (s : Slot) (l : List Trace) : Dev :=
  (l.filter (·.notice)).foldl (fun d t => showHead d x (blockHead x s t.tone 0 0 0 true)) d

/-- All branch values of a trace. -/
def traceVals (r : Trace) : List BinVal := r.bins.flatMap fun b => [b.1, b.2]

/-- What a trace's LAST block leaves in the registers and counters (R141); `m` is the configuration of its launch,
under which the probe works too (R125). DEDUCED: log entry 146. -/
def traceDone (d : Dev) (x : Line) (m : RegMap) (seq : Nat) (r : Trace) : Dev :=
  let p := pgChan x
  let vals := traceVals r
  let n := max vals.length 1
  let sq := (vals.map fun v => v.amp * v.amp).sum
  let sat := (vals.filter fun v => bitOf v.qual 3).length
  let ovr := vals.any fun v => bitOf v.qual 0
  let d := d.setLiv p (CHAN.RMS_AMP r.tone) ((isqrt (4 * sq / n) + 1) / 2)
  let d := d.setLiv p (CHAN.SAT_BINS r.tone) sat
  let d := d.setPair p 0x950 0x954 (d.pair p 0x950 0x954 + 1)
  let d := if sat = 0 then d else d.event p 4
  let d := if ovr then d.event p 5 else d
  let d := d.setStatus p 9 ((List.range 8).any fun t => liv d.regs p (CHAN.SAT_BINS t) != 0)
  let bin := act m p CHAN.PROBE.BIN
  if act m p CHAN.PROBE.EN = 1 ∧ act m p CHAN.PROBE.TONE = r.tone then
    match r.bins[bin]? with
    | none => d
    | some b =>
      let v := if act m p CHAN.PROBE.POL = 0 then b.1 else b.2
      let d := d.setLiv p CHAN.PROBE_SEQ seq
      let d := d.setLiv p CHAN.PROBE_IQ (branchWord v % 2 ^ 32)
      d.setLiv p CHAN.PROBE_AQ (branchWord v / 2 ^ 32)
  else d

/-- CHAN_BLOCK (R136): the next block of the oldest unfinished trace of tone t leaves. `window` holds
the lane samples of its input window, 8b + ZERO − 128 of its first bin to 8(b + Lk − 1) + ZERO + 128 of
its last. In Replay the recorded windows take its place (R405). The clock moves on to the block's first bin, and with
the trace's LAST block to its last, with which the trace's registers are written (R141). -/
def chanBlock (x : Line) (t : Nat) (window : Lanes) (d : Dev) : Dev :=
  match traceShot d x t with
  | none => d
  | some s =>
    match s.traces.find? fun r => r.tone == t with
    | none => d
    | some r =>
      let m := s.slot.cfg
      let len := shotFld m x SHOT.LINE_LEN
      let b0 := 1024 * r.next
      let count := min 1024 (len - b0)
      let lk := kernelLen m x t
      let zo := act m (pgChan x) CHAN.ZERO
      let a : Int := 4 * (s.slot.shot.tick : Int) + 8 * (b0 : Int) + (zo : Int) - 128
      let n := 8 * (count + lk - 2) + 257
      let e := s.slot.shot.tick + (8 * (b0 + count + lk - 2) + zo + 128) / 4
      let start := max (e + 2086) r.free
      let cov := coveredBy d x a n
      let code (j : Nat) := if d.pwr.mode = 6 then replayCodes d x j a n
        else windowCodes d x a cov j ((laneOf window j).take n)
      let bx := polBins m x t 0 b0 count cov (code 0) (code 1)
      let by' := polBins m x t 1 b0 count cov (code 2) (code 3)
      let r' : Trace := { r with next := r.next + 1, free := start + count, starts := r.starts ++ [start],
                                 last := len ≤ b0 + count, bins := r.bins ++ bx.zip by' }
      let d := d.reach (if r'.last then start + count - 1 else start)
      let d := showHead d x (blockHead x s.slot t r.next count len false)
      let d := d.onShot x s.slot.shot.seq fun s =>
        { s with traces := s.traces.map fun q => if q.tone = t then r' else q }
      if r'.last then traceDone d x m s.slot.shot.seq r' else d

/-- CHAN_BLOCK (R136). -/
def execChanBlock (x : Line) (t : Fin 8) (window : Lanes) (s : State) :
    Host.Outcome State Fault Refusal :=
  done s (chanBlock x t.val window s.dev)

end Sys2Proof.Machine
end

