-- ==== Sys2Proof/Machine/Phase.lean ====
section
/-!
DEFINITION. Phase, diversity and gauge (chapter 06): the state of a point, one shot of a point, the
gauge constant, and out-of-service ranges. The step POINT_WORD stands in Points.
-/
namespace Sys2Proof.Machine

-- ---- state of a point (R160) --------------------------------------------------------------------

/-- The phase state of a point (R160). -/
structure Pt where
  phi      : Nat := 0
  hole     : Nat := 0
  dPrev    : Int := 0
  spanPrev : Nat := 0
  settle   : Nat := 0
  anchored : Bool := false
  epoch    : Nat := 0
  init     : Nat := 0
  refs     : List Nat := List.replicate 16 0
deriving DecidableEq, Repr

/-- The bank of a point's phase state. -/
def ptBank (x : Line) (p : Nat) : Nat := 64 * x.idx + p % 64

/-- The first word of it. -/
def ptWord (p : Nat) : Nat := p / 64 * 16

/-- The words of a point's phase state. -/
def Pt.words (s : Pt) : List Word :=
  let v := (s.refs.zipIdx.map fun e => e.1 % 2 ^ 24 * 2 ^ (24 * e.2)).sum
  [Word.ofNat (s.phi * 256 + s.hole), Word.ofInt s.dPrev,
   Word.ofNat (s.spanPrev * 2 ^ 23 + s.settle * 2 ^ 11 + bit s.anchored * 2 ^ 10),
   Word.ofNat (s.epoch * 2 ^ 16 + s.init)] ++
  (List.range 12).map fun i => Word.ofNat (v / 2 ^ (32 * i))

/-- The phase state that 16 words hold. -/
def Pt.ofWords (w : List Word) : Pt :=
  let g (i : Nat) : Nat := (w.getD i 0).toNat
  let v := ((List.range 12).map fun i => g (4 + i) * 2 ^ (32 * i)).sum
  { phi := bitsOf (g 0) 31 8, hole := bitsOf (g 0) 7 0, dPrev := signed 32 (g 1),
    spanPrev := bitsOf (g 2) 31 23, settle := bitsOf (g 2) 22 11, anchored := bitOf (g 2) 10,
    epoch := bitsOf (g 3) 31 16, init := bitsOf (g 3) 15 0,
    refs := (List.range 16).map fun n => v / 2 ^ (24 * n) % 2 ^ 24 }

/-- A point's phase state read. -/
def readPt (d : Dev) (x : Line) (p : Nat) : Pt :=
  Pt.ofWords ((List.range 16).map fun i => d.sramGet (ptBank x p) (ptWord p + i))

/-- A point's phase state written. -/
def writePt (d : Dev) (x : Line) (p : Nat) (s : Pt) : Dev :=
  s.words.zipIdx.foldl (fun d e => d.sramSet (ptBank x p) (ptWord p + e.2) e.1) d

/-- Whether a point is out of service (R158, R159: bank 264, line B from byte 32,768). -/
def oosBit (d : Dev) (x : Line) (p : Nat) : Bool :=
  bitOf (d.sramGet 264 (x.idx * 8192 + p / 32)).toNat (p % 32)

/-- A point's out-of-service bit written. -/
def setOosBit (d : Dev) (x : Line) (p : Nat) (b : Bool) : Dev :=
  let w := x.idx * 8192 + p / 32
  d.sramSet 264 w (Word.ofNat (putBits (d.sramGet 264 w).toNat (p % 32) (p % 32) (bit b)))

-- ---- what a recording takes (R399) ---------------------------------------------------------------

/-- The low bin of a point (R143). -/
def lowBin (m : RegMap) (x : Line) (p : Nat) : Nat :=
  act m (pgGauge x) GAUGE.FIRST + p * act m (pgGauge x) GAUGE.SPACING -
    act m (pgGauge x) GAUGE.GAUGE_LEN / 2

/-- The high bin of a point (R143). -/
def highBin (m : RegMap) (x : Line) (p : Nat) : Nat := lowBin m x p + act m (pgGauge x) GAUGE.GAUGE_LEN

/-- Whether a point is replayed: its gauge lies wholly inside the reel window (R399). -/
def isReplayed (m : RegMap) (x : Line) (p : Nat) : Bool :=
  let w := act m (pgReel x) REEL.WINDOW.WIN_FIRST
  w ≤ lowBin m x p && highBin m x p < w + act m (pgReel x) REEL.WIN_BINS

/-- The 16 words of a point's phase state. -/
def ptStored (d : Dev) (x : Line) (p : Nat) : List Word :=
  (List.range 16).map fun i => d.sramGet (ptBank x p) (ptWord p + i)

/-- REEL takes a replayed point's phase state as the first recorded shot meets it (R399). -/
def tapPhase (d : Dev) (x : Line) (seq p : Nat) : Dev :=
  let l := d.reel.line x
  if l.covers seq && isReplayed l.cfg x p && !l.points.any (fun e => e.1 == p) then
    d.onReel x fun l => { l with points := l.points ++ [(p, ptStored d x p)] }
  else d

-- ---- angles (R147) ------------------------------------------------------------------------------

/-- The angle of a complex value in 2^-24 cycle. -/
def angle24 (re im : Int) : Nat :=
  unsigned 24 (roundHalfAway (fxArg im re * 2 ^ 24) (2 * fxPi).toNat)

/-- wrap(x) of R149. -/
def wrap24 (v : Int) : Int := signed 24 (unsigned 24 v)

-- ---- one shot of a point --------------------------------------------------------------------------

/-- A branch of a shot at a point (R145, R146): number, gauge product, weight, angle, whether it is
enabled and included, whether its gauge bins carry LOST or GAIN. -/
structure Branch where
  n        : Nat
  zr       : Int
  zi       : Int
  w        : Nat
  enabled  : Bool
  included : Bool
  lost     : Bool
  gain     : Bool
deriving DecidableEq, Repr

/-- The branch of two bin values. -/
def branchOf (m : RegMap) (x : Line) (n : Nat) (hi lo : BinVal) : Branch :=
  let p := pgPhase x
  let zr := hi.rr * lo.rr + hi.ri * lo.ri
  let zi := hi.ri * lo.rr - hi.rr * lo.ri
  let en := bitOf (act m p PHASE.BRANCHES.BRANCH_EN) n
  let mask := act m p PHASE.COMBINE.QUAL_MASK
  let amin := act m p PHASE.COMBINE.AMP_MIN
  let flag (k : Nat) : Bool := bitOf hi.qual k || bitOf lo.qual k
  { n := n, zr := zr, zi := zi, w := hi.amp * lo.amp, enabled := en,
    included := en && !flag 1 && !(bitOf mask 1 && flag 3) && !(bitOf mask 0 && flag 0) &&
      amin ≤ hi.amp && amin ≤ lo.amp && (zr != 0 || zi != 0),
    lost := flag 4, gain := flag 2 }

/-- The branches of a shot at a point, in ascending number. -/
def branchesOf (s : PhaseShot) (x : Line) (p : Nat) : List Branch :=
  let m := s.slot.cfg
  let dflt : BinVal := ⟨0, 0, 0, 0⟩
  s.traces.flatMap fun t =>
    let hi := t.bins.getD (highBin m x p) (dflt, dflt)
    let lo := t.bins.getD (lowBin m x p) (dflt, dflt)
    [branchOf m x (2 * t.tone) hi.1 lo.1, branchOf m x (2 * t.tone + 1) hi.2 lo.2]

/-- The product of a branch rotated by its reference (R147). -/
def rotated (b : Branch) (ref : Nat) : Int × Int :=
  let cs := cosSin16 ((ref + 128) / 256 % 65536)
  (asrRound (b.zr * cs.1 + b.zi * cs.2) 15, asrRound (b.zi * cs.1 - b.zr * cs.2) 15)

/-- HOLE counts a shot (R152): the new state and whether the point has become unanchored by it. -/
def countHole (m : RegMap) (x : Line) (s : Pt) : Pt × Bool :=
  let h := min (s.hole + 1) 255
  if s.anchored && act m (pgPhase x) PHASE.TRACK.HOLE_MAX < s.hole + 1 then
    ({ s with hole := h, anchored := false }, true)
  else ({ s with hole := h }, false)

/-- A restarted point (R157). -/
def restartPt (m : RegMap) (x : Line) (s : Pt) (epoch : Nat) : Pt :=
  { s with anchored := false, init := 0, hole := 0, dPrev := 0, spanPrev := 0, epoch := epoch,
           settle := (nGroups m x * (act m (pgPhase x) PHASE.SETTLE.SETTLE_ROUNDS + 1)) % 2 ^ 12 }

/-- What a shot of a point gives (R155): the new state; the cause of an invalid word (0 valid, 1
OVERLOAD, 2 OOS, 3 LOST, 4 SETTLING, 5 FADED); D and SPAN when the combined value of an anchored point is valid, and
whether it is; branches included, |Z|², W; whether it has become unanchored. -/
structure PtResult where
  pt       : Pt
  cause    : Nat
  step     : Int := 0
  span     : Nat := 0
  included : Nat := 0
  z2       : Nat := 0
  w        : Nat := 0
  unanchored : Bool := false
  tracked  : Bool := false
deriving DecidableEq, Repr

/-- References of included branches without INIT take α − base (R149). -/
def initRefs (s : Pt) (bs : List Branch) (base : Int) : Pt :=
  bs.foldl (fun s b =>
    if b.included && !bitOf s.init b.n then
      { s with init := s.init ||| 2 ^ b.n,
               refs := s.refs.set b.n (unsigned 24 (wrap24 ((angle24 b.zr b.zi : Int) - base))) }
    else s) s

/-- References of summed branches track (R149). -/
def trackRefs (m : RegMap) (x : Line) (s : Pt) (bs : List Branch) (pred : Int) : Pt :=
  let t := act m (pgPhase x) PHASE.TRACK.TRACK_SHIFT
  bs.foldl (fun s b =>
    let ref : Int := s.refs.getD b.n 0
    let e := wrap24 ((angle24 b.zr b.zi : Int) - ref - pred)
    { s with refs := s.refs.set b.n (unsigned 24 (ref + asrRound e t)) }) s

/-- A processed shot of a point (R147 to R152), `free` being the angle of a combined value of 0.
DEDUCED: log entry 144. -/
def processPt (m : RegMap) (x : Line) (s : Pt) (bs : List Branch) (free : Nat) : PtResult :=
  let inc := bs.filter (·.included)
  let sum := inc.filter fun b => bitOf s.init b.n
  let zs := sum.map fun b => rotated b (s.refs.getD b.n 0)
  let zr := (zs.map (·.1)).sum
  let zi := (zs.map (·.2)).sum
  let w := (sum.map (·.w)).sum
  let z2 := zr.natAbs * zr.natAbs + zi.natAbs * zi.natAbs
  let cm := act m (pgPhase x) PHASE.COMBINE.COH_MIN
  let valid : Bool := !sum.isEmpty && cm * cm * (w * w) ≤ z2 * 65536
  let θ : Nat := if zr = 0 ∧ zi = 0 then free else angle24 zr zi
  let incBits := (inc.map fun b => 2 ^ b.n).sum
  let settling : Bool := s.settle != 0
  let s := { s with settle := s.settle - 1 }
  let out (s : Pt) (cause : Nat) (step : Int) (span : Nat) (un : Bool) : PtResult :=
    { pt := s, cause := if settling then 4 else cause, step := step, span := span,
      included := incBits, z2 := if valid then z2 else 0, w := w, unanchored := un }
  if !s.anchored then
    match inc with
    | [] => out s 4 0 0 false
    | b0 :: _ =>
      let s := if valid then s
        else { s with refs := s.refs.set b0.n 0, init := s.init ||| 2 ^ b0.n }
      let θ := if valid then θ else angle24 b0.zr b0.zi
      let s := initRefs s inc θ
      out { s with anchored := true, phi := θ, hole := 0 } 4 0 0 false
  else if valid then
    let span := s.hole + 1
    let p : Int := if act m (pgPhase x) PHASE.TRACK.PREDICT = 1 ∧ span = s.spanPrev then s.dPrev else 0
    let pred : Nat := unsigned 24 ((s.phi : Int) + p)
    let step := clamp (-(2 ^ 31 - 1)) (2 ^ 31 - 1) (wrap24 ((θ : Int) - (pred : Int)) + p)
    let s := initRefs (trackRefs m x s sum pred) inc θ
    { out { s with phi := θ, dPrev := step, spanPrev := span, hole := 0 } 0 step span false with tracked := true }
  else
    let s := initRefs s inc s.phi
    let h := countHole m x s
    out h.1 5 0 0 h.2

/-- A shot at a point (R155), the point being in service and within capacity: LOST, GAIN, or
processed. -/
def shotPt (m : RegMap) (x : Line) (s : Pt) (epoch : Nat) (bs : List Branch) (free : Nat) : PtResult :=
  let s := if s.epoch = epoch then s else restartPt m x s epoch
  if bs.any (·.lost) then
    let h := countHole m x s
    { pt := h.1, cause := 3, unanchored := h.2 }
  else if bs.any fun b => b.enabled && b.gain then
    let h := countHole m x s
    { pt := h.1, cause := 4, unanchored := h.2 }
  else processPt m x s bs free

-- ---- scaling (R153, R154) -------------------------------------------------------------------------

/-- The gauge constant GK of a configuration. -/
def gaugeConst (m : RegMap) (x : Line) : Nat :=
  let g := pgGauge x
  let den := act m g GAUGE.PHASE_INDEX * act m g GAUGE.XI * act m g GAUGE.GAUGE_LEN * 299792458
  if den = 0 then 0
  else (roundHalfAway
    ((act m g GAUGE.WAVELENGTH * shotFld m x SHOT.GROUP_INDEX * 2 ^ 16 * (5 * 10 ^ 18) : Nat) : Int)
    den).toNat

/-- v of R154 before the clamp. -/
def strainRate (m : RegMap) (x : Line) (step : Int) (ticks : Nat) : Int :=
  roundHalfAway (step * (gaugeConst m x : Int))
    (max ticks 1 * 2 ^ (act m (pgGauge x) GAUGE.SCALE.E + 24))

/-- The value and CLIP of a valid word. -/
def clampRate (v : Int) : Int × Bool :=
  (clamp (-8388607) 8388607 v, v < -8388607 || 8388607 < v)

/-- The capacity of a configuration in points, floor(55 s / 16). DEDUCED: log entry 39. -/
def capacityOf (m : RegMap) (x : Line) : Nat := 55 * liv m (pgShot x) SHOT.SLOT_EFF / 16

/-- GAUGE.COUNT of a configuration. -/
def pointCount (m : RegMap) (x : Line) : Nat := act m (pgGauge x) GAUGE.COUNT

-- ---- out-of-service ranges (R158) -----------------------------------------------------------------

/-- Points of a range clipped to COUNT. -/
def oosRange (m : RegMap) (x : Line) (first count : Nat) : List Nat :=
  (List.range (min (first + count) (pointCount m x) - first)).map (· + first)

/-- OOS_POINTS counts the points out of service. -/
def showOos (d : Dev) (x : Line) : Dev :=
  d.setLiv (pgPhase x) PHASE.OOS_POINTS
    (((List.range 8192).map fun w =>
      let v := (d.sramGet 264 (x.idx * 8192 + w)).toNat
      ((List.range 32).filter fun b => bitOf v b).length).sum)

/-- A write of OOS_CMD with SET or CLEAR: it waits for the round boundary, in place of an earlier one, and
ends a recording of the line (R403). -/
def oosCommand (x : Line) (set : Bool) (d : Dev) : Dev :=
  let p := pgPhase x
  let first := liv d.regs p PHASE.OOS_FIRST
  let count := liv d.regs p PHASE.OOS_COUNT
  let d := d.onPhase x fun s => { s with oos := some (set, first, count) }
  endReel (d.setStatus p 10 true) x 3

/-- At a round boundary the pending out-of-service command takes effect (R158); a point returned to
service restarts when it is next processed. -/
def oosTake (x : Line) (d : Dev) : Dev :=
  match (d.line x).phase.oos with
  | none => d
  | some (set, first, count) =>
    let d := (oosRange d.regs x first count).foldl (fun d p =>
      let was := oosBit d x p
      let d := setOosBit d x p set
      if was && !set then
        writePt d x p { readPt d x p with epoch := (liv d.regs (pgPhase x) PHASE.EPOCH + 2 ^ 16 - 1) % 2 ^ 16 }
      else d) d
    let d := d.onPhase x fun s => { s with oos := none }
    let d := d.setStatus (pgPhase x) 10 false
    (showOos d x).event (pgPhase x) 7

/-- OOS_MAP_CLEAR (R160): after a geometry apply the line's map is cleared. -/
def oosMapClear (x : Line) (d : Dev) : Dev :=
  if (d.line x).phase.oosClear then
    let base := sramKey 264 (x.idx * 8192)
    let d := { d with sram := { d.sram with
      words := d.sram.words.filter fun e => e.1 < base || base + 8192 ≤ e.1 } }
    let d := d.onPhase x fun s => { s with oosClear := false }
    showOos d x
  else d

/-- OOS_SET (R158). -/
def execOosSet (k : Link) (x : Line) (s : State) :
    Host.Outcome State Fault Refusal :=
  done s (s.dev.guarded k (pgPhase x) 0x988 (oosCommand x true))

/-- OOS_CLEAR (R158). -/
def execOosClear (k : Link) (x : Line) (s : State) :
    Host.Outcome State Fault Refusal :=
  done s (s.dev.guarded k (pgPhase x) 0x988 (oosCommand x false))

/-- OOS_MAP_CLEAR (R160). -/
def execOosMapClear (x : Line) (s : State) :
    Host.Outcome State Fault Refusal :=
  done s (oosMapClear x s.dev)

end Sys2Proof.Machine
end

