-- ==== Sys2Proof/Machine/Pfilt.lean ====
section
/-!
DEFINITION. Point filters (chapter 07) and the release of point frames into ZONE (R197, R199): the
state of a point, one input of a point, freezes, frames and their gap records, the output ceiling.
-/
namespace Sys2Proof.Machine

-- ---- state of a point (R192) --------------------------------------------------------------------

/-- The point-filter state of a point (R192); `v` holds the four 48-bit values. -/
structure Pf where
  m          : Int := 0
  lastX      : Int := 0
  taint      : Nat := 0
  missing    : Nat := 0
  roundN     : Nat := 0
  initHp     : Bool := false
  initLp     : Bool := false
  roundSum   : Int := 0
  v          : List Int := [0, 0, 0, 0]
  roundBad   : Nat := 0
  taintCause : Nat := 0
deriving DecidableEq, Repr

/-- The bank of word w of a point's filter state. -/
def pfBank (x : Line) (p w : Nat) : Nat := 128 + 48 * x.idx + 12 * (p % 4) + w

/-- The words of a point's filter state. -/
def Pf.words (s : Pf) : List Word :=
  let m := unsigned 40 s.m
  let v := (s.v.zipIdx.map fun e => unsigned 48 e.1 * 2 ^ (48 * e.2)).sum
  [Word.ofNat m, Word.ofNat (unsigned 24 s.lastX * 256 + m / 2 ^ 32),
   Word.ofNat (s.taint * 2 ^ 16 + s.missing * 2 ^ 8 + s.roundN * 16 + bit s.initHp * 8 +
     bit s.initLp * 4),
   Word.ofInt s.roundSum] ++
  ((List.range 6).map fun i => Word.ofNat (v / 2 ^ (32 * i))) ++
  [Word.ofNat (s.roundBad * 8 + s.taintCause), 0]

/-- The filter state that 12 words hold. -/
def Pf.ofWords (w : List Word) : Pf :=
  let g (i : Nat) : Nat := (w.getD i 0).toNat
  let v := ((List.range 6).map fun i => g (4 + i) * 2 ^ (32 * i)).sum
  { m := signed 40 (bitsOf (g 1) 7 0 * 2 ^ 32 + g 0), lastX := signed 24 (bitsOf (g 1) 31 8),
    taint := bitsOf (g 2) 31 16, missing := bitsOf (g 2) 15 8, roundN := bitsOf (g 2) 7 4,
    initHp := bitOf (g 2) 3, initLp := bitOf (g 2) 2, roundSum := signed 32 (g 3),
    v := (List.range 4).map fun i => signed 48 (v / 2 ^ (48 * i)),
    roundBad := bitsOf (g 10) 5 3, taintCause := bitsOf (g 10) 2 0 }

/-- A point's filter state read. -/
def readPf (d : Dev) (x : Line) (p : Nat) : Pf :=
  Pf.ofWords ((List.range 12).map fun w => d.sramGet (pfBank x p w) (p / 4))

/-- A point's filter state written. -/
def writePf (d : Dev) (x : Line) (p : Nat) (s : Pf) : Dev :=
  s.words.zipIdx.foldl (fun d e => d.sramSet (pfBank x p e.2) (p / 4) e.1) d

-- ---- the configuration of a frame -----------------------------------------------------------------

/-- A field of the active PFILT page. -/
def pfFld (m : RegMap) (x : Line) (f : Fld) : Nat := act m (pgPfilt x) f

/-- INPUT.MODE = ROUND. -/
def roundMode (m : RegMap) (x : Line) : Bool := pfFld m x PFILT.INPUT.MODE == 1

/-- D. -/
def decim (m : RegMap) (x : Line) : Nat := pfFld m x PFILT.DECIM.D

/-- The support L of the active decimator (R179, R180). -/
def support (m : RegMap) (x : Line) : Nat :=
  if pfFld m x PFILT.DECIM.TYPE = 1 then 12 * 2 ^ pfFld m x PFILT.DECIM.LP_SHIFT
  else if pfFld m x PFILT.DECIM.ORDER = 2 then 2 * decim m x - 1
  else decim m x

/-- Group delay in half input samples (R179). -/
def groupDelay (m : RegMap) (x : Line) : Nat :=
  if pfFld m x PFILT.DECIM.TYPE = 1 then 4 * (2 ^ pfFld m x PFILT.DECIM.LP_SHIFT - 1)
  else if pfFld m x PFILT.DECIM.ORDER = 2 then 2 * (decim m x - 1)
  else decim m x - 1

/-- LAG_EFF of a configuration (R175). -/
def lagEff (m : RegMap) (x : Line) : Nat :=
  let u := if roundMode m x then liv m (pgShot x) SHOT.PERIOD_EFF else liv m (pgShot x) SHOT.SLOT_EFF
  let du := max (decim m x * u) 1
  max (pfFld m x PFILT.FREEZE.FREEZE_LAG) (ceilDiv (du + toneClearMax m x + 8192) du)

/-- The geometry and exponent of a configuration (R169). -/
def geometry (m : RegMap) (x : Line) : List Nat :=
  let g := pgGauge x
  [act m g GAUGE.FIRST, act m g GAUGE.SPACING, act m g GAUGE.COUNT, act m g GAUGE.GAUGE_LEN,
   act m g GAUGE.SCALE.E]

-- ---- freezes (R173 to R176) -----------------------------------------------------------------------

/-- The address of word w of freeze slot i of a line: trigger slots 0 to 63, host slots 64 to 67. -/
def freezeAddr (x : Line) (i w : Nat) : Nat :=
  pageBase (pgPfilt x) + (if i < 64 then 0xC00 + 16 * i else 0x990 + 16 * (i - 64)) + 4 * w

/-- Word w of a freeze slot: FIRST, COUNT, START, END. -/
def freezeWord (d : Dev) (x : Line) (i w : Nat) : Nat := (rd d.regs (freezeAddr x i w)).toNat

/-- A freeze slot written. -/
def setFreeze (d : Dev) (x : Line) (i : Nat) (ws : List Nat) : Dev :=
  ws.zipIdx.foldl (fun d e => d.setWord (freezeAddr x i e.2) (Word.ofNat e.1)) d

/-- Whether a freeze slot is active in frame f (R173): START ≤ f < END modulo 2^32. -/
def freezeActive (d : Dev) (x : Line) (i f : Nat) : Bool :=
  let s := freezeWord d x i 2
  seqAdd f (2 ^ 32 - s) < seqAdd (freezeWord d x i 3) (2 ^ 32 - s)

/-- Whether point p is frozen in frame f (R173). -/
def isFrozen (d : Dev) (x : Line) (f p : Nat) : Bool :=
  (List.range 68).any fun i =>
    freezeActive d x i f && freezeWord d x i 0 ≤ p &&
      p < freezeWord d x i 0 + freezeWord d x i 1

/-- PFILT of a line changed. -/
def Dev.onPf (d : Dev) (x : Line) (f : PfSt → PfSt) : Dev := d.onLine x fun l => { l with pf := f l.pf }

/-- STATUS.FROZEN: some slot is active in the frame in progress. -/
def showFrozen (d : Dev) (x : Line) : Dev :=
  let f := seqAdd (d.line x).pf.nextSeq (2 ^ 32 - 1)
  d.setStatus (pgPfilt x) 10 ((List.range 68).any fun i => freezeActive d x i f)

/-- TRIG_FRAMES, 0 treated as 1. -/
def trigFrames (m : RegMap) (x : Line) : Nat := max (pfFld m x PFILT.FREEZE.TRIG_FRAMES) 1

/-- Whether a freeze slot holds a freeze that has not ended by frame f (R174). DEDUCED: log entry 41. -/
def freezeOpen (d : Dev) (x : Line) (i f : Nat) : Bool :=
  freezeWord d x i 2 != freezeWord d x i 3 && seqLt f (freezeWord d x i 3)

/-- FREEZE_REQ (R174): the oldest request on its way sets or extends its condition's slot. -/
def freezeReq (x : Line) (d : Dev) : Dev :=
  match (d.line x).pf.freezes with
  | [] => d
  | r :: rest =>
    let pf := (d.line x).pf
    let start := seqAdd r.frame pf.lag
    let stop := seqAdd start (trigFrames d.regs x)
    let old := freezeWord d x r.cond 3
    let same : Bool := freezeWord d x r.cond 0 == r.first && freezeWord d x r.cond 1 == r.count
    let d := d.onPf x fun s => { s with freezes := rest }
    let d := if freezeOpen d x r.cond r.frame && same then
        setFreeze d x r.cond [r.first, r.count, freezeWord d x r.cond 2,
          if seqLt old stop then stop else old]
      else setFreeze d x r.cond [r.first, r.count, start, stop]
    showFrozen (d.event (pgPfilt x) 6) x

/-- HOST_FREEZE_SET (R176); it ends a recording of the line (R403). -/
def hostFreezeSet (x : Line) (i : Nat) (d : Dev) : Dev :=
  let p := pgPfilt x
  let first := liv d.regs p PFILT.HFRZ_FIRST
  let count := min (liv d.regs p PFILT.HFRZ_COUNT) (pointCount d.regs x - first)
  let start := seqAdd (d.line x).pf.lastRel (d.line x).pf.lag
  endReel (showFrozen (setFreeze d x (64 + i)
    [first, count, start, seqAdd start (liv d.regs p PFILT.HFRZ_FRAMES)]) x) x 3

/-- HOST_FREEZE_CLEAR (R176): the slot is inactive from the next frame boundary. It ends a
recording of the line (R403). -/
def hostFreezeClear (x : Line) (i : Nat) (d : Dev) : Dev :=
  let next := (d.line x).pf.nextSeq
  let start := freezeWord d x (64 + i) 2
  let stop := freezeWord d x (64 + i) 3
  let d :=
    if seqLe next start then
      setFreeze d x (64 + i) [freezeWord d x (64 + i) 0, freezeWord d x (64 + i) 1, next, next]
    else if seqLt next stop then
      setFreeze d x (64 + i) [freezeWord d x (64 + i) 0, freezeWord d x (64 + i) 1, start, next]
    else d
  endReel (showFrozen d x) x 3

-- ---- one input of a point (R170 to R180) ----------------------------------------------------------

/-- The class of a point word (R170); the cause of a bad one is 1 SETTLING, 2 OOS, 3 LOST, 4
OVERLOAD. -/
inductive PfIn where
  | clean (v : Int)
  | missing
  | bad (cause : Nat)
deriving DecidableEq, Repr

/-- TAINT_CAUSE of a sample of which more are missing than are filled. -/
def fillLimit : Nat := 5

/-- A word of a round adds to the round's sample (R170). -/
def Pf.addWord (s : Pf) (i : PfIn) : Pf :=
  match i with
  | .clean v => { s with roundSum := s.roundSum + v, roundN := s.roundN + 1 }
  | .missing => s
  | .bad c => { s with roundBad := c }

/-- The round's sample (R170), the accumulators restarting. -/
def Pf.roundSample (s : Pf) : Pf × PfIn :=
  ({ s with roundSum := 0, roundN := 0, roundBad := 0 },
   if s.roundBad ≠ 0 then .bad s.roundBad
   else if s.roundN = 0 then .missing
   else .clean (roundHalfAway s.roundSum s.roundN))

/-- Filling (R171): the state, the value the filters run on, the cause of a bad sample. -/
def Pf.fill (s : Pf) (fillMax : Nat) (i : PfIn) : Pf × Int × Option Nat :=
  match i with
  | .clean v => ({ s with lastX := v, missing := 0 }, v, none)
  | .missing =>
    let n := min (s.missing + 1) 255
    ({ s with missing := n }, s.lastX, if fillMax < n then some fillLimit else none)
  | .bad c => (s, s.lastX, some c)

/-- The high-pass (R172). -/
def Pf.highPass (s : Pf) (k : Nat) (frozen : Bool) (v : Int) : Pf × Int :=
  if k = 0 then (s, v)
  else
    let s := if s.initHp then s else { s with m := v * 2 ^ 16, initHp := true }
    let h := clamp (-8388607) 8388607 (v - asr (s.m + 2 ^ 15) 16)
    (if frozen then s else { s with m := s.m + asr (v * 2 ^ 16 - s.m + 2 ^ (k - 1)) k }, h)

/-- A decimator's input (R177, R178). -/
def Pf.decimate (s : Pf) (m : RegMap) (x : Line) (h : Int) : Pf :=
  let a := s.v.getD 0 0
  let b := s.v.getD 1 0
  if pfFld m x PFILT.DECIM.TYPE = 1 then
    let k := pfFld m x PFILT.DECIM.LP_SHIFT
    let half : Int := 2 ^ (k - 1)
    let a := if s.initLp then a else h * 2 ^ 16
    let b := if s.initLp then b else h * 2 ^ 16
    let a := a + asr (h * 2 ^ 16 - a + half) k
    let b := b + asr (a - b + half) k
    { s with v := [a, b, s.v.getD 2 0, s.v.getD 3 0], initLp := true }
  else
    let a := signed 48 (unsigned 48 (a + h))
    let b := if pfFld m x PFILT.DECIM.ORDER = 2 then signed 48 (unsigned 48 (b + a)) else b
    { s with v := [a, b, s.v.getD 2 0, s.v.getD 3 0] }

/-- y at an output instant (R177, R178). -/
def Pf.output (s : Pf) (m : RegMap) (x : Line) : Pf × Int :=
  let g (i : Nat) : Int := s.v.getD i 0
  if pfFld m x PFILT.DECIM.TYPE = 1 then (s, asr (g 1 + 2 ^ 15) 16)
  else if pfFld m x PFILT.DECIM.ORDER = 2 then
    let c1 := signed 48 (unsigned 48 (g 1 - g 2))
    let c := signed 48 (unsigned 48 (c1 - g 3))
    ({ s with v := [g 0, g 1, g 1, c1] }, roundHalfAway c (decim m x ^ 2))
  else
    let c := signed 48 (unsigned 48 (g 0 - g 2))
    ({ s with v := [g 0, g 1, g 0, g 3] }, roundHalfAway c (decim m x))

/-- One sample of a point (R171 to R180). -/
def Pf.sample (s : Pf) (m : RegMap) (x : Line) (frozen : Bool) (i : PfIn) : Pf :=
  let f := s.fill (pfFld m x PFILT.FILL.FILL_MAX) i
  let h := f.1.highPass (pfFld m x PFILT.HIGHPASS.HP_SHIFT) frozen f.2.1
  let s := h.1.decimate m x h.2
  match f.2.2 with
  | some c => { s with taint := support m x, taintCause := c }
  | none => { s with taint := s.taint - 1 }

/-- What the first sample of a frame finds changed (R181): 1 TAINT = L, 2 the decimator cleared too, 3
everything cleared. -/
def Pf.action (s : Pf) (m : RegMap) (x : Line) (n : Nat) : Pf :=
  let s := match n with
    | 0 => s
    | 1 => s
    | 2 => { s with v := [0, 0, 0, 0], initLp := false, roundSum := 0, roundN := 0 }
    | _ => {}
  if n = 0 then s else { s with taint := support m x, taintCause := 1 }

/-- The value of a point at an output instant (R179, R180): 0x8000 when invalid; whether it was
clamped. -/
def Pf.value (s : Pf) (y : Int) : Nat × Bool :=
  if s.taint = 0 then
    let v := roundHalfAway y 256
    (unsigned 16 (clamp (-32767) 32767 v), v < -32767 || 32767 < v)
  else (0x8000, false)

-- ---- frames in flight -----------------------------------------------------------------------------

/-- A frame in flight changed. -/
def Dev.onFrame (d : Dev) (x : Line) (seq : Nat) (f : PFrame → PFrame) : Dev :=
  d.onPf x fun s => { s with frames := s.frames.map fun r => if r.seq = seq then f r else r }

/-- A LOST word of point p widens a frame's range of LOST points (R187). -/
def PFrame.addLost (f : PFrame) (p : Nat) (s : ShotRec) : PFrame :=
  let range := match f.lost with
    | none => (p, p)
    | some r => (min r.1 p, max r.2 p)
  let shots := match f.lostShot with
    | none => (s, s)
    | some r => (if s.tick < r.1.tick then s else r.1, if r.2.tick < s.tick then s else r.2)
  { f with lost := some range, lostShot := some shots }

/-- An uncorrectable word in a point's filter state (R181). -/
def pfStateError (d : Dev) (x : Line) (m : RegMap) (p : Nat) : Dev :=
  let d := writePf d x p { taint := support m x, taintCause := 1 }
  d.eventLog (pgPfilt x) 5 sevError (p + x.idx * 2 ^ 24)

/-- What the twelve words of a point's filter state show, the first as `ecc`. -/
def pfCheck (d : Dev) (x : Line) (p : Nat) (ecc : SramEcc) : Dev × Bool :=
  (List.range 12).foldl (fun (r : Dev × Bool) w =>
    let c := r.1.sramCheck (pfBank x p w) (p / 4) 1 (if w = 0 then ecc else .clean)
    (c.1, r.2 || c.2)) (d, false)

/-- REEL takes a replayed point's filter state as its first recorded sample meets it (R399). -/
def tapPf (d : Dev) (x : Line) (seq p : Nat) (st : Pf) : Dev :=
  let l := d.reel.line x
  let mine (e : Nat × List Word) : Bool := e.1 == p && e.2.length == 16
  if l.covers seq && l.points.any mine then
    d.onReel x fun l => { l with points := l.points.map fun e => if mine e then (p, e.2 ++ st.words) else e }
  else d

/-- A value is queued to its frame's place in the ring (R185): it leaves with the line that it completes. The values that
share the header's line leave with the header. DESIGN CHOICE: log entry 133. -/
def queueValues (d : Dev) (x : Line) (f : PFrame) : Dev :=
  let stop := 48 + 2 * f.vals.length
  let off := (stop - 1) / 64 * 64
  if off = 0 ∨ (stop % 64 ≠ 0 ∧ f.vals.length ≠ f.count) then d
  else ringPut d x f.seq off (padTo 8 ((f.vals.take ((stop - off) / 2)).reverse.flatMap fun v => leBytes 2 v))

/-- A point word, or a gap shot's missing input, at PFILT (R170 to R181): the point's state, and at an
output instant its value in the frame. DESIGN CHOICE: log entry 133. -/
def pfPoint (d : Dev) (x : Line) (s : PhaseShot) (p : Nat) (i : PfIn) (ecc : SramEcc) : Dev :=
  match s.frame with
  | none => d
  | some seq =>
    match (d.line x).pf.frames.find? fun f => f.seq == seq with
    | none => d
    | some f =>
      let m := f.cfg
      let c := pfCheck d x p ecc
      let d := if c.2 then pfStateError c.1 x m p else c.1
      let frozen := isFrozen d x seq p
      let st := readPf d x p
      let st := if s.first then st.action m x f.action else st
      let d := tapPf d x s.slot.shot.seq p st
      let st := if roundMode m x then st.addWord i else st
      let st := if s.sample then
          let r := if roundMode m x then st.roundSample else (st, i)
          r.1.sample m x frozen r.2
        else st
      let d := if frozen then d.onFrame x seq fun f => { f with frozen := true } else d
      let d := match i with
        | .bad 3 => d.onFrame x seq fun f => f.addLost p s.slot.shot
        | _ => d
      if s.out then
        let o := st.output m x
        let v := o.1.value o.2
        let d := if p = 0 then overflowSegments d x seq else d
        let put (f : PFrame) : PFrame :=
          { f with vals := v.1 :: f.vals,
                   invalid := f.invalid + (if v.1 = 0x8000 then 1 else 0),
                   clipped := f.clipped + bit v.2,
                   causes := if v.1 = 0x8000 then f.causes ||| 2 ^ o.1.taintCause else f.causes }
        let d := queueValues (d.onFrame x seq put) x (put f)
        writePf d x p o.1
      else writePf d x p st

/-- The last point of a frame's output instant has come (R185). -/
def frameReady (d : Dev) (x : Line) (s : PhaseShot) : Dev :=
  match s.frame with
  | none => d
  | some seq =>
    if s.out then d.onFrame x seq fun f => { f with ready := some (f.ready.getD d.clk.tick) } else d

-- ---- slots and frames (R167 to R169, R187) ---------------------------------------------------------

/-- The cause of a gap shot in gap records (R187). -/
def gapCause (r : ShotRec) : Nat :=
  if bitOf r.flags 7 then 1 else if bitOf r.flags 3 then 2 else if bitOf r.flags 2 then 3 else 5

/-- Device time at the beginning of a hold of some cycles that ends with a shot, from the shot's own time stamp, so that
a replay gives the same record (R190). DEDUCED: log entry 134. -/
def holdTime (r : ShotRec) (hold : Nat) : Nat := r.time - (8 * hold + 4) / 5

/-- The record of the time for which the line's shots were stopped before a shot (R9, R39). DESIGN CHOICE: log entry
135. -/
def stopGap (pf : PfSt) (r : ShotRec) (f : PFrame) : List GapRec :=
  match pf.stopped with
  | none => []
  | some (t, cause) =>
    if t ≤ r.tick then
      [{ cause := cause, tick := t, time := holdTime r (r.tick - t), ticks := r.tick - t, firstFrame := f.seq,
         points := f.count }]
    else []

/-- A gap slot joins the records of its frame: a run of one cause shares a record (R187). -/
def addGap (l : List GapRec) (c : Nat) (r : ShotRec) (slot frame points : Nat) : List GapRec :=
  match l.getLast? with
  | some g =>
    if g.cause = c ∧ seqAdd g.firstSeq g.slots = r.seq then
      l.dropLast ++ [{ g with slots := g.slots + 1, ticks := r.tick + slot - g.tick }]
    else l ++ [⟨c, r.seq, 1, r.tick, r.time, slot, frame, 0, 0, points⟩]
  | none => [⟨c, r.seq, 1, r.tick, r.time, slot, frame, 0, 0, points⟩]

/-- A slot's shot record is counted in the frame in progress (R167, R187): whether it is the frame's
first, ends an input slot, and is the output instant. `gap` when it is a gap shot. -/
def countSlot (d : Dev) (x : Line) (s : Slot) (gap : Bool) : Dev × Option Nat × Bool × Bool × Bool :=
  match (d.line x).pf.frames.getLast? with
  | none => (d, none, false, false, false)
  | some f =>
    if f.closed then (d, none, false, false, false)
    else
      let r := s.shot
      let len := liv s.cfg (pgShot x) SHOT.SLOT_EFF
      let first : Bool := f.shots == 0
      let sample : Bool := !roundMode f.cfg x || r.group + 1 == max (nGroups s.cfg x) 1
      let out : Bool := sample && f.slots + 1 == decim f.cfg x
      let stops := stopGap (d.line x).pf r f
      let holds := if s.hold = 0 then f.gaps ++ stops
        else f.gaps ++ stops ++ [⟨4, 0, 0, r.tick - s.hold, holdTime r s.hold, s.hold, f.seq, 0, 0, f.count⟩]
      let f' : PFrame :=
        { f with slots := f.slots + bit sample, shots := f.shots + 1, gapShots := f.gapShots + bit gap,
                 traced := f.traced || !gap, lastTick := r.tick, lastTime := r.time, closed := out,
                 gaps := if gap then addGap holds (gapCause r) r len f.seq f.count else holds }
      let d := if stops.isEmpty then d else d.onPf x fun p => { p with stopped := none }
      (d.onFrame x f.seq fun _ => f', some f.seq, first, sample, out)

/-- The frame in progress, if one is. -/
def openFrame (d : Dev) (x : Line) : Option PFrame :=
  match (d.line x).pf.frames.getLast? with
  | some f => if f.closed then none else some f
  | none => none

/-- The frame in progress ends unemitted: 9 for a geometry or exponent change (R169), 10 where PFILT is disabled.
DEDUCED: log entry 40. -/
def abandonFrame (d : Dev) (x : Line) (cause : Nat) : Dev :=
  match openFrame d x with
  | none => d
  | some f => d.onFrame x f.seq fun f => { f with closed := true, abandon := true, endCause := cause }

-- ---- headers ----------------------------------------------------------------------------------------

/-- FLAGS of a point frame (R183). -/
def PFrame.flags (f : PFrame) (x : Line) : Nat :=
  bit (f.gapShots != 0) + (f.causes &&& 0x3E) + bit (f.clipped != 0) * 64 + bit f.frozen * 128 +
    bit f.applied * 256 + pfFld f.cfg x PFILT.DECIM.TYPE % 2 * 512

/-- The 48-byte header of a point frame with given COUNT, FLAGS, INVALID and CLIPPED (R183, R214). -/
def PFrame.header (f : PFrame) (x : Line) (count flags invalid clipped : Nat) : List Byte :=
  leBytes 8 f.lastTick ++ leBytes 8 f.lastTime ++ leBytes 4 f.seq ++ leBytes 4 f.firstSeq ++
  leBytes 4 count ++ leBytes 2 flags ++ leBytes 1 (x.idx * 128 + f.expo) ++
  leBytes 1 (min f.gapShots 255) ++ leBytes 2 (decim f.cfg x) ++ leBytes 2 (groupDelay f.cfg x) ++
  leBytes 4 (cfgCheck f.cfg (pgPfilt x)).toNat ++ leBytes 4 invalid ++ leBytes 4 clipped

/-- The bytes of a point frame (R183). -/
def PFrame.bytes (f : PFrame) (x : Line) : List Byte :=
  padTo 8 (f.header x f.count (f.flags x) f.invalid f.clipped ++
    f.vals.reverse.flatMap fun v => leBytes 2 v)

/-- The gap header that stands in the ring for a frame not released (R214). -/
def PFrame.gapHeader (f : PFrame) (x : Line) (cause : Nat) : List Byte := f.header x 0 1 cause 0

-- ---- gap records (R186 to R188) ----------------------------------------------------------------------

/-- The stream of a line's point frames and PFILT gap records (R365). -/
def pointStream (d : Dev) (x : Line) : Nat :=
  act d.regs pgSahf (match x with | .a => SAHF.POINT.A | .b => SAHF.POINT.B)

/-- A PFILT gap record is emitted (R187). -/
def emitGap (d : Dev) (x : Line) (g : GapRec) : Dev :=
  let d := d.event (pgPfilt x) 7
  d.handOver (pointStream d x) 0x07 (g.bytes 1 x.idx 0 0 (cfgCheck d.regs (pgPfilt x)))

/-- Records waiting for a released frame are emitted, and the gap headers of the frames they stand for are written into
the ring (R187, R214). -/
def emitPending (d : Dev) (x : Line) : Dev :=
  let pf := (d.line x).pf
  let d := pf.pending.foldl (fun d g => emitGap d x g) d
  let d := pf.heads.foldl (fun d h => ringWrite d x h.1 h.2 true) d
  d.onPf x fun s => { s with pending := [], heads := [] }

/-- Consecutive frames not emitted for one cause share one record (R187). -/
def joinGap (l : List GapRec) (g : GapRec) : List GapRec :=
  match l.getLast? with
  | some h =>
    if h.cause = g.cause ∧ h.frames ≠ 0 ∧ seqAdd h.firstFrame h.frames = g.firstFrame then
      l.dropLast ++ [{ h with slots := h.slots + g.slots, frames := h.frames + g.frames,
                              ticks := g.tick + g.ticks - h.tick }]
    else l ++ [g]
  | none => [g]

/-- A record that stands for frames not emitted waits for the next frame released, and takes in the
frames that follow for the same cause (R187). -/
def holdGap (d : Dev) (x : Line) (g : GapRec) : Dev :=
  match joinGap (d.line x).pf.pending g with
  | [j] => d.onPf x fun s => { s with pending := [j] }
  | _ => (emitPending d x).onPf x fun s => { s with pending := [g] }

/-- The record that stands for a whole frame. -/
def frameGap (d : Dev) (x : Line) (f : PFrame) (cause : Nat) : GapRec :=
  let len := liv d.regs (pgShot x) SHOT.SLOT_EFF
  { cause := cause, firstSeq := f.firstSeq, slots := f.shots, tick := f.startTick,
    time := f.startTime, ticks := f.lastTick + len - f.startTick, firstFrame := f.seq,
    frames := 1, points := f.count }

/-- The record of a frame's LOST points (R187). -/
def lostGap (f : PFrame) (len : Nat) : List GapRec :=
  match f.lost, f.lostShot with
  | some r, some t =>
    [{ cause := 6, firstSeq := t.1.seq, slots := unsigned 32 (seqDiff t.2.seq t.1.seq + 1),
       tick := t.1.tick, time := t.1.time, ticks := t.2.tick + len - t.1.tick, firstFrame := f.seq,
       firstPoint := r.1, points := r.2 - r.1 + 1 }]
  | _, _ => []

-- ---- conditions and bands at a frame (R199, R206) -----------------------------------------------------

/-- ZONE and TRIG of a line changed. -/
def Dev.onZone (d : Dev) (x : Line) (f : ZoneSt → ZoneSt) : Dev :=
  d.onLine x fun l => { l with zone := f l.zone }

/-- The conditions of a line whose reset still waits for its frame (R206). -/
def resetsWaiting (d : Dev) (x : Line) : Nat :=
  ((d.line x).pf.frames.map (·.condReset)).foldl (· ||| ·) (d.line x).zone.condReset

/-- The active conditions of a line, as TRIG.ACTIVE shows them: resets show from their boundary. -/
def activeMask (d : Dev) (x : Line) : Nat :=
  let hide := resetsWaiting d x
  ((List.range 64).map fun c =>
    if ((d.line x).zone.conds.getD c (0, false)).2 && !bitOf hide c then 2 ^ c else 0).sum

/-- TRIG.ACTIVE and ANY_ACTIVE. -/
def showActive (d : Dev) (x : Line) : Dev :=
  let a := activeMask d x
  (d.setPair (pgTrig x) 0x900 0x904 a).setStatus (pgTrig x) 12 (a != 0)

/-- The conditions of a mask set inactive with RUN = 0 (R206). -/
def resetConds (d : Dev) (x : Line) (mask : Nat) : Dev :=
  d.onZone x fun z =>
    { z with conds := z.conds.zipIdx.map fun e => if bitOf mask e.2 then (0, false) else e.1 }

-- ---- ALARM balls (R210, R211) -------------------------------------------------------------------------

/-- A field of the active trigger conditions, in a register space. -/
def trigFld (m : RegMap) (f : Fld) : Nat := f.at m 0xA44000

/-- Whether condition c is an enabled condition of a line (R195). -/
def condOn (m : RegMap) (x : Line) (c : Nat) : Bool :=
  trigFld m (TRIG.W0.EN c) == 1 && trigFld m (TRIG.W0.LINE c) == x.idx

/-- The enabled conditions of a line, rising. -/
def condsOf (m : RegMap) (x : Line) : List Nat := (List.range 64).filter (condOn m x)

/-- A field of ALARM_CFG_k. -/
def alarmFld (d : Dev) (f : Fld) : Nat := act d.regs (pgTrig .a) f

/-- MODE of a ball; 3 is LEVEL. -/
def alarmMode (d : Dev) (k : Nat) : Nat :=
  if alarmFld d (TRIG.ALARM_CFG.MODE k) = 3 then 0 else alarmFld d (TRIG.ALARM_CFG.MODE k)

/-- Whether some active condition names ball k. -/
def levelNamed (d : Dev) (k : Nat) : Bool := bitOf (d.lineA.zone.balls ||| d.lineB.zone.balls) k

/-- An edge leaves a ball 20 cycles after cycle r. -/
def queueEdge (d : Dev) (k r : Nat) (up : Bool) : Dev :=
  { d with alarm := { d.alarm with edges := d.alarm.edges ++ [⟨k, r + 20, up⟩] } }

/-- Whether ball k is asserted once the edges on their way have left. -/
def alarmWill (d : Dev) (k : Nat) : Bool :=
  match (d.alarm.edges.filter fun e => e.ball == k).getLast? with
  | some e => e.raise
  | none => d.alarm.on.getD k false

/-- A condition met in cycle r asks its balls to act (R209, R210): a PULSE or LATCH ball takes an edge, a
LEVEL ball one where it is not asserted; a fall of the same cycle is taken back. -/
def alarmMeet (d : Dev) (mask r : Nat) : Dev :=
  (List.range 4).foldl (fun d k =>
    let d := if alarmMode d k == 0 && bitOf mask k then
        { d with alarm := { d.alarm with edges := d.alarm.edges.erase ⟨k, r + 20, false⟩ } }
      else d
    if bitOf mask k && (alarmMode d k != 0 || !alarmWill d k) then queueEdge d k r true else d) d

/-- The balls that the active conditions of a line name, as `m` has them: a condition whose reset waits
for its frame counts as inactive, as TRIG.ACTIVE shows it (R206). -/
def lineBalls (d : Dev) (x : Line) (m : RegMap) : Nat :=
  let a := activeMask d x
  ((condsOf m x).map fun c => if bitOf a c then trigFld m (TRIG.W4.ALARM c) else 0).foldl (· ||| ·) 0

/-- The balls that line x's conditions name are noted anew. -/
def noteBalls (d : Dev) (x : Line) (m : RegMap) : Dev :=
  d.onZone x fun z => { z with balls := lineBalls d x m }

/-- LEVEL balls that no active condition names any more deassert (R211). -/
def alarmRelease (d : Dev) (r : Nat) : Dev :=
  (List.range 4).foldl (fun d k =>
    if alarmMode d k == 0 && alarmWill d k && !levelNamed d k then queueEdge d k r false else d) d

/-- LEVEL balls follow a change of the conditions outside a decision (R206, R210), in cycle r. -/
def alarmLevels (d : Dev) (x : Line) (m : RegMap) (r : Nat) : Dev :=
  let d := noteBalls d x m
  (List.range 4).foldl (fun d k =>
    if alarmMode d k == 0 && !alarmWill d k && levelNamed d k then queueEdge d k r true else d)
    (alarmRelease d r)

/-- The bank and word of a point's band states (R224). -/
def bandWord (x : Line) (p : Nat) : Nat × Nat := (265 + 8 * x.idx + p % 8, p / 8 * 2)

/-- Every band state of a line is cleared (R199). -/
def clearBands (d : Dev) (x : Line) : Dev :=
  let lo := sramKey (265 + 8 * x.idx) 0
  let hi := sramKey (273 + 8 * x.idx) 0
  let d := { d with sram := { d.sram with
    words := d.sram.words.filter fun e => e.1 < lo || hi ≤ e.1 } }
  d.setLiv (pgZone x) ZONE.BAND_AGE 0

/-- What a frame brings to ZONE and TRIG from its boundary, released or not. -/
def frameResets (d : Dev) (x : Line) (f : PFrame) : Dev :=
  let d := if f.bandClear then clearBands d x else d
  let d := resetConds d x f.condReset
  let d := d.onZone x fun z =>
    { z with applied := z.applied || f.zoneNew }
  alarmLevels (showActive d x) x f.cfg d.clk.tick

/-- A frame for which the reduction stream sends nothing (R203); FIRST_SEQ and SLOTS are PFILT's (R370). -/
def skipReduction (d : Dev) (x : Line) (f : PFrame) (cause : Nat) : Dev :=
  if act f.cfg (pgZone x) ZONE.OUT.EN = 1 ∧ enActive f.cfg (pgZone x) then
    let g := { frameGap d x f cause with firstSeq := 0, slots := 0 }
    let send (d : Dev) (h : GapRec) : Dev :=
      (d.event (pgZone x) 6).handOver (act d.regs (pgZone x) ZONE.OUT.STREAM) 0x07
        (h.bytes 2 x.idx 0 0 (cfgCheck d.regs (pgZone x)))
    match (d.line x).zone.skipped with
    | none => d.onZone x fun z => { z with skipped := some g }
    | some h =>
      match joinGap [h] g with
      | [j] => d.onZone x fun z => { z with skipped := some j }
      | _ => (send d h).onZone x fun z => { z with skipped := some g }
  else d

-- ---- a frame starts (R168) -----------------------------------------------------------------------------------

/-- Which of PFILT, ZONE and TRIG of a line a configuration fault holds from a frame boundary on (R39). -/
def heldBlocks (d : Dev) (x : Line) : Nat :=
  bit (d.status (pgPfilt x) 2) + 2 * bit (d.status (pgZone x) 2) + 4 * bit (d.status (pgTrig x) 2)

/-- A frame starts at a shot record (R168): it takes the configuration in force and what applies and
changes since the last boundary ask of it; a geometry change that PFILT slept through among them (R169). -/
def startFrame (d : Dev) (x : Line) (s : Slot) (changed : Bool) : Dev :=
  let pf := (d.line x).pf
  let z := (d.line x).zone
  let geo := changed || pf.action == 3
  let held := heldBlocks d x
  let f : PFrame :=
    { seq := pf.nextSeq, cfg := d.regs, firstSeq := s.shot.seq, count := pointCount s.cfg x,
      expo := act s.cfg (pgGauge x) GAUGE.SCALE.E, startTick := s.shot.tick, startTime := s.shot.time,
      action := if geo then 3 else pf.action, applied := geo || pf.applied,
      bandClear := geo || z.bandClear, zoneNew := z.zoneNew, held := held,
      condReset := if geo || bitOf held 2 then 2 ^ 64 - 1 else z.condReset }
  let d := d.onPf x fun s =>
    { s with frames := s.frames ++ [f], nextSeq := seqAdd s.nextSeq 1, starting := false, action := 0,
             applied := false }
  let d := d.onZone x fun z => { z with bandClear := false, zoneNew := false, condReset := 0 }
  let d := if (d.line x).capt.restart then restartRing d x f.seq f.count changed else d
  let d := if f.condReset = 0 then d else alarmLevels (showActive d x) x f.cfg d.clk.tick
  showFrozen d x

-- ---- the output ceiling (R189) --------------------------------------------------------------------------

/-- The credit after a frame's accrual. DEDUCED: log entry 40. -/
def accrue (d : Dev) (x : Line) (f : PFrame) : Dev :=
  let p := pgPfilt x
  let full := 2 ^ 21 * 64
  let d := match (d.line x).pf.prevTick with
    | none => d
    | some t => d.setLiv p PFILT.CREDIT
        (min (liv d.regs p PFILT.CREDIT + (f.lastTick - t) * pfFld f.cfg x PFILT.OUT.OUT_SHARE) full)
  d.onPf x fun s => { s with prevTick := some f.lastTick }

/-- A frame leaves the list of frames in flight. -/
def popFrame (d : Dev) (x : Line) : Dev := d.onPf x fun s => { s with frames := s.frames.drop 1 }

/-- A frame that is not released (R169, R188): the record that stands for it, and its gap header, wait for the next
released frame. DEDUCED: log entry 40. -/
def dropFrame (d : Dev) (x : Line) (f : PFrame) (cause : Nat) (own : Bool) : Dev :=
  let slots := f.gaps.filter (·.slots != 0)
  let whole := match own, slots with
    | true, g :: _ => { g with firstFrame := f.seq, frames := 1 }
    | _, _ => frameGap d x f cause
  let others := if own then f.gaps.filter (·.slots == 0) ++ slots.drop 1
    else f.gaps ++ lostGap f (liv d.regs (pgShot x) SHOT.SLOT_EFF)
  let d := popFrame d x
  let d := holdGap d x whole
  let d := others.foldl (fun d g => emitGap d x g) d
  let d := d.setLiv (pgPfilt x) PFILT.FRAME_SEQ f.seq
  let d := accrue d x f
  let d := d.setStatus (pgPfilt x) 9 false
  let d := d.onPf x fun s => { s with heads := s.heads ++ [(f.seq, f.gapHeader x whole.cause)] }
  skipReduction (frameResets d x f) x f whole.cause

-- ---- release into ZONE (R185, R197 to R201) --------------------------------------------------------------

/-- The zone table entry z of the active view, in the register space of a frame. -/
def zoneFld (m : RegMap) (f : Fld) : Nat := f.at m 0xA20000

/-- The enabled zones of a line, rising (R195). -/
def zonesOf (m : RegMap) (x : Line) : List Nat :=
  (List.range 4096).filter fun z =>
    zoneFld m (ZONE.W0.EN z) == 1 && zoneFld m (ZONE.W0.LINE z) == x.idx

/-- One point's band step (R197): the difference pair; a point without value keeps its states. -/
def bandStep (d : Dev) (x : Line) (ka kb p : Nat) (v : Int) : Dev × (Int × Int) :=
  let w := bandWord x p
  let c := d.sramCheck w.1 w.2 2 .clean
  let d := if c.2 then
      ((c.1.sramSet w.1 w.2 0).sramSet w.1 (w.2 + 1) 0).eventLog (pgZone x) 4 sevError (p + x.idx * 2 ^ 24)
    else c.1
  if v = -32768 then (d, (0, 0))
  else
    let la := (d.sramGet w.1 w.2).toInt
    let lb := (d.sramGet w.1 (w.2 + 1)).toInt
    let fa := asr (la + 2 ^ 15) 16
    let fb := asr (lb + 2 ^ 15) 16
    let la' := la + asr (v * 2 ^ 16 - la + 2 ^ (ka - 1)) ka
    let lb' := lb + asr (v * 2 ^ 16 - lb + 2 ^ (kb - 1)) kb
    ((d.sramSet w.1 w.2 (Word.ofInt la')).sramSet w.1 (w.2 + 1) (Word.ofInt lb'), (v - fa, fa - fb))

/-- The band steps of a frame's points from point p on. -/
def bandSteps (d : Dev) (x : Line) (ka kb : Nat) : Nat → List Int → Dev × List (Int × Int)
  | _, [] => (d, [])
  | p, v :: vs =>
    let r := bandStep d x ka kb p v
    let rs := bandSteps r.1 x ka kb (p + 1) vs
    (rs.1, r.2 :: rs.2)

/-- REEL takes the band states of the replayed points as the first recorded frame meets them (R399), and
BAND_AGE into the state of each of the line's zones, whose accumulators are empty between frames. -/
def tapBands (d : Dev) (x : Line) (f : PFrame) : Dev :=
  let l := d.reel.line x
  if l.active && l.first.isSome && !l.banded && seqLe l.frame0 f.seq then
    let ps := (List.range f.count).filter (isReplayed l.cfg x)
    let bands := ps.map fun p =>
      let w := bandWord x p
      (p, [d.sramGet w.1 w.2, d.sramGet w.1 (w.2 + 1)])
    let age := leBytes 4 (liv d.regs (pgZone x) ZONE.BAND_AGE) ++ leBytes 60 0
    d.onReel x fun l =>
      { l with banded := true, bands := bands, zones := (zonesOf l.cfg x).flatMap fun _ => age }
  else d

/-- A released frame reaches ZONE: band states, BAND_AGE, the zones to reduce; under CFG_FAULT a gap stands
for its reductions (R39). -/
def toZone (d : Dev) (x : Line) (f : PFrame) : Dev :=
  if bitOf f.held 1 then skipReduction d x f 8
  else if enActive f.cfg (pgZone x) then
    let p := pgZone x
    let kb := act f.cfg p ZONE.BANDS.KB
    let vals := f.vals.reverse.map fun v => signed 16 v
    let r := bandSteps (tapBands d x f) x (act f.cfg p ZONE.BANDS.KA) kb 0 vals
    let age := min (liv r.1.regs p ZONE.BAND_AGE + 1) 65535
    let short : Bool := age < 4 * 2 ^ kb
    let d := (r.1.setLiv p ZONE.BAND_AGE age).setStatus p 8 short
    let zs := zonesOf f.cfg x
    let rel := d.clk.tick
    let z : ZFrame :=
      { frame := f, rel := rel, vals := vals, bands := r.2, settling := short, zones := zs,
        last := rel + 24 + (zs.length - 1) / 16 }
    d.onZone x fun s => { s with frames := s.frames ++ [z] }
  else d

/-- A frame is released (R185): gap records first, the credit decided, its place in the ring, its
message, ZONE. -/
def releaseFrame (d : Dev) (x : Line) (f : PFrame) (ready : Nat) : Dev :=
  let p := pgPfilt x
  let d := d.advanceTo (ready + 64)
  let d := popFrame d x
  let len := liv d.regs (pgShot x) SHOT.SLOT_EFF
  let d := accrue d x f
  let bytes := f.bytes x
  let cost := bytes.length * 64
  let c := liv d.regs p PFILT.CREDIT
  let emit : Bool := d.pwr.mode == 6 || cost ≤ c
  let inner := f.gaps ++ lostGap f len
  let d := if emit then emitPending d x else holdGap d x (frameGap d x f 7)
  let d := inner.foldl (fun d g => emitGap d x g) d
  let d := ringWrite d x f.seq (bytes.take 64) false
  let d := if emit then
      let d := if d.pwr.mode = 6 then d else d.setLiv p PFILT.CREDIT (c - cost)
      d.handOver (pointStream d x) 0x03 bytes (some (x.idx, f.seq))
    else d.event p 4
  let d := d.setLiv p PFILT.FRAME_SEQ f.seq
  let d := d.setLiv p PFILT.INVALID_LAST f.invalid
  let d := d.setStatus p 8 (bitOf f.causes 1)
  let d := d.setStatus p 9 (!emit)
  let d := d.onPf x fun s => { s with lastRel := f.seq }
  toZone (frameResets d x f) x f

end Sys2Proof.Machine
end

