-- ==== Sys2Proof/Machine/Points.lean ====
section
/-!
DEFINITION. Point words (R155 to R163), gap shots at the points (R152, R156), and the commands of
PFILT: frame release (R185 to R190) and freezes (R174, R176).
-/
namespace Sys2Proof.Machine

/-- One shot in flight, by SEQ. -/
def findShot (d : Dev) (x : Line) (seq : Nat) : Option PhaseShot :=
  (d.line x).phase.shots.find? fun s => s.slot.shot.seq == seq

-- ---- gap shots ----------------------------------------------------------------------------------

/-- A gap shot at point p (R152, R156, R170): HOLE counts it unless the point is out of service, a state found
uncorrectable restarts (R161), and the filter takes a missing input. -/
def gapPoint (d : Dev) (x : Line) (s : PhaseShot) (p : Nat) : Dev :=
  let m := s.slot.cfg
  let d := tapPhase d x s.slot.shot.seq p
  let d :=
    if enActive m (pgPhase x) && !oosBit d x p then
      let c := d.sramCheck (ptBank x p) (ptWord p) 16 .clean
      let d := if c.2 then c.1.eventLog (pgPhase x) 5 sevError (p + x.idx * 2 ^ 24) else c.1
      let h := countHole m x (if c.2 then restartPt m x {} s.epoch else readPt d x p)
      let d := writePt d x p h.1
      if h.2 then d.setLiv (pgPhase x) PHASE.REANCHOR_TOTAL
          (min (liv d.regs (pgPhase x) PHASE.REANCHOR_TOTAL + 1) 0xFFFFFFFF)
      else d
    else d
  pfPoint d x s p .missing .clean

/-- A gap shot reaches the next n points from p. -/
def gapPoints (x : Line) (s : PhaseShot) : Nat → Nat → Dev → Dev
  | 0, _, d => d
  | n + 1, p, d => gapPoints x s n (p + 1) (gapPoint d x s p)

/-- A gap shot reaches every point it has not reached. -/
def finishGap (d : Dev) (x : Line) (s : PhaseShot) : Dev :=
  let n := pointCount s.slot.cfg x
  let d := gapPoints x s (n - s.next) s.next d
  let d := d.onShot x s.slot.shot.seq fun s => { s with next := n }
  frameReady d x s

/-- Gap shots with no traced shot before them in flight reach their points; a shot without points is
complete at once. -/
def drainGaps (x : Line) : List PhaseShot → Dev → Dev
  | [], d => d
  | s :: r, d =>
    let n := pointCount s.slot.cfg x
    if s.gap then drainGaps x r (if s.next < n ∨ (n = 0 ∧ s.out) then finishGap d x s else d)
    else if s.next < n then d
    else drainGaps x r (if n = 0 then frameReady d x s else d)

/-- Shots retire when every point has its word and every trace its bins. -/
def retireShots (d : Dev) (x : Line) : Dev :=
  d.onPhase x fun p =>
    { p with shots := p.shots.filter fun s =>
        s.next < pointCount s.slot.cfg x || !s.traces.all (·.last) }

/-- The line's shots after one of them has moved on. -/
def settleShots (d : Dev) (x : Line) : Dev :=
  retireShots (drainGaps x (d.line x).phase.shots d) x

-- ---- a point word ---------------------------------------------------------------------------------

/-- Whether a trace has delivered the bins of a point. -/
def binsReady (s : PhaseShot) (x : Line) (p : Nat) : Bool :=
  s.traces.all fun t => t.last || highBin s.slot.cfg x p < t.bins.length

/-- The cycle in which the last of a point's bins left CHAN (R136, R163). -/
def lastBinCycle (s : PhaseShot) (x : Line) (p : Nat) : Nat :=
  let b := highBin s.slot.cfg x p
  maxOf (s.traces.map fun t =>
    match t.starts[b / 1024]? with
    | some c => c + b % 1024
    | none => 0)

/-- Earlier shots have given their words of point p; gap shots among them reach it now (R152, R170). -/
def catchUp (x : Line) (p : Nat) : List PhaseShot → Dev → Dev
  | [], d => d
  | s :: r, d =>
    let d :=
      if s.gap ∧ s.next = p ∧ p < pointCount s.slot.cfg x then
        let d := gapPoint d x s p
        let d := d.onShot x s.slot.shot.seq fun s => { s with next := p + 1 }
        if p + 1 = pointCount s.slot.cfg x then frameReady d x s else d
      else d
    catchUp x p r d

/-- Whether some earlier traced shot still has to give its word of point p. -/
def waitsBehind (l : List PhaseShot) (x : Line) (p : Nat) : Bool :=
  l.any fun s => !s.gap && s.next ≤ p && s.next < pointCount s.slot.cfg x

/-- The 32-bit point word of a result with its scaled value and CLIP (R155, R162). -/
def gaugeWord (r : PtResult) (v : Int × Bool) : Nat :=
  if r.cause = 0 then unsigned 24 v.1 * 2 ^ 8 + 2 ^ 7 + 2 * bit v.2 + bit (decide (1 < r.span))
  else 0x80000000 + (match r.cause with | 1 => 2 ^ 2 | 2 => 2 ^ 4 | 3 => 2 ^ 3 | 4 => 2 ^ 6 | _ => 2 ^ 5)

/-- A point word as PFILT takes it (R170). -/
def classOf (w : Nat) : PfIn :=
  if bitOf w 7 then .clean (signed 24 (w / 2 ^ 8))
  else if bitOf w 2 then .bad 4
  else if bitOf w 4 then .bad 2
  else if bitOf w 3 then .bad 3
  else if bitOf w 6 then .bad 1
  else .missing

/-- A point word leaves GAUGE, the first of its block behind the block's header (R162). Blocks start at the multiples of
1,024 points. DESIGN CHOICE: log entry 129. -/
def sendWord (d : Dev) (x : Line) (s : PhaseShot) (p w : Nat) : Dev :=
  d.onPhase x fun q =>
    { q with word := w,
             block := if p % 1024 = 0 then
                 some (s.slot.shot.seq, p, min 1024 (pointCount s.slot.cfg x - p)) else q.block }

/-- The probe registers (chapter 06) when the probed point's word leaves. -/
def showProbe (d : Dev) (x : Line) (seq : Nat) (r : PtResult) : Dev :=
  let p := pgPhase x
  let d := d.setLiv p PHASE.PROBE_SEQ seq
  let d := d.setLiv p PHASE.PROBE_PHI r.pt.phi
  let d := if r.tracked then d.setLivS p PHASE.PROBE_D r.step else d
  let d := d.setLiv p PHASE.PROBE_BR (r.included * 2 ^ 16 + r.pt.init)
  let d := d.setLiv p PHASE.PROBE_COH (if r.w = 0 then 0 else isqrt (65536 * r.z2 / (r.w * r.w)))
  r.pt.refs.zipIdx.foldl (fun d e => d.setLiv p (PHASE.PROBE_REF e.2) e.1) d

/-- The counters of PHASE for one result. -/
def countResult (d : Dev) (x : Line) (r : PtResult) : Dev :=
  let p := pgPhase x
  let d := if r.cause = 5 then d.setPair p 0x910 0x914 (d.pair p 0x910 0x914 + 1) else d
  if r.unanchored then
    d.setLiv p PHASE.REANCHOR_TOTAL (min (liv d.regs p PHASE.REANCHOR_TOTAL + 1) 0xFFFFFFFF)
  else d

/-- PHASE processes a point in service and within capacity (R155, R161). -/
def phasePoint (d : Dev) (x : Line) (s : PhaseShot) (p : Nat) (ecc : SramEcc) : Dev × PtResult :=
  let m := s.slot.cfg
  let c := d.sramCheck (ptBank x p) (ptWord p) 16 ecc
  let d := if c.2 then c.1.eventLog (pgPhase x) 5 sevError (p + x.idx * 2 ^ 24) else c.1
  let st := if c.2 then restartPt m x {} s.epoch else readPt d x p
  let r := shotPt m x st s.epoch (branchesOf s x p) (d.free.toNat % 2 ^ 24)
  (countResult (writePt d.tookFree x p r.pt) x r, r)

/-- A shot's last point word has left (chapter 06, live registers). -/
def shotComplete (d : Dev) (x : Line) (s : PhaseShot) : Dev :=
  let d := d.setLiv (pgPhase x) PHASE.FADED_LAST s.faded
  let d := d.setLiv (pgPhase x) PHASE.SETTLING_LAST s.settling
  let d := d.setStatus (pgPhase x) 9 (s.settling != 0)
  let d := d.setLiv (pgGauge x) GAUGE.CLIP_LAST s.clipped
  let d := d.setStatus (pgGauge x) 8 (s.clipped != 0)
  let d := if s.clipped = 0 then d else d.event (pgGauge x) 4
  frameReady d x s

/-- The scaled value of a valid result and its CLIP (R154). -/
def scaledValue (s : PhaseShot) (x : Line) (r : PtResult) : Int × Bool :=
  if r.cause = 0 then
    clampRate (strainRate s.slot.cfg x r.step (s.slot.shot.tick - s.ticks.getD (r.span - 1) 0))
  else (0, false)

/-- A point word leaves: PHASE, GAUGE, PFILT. -/
def pointWordOf (d : Dev) (x : Line) (s : PhaseShot) (p : Nat) (ecc pfEcc : SramEcc) : Dev :=
  let m := s.slot.cfg
  let d := tapPhase d x s.slot.shot.seq p
  let tooFar : Bool := capacityOf m x ≤ p
  let run : Bool := !tooFar && !oosBit d x p
  let r : Dev × PtResult :=
    if tooFar then (d, { pt := {}, cause := 1 })
    else if !run then (d, { pt := {}, cause := 2 })
    else phasePoint d x s p ecc
  let v := scaledValue s x r.2
  let d := if run && liv d.regs (pgPhase x) PHASE.PROBE_POINT == p then
      showProbe r.1 x s.slot.shot.seq r.2 else r.1
  let w := gaugeWord r.2 v
  let d := pfPoint (sendWord d x s p w) x s p (classOf w) pfEcc
  let s' : PhaseShot :=
    { s with next := p + 1, faded := s.faded + bit (r.2.cause == 5),
             settling := s.settling + bit (r.2.cause == 4), clipped := s.clipped + bit v.2 }
  let d := d.onShot x s.slot.shot.seq fun _ => s'
  if p + 1 = pointCount m x then shotComplete d x s' else d

/-- POINT_WORD (R163): the next point of the shot with SEQ `seq`, once the bins of its gauge have left
CHAN and the shots before it have passed the point. -/
def pointWord (x : Line) (seq : Nat) (ecc pfEcc : SramEcc) (d : Dev) : Dev :=
  match findShot d x seq with
  | none => d
  | some s =>
    let p := s.next
    let before := (d.line x).phase.shots.takeWhile fun r => r.slot.shot.seq != seq
    if s.gap || pointCount s.slot.cfg x ≤ p || !binsReady s x p || waitsBehind before x p then d
    else
      let d := d.reach (lastBinCycle s x p + 40)
      let d := catchUp x p before d
      settleShots (pointWordOf d x s p ecc pfEcc) x

-- ---- frame release ---------------------------------------------------------------------------------

/-- The frames of a line in order (R185): those that are not released are passed over, the first that
is released ends the step. -/
def releaseNext (x : Line) : List PFrame → Dev → Dev
  | [], d => d
  | f :: rest, d =>
    if f.abandon then
      let busy := (d.line x).phase.shots.any fun s =>
        s.frame == some f.seq && s.next < pointCount s.slot.cfg x
      if busy then d else releaseNext x rest (dropFrame d x f f.endCause false)
    else
      match f.ready with
      | none => d
      | some t =>
        if !f.traced then releaseNext x rest (dropFrame (d.advanceTo (t + 64)) x f 5 true)
        else if bitOf f.held 0 then
          releaseNext x rest (dropFrame (d.advanceTo (t + 64)) x f 8 false)
        else releaseFrame d x f t

/-- FRAME_RELEASE (R185). -/
def frameRelease (x : Line) (d : Dev) : Dev :=
  if d.domainOn 7 then releaseNext x (d.line x).pf.frames d else d

/-- POINT_WORD (R163). -/
def execPointWord (x : Line) (seq : Word) (ecc pfEcc : SramEcc) (s : State) :
    Host.Outcome State Fault Refusal :=
  done s (pointWord x seq.toNat ecc pfEcc s.dev)

/-- FRAME_RELEASE (R185). -/
def execFrameRelease (x : Line) (s : State) :
    Host.Outcome State Fault Refusal :=
  done s (frameRelease x s.dev)

/-- FREEZE_REQ (R174). -/
def execFreezeReq (x : Line) (s : State) :
    Host.Outcome State Fault Refusal :=
  done s (freezeReq x s.dev)

/-- HOST_FREEZE_SET (R176). -/
def execHostFreezeSet (k : Link) (x : Line) (slot : Fin 4) (s : State) :
    Host.Outcome State Fault Refusal :=
  done s (s.dev.guarded k (pgPfilt x) 0x98C (hostFreezeSet x slot.val))

/-- HOST_FREEZE_CLEAR (R176). -/
def execHostFreezeClear (k : Link) (x : Line) (slot : Fin 4) (s : State) :
    Host.Outcome State Fault Refusal :=
  done s (s.dev.guarded k (pgPfilt x) 0x98C (hostFreezeClear x slot.val))

end Sys2Proof.Machine
end

