-- ==== Sys2Proof/Machine/Zone.lean ====
section
/-!
DEFINITION. Zone reductions, trigger conditions, records and ALARM balls (chapter 08, R194 to R211).
-/
namespace Sys2Proof.Machine

-- ---- reductions (R198, R199) ------------------------------------------------------------------------

/-- Adjacent pairs of a list. -/
def pairs {α : Type} (l : List α) : List (α × α) := l.zip (l.drop 1)

/-- The reductions of zone z in a frame (R198, R199); `bad` when its accumulators are lost (R224). -/
def reduceZone (f : ZFrame) (z : Nat) (bad : Bool) : ZoneRec :=
  let m := f.frame.cfg
  let first := zoneFld m (ZONE.W0.FIRST z)
  let count := zoneFld m (ZONE.W1.COUNT z)
  let vals := (f.vals.drop first).take count
  let valid := vals.zipIdx.filter fun e => e.1 != -32768
  let n := valid.length
  let rangeBad : Bool := f.frame.count < first + count
  let indet : Bool := bad || rangeBad || n < max (zoneFld m (ZONE.W2.MIN_VALID z)) 1
  if n = 0 then
    { zone := z, rangeBad := rangeBad, indet := indet, nvalid := 0, mean := -32768, rms := 0x8000,
      min := -32768, max := -32768, peak := 0x8000, point := 0x3FFFF, zc := 0, bandA := 0, bandB := 0 }
  else
    let vs := valid.map (·.1)
    let sq := (vs.map fun v => v.natAbs * v.natAbs).sum
    let peak := maxOf (vs.map Int.natAbs)
    let band (g : Int × Int → Int) : Nat :=
      let e := (valid.map fun e => (g (f.bands.getD (first + e.2) (0, 0))).natAbs ^ 2).sum
      min (e / n) 0x7FFFFFFF
    { zone := z, rangeBad := rangeBad, indet := indet, nvalid := n, mean := roundHalfAway vs.sum n,
      rms := isqrt (sq / n), min := vs.foldl min (vs.headD 0), max := vs.foldl max (vs.headD 0),
      peak := peak,
      point := first + ((valid.find? fun e => e.1.natAbs == peak).map (·.2)).getD 0,
      zc := ((pairs vals).filter fun e => e.1 != -32768 && e.2 != -32768 && e.1 * e.2 < 0).length,
      bandA := band (·.1), bandB := band (·.2) }

/-- The 40-byte record of a zone (R202). -/
def ZoneRec.bytes (r : ZoneRec) (settling : Bool) : List Byte :=
  leBytes 2 r.zone ++ leBytes 2 (bit settling * 4 + bit r.rangeBad * 2 + bit r.indet) ++
  leBytes 4 r.nvalid ++ leBytes 2 (unsigned 16 r.mean) ++ leBytes 2 r.rms ++
  leBytes 2 (unsigned 16 r.min) ++ leBytes 2 (unsigned 16 r.max) ++ leBytes 2 r.peak ++ leBytes 2 0 ++
  leBytes 4 r.point ++ leBytes 4 r.zc ++ leBytes 4 r.bandA ++ leBytes 4 r.bandB ++ leBytes 4 0

-- ---- conditions (R205) ------------------------------------------------------------------------------

/-- SOURCE = COMBINE. -/
def isCombine (m : RegMap) (c : Nat) : Bool := trigFld m (TRIG.W0.SOURCE c) == 15

/-- MASK of a combination. -/
def condMask (m : RegMap) (c : Nat) : Nat :=
  trigFld m (TRIG.W6.MASK_LO c) + trigFld m (TRIG.W7.MASK_HI c) * 2 ^ 32

/-- The reduction that SOURCE names. -/
def sourceValue (r : ZoneRec) (src : Nat) : Int :=
  match src with
  | 0 => r.mean
  | 1 => r.rms
  | 2 => r.min
  | 3 => r.max
  | 4 => r.peak
  | 5 => r.zc
  | 6 => r.bandA
  | _ => r.bandB

/-- Whether a value makes an on-frame, and an off-frame, of a condition (R205). -/
def onOff (m : RegMap) (c : Nat) (v : Int) : Bool × Bool :=
  let on := signed 32 (trigFld m (TRIG.W1.THRESH_ON c))
  let off := signed 32 (trigFld m (TRIG.W2.THRESH_OFF c))
  if trigFld m (TRIG.W0.COMPARE c) = 1 then (v ≤ on, off < v) else (on ≤ v, v < off)

/-- One step of a condition (R205): RUN and ACTIVE, and whether it was met or released. -/
def stepCond (m : RegMap) (c : Nat) (s : Nat × Bool) (v : Int) : (Nat × Bool) × Bool × Bool :=
  let o := onOff m c v
  if s.2 then
    let run := if o.2 then s.1 + 1 else 0
    if max (trigFld m (TRIG.W3.OFF_FRAMES c)) 1 ≤ run then ((0, false), false, true)
    else ((run, true), false, false)
  else
    let run := if o.1 then s.1 + 1 else 0
    if max (trigFld m (TRIG.W3.ON_FRAMES c)) 1 ≤ run then ((0, true), true, false)
    else ((run, false), false, false)

-- ---- ALARM balls (R210, R211) -------------------------------------------------------------------------

/-- ALARM_STATE and the ALARM bits of STATUS; in Replay every ball is deasserted (R210). -/
def showAlarms (d : Dev) : Dev :=
  let d := d.setLiv (pgTrig .a) TRIG.ALARM_STATE
    ((d.alarm.on.zipIdx.map fun e => bit (e.1 && d.pwr.mode != 6) * 2 ^ e.2).sum)
  (List.range 4).foldl (fun d k =>
    d.setStatus (pgTrig .a) (8 + k) (d.alarm.on.getD k false && d.pwr.mode != 6)) d

/-- The level of an ALARM ball at its pin: its assertion, none in Replay mode (R210), and its polarity. -/
def alarmPin (d : Dev) (k : Nat) : Bool :=
  (d.alarm.on.getD k false && d.pwr.mode != 6) != (alarmFld d (TRIG.ALARM_CFG.POLARITY k) == 1)

/-- A ball's assertion: an edge of its pin reaches the interval units (R274). -/
def setAlarm (d : Dev) (k : Nat) (b : Bool) : Dev :=
  let u := showAlarms { d with alarm := { d.alarm with on := d.alarm.on.set k b } }
  if alarmPin u k == alarmPin d k then u else tiuEdge (8 + k) (alarmPin u k) u

/-- Whether a ball takes no assertion (R210): EN = 0, SENSE off. In Replay mode the ball is deasserted at the pin
and its assertions still count. -/
def alarmHeld (d : Dev) (k : Nat) : Bool :=
  alarmFld d (TRIG.ALARM_CFG.EN k) == 0 || !d.domainOn 7

/-- ALARM_EDGE (R211): the next edge on its way leaves ball k. -/
def alarmEdge (k : Nat) (d : Dev) : Dev :=
  match d.alarm.edges.find? fun e => e.ball == k with
  | none => d
  | some e =>
    let d := d.advanceTo e.tick
    let d := { d with alarm := { d.alarm with edges := d.alarm.edges.erase e } }
    if e.raise then
      let was := d.alarm.on.getD k false
      let t := d.clk.tick
      let d := { d with alarm := { d.alarm with raised := d.alarm.raised.set k (some t) } }
      let d := if alarmHeld d k then d else setAlarm d k true
      let counts : Bool := alarmFld d (TRIG.ALARM_CFG.EN k) == 1 && d.domainOn 7 && !was
      let d := if counts then d.event (pgTrig .a) (7 + k) else d
      if alarmMode d k = 1 then
        let stop := d.clk.tick + max (alarmFld d (TRIG.ALARM_CFG.WIDTH k)) 1
        { d with alarm := { d.alarm with stops := d.alarm.stops.set k (some stop) } }
      else d
    else setAlarm d k false

/-- ALARM_PULSE_END (R210). -/
def alarmPulseEnd (k : Nat) (d : Dev) : Dev :=
  match d.alarm.stops.getD k none with
  | none => d
  | some t =>
    let d := d.advanceTo t
    let d := { d with alarm := { d.alarm with stops := d.alarm.stops.set k none } }
    if alarmMode d k = 1 then setAlarm d k false else d

/-- Whether a meeting acts on ball k in the present cycle: its edge leaves in it, or has left in it. -/
def meetsNow (d : Dev) (k : Nat) : Bool :=
  d.alarm.raised.getD k none == some d.clk.tick ||
    d.alarm.edges.any fun e => e.ball == k && e.raise && e.tick == d.clk.tick

/-- ALARM_CLEAR (R210): LATCH balls are deasserted, but for those on which a meeting acts in the same cycle.
DEDUCED: log entry 145. -/
def alarmClear (balls : Nat) (d : Dev) : Dev :=
  (List.range 4).foldl (fun d k =>
    if bitOf balls k && alarmMode d k == 2 && !meetsNow d k then setAlarm d k false else d) d

/-- The balls after an apply of their configuration: a held ball deasserts (R210). -/
def refreshAlarms (d : Dev) : Dev :=
  (List.range 4).foldl (fun d k => if alarmHeld d k then setAlarm d k false else d) d

-- ---- decisions (R207) -----------------------------------------------------------------------------------

/-- Whether TRIG evaluates conditions in a frame: enabled, and free of a configuration fault, at its boundary (R206).
DEDUCED: log entry 41. -/
def trigRuns (x : Line) (f : ZFrame) : Bool := enActive f.frame.cfg (pgTrig x) && !bitOf f.frame.held 2

/-- A frame on its way through ZONE changed. -/
def Dev.onZFrame (d : Dev) (x : Line) (seq : Nat) (g : ZFrame → ZFrame) : Dev :=
  d.onZone x fun z => { z with frames := z.frames.map fun f => if f.frame.seq = seq then g f else f }

/-- The SRAM word of a condition's state (R224). DESIGN CHOICE: log entry 42. -/
def condWord (x : Line) (c : Nat) : Nat := 64 * x.idx + c

/-- A condition is decided in a frame, its reduction complete in cycle r with value v (R205, R207). -/
def decide' (d : Dev) (x : Line) (f : ZFrame) (c : Nat) (v : Int) (r : Nat) : Dev :=
  let m := f.frame.cfg
  let chk := d.sramCheck 282 (condWord x c) 1 .clean
  let d := if chk.2 then
      (resetConds (chk.1.sramSet 282 (condWord x c) 0) x (2 ^ c)).eventLog (pgZone x) 4 sevError
        (c + x.idx * 2 ^ 24)
    else chk.1
  let s := stepCond m c ((d.line x).zone.conds.getD c (0, false)) v
  let d := noteBalls (d.onZone x fun z => { z with conds := z.conds.set c s.1 }) x m
  if s.2.1 then
    alarmMeet (d.onZFrame x f.frame.seq fun f => { f with met := f.met ++ [(c, v)] })
      (trigFld m (TRIG.W4.ALARM c)) r
  else if s.2.2 then
    alarmRelease (d.onZFrame x f.frame.seq fun f => { f with released := f.released ++ [(c, v)] }) r
  else d

/-- The simple conditions on zone z are decided (R205). DEDUCED: log entry 43. -/
def decideZone (d : Dev) (x : Line) (f : ZFrame) (r : ZoneRec) (cyc : Nat) : Dev :=
  let m := f.frame.cfg
  (condsOf m x).foldl (fun d c =>
    let src := trigFld m (TRIG.W0.SOURCE c)
    if !isCombine m c && trigFld m (TRIG.W0.ZONE c) == r.zone &&
        !(r.indet || (f.settling && (src == 6 || src == 7))) then
      decide' d x f c (sourceValue r src) cyc
    else d) d

-- ---- reduction frames (R202, R203) ------------------------------------------------------------------------

/-- A frame's reduction frame. -/
def reductionBytes (d : Dev) (x : Line) (f : ZFrame) (active : Nat) : List Byte :=
  let m := f.frame.cfg
  let recs := f.recs.filter fun r => zoneFld m (ZONE.W3.REPORT r.zone) == 1
  leBytes 8 f.frame.lastTick ++ leBytes 8 f.frame.lastTime ++ leBytes 4 f.frame.seq ++
  leBytes 4 f.frame.firstSeq ++ leBytes 4 recs.length ++
  leBytes 2 (bit (d.line x).zone.applied * 4 + bit (recs.any (·.rangeBad)) * 2 + bit f.settling) ++
  leBytes 1 (x.idx * 128 + f.frame.expo) ++ leBytes 1 0 ++ leBytes 4 0 ++
  leBytes 4 (cfgCheck m (pgZone x)).toNat ++ leBytes 8 active ++
  recs.flatMap fun r => r.bytes f.settling

/-- A reduction frame is sent, or skipped for want of credit (R203). -/
def sendReduction (d : Dev) (x : Line) (f : ZFrame) : Dev :=
  let m := f.frame.cfg
  if act m (pgZone x) ZONE.OUT.EN = 1 then
    let z := (d.line x).zone
    let full := 2 ^ 20 * 64
    let c := match z.prevTick with
      | none => z.credit
      | some t => min (z.credit + (f.frame.lastTick - t) * 51) full
    let active := ((List.range 64).map fun c => bit (z.conds.getD c (0, false)).2 * 2 ^ c).sum
    let bytes := reductionBytes d x f active
    let cost := bytes.length * 64
    if cost ≤ c then
      let d := match z.skipped with
        | none => d
        | some g => (d.event (pgZone x) 6).handOver (act m (pgZone x) ZONE.OUT.STREAM) 0x07
            (g.bytes 2 x.idx 0 0 (cfgCheck d.regs (pgZone x)))
      let d := d.onZone x fun z =>
        { z with credit := c - cost, prevTick := some f.frame.lastTick, skipped := none,
                 applied := false }
      d.handOver (act m (pgZone x) ZONE.OUT.STREAM) 0x04 bytes
    else
      let d := d.onZone x fun z => { z with credit := c, prevTick := some f.frame.lastTick }
      skipReduction (d.event (pgZone x) 5) x f.frame 7
  else d

-- ---- combinations -----------------------------------------------------------------------------------------

/-- Whether a frame's records must still be written: something was met, or released with an event. -/
def hasRecords (f : ZFrame) : Bool :=
  !f.met.isEmpty || f.released.any fun e => trigFld f.frame.cfg (TRIG.W0.RELEASE_EVENT e.1) == 1

/-- The combinations of a line are decided once its last zone is complete (R207); the frame then leaves
ZONE, and TRIG too unless it has records. -/
def combine (d : Dev) (x : Line) (seq : Nat) : Dev :=
  match (d.line x).zone.frames.find? fun f => f.frame.seq == seq with
  | none => d
  | some f =>
    let m := f.frame.cfg
    let rc := f.last + 3
    let d :=
      if trigRuns x f then
        (condsOf m x).foldl (fun d c =>
          if isCombine m c then
            let n := ((List.range 64).filter fun i =>
              bitOf (condMask m c) i && ((d.line x).zone.conds.getD i (0, false)).2).length
            decide' d x f c n rc
          else d) d
      else d
    let d := showActive (d.setLiv (pgTrig x) TRIG.LAST_FRAME seq) x
    let d := d.onZFrame x seq fun f => { f with combined := true }
    match (d.line x).zone.frames.find? fun f => f.frame.seq == seq with
    | none => d
    | some f =>
      let d := sendReduction d x f
      if hasRecords f then d
      else d.onZone x fun z => { z with frames := z.frames.filter fun g => g.frame.seq != seq }

/-- The 16 bytes that the state image holds for a condition: RUN, ACTIVE. -/
def condBytes (s : Nat × Bool) : List Byte := leBytes 4 s.1 ++ leBytes 12 (bit s.2)

/-- REEL takes the states of the line's conditions, and its next TRIG_SEQ, as the first recorded
frame meets them (R399). -/
def tapConds (d : Dev) (x : Line) (f : ZFrame) : Dev :=
  let l := d.reel.line x
  if l.active && l.first.isSome && l.conds.isEmpty && seqLe l.frame0 f.frame.seq then
    d.onReel x fun l =>
      { l with trig0 := (d.line x).zone.nextTrig, conds := (d.line x).zone.conds.flatMap condBytes }
  else d

/-- ZONE_REDUCTION (R198, R201, R207): the next zone of the oldest frame with zones to reduce.
DESIGN CHOICE: log entry 42. DEDUCED: log entry 43. -/
def zoneReduction (x : Line) (ecc : SramEcc) (d : Dev) : Dev :=
  match (d.line x).zone.frames.find? fun f => !f.combined with
  | none => d
  | some f =>
    let d := tapConds d x f
    match f.zones with
    | [] => combine d x f.frame.seq
    | z :: rest =>
      let r := f.rel + 24 + f.rank / 16
      let d := d.advanceTo r
      let chk := d.sramCheck 281 (z * 16) 16 ecc
      let d := if chk.2 then
          (chk.1.sramSet 281 (z * 16) 0).eventLog (pgZone x) 4 sevError (z + x.idx * 2 ^ 24)
        else chk.1
      let rec' := reduceZone f z chk.2
      let d := d.onZFrame x f.frame.seq fun f =>
        { f with zones := rest, rank := f.rank + 1, recs := f.recs ++ [rec'] }
      let d := if trigRuns x f then decideZone d x f rec' r else d
      let d := if liv d.regs (pgZone x) ZONE.PROBE_ZONE = z then
          (leWords (rec'.bytes f.settling)).zipIdx.foldl
            (fun d e => d.setWord (pageBase (pgZone x) + 0x910 + 4 * e.2) e.1) d
        else d
      match rest with
      | [] => combine d x f.frame.seq
      | _ => showActive d x

-- ---- records (R208, R209) -----------------------------------------------------------------------------------

/-- The points of a condition: its zone's, the whole line for a combination. -/
def condPoints (f : ZFrame) (c : Nat) : Nat × Nat :=
  let m := f.frame.cfg
  if isCombine m c then (0, f.frame.count)
  else (zoneFld m (ZONE.W0.FIRST (trigFld m (TRIG.W0.ZONE c))),
        zoneFld m (ZONE.W1.COUNT (trigFld m (TRIG.W0.ZONE c))))

/-- The points that a capture of a condition takes (R217). -/
def capturePoints (f : ZFrame) (c : Nat) : Nat × Nat :=
  let m := f.frame.cfg
  let r := condPoints f c
  if trigFld m (TRIG.W4.SCOPE c) = 1 ∨ isCombine m c then (0, f.frame.count)
  else
    let g := trigFld m (TRIG.W4.MARGIN c)
    let lo := r.1 - g
    (lo, min (r.1 + r.2 + g) f.frame.count - lo)

/-- What a frame's capture comes to: the operation with its class, NO_DESC, CONFLICT, the descriptor. -/
structure CaptureDone where
  dev      : Dev
  op       : Nat := 0
  cls      : Nat := 0
  noDesc   : Bool := false
  conflict : Bool := false
  desc     : Option Nat := none

/-- The acting capture of the conditions met in a frame (R209, R217). -/
def actCapture (d : Dev) (x : Line) (f : ZFrame) (trigSeq : Nat) : CaptureDone :=
  let m := f.frame.cfg
  let cs := (condsOf m x).filter fun c =>
    trigFld m (TRIG.W4.CAPTURE c) != 0 && f.met.any fun e => e.1 == c
  match cs with
  | [] => { dev := d }
  | c :: others =>
    let op := trigFld m (TRIG.W4.CAPTURE c)
    let k := trigFld m (TRIG.W4.CLASS c)
    let post := trigFld m (TRIG.W5.POST c)
    let seq := f.frame.seq
    let r : StartResult :=
      if op = 1 then
        let pts := capturePoints f c
        startSegment d x k seq post (trigFld m (TRIG.W5.PRE c)) pts.1 pts.2 f.frame.lastTick
          f.frame.lastTime trigSeq (cfgCheck m (pgTrig x)).toNat
      else
        let e := if op = 2 then extendSegment d x k seq post else stopSegment d x k seq
        ⟨e.1, e.2, false⟩
    let d := if others.isEmpty then r.dev else r.dev.event (pgTrig x) 6
    { dev := d, op := op, cls := k, noDesc := r.noDesc, conflict := !others.isEmpty, desc := r.desc }

/-- A trigger or release record (R209). -/
def recordBytes' (x : Line) (f : ZFrame) (trigSeq kind : Nat) (cs : List (Nat × Int))
    (cap : CaptureDone) : List Byte :=
  let m := f.frame.cfg
  let lead := (condsOf m x).find? fun c => cs.any fun e => e.1 == c
  let c := lead.getD 0
  let v := ((cs.find? fun e => e.1 == c).map (·.2)).getD 0
  leBytes 8 f.frame.lastTick ++ leBytes 8 f.frame.lastTime ++ leBytes 4 trigSeq ++
  leBytes 4 f.frame.seq ++ leBytes 8 (cs.map fun e => 2 ^ e.1).sum ++ leBytes 1 kind ++
  leBytes 1 x.idx ++ leBytes 2 c ++
  leBytes 2 (if isCombine m c then 0xFFFF else trigFld m (TRIG.W0.ZONE c)) ++
  leBytes 2 (cap.op * 2 ^ 14 + cap.cls * 2 ^ 12 + bit cap.noDesc * 2 ^ 11 + bit cap.conflict * 2 ^ 10) ++
  leBytes 4 (unsigned 32 v) ++
  leBytes 4 (if kind = 0 then trigFld m (TRIG.W1.THRESH_ON c) else trigFld m (TRIG.W2.THRESH_OFF c)) ++
  leBytes 4 (cap.desc.getD 0xFFFFFFFF) ++ leBytes 4 0 ++ leBytes 4 (cfgCheck m (pgTrig x)).toNat ++
  leBytes 4 0

/-- A record takes the line's next TRIG_SEQ (R208). -/
def takeTrigSeq (d : Dev) (x : Line) : Dev :=
  let n := (d.line x).zone.nextTrig
  (d.setLiv (pgTrig x) TRIG.TRIG_SEQ n).onZone x fun z => { z with nextTrig := seqAdd n 1 }

/-- A record leaves TRIG: sent when EVENT.EN = 1 and a condition in it has EVENT = 1 (R208). -/
def sendRecord (d : Dev) (x : Line) (f : ZFrame) (cs : List (Nat × Int)) (bytes : List Byte) : Dev :=
  let m := f.frame.cfg
  if act m (pgTrig x) TRIG.EVENTS.EVENT_EN = 1 ∧ cs.any fun e => trigFld m (TRIG.W4.EVENT e.1) == 1 then
    d.handOver (act m (pgTrig x) TRIG.EVENTS.EVENT_STREAM) 0x05 bytes
  else d

/-- TRIGGER_RECORD (R208, R209): the oldest decided frame with records gives them by REL + 64. -/
def triggerRecord (x : Line) (d : Dev) : Dev :=
  match (d.line x).zone.frames with
  | [] => d
  | f :: rest =>
    if f.combined then
      let m := f.frame.cfg
      let d := d.advanceTo (f.rel + 64)
      let d := d.onZone x fun z => { z with frames := rest }
      let d :=
        if f.met.isEmpty then d
        else
          let seq := (d.line x).zone.nextTrig
          let c := actCapture d x f seq
          let d := takeTrigSeq c.dev x
          let d := d.event (pgTrig x) 4
          let d := d.onPf x fun s =>
            { s with freezes := s.freezes ++ ((f.met.filter fun e =>
                trigFld m (TRIG.W4.FREEZE e.1) == 1).map fun e =>
                  ⟨e.1, f.frame.seq, (condPoints f e.1).1, (condPoints f e.1).2⟩) }
          sendRecord d x f f.met (recordBytes' x f seq 0 f.met c)
      let rel := f.released.filter fun e => trigFld m (TRIG.W0.RELEASE_EVENT e.1) == 1
      if rel.isEmpty then d
      else
        let seq := (d.line x).zone.nextTrig
        let bytes := recordBytes' x f seq 1 rel { dev := d }
        sendRecord ((takeTrigSeq d x).event (pgTrig x) 5) x f rel bytes
    else d

/-- ZONE_REDUCTION (R201). -/
def execZoneReduction (x : Line) (ecc : SramEcc) (s : State) :
    Host.Outcome State Fault Refusal :=
  done s (zoneReduction x ecc s.dev)

/-- ALARM_EDGE (R211). -/
def execAlarmEdge (k : Fin 4) (s : State) :
    Host.Outcome State Fault Refusal :=
  done s (alarmEdge k.val s.dev)

/-- ALARM_PULSE_END (R210). -/
def execAlarmPulseEnd (k : Fin 4) (s : State) :
    Host.Outcome State Fault Refusal :=
  done s (alarmPulseEnd k.val s.dev)

/-- ALARM_CLEAR (R210). -/
def execAlarmClear (k : Link) (balls : BitVec 4) (s : State) :
    Host.Outcome State Fault Refusal :=
  done s (s.dev.guarded k (pgTrig .a) 0x980 (alarmClear balls.toNat))

/-- TRIGGER_RECORD (R208). -/
def execTriggerRecord (x : Line) (s : State) :
    Host.Outcome State Fault Refusal :=
  done s (triggerRecord x s.dev)

end Sys2Proof.Machine
end

