-- ==== Sys2Proof/Machine/Raman.lean ====
section
/-!
DEFINITION. Temperature profiles (chapter 09, R226 to R248): traces and accumulators, profiles, aborts,
readout, temperatures, profile frames.
-/
namespace Sys2Proof.Machine

/-- RAMAN of a line changed. -/
def Dev.onRaman (d : Dev) (x : Line) (f : RamanSt → RamanSt) : Dev :=
  d.onLine x fun l => { l with raman := f l.raman }

/-- A field of a RAMAN page in a register space's active view. -/
def ramFld (m : RegMap) (x : Line) (f : Fld) : Nat := act m (pgRaman x) f

/-- Whether DOUBLE is in force: instance 0's bit (R241). -/
def ramDouble (m : RegMap) : Bool := ramFld m .a RAMAN.PROFILE.DOUBLE == 1

-- ---- accumulators (R232) ------------------------------------------------------------------------

/-- A byte of an SRAM bank. -/
def sramByte (d : Dev) (bank k : Nat) : Nat := bitsOf (d.sramGet bank (k / 4)).toNat (8 * (k % 4) + 7) (8 * (k % 4))

/-- A byte of an SRAM bank written. -/
def setSramByte (d : Dev) (bank k v : Nat) : Dev :=
  d.sramSet bank (k / 4)
    (Word.ofNat (putBits (d.sramGet bank (k / 4)).toNat (8 * (k % 4) + 7) (8 * (k % 4)) v))

/-- The bank of trace sample i, and its first byte. -/
def accPlace (x : Line) (i : Nat) : Nat × Nat := (224 + 20 * x.idx + i % 20, i / 20 * 10)

/-- An accumulator of trace sample i: lane 0 anti-Stokes, lane 1 Stokes. -/
def accGet (d : Dev) (x : Line) (i lane : Nat) : Int :=
  let p := accPlace x i
  signed 40 (((List.range 5).map fun k => sramByte d p.1 (p.2 + 5 * lane + k) * 2 ^ (8 * k)).sum)

/-- An accumulator written. -/
def accSet (d : Dev) (x : Line) (i lane : Nat) (v : Int) : Dev :=
  let p := accPlace x i
  (List.range 5).foldl (fun d k =>
    setSramByte d p.1 (p.2 + 5 * lane + k) (bitsOf (unsigned 40 v) (8 * k + 7) (8 * k))) d

/-- A trace added sample by sample from index i (R232). -/
def accAdd (x : Line) (lane : Nat) : Nat → List Int → Dev → Dev
  | _, [], d => d
  | i, v :: vs, d => accAdd x lane (i + 1) vs (accSet d x i lane (accGet d x i lane + v))

/-- Whether a code is an overrange sample of a Raman lane (R228). -/
def isRamOvr (v : Int) : Bool := v == -8192 || v == 8191

-- ---- gap records and aborts (R236, R245) ------------------------------------------------------------

/-- A profile gap record (R236, R248). -/
def profileGap (d : Dev) (x : Line) (p : Profile) (cause : Nat) : Dev :=
  if ramFld p.cfg x RAMAN.OUT.STREAM_EN = 1 then
    let g : GapRec := { cause := cause, tick := d.clk.tick, time := d.timeNs, firstFrame := p.seq, frames := 1 }
    d.handOver (ramFld p.cfg x RAMAN.OUT.STREAM) 0x07 (g.bytes 3 x.idx 0 0 (cfgCheck p.cfg (pgRaman x)))
  else d

/-- A profile in progress ends as aborted: its accumulators are still to be cleared. -/
def stopProfile (d : Dev) (x : Line) (p : Profile) (cause : Nat) : Dev :=
  let d := d.onRaman x fun r =>
    { r with prof := none, ended := r.ended ++ [{ p with abort := some cause, readAt := d.clk.tick }],
             running := false }
  (d.setStatus (pgRaman x) 8 false).event (pgRaman x) 5

/-- The completed profile of a line with a PROF_SEQ, not aborted. -/
def completed (d : Dev) (y : Line) (seq : Nat) : Option Profile :=
  (d.line y).raman.ended.find? fun q => q.seq == seq && q.abort.isNone

/-- A completed profile aborts with its partner (R245): its accumulators are cleared in the abort readout, or have
been in the readout that is over, after which it is gone. -/
def dropCompleted (d : Dev) (y : Line) (seq : Nat) : Dev :=
  (d.onRaman y fun r =>
    { r with ended := (r.ended.filter fun q => !(q.seq == seq && q.readEnd)).map fun q =>
        if q.seq = seq ∧ q.abort = none then { q with abort := some 4 } else q }).event (pgRaman y) 5

/-- The profile in progress of a line aborts and is announced, for itself alone (R236). -/
def abortOwn (d : Dev) (x : Line) (p : Profile) (cause : Nat) : Dev := profileGap (stopProfile d x p cause) x p cause

/-- The other line's profile of the pair, in progress or still to begin, ends with it (R236).
DEDUCED: log entry 137. -/
def abortPartner (d : Dev) (y : Line) (seq : Nat) : Dev :=
  match (d.line y).raman.prof with
  | some q => if q.seq = seq then abortOwn d y q 4 else d
  | none => d.onRaman y fun r => { r with nextSeq := if r.nextSeq = seq then seqAdd seq 1 else r.nextSeq }

/-- The profile in progress of a line aborts (R236). Where the other profile of its pair is complete, the pair aborts
and one record announces it, as line A's (R245). DEDUCED: log entry 137. -/
def abortProfile (d : Dev) (x : Line) (cause : Nat) : Dev :=
  match (d.line x).raman.prof with
  | none => d
  | some p =>
    if !p.double then abortOwn d x p cause
    else
      match completed d x.other p.seq with
      | some q => profileGap (dropCompleted (stopProfile d x p 4) x.other p.seq) .a (if x = .a then p else q) 4
      | none => abortPartner (abortOwn d x p cause) x.other p.seq

-- ---- counting traces (R231 to R233, R242) -------------------------------------------------------------

/-- The cycles of a trace, from its first dark sample to its last trace sample (R227). -/
def traceSpan (m : RegMap) (x : Line) (t : Nat) : Nat × Nat :=
  (t - 2 * ramFld m x RAMAN.DARK_LEN, t + 2 * (ramFld m x RAMAN.RZERO + ramFld m x RAMAN.RLEN - 1))

/-- Whether a trace of line x meets a forward pulse of the other line (R242). -/
def forwardHit (d : Dev) (m : RegMap) (x : Line) (t : Nat) : Bool :=
  let span := traceSpan m x t
  let other := (d.line x.other).raman
  let delay := ramFld ((other.prof.map (·.cfg)).getD d.regs) x.other RAMAN.FWD_DELAY
  other.fired.any fun f =>
    f.1 + delay ≤ span.2 && span.1 ≤ f.1 + delay + f.2 + 16

/-- The skip counter a pulse raises, as a field, if it is not counted (R231). -/
def skipOf (d : Dev) (m : RegMap) (x : Line) (p : RamPulse) : Option Fld :=
  let span := traceSpan m x p.start
  if d.pll.lostIn span.1 (span.2 + 1) then some RAMAN.SKIP_LOST
  else if p.probe then some RAMAN.SKIP_PROBE
  else if p.input then some RAMAN.SKIP_INPUT
  else if ramDouble m && forwardHit d m x p.start then some RAMAN.SKIP_FORWARD
  else none

/-- Whether a counted pulse may begin a profile (R233, R241, R39): line B of a pair waits for line A's. -/
def mayBegin (d : Dev) (m : RegMap) (x : Line) (t : Nat) : Bool :=
  let r := (d.line x).raman
  !r.singleDone && (!d.status (pgRaman x) 2 || !r.held) &&
    (match x with
     | .a => true
     | .b => !ramDouble m ||
        ((d.line .a).raman.nextSeq != r.nextSeq &&
          match (d.line .a).raman.prof with
          | some p => p.first ≤ t || p.seq != r.nextSeq
          | none => true))

/-- Whether instance 1's active page does not fit DOUBLE (R241). -/
def pairBad (m : RegMap) : Bool :=
  ramDouble m && !(enActive m (pgRaman .b) &&
    ramFld m .b RAMAN.PROFILE.NSHOTS == ramFld m .a RAMAN.PROFILE.NSHOTS &&
    ramFld m .b RAMAN.PROFILE.SINGLE == ramFld m .a RAMAN.PROFILE.SINGLE)

/-- The active words of a RAMAN page in a register space put into another. -/
def ramanWords (x : Line) (src m : RegMap) : RegMap :=
  let a := pageBase (pgRaman x) + 0x500
  copyWords src a a 0x400 (fun _ => true) m

/-- The pair check at a line A profile start (R241): on a mismatch PAIR is shown and the configuration of the profile
before comes back into force. DEDUCED: log entry 136. -/
def pairCheck (d : Dev) : Dev :=
  if pairBad d.regs then
    let d := (d.setLiv (pgRaman .a) RAMAN.REFUSE 5).event (pgRaman .a) 2
    match (d.line .a).raman.good with
    | some g => { d with regs := ramanWords .a g d.regs }
    | none => d
  else d

/-- What comes into force at a start of profile (R226, R241): the armed page (`ap`), line A's pair check; the words then
in force are kept. -/
def startConfig (ap : Nat → Dev → Dev) (d : Dev) (x : Line) : Dev :=
  let d := ap (pgRaman x) d
  let d := match x with
    | .a => pairCheck d
    | .b => d
  let g := ramanWords x d.regs []
  d.onRaman x fun r => { r with good := some g }

/-- Whether a profile that begins on a line is one of a pair: line B's follows line A's (R241). -/
def pairedNow (d : Dev) (m : RegMap) (x : Line) : Bool :=
  match x, (d.line .a).raman.prof with
  | .b, some q => q.double
  | _, _ => ramDouble m

/-- A profile begins with a counted pulse (R233), under a configuration. -/
def beginProfile (d : Dev) (m : RegMap) (x : Line) (p : RamPulse) : Dev :=
  let r := (d.line x).raman
  let q : Profile :=
    { cfg := m, seq := r.nextSeq, first := p.start, time := p.time, applied := r.applied,
      double := pairedNow d m x }
  let d := d.onRaman x fun r =>
    { r with prof := some q, nextSeq := seqAdd r.nextSeq 1, applied := false, running := true, held := false }
  let d := d.setLiv (pgRaman x) RAMAN.PROF_SEQ q.seq
  let d := d.setLiv (pgRaman x) RAMAN.SHOTS 0
  (d.setStatus (pgRaman x) 8 true).setStatus (pgRaman x) 11 q.double

/-- The overrange span widened by a trace's samples (R232). -/
def widenOvr (o : Option (Nat × Nat)) (as s : List Int) : Option (Nat × Nat) :=
  let hit := ((as.zip s).zipIdx.filter fun e => isRamOvr e.1.1 || isRamOvr e.1.2).map (·.2)
  match hit.head?, hit.getLast? with
  | some a, some b => match o with
    | none => some (a, b)
    | some r => some (min r.1 a, max r.2 b)
  | _, _ => o

/-- A counted pulse is added to the profile in progress (R232, R233). -/
def countPulse (d : Dev) (x : Line) (p : RamPulse) (as s darkAs darkS : List Int) : Dev :=
  match (d.line x).raman.prof with
  | none => d
  | some q =>
    let d := accAdd x 1 0 s (accAdd x 0 0 as d)
    let q : Profile :=
      { q with shots := q.shots + 1, last := p.start,
               darkAs := signed 48 (unsigned 48 (q.darkAs + darkAs.sum)),
               darkS := signed 48 (unsigned 48 (q.darkS + darkS.sum)), ovr := widenOvr q.ovr as s }
    let d := d.setLiv (pgRaman x) RAMAN.SHOTS q.shots
    if q.shots = ramFld q.cfg x RAMAN.PROFILE.NSHOTS then
      let d := d.onRaman x fun r =>
        { r with prof := none, ended := r.ended ++ [{ q with readAt := d.clk.tick + 64 }],
                 singleDone := ramFld q.cfg x RAMAN.PROFILE.SINGLE == 1,
                 running := ramFld q.cfg x RAMAN.PROFILE.SINGLE == 0 }
      let d := d.setStatus (pgRaman x) 8 false
      let d := d.setLiv (pgRaman x) RAMAN.OVR_FIRST ((q.ovr.map (·.1)).getD 0x7FFFF)
      let d := d.setLiv (pgRaman x) RAMAN.OVR_LAST ((q.ovr.map (·.2)).getD 0x7FFFF)
      d.setStatus (pgRaman x) 9 (ramFld q.cfg x RAMAN.PROFILE.SINGLE == 1)
    else d.onRaman x fun r => { r with prof := some q }

/-- What a trace leaves on the RAML page: mean dark code, largest code, overrange. -/
def showLane (d : Dev) (x : Line) (j : Nat) (trace dark : List Int) : Dev :=
  let p := pgRaml x
  let d := d.setLivS p (RAML.DARK j) (roundHalfAway (16 * dark.sum) (max dark.length 1))
  let d := d.setLiv p (RAML.PEAK j) (maxOf (trace.map Int.natAbs))
  d.setStatus p (12 + j) (trace.any isRamOvr)

/-- The samples that a trace takes: as many as the configuration asks for (R227), code 0 where none is given and while
the lane PLL is out of lock (R228); sample i is taken in cycle `at' i`. DEDUCED: log entry 44. -/
def takeCodes (d : Dev) (n : Nat) (at' : Nat → Nat) (l : List Int) : List Int :=
  (List.range n).map fun i => if d.pll.lostIn (at' i) (at' i + 1) then 0 else l.getD i 0

/-- A counted pulse with no profile in progress (R233, R236): a profile begins; under a parity fault of the page it
aborts at once, and none begins until repair. -/
def startProfile (d : Dev) (m : RegMap) (x : Line) (p : RamPulse) (as s darkAs darkS : List Int) : Dev :=
  let d := beginProfile d m x p
  if d.status (pgRaman x) 2 then (abortProfile d x 1).onRaman x fun r => { r with held := true }
  else countPulse d x p as s darkAs darkS

/-- A pulse is not counted (R231): its counter, SKIPPED of the profile in progress. -/
def skipPulse (d : Dev) (x : Line) (f : Fld) : Dev :=
  let d := d.setLiv (pgRaman x) f (min (liv d.regs (pgRaman x) f + 1) 0xFFFFFFFF)
  d.onRaman x fun r => { r with prof := r.prof.map fun q => { q with skipped := true } }

/-- RAMAN_TRACE (R226, R231, R232): the samples of the oldest Raman pulse reach RAMAN. A pulse that may begin a profile
is judged under the configuration that would come into force with it. DEDUCED: log entry 44. -/
def ramanTrace (ap : Nat → Dev → Dev) (x : Line) (antiStokes stokes darkAs darkS : List Int) (d : Dev) : Dev :=
  match (d.line x).raman.pulses with
  | [] => d
  | p :: rest =>
    let d := d.onRaman x fun r => { r with pulses := rest }
    let begins : Bool := (d.line x).raman.prof.isNone && mayBegin d p.cfg x p.start
    let next := if begins then startConfig ap d x else d
    let m := match (d.line x).raman.prof with
      | some q => q.cfg
      | none => ramanWords x next.regs p.cfg
    let span := traceSpan m x p.start
    let d := d.advanceTo (span.2 + 24)
    let next := next.advanceTo (span.2 + 24)
    let n := ramFld m x RAMAN.RLEN
    let k := ramFld m x RAMAN.DARK_LEN
    let trace := takeCodes d n fun i => p.start + 2 * (ramFld m x RAMAN.RZERO + i)
    let dark := takeCodes d k fun i => p.start - 2 * (k - i)
    let shown (d : Dev) : Dev := showLane (showLane d x 0 (trace antiStokes) (dark darkAs)) x 1 (trace stokes) (dark darkS)
    if !enActive m (pgRaman x) || !d.pageOn (pgRaman x) || d.pwr.mode == 6 then shown d
    else
      match skipOf d m x p with
      | some f => skipPulse (shown d) x f
      | none =>
        if (d.line x).raman.prof.isSome then
          countPulse (shown d) x p (trace antiStokes) (trace stokes) (dark darkAs) (dark darkS)
        else if begins then
          startProfile (shown next) m x p (trace antiStokes) (trace stokes) (dark darkAs) (dark darkS)
        else shown d

-- ---- readout (R234, R237) -----------------------------------------------------------------------------

/-- The mark of an invalid sample in the work region. -/
def lamInvalid : Nat := 0x80000000

/-- The log-ratio of dark-corrected sums (R237). -/
def logRatio (a s : Int) : Option Int :=
  if a ≤ 0 ∨ s ≤ 0 then none else some (roundHalfAway (fxLn a.toNat s.toNat) (2 ^ 72))

/-- The work region's address of sample i. -/
def workAddr (m : RegMap) (x : Line) (i : Nat) : Nat := ramFld m x RAMAN.WORK_BASE * 2 ^ 20 + 4 * i

/-- One sample read out: its accumulators cleared, its log-ratio, whether it is invalid for its value or a
state error. -/
def readSample (d : Dev) (x : Line) (p : Profile) (bad : List Nat) (i : Nat) : Dev × Option Int × Bool :=
  let place := accPlace x i
  let chk := d.sramCheck place.1 (place.2 / 4) ((place.2 + 9) / 4 + 1 - place.2 / 4)
    (if bad.contains i then .double else .clean)
  let d := if chk.2 then chk.1.eventLog (pgRaman x) 8 sevError (i % 2 ^ 18 + x.idx * 2 ^ 24) else chk.1
  let n : Int := ramFld p.cfg x RAMAN.DARK_LEN
  let r := logRatio (accGet d x i 0 * n - p.darkAs) (accGet d x i 1 * n - p.darkS)
  let d := accSet (accSet d x i 0 0) x i 1 0
  let inOvr : Bool := match p.ovr with
    | none => false
    | some o => o.1 ≤ i && i ≤ o.2
  (d, if chk.2 || inOvr then none else r, chk.2 || r.isNone)

/-- Samples read out from index i, n of them: whether any is invalid for its value, the words of the log-ratios. -/
def readSamples (x : Line) (p : Profile) (bad : List Nat) : Nat → Nat → Dev → Dev × Bool × List Nat
  | 0, _, d => (d, false, [])
  | n + 1, i, d =>
    let r := readSample d x p bad i
    let rest := readSamples x p bad n (i + 1) r.1
    let w := match r.2.1 with
      | none => lamInvalid
      | some v => unsigned 32 v
    (rest.1, r.2.2 || rest.2.1, w :: rest.2.2)

/-- One ended profile changed. -/
def Dev.onEnded (d : Dev) (x : Line) (seq : Nat) (f : Profile → Profile) : Dev :=
  d.onRaman x fun r => { r with ended := r.ended.map fun q => if q.seq = seq then f q else q }

/-- READOUT (R234): the oldest ended profile not yet read out; its log-ratios go to the work region unless it was
aborted. -/
def readout (x : Line) (bad : List Nat) (d : Dev) : Dev :=
  match (d.line x).raman.ended.find? fun q => !q.read with
  | none => d
  | some q =>
    let d := d.advanceTo q.readAt
    let r := readSamples x q bad (ramFld q.cfg x RAMAN.RLEN) 0 d
    let d := if q.abort.isSome then r.1 else (r.1.memWrite (workAddr q.cfg x 0) (r.2.2.flatMap (leBytes 4))).1
    d.onEnded x q.seq fun p => { p with read := true, nonpos := r.2.1 }

/-- READOUT_END (R234): eight samples per core cycle; an aborted profile is gone. -/
def readoutEnd (x : Line) (d : Dev) : Dev :=
  match (d.line x).raman.ended.find? fun q => q.read && !q.readEnd with
  | none => d
  | some q =>
    let d := d.advanceTo (q.readAt + ceilDiv (ramFld q.cfg x RAMAN.RLEN) 8)
    if q.abort.isSome then
      d.onRaman x fun r => { r with ended := r.ended.filter fun p => p.seq != q.seq }
    else d.onEnded x q.seq fun p => { p with readEnd := true, ready := d.clk.tick }

-- ---- temperatures (R238 to R244) ------------------------------------------------------------------------

/-- A rational number: numerator and positive denominator. -/
structure Rat' where
  num : Int
  den : Nat
deriving DecidableEq, Repr

/-- Sum of rationals. -/
def Rat'.add (a b : Rat') : Rat' := ⟨a.num * (b.den : Int) + b.num * (a.den : Int), a.den * b.den⟩

/-- A rational from an integer ratio of either sign; the denominator is not 0. -/
def Rat'.mk' (a b : Int) : Rat' := if b < 0 then ⟨-a, b.natAbs⟩ else ⟨a, b.natAbs⟩

/-- A rational rounded half away from zero. -/
def Rat'.round (a : Rat') : Int := roundHalfAway a.num a.den

/-- The lines of a profile's work region. -/
def workLines (m : RegMap) (x : Line) : List Nat := linesOf (workAddr m x 0) (4 * ramFld m x RAMAN.RLEN)

/-- Pass 2 reads the lines of a work region through the line code (R294, R296), those of the samples in `bad` as
uncorrectable; whether any gave no data (R298). A line that is not there to be read gives none either. -/
def readWork (m : RegMap) (x : Line) (bad : List Nat) (d : Dev) : Dev × Bool :=
  (workLines m x).foldl (fun (r : Dev × Bool) line =>
    match r.1.physLine line with
    | none => (r.1, true)
    | some (p, l) =>
      let hit := bad.any fun i => workAddr m x i / 64 == line
      let c := (r.1.reachLine line).codeLine line p l (if hit then .uncorrectable else .clean)
      (c.1, r.2 || c.2)) (d, false)

/-- LAM of sample i of a line in the work region (R237): none when invalid or in a line that carries poison (R298). -/
def lamAt (d : Dev) (m : RegMap) (x : Line) (i : Nat) : Option Int :=
  let a := workAddr m x i
  let poisoned : Bool := match d.physLine (a / 64) with
    | none => true
    | some (p, l) => d.isPoisoned p l
  if poisoned || ramFld m x RAMAN.RLEN ≤ i then none
  else
    let v := leNat (d.bytesAt a 4)
    if v = lamInvalid then none else some (signed 32 v)

/-- The LAM terms of two facing samples of a pair, line A's first (R243): each line's under its own profile's
configuration. -/
def facing (d : Dev) (m mb : RegMap) (i : Nat) : Option (Int × Int) :=
  let s := ramFld m .a RAMAN.SUM
  if i ≤ s then
    match lamAt d m .a i, lamAt d mb .b (s - i) with
    | some a, some b => some (a, b)
    | _, _ => none
  else none

/-- The LAM term of sample i of a profile: its own in single-ended mode, the sum of the facing samples
in a pair (R243). `mb` is the configuration of line B's profile. -/
def lamTerm (d : Dev) (m mb : RegMap) (x : Line) (double : Bool) (i : Nat) : Option Int :=
  if double then (facing d m mb i).map fun t => t.1 + t.2 else lamAt d m x i

/-- The sum over a range of terms, none when any is invalid (R238). -/
def sumAll (f : Nat → Option Int) (first n : Nat) : Option Int :=
  (List.range n).foldl (fun s k => match s, f (first + k) with
    | some a, some b => some (a + b)
    | _, _ => none) (some 0)

/-- The sum and count of the valid terms of a range (R238). -/
def sumValid (f : Nat → Option Int) (first n : Nat) : Int × Nat :=
  (List.range n).foldl (fun s k => match f (first + k) with
    | some b => (s.1 + b, s.2 + 1)
    | none => s) (0, 0)

/-- T_ref of a channel for a profile (R239): the value, and whether it is stale. -/
def refTemp (d : Dev) (ch first last ageMax : Nat) : Option (Int × Bool) :=
  let mine := d.pfe.results.filter fun r => r.1 == ch
  let inside := mine.filter fun r => first ≤ r.2.1 && r.2.1 ≤ last
  match inside with
  | [] =>
    match mine.find? fun r => r.2.1 < first with
    | some r => if first - r.2.1 ≤ ageMax * 625000000 then some (r.2.2, true) else none
    | none => none
  | _ => some (roundHalfAway ((inside.map (·.2.2)).sum) inside.length, false)

/-- 1 / Tk for a T_ref in 2^-16 °C (R240). DESIGN CHOICE: log entry 45. -/
def invKelvin (t : Int) : Rat' := Rat'.mk' 6553600 (100 * t + 1790115840)

/-- u of R240 for a mean difference num/den of log-ratios, 2^sh in place of 2^24. -/
def uOf (t : Int) (gamma sh : Nat) (num : Int) (den : Nat) : Rat' :=
  (invKelvin t).add ⟨num * 4096, den * 2 ^ sh * gamma⟩

/-- The tilt term of single-ended mode: dlt × (i_ref − i_r) / g, twice the index difference being
`diff2` (R240). DESIGN CHOICE: log entry 45. -/
def tiltTerm (m : RegMap) (x : Line) (gamma : Nat) (diff2 : Int) : Rat' :=
  let k : Int := 299792458 * 16 * 65536
  let da := signed 32 (ramFld m x RAMAN.DALPHA)
  ⟨da * fxLn10 * k * diff2 * 4096,
   10 ^ 20 * max (shotFld m x SHOT.GROUP_INDEX) 1 * 2 * gamma * 2 ^ fracBits⟩

/-- The value of u in 0.01 °C, none when u ≤ 0. -/
def valueOf (u : Rat') : Option Int :=
  if u.num ≤ 0 then none
  else some (roundHalfAway (100 * (u.den : Int) - 27315 * u.num) u.num.toNat)

/-- What pass 2 works from: the configuration, that of line B's profile of a pair, the profile's line, pairing, T_ref, the reference sum
and count. -/
structure Pass2 where
  cfg    : RegMap
  cfgB   : RegMap
  line   : Line
  double : Bool
  tref   : Option (Int × Bool)
  xref   : Int
  nref   : Nat

/-- NO_REF: no reference (R238, R239). -/
def Pass2.noRef (p : Pass2) : Bool :=
  p.tref.isNone || 2 * p.nref < ramFld p.cfg p.line RAMAN.REF_COUNT || p.nref == 0

/-- The value of output sample r before clamping (R240, R243); none when invalid. `free` stands for a
value that the manual does not give, at GAMMA = 0. -/
def outputValue (d : Dev) (p : Pass2) (free : Int) (r : Nat) : Option Int :=
  let m := p.cfg
  let x := p.line
  let step := ramFld m x RAMAN.STEP
  let g := ramFld m x RAMAN.OUT_FIRST + r * step
  match p.tref, sumAll (lamTerm d m p.cfgB x p.double) g step with
  | some t, some xr =>
    if p.noRef then none
    else
      let gamma := ramFld m x RAMAN.GAMMA
      if gamma = 0 then some free
      else
        let u := uOf t.1 gamma (if p.double then 25 else 24) (p.xref * (step : Int) - xr * (p.nref : Int))
          (p.nref * step)
        let iref2 : Int := 2 * (ramFld m x RAMAN.REF_FIRST : Int) + ramFld m x RAMAN.REF_COUNT - 1
        let ir2 : Int := 2 * (g : Int) + step - 1
        valueOf (if p.double then u else u.add (tiltTerm m x gamma (iref2 - ir2)))
  | _, _ => none

/-- DALPHA_MEAS (R244); `free` where no valid term or no distance is given. -/
def dalphaMeas (d : Dev) (m mb : RegMap) (free : Int) : Int :=
  let s := ramFld m .a RAMAN.SUM
  let diff (i : Nat) : Option Int := (facing d m mb i).map fun t => t.1 - t.2
  let fa := ramFld m .a RAMAN.REF_FIRST
  let na := ramFld m .a RAMAN.REF_COUNT
  let fb := ramFld mb .b RAMAN.REF_FIRST
  let nb := ramFld mb .b RAMAN.REF_COUNT
  let da := sumValid diff fa na
  let db := sumValid (fun j => if j ≤ s then diff (s - j) else none) fb nb
  -- 2 (i_b − i_a)
  let dist2 : Int := 2 * (s : Int) - (2 * (fb : Int) + nb - 1) - (2 * (fa : Int) + na - 1)
  if da.2 = 0 ∨ db.2 = 0 ∨ dist2 = 0 then free
  else
    let num : Int := (da.1 * (db.2 : Int) - db.1 * (da.2 : Int)) * 10 ^ 20 *
      (max (shotFld m .a SHOT.GROUP_INDEX) 1 : Nat) * 2 ^ fracBits
    let den : Int := (da.2 * db.2 : Nat) * dist2 * 2 ^ 24 * fxLn10 * (299792458 * 16 * 65536)
    (Rat'.mk' num den).round

/-- REF_CHECK (R244); `free` where a reference is missing. -/
def refCheck (d : Dev) (p : Pass2) (first last : Nat) (free : Int) : Int :=
  let m := p.cfg
  let s := ramFld m .a RAMAN.SUM
  let mb := p.cfgB
  let b := sumValid (fun j => if j ≤ s then lamTerm d m mb .a true (s - j) else none)
    (ramFld mb .b RAMAN.REF_FIRST) (ramFld mb .b RAMAN.REF_COUNT)
  match p.tref, refTemp d (ramFld mb .b RAMAN.REF.REF_CH) first last (ramFld mb .b RAMAN.REF.REF_AGE_MAX) with
  | some ta, some tb =>
    if p.nref = 0 ∨ b.2 = 0 ∨ ramFld m .a RAMAN.GAMMA = 0 then free
    else
      let u := uOf ta.1 (ramFld m .a RAMAN.GAMMA) 25 (p.xref * (b.2 : Int) - b.1 * (p.nref : Int))
        (p.nref * b.2)
      if u.num ≤ 0 then free
      else ((⟨100 * (u.den : Int) - 27315 * u.num, u.num.toNat⟩ : Rat').add ⟨-100 * tb.1, 65536⟩).round
  | _, _ => free

/-- Whether alarm window k is in alarm (R246). -/
def windowAlarm (m : RegMap) (x : Line) (vals : List (Option Int)) (k : Nat) : Bool :=
  let first := ramFld m x (RAMAN.ALM.ALM_FIRST k)
  ramFld m x (RAMAN.ALM.ALM_EN k) == 1 &&
    ((vals.drop first).take (ramFld m x (RAMAN.ALM.ALM_COUNT k))).any fun v =>
      match v with
      | none => false
      | some v => signed 16 (ramFld m x (RAMAN.ALM.HIGH k)) < v || v < signed 16 (ramFld m x (RAMAN.ALM.LOW k))

/-- The 64-byte header and the values of a profile frame (R247). -/
def profileBytes (q : Profile) (x : Line) (last seq tref dalpha flags alarm clipped invalid : Nat)
    (vals : List (Option Int)) : List Byte :=
  let m := q.cfg
  padTo 8 (leBytes 8 q.first ++ leBytes 8 q.time ++ leBytes 8 last ++ leBytes 4 seq ++
    leBytes 4 (ramFld m x RAMAN.OUT_COUNT) ++ leBytes 4 (ramFld m x RAMAN.OUT_FIRST) ++ leBytes 2 flags ++
    leBytes 1 (x.idx * 128 + bit q.double * 64 + (ramFld m x RAMAN.STEP - 1)) ++ leBytes 1 0 ++
    leBytes 4 tref ++ leBytes 4 dalpha ++ leBytes 4 q.shots ++ leBytes 2 alarm ++
    leBytes 2 (min clipped 0xFFFF) ++ leBytes 4 invalid ++
    leBytes 4 (cfgCheck m (pgRaman x)).toNat ++
    vals.flatMap fun v => leBytes 2 (match v with
      | none => 0x8000
      | some v => unsigned 16 v))

/-- Pass 2 of a profile (R240 to R248), `other` being line B's profile of the pair: output r is formed r cycles after
its start. -/
def pass2Of (d : Dev) (x : Line) (q : Profile) (other : Option Profile) (bad : List Nat) : Dev :=
  let m := q.cfg
  let mb := (other.map (·.cfg)).getD m
  let mine := readWork m x bad d
  let theirs := if q.double then readWork mb .b [] mine.1 else (mine.1, false)
  let d := theirs.1
  let n := ramFld m x RAMAN.OUT_COUNT
  let lastTick := max q.last ((other.map (·.last)).getD 0)
  let tref := refTemp d (ramFld m x RAMAN.REF.REF_CH) q.first q.last (ramFld m x RAMAN.REF.REF_AGE_MAX)
  let ref := sumValid (lamTerm d m mb x q.double) (ramFld m x RAMAN.REF_FIRST) (ramFld m x RAMAN.REF_COUNT)
  let p : Pass2 := ⟨m, mb, x, q.double, tref, ref.1, ref.2⟩
  let free (k : Nat) : BitVec 64 := Config.free (d.freeCtr + k)
  let raw := (List.range n).map fun r => outputValue d p ((free (r + 3)).toNat % 65535 - 32767) r
  let vals := raw.map fun v => v.map (clamp (-32767) 32767)
  let clipped := (raw.filter fun v => match v with
    | none => false
    | some v => v < -32767 || 32767 < v).length
  let invalid := (raw.filter Option.isNone).length
  let alarm := ((List.range 16).map fun k => bit (windowAlarm m x vals k) * 2 ^ k).sum
  let stale : Bool := match tref with
    | some t => t.2
    | none => false
  let np := mine.2 || theirs.2 || q.nonpos || (match other with
    | some o => o.nonpos
    | none => false)
  let ov := q.ovr.isSome || (match other with
    | some o => o.ovr.isSome
    | none => false)
  let sk := q.skipped || (match other with
    | some o => o.skipped
    | none => false)
  let flags := bit q.applied * 128 + bit sk * 64 + bit (alarm != 0) * 32 + bit (clipped != 0) * 16 +
    bit ov * 8 + bit np * 4 + bit stale * 2 + bit p.noRef
  let t : Nat := match tref with
    | some t => unsigned 32 t.1
    | none => (free 0).toNat % 2 ^ 32
  let meas := dalphaMeas d m mb (signed 32 (free 1).toNat)
  let dalpha := if q.double then unsigned 32 meas else ramFld m x RAMAN.DALPHA
  let bytes := profileBytes q x lastTick q.seq t dalpha flags alarm clipped invalid vals
  let chk := refCheck d p q.first q.last (signed 32 (free 2).toNat)
  let d := { d with freeCtr := d.freeCtr + n + 3 }
  let d := d.setLiv (pgRaman x) RAMAN.T_REF_USED t
  let d := if q.double then
      (d.setLivS (pgRaman .a) RAMAN.DALPHA_MEAS meas).setLivS (pgRaman .a) RAMAN.REF_CHECK chk
    else d
  let d := d.setStatus (pgRaman x) 10 stale
  let d := if p.noRef then d.event (pgRaman x) 7 else d
  let d := if alarm = 0 then d else d.event (pgRaman x) 6
  let d := d.advance (n - 1)
  d.onEnded x q.seq fun r => { r with frame := some (bytes, d.clk.tick) }

/-- PASS_2 (R248): the oldest profile whose readout has ended, with its partner's in a pair. -/
def pass2 (x : Line) (bad : List Nat) (d : Dev) : Dev :=
  match (d.line x).raman.ended.find? fun q => q.readEnd && q.frame.isNone with
  | none => d
  | some q =>
    if q.double then
      match x with
      | .b => d
      | .a =>
        match (d.line .b).raman.ended.find? fun o => o.readEnd && o.seq == q.seq with
        | none => d
        | some o => pass2Of (d.advanceTo (max q.ready o.ready + 64)) .a q (some o) bad
    else pass2Of (d.advanceTo (q.ready + 64)) x q none bad

/-- PROFILE_RELEASE (R247, R248). -/
def profileRelease (x : Line) (d : Dev) : Dev :=
  match (d.line x).raman.ended with
  | [] => d
  | q :: _ =>
    match q.frame with
    | none => d
    | some (bytes, t) =>
      let d := d.advanceTo (t + 64)
      let d := d.onRaman x fun r => { r with ended := r.ended.filter fun p => p.seq != q.seq }
      let d := if q.double then
          d.onRaman .b fun r => { r with ended := r.ended.filter fun p => p.seq != q.seq }
        else d
      let d := d.event (pgRaman x) 4
      if ramFld q.cfg x RAMAN.OUT.STREAM_EN = 1 then
        d.handOver (ramFld q.cfg x RAMAN.OUT.STREAM) 0x08 bytes
      else d

/-- READOUT (R234). -/
def execReadout (x : Line) (bad : List Nat) (s : State) :
    Host.Outcome State Fault Refusal :=
  done s (readout x bad s.dev)

/-- READOUT_END (R234). -/
def execReadoutEnd (x : Line) (s : State) :
    Host.Outcome State Fault Refusal :=
  done s (readoutEnd x s.dev)

/-- PASS_2 (R248). -/
def execPass2 (x : Line) (bad : List Nat) (s : State) :
    Host.Outcome State Fault Refusal :=
  done s (pass2 x bad s.dev)

/-- PROFILE_RELEASE (R248). -/
def execProfileRelease (x : Line) (s : State) :
    Host.Outcome State Fault Refusal :=
  done s (profileRelease x s.dev)

end Sys2Proof.Machine
end

