-- ==== Sys2Proof/Machine/MemCmd.lean ====
section
/-!
DEFINITION. The commands of the memory (chapter 11): requests and their order, refresh, temperature,
self-refresh, training, scrubbing, fills, migration, the DDR pages and the SRAM scrubber.
-/
namespace Sys2Proof.Machine

-- ---- regions in use ------------------------------------------------------------------------------

/-- A range of the DRAM address space: first byte and length. -/
abbrev Range := Nat × Nat

/-- Whether two ranges share a byte. -/
def Range.meets (a b : Range) : Bool := a.1 < b.1 + b.2 && b.1 < a.1 + a.2 && 0 < a.2 && 0 < b.2

/-- The history ring of a line under an active CAPT page. -/
def ringRange (m : RegMap) (x : Line) : Range :=
  if enActive m (pgCapt x) then
    (act m (pgCapt x) CAPT.RING_BASE * 2 ^ 20, act m (pgCapt x) CAPT.RING_SIZE * 2 ^ 20)
  else (0, 0)

/-- The work region of a line under an active RAMAN page (R259). -/
def workRange (m : RegMap) (x : Line) : Range :=
  if enActive m (pgRaman x) then (ramFld m x RAMAN.WORK_BASE * 2 ^ 20, 4 * ramFld m x RAMAN.RLEN)
  else (0, 0)

/-- The Foreman's save region (R416). -/
def saveRange (m : RegMap) : Range :=
  if act m pgForeman FOREMAN.SAVE.SAVE_EN = 1 then (act m pgForeman FOREMAN.SAVE.SAVE_BASE * 2 ^ 20, 2 ^ 20)
  else (0, 0)

/-- The reel region (R417). -/
def reelRange (m : RegMap) : Range :=
  (act m (pgReel .a) REEL.REGION_BASE * 2 ^ 20, act m (pgReel .a) REEL.REGION_SIZE * 2 ^ 20)

/-- The bytes of a saved codec context (R335). -/
def codecSaveBytes : Nat := 33280

/-- The saved-state area of an enabled codec context. -/
def codecSaveRange (m : RegMap) (n : Nat) : Range :=
  if act m pgCodec (CODEC.CTX.EN n) = 1 then (act m pgCodec (CODEC.SAVE n) * 64, codecSaveBytes) else (0, 0)

/-- The buffers of the open segments of a line. -/
def segRanges (d : Dev) (x : Line) : List Range :=
  (d.line x).capt.segs.filterMap fun s => s.map fun g => (g.addr, g.alloc * 64)

/-- History rings and work regions. -/
def ringsAndWork (m : RegMap) : List Range := [ringRange m .a, ringRange m .b, workRange m .a, workRange m .b]

/-- Whether a range lies inside the fitted DRAM and is initialised. -/
def Dev.usable (d : Dev) (r : Range) : Bool :=
  r.1 + r.2 ≤ d.capacity * 2 ^ 20 &&
    (r.2 == 0 || d.allInit (r.1 / 2 ^ 20) ((r.1 + r.2 - 1) / 2 ^ 20 - r.1 / 2 ^ 20 + 1))

-- ---- queues (R287 to R289) -----------------------------------------------------------------------

/-- The latency target of a port; 0 is treated as 1 (R287, R311). -/
def memTargetOf (d : Dev) (port : Nat) : Nat := max (act d.regs pgMemx (MEMX.TARGET port)) 1

/-- The urgency of a request by its age (R287); write-backs have urgency 3 (R295). -/
def urgency (d : Dev) (r : MemReq) : Nat :=
  let a := d.clk.tick - r.tick
  let t := memTargetOf d r.port
  if r.urgent then 3
  else if 2 * a < t then 0 else if a < t then 1 else 2

/-- Urgency in force: an older request inherits that of younger ones to its row (R288). -/
def urgencyHeld (d : Dev) (q : List MemReq) (r : MemReq) : Nat :=
  maxOf ((q.filter fun y => reqRow d y == reqRow d r).map (urgency d))

/-- Whether request r is served before request y, r being the older of the two (R288). -/
def beats (d : Dev) (q : List MemReq) (r y : MemReq) : Bool :=
  let hit (z : MemReq) : Bool := let b := reqRow d z; Sparse.get (fun _ => 0) d.mem.rows b.1 == b.2 + 1
  let u := urgencyHeld d q r
  let v := urgencyHeld d q y
  if u ≠ v then v < u
  else if hit r != hit y then hit r
  else r.port ≤ y.port

/-- Requests that may be issued: the oldest of each row, on ranks that accept commands (R288, R292). -/
def issuable (d : Dev) : List MemReq → List MemReq → List MemReq
  | _, [] => []
  | older, r :: rest =>
    let free := !d.inSr (reqRank d r) && !(older.any fun o => reqRow d o == reqRow d r)
    if free then r :: issuable d (older ++ [r]) rest else issuable d (older ++ [r]) rest

/-- The request the next command serves (R288). -/
def nextReq (d : Dev) (s : Nat) : Option MemReq :=
  let q := d.memQueue s
  (issuable d [] q).foldl (fun best r => match best with
    | none => some r
    | some b => if beats d q b r then some b else some r) none

/-- MEM_REQUEST (R286, R288, R289, R300): a request to a line that does not exist or may not be read is
answered at once, as is a read that a queued write of the whole line answers; any other waits in the
queue of its rank, 64 deep. DEDUCED: log entry 52. -/
def memRequest (port line : Nat) (bytes : Option (List (Option Byte))) (d : Dev) : Dev :=
  if !d.domainOn 4 then d
  else
    let d := d.fillStep
    match d.physLine line with
    | none => d.answer port line 3 []
    | some (p, _) =>
      let bytes := bytes.map fun b => (List.range 64).map fun i => b.getD i none
      let whole : Bool := match bytes with
        | none => false
        | some b => b.all Option.isSome
      if !d.subUp p then d.answer port line 4 []
      else if !whole && !d.initialised (line / 16384) then
        (d.event pgMemx 7).answer port line 2 []
      else
        let q := d.memQueue (p / 2)
        if 64 ≤ (q.filter fun r => reqRank d r == p).length then d
        else
          let d := if srEntering d p then
              (d.event (pgDdr (p / 2)) 5).onMem fun m => { m with idleFrom := m.idleFrom.set p d.clk.tick }
            else d
          let newest := (q.filter fun r => r.line == line && r.bytes.isSome).getLast?
          let held : Option (List Byte) := match bytes, newest with
            | none, some r => match r.bytes with
              | some b => if b.all Option.isSome then some (b.map fun v => v.getD 0) else none
              | none => none
            | _, _ => none
          match held with
          | some data => d.answer port line 0 data
          | none => d.setQueue (p / 2) (q ++ [{ port := port, line := line, tick := d.clk.tick, bytes := bytes }])

/-- The cycle in which a request reaches its port's target (R287). -/
def missAt (d : Dev) (r : MemReq) : Nat := r.tick + memTargetOf d r.port

/-- The request of a queue that reaches its target first, among those not yet counted (R287). -/
def nextMiss (d : Dev) (q : List MemReq) : Option MemReq :=
  (q.filter fun r => !r.missed).foldl (fun best r => match best with
    | none => some r
    | some b => if missAt d r < missAt d b then some r else some b) none

/-- MISS (R287): the next request of a sub-channel, of those not yet counted, reaches its port's target. -/
def miss (s : Nat) (d : Dev) : Dev :=
  let q := d.memQueue s
  match nextMiss d q with
  | none => d
  | some r =>
    let d := d.advanceTo (missAt d r)
    (d.setQueue s (q.map fun y => if y = r then { y with missed := true } else y)).event pgMemx (13 + r.port)

/-- MEM_READ_DATA (R288, R294): the next request of a sub-channel is served. -/
def memReadData (s : Nat) (ecc : Ecc) (d : Dev) : Dev :=
  if (d.mem.retrain.getD s none).isSome then d
  else
    match nextReq d s with
    | none => d
    | some r =>
      let p := reqRank d r
      let e := (d.fillStep.advanceTo (d.mem.busy.getD p 0)).setQueue s ((d.memQueue s).erase r)
      payRefresh (serveReq (openRow e (reqRow d r)) r ecc) p

-- ---- refresh and temperature (R290, R291) -----------------------------------------------------------

/-- The doubled range of a rank (R291). DEDUCED: log entry 53. -/
def doubled (d : Dev) (p : Nat) : Bool := d.status (pgDdr (p / 2)) (10 + p % 2)

/-- Whether a rank is refreshed by MEMX: fitted, trained and not in self-refresh. -/
def refreshed (d : Dev) (p : Nat) : Bool :=
  d.domainOn 4 && d.rankState p != 0 && d.rankState p != 6 && !d.inSr p && d.status (pgDdr (p / 2)) 9

/-- REFRESH_DUE (R290): owed while the rank has queued requests, up to the allowance; issued otherwise. -/
def refreshDue (p : Nat) (d : Dev) : Dev :=
  if !refreshed d p then d
  else
    let d := d.advanceTo (d.mem.refAt.getD p 0 + (if doubled d p then 609 else 1218))
    let d := d.onMem fun m => { m with refAt := m.refAt.set p d.clk.tick }
    let owed := liv d.regs (pgDdr (p / 2)) (DDR.REF_OWED.RANK (p % 2))
    if (d.memQueue (p / 2)).any fun r => reqRank d r == p then
      if owed < (if doubled d p then 4 else 8) then
        d.setLiv (pgDdr (p / 2)) (DDR.REF_OWED.RANK (p % 2)) (owed + 1)
      else d.issueRefreshes p 0 1
    else (d.setLiv (pgDdr (p / 2)) (DDR.REF_OWED.RANK (p % 2)) 0).issueRefreshes p 0 (owed + 1)

/-- Whether a rank's mode register is read (R291): fitted and trained, in self-refresh or not. -/
def polled (d : Dev) (p : Nat) : Bool := d.domainOn 4 && d.rankState p != 0 && d.status (pgDdr (p / 2)) 9

/-- MR4_POLL (R291): the range, its pull-in, the temperature alarm. DEDUCED: log entry 53. -/
def mr4Poll (p : Nat) (wide hot : Bool) (code : Nat) (d : Dev) : Dev :=
  if !polled d p then d
  else
    let g := pgDdr (p / 2)
    let d := d.advanceTo (d.mem.mr4At.getD p 0 + 32768)
    let d := d.onMem fun m => { m with mr4At := m.mr4At.set p d.clk.tick }
    let d := d.setLiv g (DDR.DRAM_TEMP.RANK (p % 2)) code
    let enters := wide && !doubled d p
    let owed := liv d.regs g (DDR.REF_OWED.RANK (p % 2))
    let d := d.setStatus g (10 + p % 2) wide
    let d := if enters && 4 < owed then
        ((d.setLiv g (DDR.REF_OWED.RANK (p % 2)) 4).event g 6).issueRefreshes p 10 (owed - 4)
      else d
    let was := d.status g (12 + p % 2)
    let d := d.setStatus g (12 + p % 2) hot
    if hot && !was then d.eventWarn g 7 else d

-- ---- self-refresh (R292) -------------------------------------------------------------------------------

/-- A rank enters self-refresh. -/
def enterSr (d : Dev) (p : Nat) : Dev :=
  let d := d.setLiv (pgDdr (p / 2)) (DDR.REF_OWED.RANK (p % 2)) 0
  let d := if d.rankState p = 1 then d.setRankState p 2 else d
  closeRows (d.onMem fun m => { m with srFrom := m.srFrom.set p (some d.clk.tick) }) p

/-- SR_ENTRY (R292): precharge (tRP, 10 core cycles), the owed refreshes, the entry command. A FAILED
rank is held there already. -/
def srEntry (p : Nat) (d : Dev) : Dev :=
  let n := act d.regs (pgDdr (p / 2)) DDR.SR_IDLE
  if !refreshed d p || n == 0 || ((d.memQueue (p / 2)).any fun r => reqRank d r == p) then d
  else
    let owed := liv d.regs (pgDdr (p / 2)) (DDR.REF_OWED.RANK (p % 2))
    let d := d.advanceTo (d.mem.idleFrom.getD p 0 + n + 10 + owed * refreshCycles d)
    (enterSr d p).event (pgDdr (p / 2)) 4

/-- SR_EXIT (R292): the exit command no sooner than 24 core cycles after entry, where the sub-channel's
armed DDR page applies (`ap`), then 191 or 128 core cycles. A rank that an access has already woken only lets the
page apply. DEDUCED: log entry 140. -/
def srExit (ap : Dev → Dev) (p : Nat) (d : Dev) : Dev :=
  match d.mem.srFrom.getD p none with
  | none =>
    if d.mem.woken.contains (p / 2) then ap (d.onMem fun m => { m with woken := m.woken.filter (· != p / 2) })
    else d
  | some t =>
    if d.rankState p = 6 || (d.mem.retrain.getD (p / 2) none).isSome then d
    else
      let d := ap (d.advanceTo (t + 24))
      leaveSr (d.advance (exitCycles d)) p

-- ---- the map (R284, R285) --------------------------------------------------------------------------------

/-- A hardware write of an AON register, through the queue of R32. -/
def Dev.queueAon (d : Dev) (off : Nat) (v : Word) : Dev :=
  let w : AonWrite := ⟨off, v, linkHardware, d.slow + 3⟩
  { d with bus := { d.bus with aonQueue := d.bus.aonQueue ++ [w] } }

/-- Whether rank p is fitted under the active DDR pages. -/
def fitted (m : RegMap) (p : Nat) : Bool := bitOf (act m (pgDdr (p / 2)) DDR.CONFIG.RANK_FIT) (p % 2)

/-- Whether rank p is the spare under the active DDR pages. -/
def isSpare (m : RegMap) (p : Nat) : Bool := bitOf (act m (pgDdr (p / 2)) DDR.CONFIG.SPARE) (p % 2)

/-- MAP under the active DDR pages (R284): the fitted ranks that are not the spare. -/
def mapOf (m : RegMap) : Nat :=
  let l := (List.range 8).filter fun p => fitted m p && !isSpare m p
  (List.range 8).foldl (fun a j => a + (l.getD j 15) * 2 ^ (4 * j)) 0

/-- AON.DRAM_CFG of the active DDR pages (R285). -/
def dramCfgOf (m : RegMap) : Nat :=
  (List.range 4).foldl (fun a s =>
    let f := act m (pgDdr s)
    a + (f DDR.CONFIG.SPEED * 32 + f DDR.CONFIG.DENSITY * 16 + f DDR.CONFIG.SPARE * 4 + f DDR.CONFIG.RANK_FIT) * 2 ^ (8 * s)) 0

/-- MAP shown with what follows from it: CAPACITY, rank states (a fitted rank neither in the map nor the
spare is FAILED and held in self-refresh, R285, R304). -/
def showMap (d : Dev) (map : Nat) : Dev :=
  let d := d.setWord (pageBase pgMemx + 0x928) (Word.ofNat map)
  let d := d.setLiv pgMemx MEMX.CAPACITY (d.inMap * (d.rankLines * 64 / 2 ^ 20))
  let d := (List.range 8).foldl (fun d p =>
    d.setRankState p (if !fitted d.regs p then 0
      else if isSpare d.regs p then 3
      else if (List.range d.inMap).any fun j => d.mapSlot j == p then 1 else 6)) d
  d.showSpare

/-- The map rebuilt (R284): the whole initialisation bitmap is cleared; degraded sub-channels recover
when their failed rank is no longer fitted (R307). -/
def rebuildMap (d : Dev) : Dev :=
  let gone := d.mem.failing.filter fun p => !fitted d.regs p
  let d := d.onMem fun m => { m with initMap := 0, tracking := [], rows := [], ces := [], fill := none,
                                     failing := m.failing.filter fun p => !gone.contains p }
  let d := d.setLiv pgMemx MEMX.MIG_STATE.RUNNING 0
  let d := showMap (d.setLiv pgMemx MEMX.FILL_LEFT 0) (mapOf d.regs)
  let d := d.setStatus pgMemx 10 false
  let d := (List.range 4).foldl (fun d s =>
    if gone.any fun p => p / 2 == s then d.setStatus (pgDdr s) 8 false else d) d
  let d := d.setStatus pgMemx 8 ((List.range 4).any fun s => d.status (pgDdr s) 8)
  d.mem.failing.foldl (fun d p => d.setRankState p 4) d

/-- The fields of a DDR page that fix the ranks (R284). -/
def ddrRankFields (m : RegMap) (s : Nat) : List Nat :=
  [DDR.CONFIG.SPEED, DDR.CONFIG.DENSITY, DDR.CONFIG.RANK_FIT, DDR.CONFIG.SPARE].map (act m (pgDdr s))

/-- What an apply of a DDR page does beside the copy (R284, R285); `m0` is the register space before it. -/
def ddrApplied (m0 : RegMap) (s : Nat) (d : Dev) : Dev :=
  if ddrRankFields m0 s = ddrRankFields d.regs s then d
  else
    let d := rebuildMap d
    let d := d.queueAon 0x144 (Word.ofNat (dramCfgOf d.regs))
    d.queueAon 0x918 (Word.ofNat (mapOf d.regs))

/-- The checks of a DDR page (R311). -/
def ddrCheck (m : RegMap) (s : Nat) : Nat :=
  let f := act m (pgDdr s)
  let others := (List.range 4).filter (· != s)
  if 4 < f DDR.CONFIG.SPEED ||
      (others.any fun t => act m (pgDdr t) DDR.CONFIG.SPEED != f DDR.CONFIG.SPEED ||
        act m (pgDdr t) DDR.CONFIG.DENSITY != f DDR.CONFIG.DENSITY) then 1
  else if 1 < ((List.range 8).filter (isSpare m)).length ||
      ((List.range 2).any fun k => isSpare m (2 * s + k) && !fitted m (2 * s + k)) then 2
  else if enActive m (pgDdr s) && !((List.range 8).any (fitted m)) then 3
  else 0

/-- MEM powers up, or a warm reset ends (R285): the DDR pages and MAP take what AON keeps; after a link's write of
DRAM_CFG the map is rebuilt. DEDUCED: log entry 147. -/
def loadDram (d : Dev) : Dev :=
  let put (d : Dev) (s : Nat) : Dev :=
    let g := pgDdr s
    [(DDR.CONFIG.SPEED, AON.DRAM_CFG.SPEED s), (DDR.CONFIG.DENSITY, AON.DRAM_CFG.DENSITY s),
     (DDR.CONFIG.RANK_FIT, AON.DRAM_CFG.FIT s), (DDR.CONFIG.SPARE, AON.DRAM_CFG.SPARE s)].foldl (fun d e =>
       let v := act d.aon pgAon e.2
       (d.setLiv g e.1 v).setAct g e.1 v) d
  let d := (List.range 4).foldl put d
  if d.aonSt.dramSet then
    let d := rebuildMap (d.onAon fun a => { a with dramSet := false })
    d.queueAon 0x918 (Word.ofNat (mapOf d.regs))
  else showMap d (liv d.aon pgAon AON.DRAM_MAP)

-- ---- training (R293) ----------------------------------------------------------------------------------------

/-- Whether a range holds a region that lies on a sub-channel. -/
def rangeOnSub (d : Dev) (s : Nat) (r : Range) : Bool :=
  r.2 != 0 && (List.range ((r.1 + r.2 - 1) / 2 ^ 20 - r.1 / 2 ^ 20 + 1)).any fun i =>
    match d.physLine ((r.1 / 2 ^ 20 + i) * 16384) with
    | none => false
    | some (p, _) => p / 2 == s

/-- CMD_RESULT. -/
def Dev.cmdResult (d : Dev) (v : Nat) : Dev := d.setLiv pgMemx MEMX.CMD_RESULT v

/-- A training of a sub-channel begins: 2.0 ms. -/
def startTraining (d : Dev) (s : Nat) : Dev :=
  d.onMem fun m => { m with retrain := m.retrain.set s (some (d.clk.tick + 1250000)) }

/-- RETRAIN (R293): both ranks in self-refresh, the armed DDR page applied (`ap`), 2.0 ms of training.
DEDUCED: log entry 53. -/
def retrain (ap : Dev → Dev) (s : Nat) (d : Dev) : Dev :=
  let fit := act d.regs (pgDdr s) DDR.CONFIG.RANK_FIT != 0 ||
    (d.status (pgDdr s) 1 && liv d.regs (pgDdr s) DDR.CONFIG.RANK_FIT != 0)
  let inUse := (ringsAndWork d.regs ++ segRanges d .a ++ segRanges d .b).any (rangeOnSub d s)
  if !fit then d.cmdResult 5
  else if inUse || d.migrating || (d.mem.retrain.getD s none).isSome then d.cmdResult 4
  else
    let d := enterSr (enterSr (d.cmdResult 0) (2 * s)) (2 * s + 1)
    startTraining (ap d) s

/-- RETRAIN_DONE (R293): the sub-channel is trained, or out of service with TRAIN_FAIL. -/
def retrainDone (s : Nat) (trained : Bool) (eye : Nat) (d : Dev) : Dev :=
  match d.mem.retrain.getD s none with
  | none => d
  | some t =>
    let d := d.advanceTo t
    let d := d.onMem fun m => { m with retrain := m.retrain.set s none }
    let d := d.setLiv (pgDdr s) DDR.TRAIN.EYE eye
    let d := d.setLiv (pgDdr s) DDR.TRAIN.TRAINED (bit trained)
    let d := d.setStatus (pgDdr s) 9 trained
    if trained then
      (List.range 2).foldl (fun d k => if d.rankState (2 * s + k) = 6 then d else leaveSr d (2 * s + k)) d
    else
      let d := d.eventLog (pgDdr s) 8 sevError (2 * s * 2 ^ 36)
      (d.memQueue s).foldl (fun d r => d.answer r.port r.line 4 []) (d.setQueue s [])

-- ---- scrubbing (R299) -----------------------------------------------------------------------------------------

/-- Whether a physical line is scrubbed: its rank awake, its region initialised, or copied to the spare. -/
def scrubbed (d : Dev) (p l : Nat) : Bool :=
  d.rankState p != 0 && d.rankState p != 6 && !d.inSr p &&
    (match d.lineOf p l with
     | some line => d.initialised (line / 16384)
     | none => false)

/-- The next line to scrub at or after position k of a sub-channel (rank, then line), searching n regions. -/
def scrubNext (d : Dev) (s : Nat) : Nat → Nat → Option Nat
  | 0, _ => none
  | n + 1, k =>
    let lines := d.rankLines
    if 2 * lines ≤ k then none
    else if scrubbed d (2 * s + k / lines) (k % lines) then some k
    else scrubNext d s n ((k / 16384 + 1) * 16384)

/-- A scrub pass of a sub-channel ends (R299, R303). -/
def scrubPass (d : Dev) (s : Nat) : Dev :=
  let n := liv d.regs pgMemx (MEMX.SCRUB_PASS s)
  let d := d.setLiv pgMemx (MEMX.SCRUB_PASS s) (n + 1)
  d.onMem fun m => { m with scrub := m.scrub.set s 0, ces := m.ces.filter fun e => e.1 / 16 != s }

/-- The highest urgency among a sub-channel's requests (R287). -/
def topUrgency (d : Dev) (s : Nat) : Nat := maxOf ((d.memQueue s).map (urgency d))

/-- SCRUB_READ (R299): the next line of a sub-channel through the line code, behind older requests to its row (R288);
every SCRUB_INTERVAL when no request of higher urgency waits, 1,250 core cycles at the latest. -/
def scrubRead (s : Nat) (ecc : Ecc) (d : Dev) : Dev :=
  if !d.domainOn 4 || !d.status (pgDdr s) 9 || (d.mem.retrain.getD s none).isSome then d
  else
    let d := d.fillStep
    let every := if act d.regs pgMemx MEMX.SCRUB.SCRUB_EN = 1 && topUrgency d s == 0
      then min (act d.regs pgMemx MEMX.SCRUB.SCRUB_INTERVAL) 1250 else 1250
    let d := d.advanceTo (d.mem.scrubAt.getD s 0 + every)
    let n := 2 * d.rankLines / 16384 + 1
    let at0 := d.mem.scrub.getD s 0
    let found := scrubNext d s n at0
    let d := if found.isNone && at0 != 0 then scrubPass d s else d
    match (match found with
      | some k => some k
      | none => scrubNext d s n 0) with
    | none => d
    | some k =>
      let p := 2 * s + k / d.rankLines
      let l := k % d.rankLines
      let d := d.onMem fun m => { m with scrub := m.scrub.set s (k + 1), scrubAt := m.scrubAt.set s d.clk.tick }
      let row := (bankOf d p l, rowOf d l)
      let d := openRow (d.serveOlder s fun r => reqRow d r == row) row
      (d.codeLine ((d.lineOf p l).getD 0) p l ecc).1

-- ---- initialisation (R300 to R302) ------------------------------------------------------------------------------

/-- FILL_CMD (R302). -/
def fillCmd (d : Dev) : Dev :=
  let first := liv d.regs pgMemx MEMX.FILL_FIRST
  let n := liv d.regs pgMemx MEMX.FILL_COUNT
  let r : Range := (first * 2 ^ 20, n * 2 ^ 20)
  if d.capacity < first + n then d.cmdResult 5
  else if d.mem.fill.isSome || (ringsAndWork d.regs).any r.meets then d.cmdResult 1
  else
    let d := (d.cmdResult 0).onMem fun m => { m with fill := some (first, n) }
    (d.setLiv pgMemx MEMX.FILL_LEFT n).setStatus pgMemx 10 true

/-- FILL_DONE (R302): the last regions hold zeros with valid check bytes and are initialised. -/
def fillDone (d : Dev) : Dev :=
  match d.mem.fill with
  | none => d
  | some (first, n) =>
    let d := (d.fillRegions first n).onMem fun m => { m with fill := none }
    ((d.setLiv pgMemx MEMX.FILL_LEFT 0).setStatus pgMemx 10 false).event pgMemx 9

/-- The bits INIT_QUERY reads for its region (R301, R311). -/
def showQuery (d : Dev) (r : Nat) : Dev :=
  let d := d.setLiv pgMemx MEMX.INIT_QUERY.REGION r
  let d := d.setLiv pgMemx MEMX.INIT_QUERY.INIT (bit (d.initialised r))
  d.setLiv pgMemx MEMX.INIT_QUERY.TRACKING (bit (d.mem.tracking.any fun t => t.1 == r))

/-- INIT_QUERY (R301). -/
def initQuery (r : Nat) (d : Dev) : Dev := showQuery d.fillStep r

-- ---- migration (R304, R305) -----------------------------------------------------------------------------------

/-- MIGRATE (R305). -/
def migrate (p : Nat) (d : Dev) : Dev :=
  if !((List.range d.inMap).any fun j => d.mapSlot j == p) then d.cmdResult 5
  else if d.migrating then d.cmdResult 2
  else
    match d.spare with
    | none => d.cmdResult 3
    | some t => (d.cmdResult 0).startMigration p t

/-- The first line of the source at or after l in an initialised region, searching n regions; the end of
the rank if there is none. -/
def migNext (d : Dev) (p : Nat) : Nat → Nat → Nat
  | 0, _ => d.rankLines
  | n + 1, l =>
    if d.rankLines ≤ l then d.rankLines
    else
      match d.regionOf p l with
      | some r => if d.initialised r then l else migNext d p n ((l / 16384 + 1) * 16384)
      | none => migNext d p n ((l / 16384 + 1) * 16384)

/-- The core cycles from one copied line to the next (R304): MIG_INTERVAL, 64 more while requests of higher urgency
wait on either rank's sub-channel. -/
def copyEvery (d : Dev) (src dst : Nat) : Nat :=
  max (act d.regs pgMemx MEMX.MIGRATION.MIG_INTERVAL) 1 +
    (if topUrgency d (src / 2) = 0 ∧ topUrgency d (dst / 2) = 0 then 0 else 64)

/-- MIG_COPY (R304): the next line of the source is copied to the spare, behind older requests to its row. -/
def migCopy (ecc : Ecc) (d : Dev) : Dev :=
  if !d.migrating then d
  else
    let src := liv d.regs pgMemx MEMX.MIG_STATE.SOURCE
    let dst := liv d.regs pgMemx MEMX.MIG_STATE.TARGET
    let d := d.fillStep
    let d := d.advanceTo (d.mem.migAt + copyEvery d src dst)
    let d := d.onMem fun m => { m with migAt := d.clk.tick }
    let l := migNext d src (d.rankLines / 16384 + 1) (liv d.regs pgMemx MEMX.MIG_PTR)
    if d.rankLines ≤ l then d.setLiv pgMemx MEMX.MIG_PTR l
    else
      let line := ((d.regionOf src l).getD 0) * 16384 + l % 16384
      let r := ((d.awaitRank dst).reachLine line).codeLine line src l ecc
      if !r.1.migrating then r.1
      else
        let d := (r.1.putLine dst l (r.1.lineData src l)).setPoison dst l r.2
        d.setLiv pgMemx MEMX.MIG_PTR (l + 1)

/-- MIG_DONE (R304): MAP takes the spare, the source is FAILED, AON keeps the new map (R285). -/
def migDone (d : Dev) : Dev :=
  let src := liv d.regs pgMemx MEMX.MIG_STATE.SOURCE
  let dst := liv d.regs pgMemx MEMX.MIG_STATE.TARGET
  if !d.migrating || migNext d src (d.rankLines / 16384 + 1) (liv d.regs pgMemx MEMX.MIG_PTR) < d.rankLines then d
  else
    let d := (List.range 8).foldl (fun d j =>
      if d.mapSlot j = src then d.setLiv pgMemx (MEMX.MAP.SLOT j) dst else d) d
    let d := d.setLiv pgMemx MEMX.MIG_STATE.RUNNING 0
    let d := (d.setRankState src 6).setRankState dst 1
    let d := d.onMem fun m =>
      { m with failing := m.failing.filter (· != src), srFrom := m.srFrom.set src (some d.clk.tick) }
    let d := d.showSpare
    let d := d.event pgMemx 11
    let d := d.queueAon 0x918 (rd d.regs (pageBase pgMemx + 0x928))
    let cfg := (List.range 4).foldl (fun v s => putBits v (8 * s + 3) (8 * s + 2) 0) (dramCfgOf d.regs)
    d.queueAon 0x144 (Word.ofNat cfg)

-- ---- the SRAM scrubber (R310) ------------------------------------------------------------------------------------

/-- Whether the domain of a bank is on (R308). -/
def bankOn (d : Dev) (bank : Nat) : Bool := d.domainOn (if 224 ≤ bank && bank ≤ 263 then 8 else 7)

/-- Banks whose domain is on. -/
def banksOn (d : Dev) : Nat := (if d.domainOn 8 then 40 else 0) + (if d.domainOn 7 then 248 else 0)

/-- The scrubber reads a word of a bank: a word in error is counted and logged, a corrected one written back, an
uncorrectable one left. -/
def scrubWord (word : Nat) (faults : List (Fin 288 × SramEcc)) (d : Dev) (bank : Nat) : Dev :=
  let k := sramKey bank word
  if d.sram.bad.contains k then d.sramUe bank word
  else match faults.find? fun e => e.1.val == bank with
    | some (_, .single) => d.sramCe bank word
    | some (_, .double) => { (d.sramUe bank word) with sram := { d.sram with bad := d.sram.bad ++ [k] } }
    | some (_, .clean) => d
    | none => d

/-- SRAM_SCRUB (R310): in the next 64 core cycles the next word of every powered bank is read, `faults` saying what the
check bits show where they are not clean; after the last word of the banks PASSES counts.
DEDUCED: log entry 149. -/
def sramScrub (faults : List (Fin 288 × SramEcc)) (d : Dev) : Dev :=
  if !d.pageOn pgSram || act d.regs pgSram SRAM.SCRUB.EN == 0 || banksOn d == 0 then d
  else
    let d := d.advanceTo (d.sram.sweptAt + 64)
    let word := d.sram.swept
    let t := d.clk.tick
    let banks := (List.range 288).filter fun b =>
      bankOn d b && (d.sram.bad.contains (sramKey b word) || faults.any fun e => e.1.val == b)
    let d := banks.foldl (scrubWord word faults) { d with sram := { d.sram with swept := (word + 1) % 65536, sweptAt := t } }
    if word + 1 < 65536 then d else d.setLiv pgSram SRAM.PASSES (liv d.regs pgSram SRAM.PASSES + 1)

/-- MEM_REQUEST (R288). -/
def execMemRequest (port : Fin 8) (l : Nat) (wr : Option (List (Option Byte))) (s : State) :
    Host.Outcome State Fault Refusal :=
  done s (memRequest port.val l wr s.dev)

/-- MISS (R287). -/
def execMiss (unit : Fin 4) (s : State) :
    Host.Outcome State Fault Refusal :=
  done s (miss unit.val s.dev)

/-- MEM_READ_DATA (R294). -/
def execMemReadData (unit : Fin 4) (ecc : Ecc) (s : State) :
    Host.Outcome State Fault Refusal :=
  done s (memReadData unit.val ecc s.dev)

/-- REFRESH_DUE (R290). -/
def execRefreshDue (p : Fin 8) (s : State) :
    Host.Outcome State Fault Refusal :=
  done s (refreshDue p.val s.dev)

/-- MR4_POLL (R291). -/
def execMr4Poll (p : Fin 8) (doubled hot : Bool) (code : BitVec 3) (s : State) :
    Host.Outcome State Fault Refusal :=
  done s (mr4Poll p.val doubled hot code.toNat s.dev)

/-- SR_ENTRY (R292). -/
def execSrEntry (p : Fin 8) (s : State) :
    Host.Outcome State Fault Refusal :=
  done s (srEntry p.val s.dev)

/-- RETRAIN_DONE (R293). -/
def execRetrainDone (unit : Fin 4) (trained : Bool) (eye : BitVec 16) (s : State) :
    Host.Outcome State Fault Refusal :=
  done s (retrainDone unit.val trained eye.toNat s.dev)

/-- SCRUB_READ (R299). -/
def execScrubRead (unit : Fin 4) (ecc : Ecc) (s : State) :
    Host.Outcome State Fault Refusal :=
  done s (scrubRead unit.val ecc s.dev)

/-- FILL_CMD (R302). -/
def execFillCmd (k : Link) (s : State) :
    Host.Outcome State Fault Refusal :=
  done s (s.dev.guarded k pgMemx 0x988 fillCmd)

/-- FILL_DONE (R302). -/
def execFillDone (s : State) :
    Host.Outcome State Fault Refusal :=
  done s (fillDone s.dev)

/-- INIT_QUERY (R301). -/
def execInitQuery (k : Link) (r : BitVec 16) (s : State) :
    Host.Outcome State Fault Refusal :=
  done s (s.dev.guarded k pgMemx 0x938 (initQuery r.toNat))

/-- MIGRATE (R305). -/
def execMigrate (k : Link) (p : Fin 8) (s : State) :
    Host.Outcome State Fault Refusal :=
  done s (s.dev.guarded k pgMemx 0x98C (migrate p.val))

/-- MIG_COPY (R304). -/
def execMigCopy (ecc : Ecc) (s : State) :
    Host.Outcome State Fault Refusal :=
  done s (migCopy ecc s.dev)

/-- MIG_DONE (R304). -/
def execMigDone (s : State) :
    Host.Outcome State Fault Refusal :=
  done s (migDone s.dev)

/-- What the check bits of the words read say (R308): one wrong bit, of the data or of the check bits, is corrected;
two wrong bits, be they one of each, are not. -/
def sramFaults (data check double : List (Fin 288)) : List (Fin 288 × SramEcc) :=
  (double ++ data.filter check.contains).map (fun b => (b, .double)) ++ (data ++ check).map (fun b => (b, .single))

/-- SRAM_SCRUB (R310). -/
def execSramScrub (data check double : List (Fin 288)) (s : State) :
    Host.Outcome State Fault Refusal :=
  done s (sramScrub (sramFaults data check double) s.dev)

end Sys2Proof.Machine
end

