-- ==== Sys2Proof/Machine/Dma.lean ====
section
/-!
DEFINITION. The DMA channels (chapter 12, R312 to R325): states, descriptors, chains, arbitration,
completion and halts. The bytes of a burst move in DmaBurst.
-/
namespace Sys2Proof.Machine

/-- A DMA channel. -/
def Dev.chan (d : Dev) (c : Nat) : DmaCh := d.dma.chans.getD c {}

/-- A DMA channel changed. -/
def Dev.onChan (d : Dev) (c : Nat) (f : DmaCh → DmaCh) : Dev :=
  { d with dma := { d.dma with chans := d.dma.chans.set c (f (d.chan c)) } }

/-- STATE of a channel: 0 IDLE, 1 RUN, 2 WAIT_TAIL, 3 HALTED. -/
def dmaState (d : Dev) (c : Nat) : Nat := liv d.regs pgDma (DMA.STATE.STATE c)

/-- ANY_HALTED and ANY_RUN of DMA.STATUS. -/
def showDma (d : Dev) : Dev :=
  let any (s : Nat) : Bool := (List.range 32).any fun c => dmaState d c == s
  (d.setStatus pgDma 8 (any 3)).setStatus pgDma 9 (any 1)

/-- STATE of a channel written. -/
def setDmaState (d : Dev) (c s : Nat) : Dev := showDma (d.setLiv pgDma (DMA.STATE.STATE c) s)

/-- A descriptor's CTRL field. -/
def DmaDesc.field (g : DmaDesc) (hi lo : Nat) : Nat := bitsOf g.ctrl hi lo

/-- SRC_SPACE. -/
def DmaDesc.srcSpace (g : DmaDesc) : Nat := g.field 3 0
/-- DST_SPACE. -/
def DmaDesc.dstSpace (g : DmaDesc) : Nat := g.field 7 4
/-- Source element width in bytes. -/
def DmaDesc.srcW (g : DmaDesc) : Nat := 2 ^ g.field 14 12
/-- Destination element width in bytes. -/
def DmaDesc.dstW (g : DmaDesc) : Nat := 2 ^ g.field 17 15
/-- SRC_FIX. -/
def DmaDesc.srcFix (g : DmaDesc) : Bool := bitOf g.ctrl 18
/-- DST_FIX. -/
def DmaDesc.dstFix (g : DmaDesc) : Bool := bitOf g.ctrl 19

/-- Whether one side of a descriptor keeps the rules of R315. -/
def sideOk (d : Dev) (space addr width len : Nat) (fix source : Bool) : Bool :=
  match space with
  | 0 => addr % width == 0 && addr + (if fix then width else len) ≤ d.capacity * 2 ^ 20
  | 1 => addr % width == 0
  | 2 => width == 4 && addr % 4 == 0 && addr < 2 ^ 24
  | 3 => addr < 16 && (!source || width == 1)
  | _ => false

/-- Whether a descriptor keeps the rules of R315; `lenWord` is its LENGTH word. -/
def descOk (d : Dev) (g : DmaDesc) (lenWord : Nat) : Bool :=
  g.field 14 12 ≤ 4 && g.field 17 15 ≤ 4 && g.field 31 22 == 0 && g.field 11 8 == 0 && lenWord < 2 ^ 24 &&
  g.len % max g.srcW g.dstW == 0 &&
  sideOk d g.srcSpace g.src g.srcW g.len g.srcFix true &&
  sideOk d g.dstSpace g.dst g.dstW g.len g.dstFix false &&
  !(g.srcSpace == 3 && (g.dstSpace == 3 || g.dstSpace == 2))

-- ---- completion pairs and halts (R323, R324) ---------------------------------------------------------

/-- COMP_COUNT of a channel counts under R34; saturating, it logs EVENT_SATURATED with the channel as its pair.
DEDUCED: log entry 118. -/
def compCount (d : Dev) (c : Nat) : Dev :=
  let n := liv d.regs pgDma (DMA.COMP_COUNT c)
  let d := d.setLiv pgDma (DMA.COMP_COUNT c) (min (n + 1) 0xFFFFFFFF)
  if n = 0xFFFFFFFE then d.trouble pgDma 0x7F sevNote c else d

/-- The STATUS word of a channel's current descriptor written in DRAM (R314). -/
def writeStatus (d : Dev) (c : Nat) (done : Bool) (code : Nat) : Dev :=
  match (d.chan c).desc with
  | none => d
  | some g =>
    (d.memWrite (g.addr + 28) (leBytes 4 (bit done * 2 ^ 31 + code * 2 ^ 24 + (d.chan c).moved % 2 ^ 24))).1

/-- The event pair of a halt code, beside HALT (R324). -/
def haltEvent (code : Nat) : Option Nat :=
  match code with
  | 1 => some 5
  | 2 => some 6
  | 3 => some 9
  | 4 => some 7
  | 5 => some 7
  | 7 => some 8
  | _ => none

/-- A channel halts (R324); `status` when the STATUS word of its descriptor is written.
DEDUCED: log entry 55. -/
def dmaHalt (d : Dev) (c code : Nat) (status : Bool) : Dev :=
  let d := if status then writeStatus d c false code else d
  let d := d.onChan c fun _ => {}
  let d := d.setLiv pgDma (DMA.STATE.CODE c) code
  let d := setDmaState d c 3
  let d := compCount d c
  let d := match haltEvent code with
    | some n => d.event pgDma n
    | none => d
  d.eventLog pgDma 4 sevError (c + code * 2 ^ 5 + liv d.regs pgDma (DMA.CUR_DESC c) * 2 ^ 9)

/-- Whether a channel's current descriptor feeds or drains a codec context. -/
def usesCtx (d : Dev) (n c : Nat) : Bool :=
  dmaState d c == 1 &&
    (match (d.chan c).desc with
     | none => false
     | some g => (g.srcSpace == 3 && g.src == n) || (g.dstSpace == 3 && g.dst == n))

/-- The channels of a codec context halt with CODEC (R324, R333). -/
def haltCtx (d : Dev) (n : Nat) : Dev :=
  (List.range 32).foldl (fun d c => if usesCtx d n c then dmaHalt d c 10 true else d) d

/-- The channels of a codec context that feed it halt with CODEC (R326). -/
def haltFeeders (d : Dev) (n : Nat) : Dev :=
  (List.range 32).foldl (fun d c =>
    match (d.chan c).desc with
    | none => d
    | some g => if dmaState d c == 1 && g.dstSpace == 3 && g.dst == n then dmaHalt d c 10 true else d) d

/-- Channels with a HOST side halt with HOST_ERROR when the link goes down (R324). -/
def haltHost (d : Dev) : Dev :=
  (List.range 32).foldl (fun d c =>
    match (d.chan c).desc with
    | none => d
    | some g => if dmaState d c == 1 && (g.srcSpace == 1 || g.dstSpace == 1) then dmaHalt d c 7 true else d) d

-- ---- doorbells (R317, R318, R324) --------------------------------------------------------------------

/-- DMA_START (R317): ignored in RUN and WAIT_TAIL. -/
def dmaStart (c : Nat) (d : Dev) : Dev :=
  if dmaState d c = 1 ∨ dmaState d c = 2 then d
  else
    let head := act d.regs pgDma (DMA.HEAD c) * 32
    let d := d.onChan c fun _ => { fetch := some head }
    let d := d.setLiv pgDma (DMA.FETCHED c) 0
    let d := d.setLiv pgDma (DMA.STATE.DB_PENDING c) 0
    setDmaState d c 1

/-- DMA_STOP (R324): a running channel halts with STOPPED, a halted one becomes IDLE.
DEDUCED: log entry 55. -/
def dmaStop (c : Nat) (d : Dev) : Dev :=
  match dmaState d c with
  | 1 => dmaHalt d c 9 true
  | 2 => dmaHalt d c 9 false
  | 3 => setDmaState d c 0
  | _ => d

/-- The read of a LINK word is issued: DB_PENDING = 0 (R318). -/
def issueLink (d : Dev) (c : Nat) : Dev :=
  (d.onChan c fun h => { h with link := true }).setLiv pgDma (DMA.STATE.DB_PENDING c) 0

/-- DMA_RING (R318). -/
def dmaRing (c : Nat) (d : Dev) : Dev :=
  match dmaState d c with
  | 2 => issueLink d c
  | 1 => d.setLiv pgDma (DMA.STATE.DB_PENDING c) 1
  | _ => d

/-- A DOORBELL word: START leads, RING and STOP otherwise (R324's page). -/
def dmaDoorbell (c : Nat) (v : Word) (d : Dev) : Dev :=
  if bitOf v.toNat 1 then dmaStart c d
  else
    let d := if bitOf v.toNat 0 then dmaRing c d else d
    if bitOf v.toNat 3 then dmaStop c d else d

-- ---- fetch (R314, R315, R317) ------------------------------------------------------------------------------

/-- What the read of a descriptor or its LINK word makes of a failing status: the halt code. A sub-channel
out of service answers with the bus error DOMAIN_OFF (R293). DEDUCED: log entry 56. -/
def fetchHalt (d : Dev) (c : Nat) (st : MemStatus) : Dev :=
  match st with
  | .uninit => dmaHalt d c 4 false
  | .poisoned => dmaHalt d c 5 false
  | .unmapped => dmaHalt d c 3 false
  | .off => dmaHalt (d.setLiv pgDma DMA.LAST_BUS 4) c 6 false
  | .ok => d

/-- A field of fetched bytes. -/
def fieldAt (l : List Byte) (i n : Nat) : Nat := leNat ((l.drop i).take n)

/-- DMA_FETCH (R317): the channel's configuration group applies (`ap`), the count limit is checked, the
descriptor is read and checked; under a parity fault the channel halts instead (R39). -/
def dmaFetch (ap : Nat → Dev → Dev) (c : Nat) (ecc : Ecc) (d : Dev) : Dev :=
  match (d.chan c).fetch with
  | none => d
  | some a =>
    let d := ap c d
    let limit := act d.regs pgDma DMA.CHAIN_LIMIT
    let n := liv d.regs pgDma (DMA.FETCHED c)
    let d := d.setLiv pgDma (DMA.CUR_DESC c) (a / 32)
    if d.status pgDma 2 then dmaHalt d c 8 false
    else if limit ≠ 0 ∧ n = limit then dmaHalt d c 1 false
    else
      let r := d.memRead a 32 ecc
      if r.2.1 ≠ .ok then fetchHalt r.1 c r.2.1
      else
        let b := r.2.2.2
        let lw := fieldAt b 16 4
        let g : DmaDesc := ⟨a, fieldAt b 0 8, fieldAt b 8 8, if lw % 2 ^ 24 = 0 then 2 ^ 24 else lw % 2 ^ 24, fieldAt b 20 4⟩
        let d := r.1.setLiv pgDma (DMA.FETCHED c) (n + 1)
        let d := d.setLiv pgDma (DMA.MOVED c) 0
        let d := d.onChan c fun _ => { desc := some g }
        if descOk d g lw then d else dmaHalt d c 3 true

-- ---- arbitration (R320) --------------------------------------------------------------------------------------

/-- PRIO of a channel. -/
def dmaPrio (d : Dev) (c : Nat) : Nat := act d.regs pgDma (DMA.CH.PRIO c)

/-- The channel a level grants: ascending after the one it granted last. -/
def grantAt (d : Dev) (waits : List Nat) (level : Nat) : Option Nat :=
  let l := waits.filter fun c => dmaPrio d c == level
  let last := d.dma.last.getD level 31
  match l.find? fun c => last < c with
  | some c => some c
  | none => l.head?

/-- The level that takes the next burst: the lowest that has starved, else the highest that waits. -/
def grantLevel (d : Dev) (waits : List Nat) : Option Nat :=
  let levels := (List.range 4).filter fun l => waits.any fun c => dmaPrio d c == l
  let limit := max (act d.regs pgDma DMA.STARVE) 1
  match levels.find? fun l => limit ≤ d.dma.starve.getD l 0 with
  | some l => some l
  | none => levels.getLast?

/-- A grant noted: rotation, and the bursts that waiting lower levels have seen pass. -/
def noteGrant (d : Dev) (waits : List Nat) (level c : Nat) : Dev :=
  let starve := (List.range 4).map fun l =>
    if l = level ∨ !(waits.any fun w => dmaPrio d w == l) then 0
    else if l < level then d.dma.starve.getD l 0 + 1
    else 0
  { d with dma := { d.dma with last := d.dma.last.set level c, starve := starve } }

-- ---- completion (R321, R317, R318) -----------------------------------------------------------------------------

/-- DMA_COMPLETE (R321): STATUS with DONE, the completion pair, the LINK read; a parity fault halts the
channel here (R39). -/
def dmaComplete (c : Nat) (d : Dev) : Dev :=
  match (d.chan c).done, (d.chan c).desc with
  | some code, some g =>
    let d := writeStatus d c true code
    let d := if bitOf g.ctrl 20 then compCount d c else d
    let d := d.onChan c fun h => { h with done := none }
    if d.status pgDma 2 then dmaHalt d c 8 true else issueLink d c
  | _, _ => d

/-- The channel leaves the current descriptor for NEXT. -/
def fetchNext (d : Dev) (c next : Nat) : Dev :=
  let d := if dmaState d c = 2 then d.setLiv pgDma (DMA.FETCHED c) 0 else d
  setDmaState (d.onChan c fun _ => { fetch := some next }) c 1

/-- LINK_READ (R317, R318). -/
def linkRead (c : Nat) (ecc : Ecc) (d : Dev) : Dev :=
  match (d.chan c).link, (d.chan c).desc with
  | true, some g =>
    let r := d.memRead (g.addr + 24) 4 ecc
    if r.2.1 ≠ .ok then fetchHalt r.1 c r.2.1
    else
      let w := leNat r.2.2.2
      let d := r.1
      if w % 2 = 0 then
        if w / 2 * 32 = g.addr then dmaHalt d c 1 true else fetchNext d c (w / 2 * 32)
      else if liv d.regs pgDma (DMA.STATE.DB_PENDING c) = 1 then issueLink d c
      else setDmaState (d.onChan c fun h => { h with link := false }) c 2
  | _, _ => d

/-- NORESP (R324): a HOST access of the channel has waited 4,096 core cycles. -/
def noresp (c : Nat) (d : Dev) : Dev :=
  match (d.chan c).desc with
  | none => d
  | some g =>
    if dmaState d c = 1 ∧ (d.chan c).done.isNone ∧ (g.srcSpace = 1 ∨ g.dstSpace = 1) then
      dmaHalt (d.advance 4096) c 2 true
    else d

/-- DMA_START (R317). -/
def execDmaStart (k : Link) (c : Fin 32) (s : State) :
    Host.Outcome State Fault Refusal :=
  done s (s.dev.guarded k pgDma (0xC00 + 4 * c.val) (dmaStart c.val))

/-- DMA_STOP (R324). -/
def execDmaStop (k : Link) (c : Fin 32) (s : State) :
    Host.Outcome State Fault Refusal :=
  done s (s.dev.guarded k pgDma (0xC00 + 4 * c.val) (dmaStop c.val))

/-- DMA_RING (R318). -/
def execDmaRing (k : Link) (c : Fin 32) (s : State) :
    Host.Outcome State Fault Refusal :=
  done s (s.dev.guarded k pgDma (0xC00 + 4 * c.val) (dmaRing c.val))

/-- DMA_COMPLETE (R321). -/
def execDmaComplete (c : Fin 32) (s : State) :
    Host.Outcome State Fault Refusal :=
  done s (dmaComplete c.val s.dev)

/-- LINK_READ (R318). -/
def execLinkRead (c : Fin 32) (ecc : Ecc) (s : State) :
    Host.Outcome State Fault Refusal :=
  done s (linkRead c.val ecc s.dev)

/-- NORESP (R324). -/
def execNoresp (c : Fin 32) (s : State) :
    Host.Outcome State Fault Refusal :=
  done s (noresp c.val s.dev)

end Sys2Proof.Machine
end

