-- ==== Sys2Proof/Machine/Codec.lean ====
section
/-!
DEFINITION. The stream codec (chapter 12, R326 to R337): contexts, blocks, decoding, closing, stalls and
the switching of the two engines.
-/
namespace Sys2Proof.Machine

/-- A codec context. -/
def Dev.ctx (d : Dev) (n : Nat) : CodecCtx := d.codec.ctx.getD n {}

/-- CODEC changed. -/
def Dev.onCodec (d : Dev) (f : CodecSt → CodecSt) : Dev := { d with codec := f d.codec }

/-- A codec context replaced. -/
def Dev.setCtx (d : Dev) (n : Nat) (c : CodecCtx) : Dev := d.onCodec fun k => { k with ctx := k.ctx.set n c }

/-- A field of the active CODEC page. -/
def codecFld (m : RegMap) (f : Fld) : Nat := act m pgCodec f

/-- DIR: whether a context decompresses. -/
def decompresses (m : RegMap) (n : Nat) : Bool := codecFld m (CODEC.CTX.DIR n) == 1

/-- STATE of a context: 0 CLOSED, 1 OPEN, 2 STALL_IN, 3 STALL_OUT, 4 ERROR, 5 SAVED. -/
def codecState (d : Dev) (n : Nat) : Nat := liv d.regs pgCodec (CODEC.STATE n)

/-- Whether a context takes input: enabled, not in ERROR; under a parity fault of its page until its next block end
has closed it (R326, R337). -/
def takesInput (d : Dev) (n : Nat) : Bool :=
  d.pageOn pgCodec && codecFld d.regs (CODEC.CTX.EN n) == 1 && codecState d n != 4 &&
    (!d.status pgCodec 2 || (d.ctx n).isOpen)

/-- Whether a context can be drained: enabled; in ERROR while bytes from before the error are left (R324, R333). -/
def givesOutput (d : Dev) (n : Nat) : Bool :=
  d.pageOn pgCodec && codecFld d.regs (CODEC.CTX.EN n) == 1 && (codecState d n != 4 || !(d.ctx n).output.isEmpty)

/-- The prefilter's skip; beyond every byte when the filter is off (R327). -/
def skipOfCtx (m : RegMap) (n : Nat) : Nat :=
  if codecFld m (CODEC.CTX.PREFILTER n) = 1 then codecFld m (CODEC.CTX.HDR_SKIP n) else 2 ^ 60

/-- A 48-bit counter of two registers raised by k. -/
def addPair (d : Dev) (lo hi : Fld) (k : Nat) : Dev :=
  d.setPair pgCodec lo.off hi.off ((d.pair pgCodec lo.off hi.off + k) % 2 ^ 48)

/-- Whether a channel in RUN drains a context. -/
def drained (d : Dev) (n : Nat) : Bool :=
  (List.range 32).any fun c =>
    dmaState d c == 1 && (d.chan c).done.isNone &&
      (match (d.chan c).desc with
       | none => false
       | some g => g.srcSpace == 3 && g.src == n)

/-- STATE after a step: STALL_OUT with output and no draining descriptor, counted as it begins (R334); a
stall on input has no block to work on. -/
def showCtx (d : Dev) (n : Nat) : Dev :=
  let c := d.ctx n
  if codecState d n = 4 then d
  else
    let out := !c.output.isEmpty && !drained d n
    let wait := out || (c.isOpen && c.output.isEmpty && (c.inMsg || !c.input.isEmpty || c.phase != 0))
    let st := if !c.isOpen then 0 else if c.saved then 5 else if out then 3 else 1
    let d := if out && codecState d n != 3 && c.isOpen then d.event pgCodec 7 else d
    let d := d.setLiv pgCodec (CODEC.STATE n) st
    d.setCtx n { c with stall := if wait then (if c.stall.isSome then c.stall else some d.clk.tick) else none,
                        held := wait && c.held }

/-- The channels that drain a context in ERROR halt with CODEC once it has nothing left for them (R333); those that
feed it halt at their next write. -/
def haltDrains (d : Dev) (n : Nat) : Dev :=
  if !(d.ctx n).output.isEmpty then d
  else
    (List.range 32).foldl (fun d c =>
      match (d.chan c).desc with
      | none => d
      | some g => if dmaState d c == 1 && g.srcSpace == 3 && g.src == n then dmaHalt d c 10 true else d) d

/-- A context enters ERROR (R331, R333, R335): the code, where in the input, the trouble entry under event
pair `pair`. DEDUCED: log entry 58. -/
def ctxError (d : Dev) (n code pos nbit pair : Nat) : Dev :=
  let d := d.setLiv pgCodec (CODEC.STATE n) 4
  let d := d.setLiv pgCodec (CODEC.ERR.CODE n) code
  let d := d.setLiv pgCodec (CODEC.ERR.BIT n) nbit
  let d := d.setPair pgCodec (CODEC.ERR_POS_LO n).off (CODEC.ERR_POS_HI n).off (pos % 2 ^ 48)
  let d := d.setStatus pgCodec (8 + n) true
  let d := d.eventLog pgCodec pair sevError (n + code * 2 ^ 4 + pos % 2 ^ 28 * 2 ^ 12)
  haltDrains d n

-- ---- input (R326, R327) ---------------------------------------------------------------------------------

/-- Bytes accepted by a context that takes input; it opens at its first byte. -/
def feedCtx (d : Dev) (n : Nat) (bytes : List Byte) (eom : Bool) : Dev :=
  let c := d.ctx n
  let opens := !c.isOpen
  let d := if opens then
      (d.setPair pgCodec (CODEC.IN_LO n).off (CODEC.IN_HI n).off 0).setPair pgCodec (CODEC.OUT_LO n).off (CODEC.OUT_HI n).off 0
    else d
  let c : CodecCtx := if opens then { isOpen := true, output := c.output } else c
  let d := addPair d (CODEC.IN_LO n) (CODEC.IN_HI n) bytes.length
  let c := if decompresses d.regs n then { c with input := c.input ++ bytes.map some }
    else
      let f := filtBytes (skipOfCtx d.regs n) false c.filt bytes
      if eom then { c with input := c.input ++ f.2.map some ++ (filtEnd f.1).map some ++ [none], filt := {} }
      else { c with input := c.input ++ f.2.map some, filt := f.1 }
  showCtx (d.setCtx n { c with stall := none }) n

/-- CODEC_INPUT (R326): while the engine stalls on output the access waits. -/
def codecInput (n : Nat) (bytes : List Byte) (eom : Bool) (d : Dev) : Dev :=
  if !takesInput d n then haltFeeders d n
  else if codecState d n = 3 then d
  else feedCtx d n bytes eom

-- ---- compression (R328 to R331) ----------------------------------------------------------------------------

/-- The next block of a compress context: its bytes, and whether they end the message; none while it is
incomplete (R329). -/
def nextBlock (m : RegMap) (n : Nat) (c : CodecCtx) : Option (List Byte × Bool) :=
  let size := codecFld m (CODEC.CTX.BLOCK_IN n) * 1024
  let data := ((c.input.takeWhile Option.isSome).take size).filterMap id
  match c.input[data.length]? with
  | some none => some (data, true)
  | _ => if data.length = size ∧ size ≠ 0 then some (data, false) else none

/-- The whole bytes of coded bits leave as output. -/
def emitBits (c : CodecCtx) (bits : List Bool) : CodecCtx :=
  let r := takeBytes (bits.length / 8) bits
  { c with output := c.output ++ r.1.map some, bits := r.2 }

/-- The zlib header of a compressed stream (R330). -/
def zlibHeader : List Bool := (([0x78, 0x01] : List Byte)).flatMap fun b => lsbBits 8 b.toNat

/-- The check value of a compressed stream, at a byte boundary. -/
def checkBits (wrap : Bool) (c : CodecCtx) : List Bool :=
  if wrap then (adlerBytes c.adler).flatMap fun b => lsbBits 8 b.toNat else []

/-- A block coded into a context's output (R329, R330). DEDUCED: log entry 61. -/
def putBlock (m : RegMap) (n : Nat) (stored : Bool) (c : CodecCtx) (data : List Byte) (ends : Bool) : CodecCtx :=
  let carry := codecFld m (CODEC.CTX.CARRY n) == 1
  let wrap := codecFld m (CODEC.CTX.WRAP n) == 1
  let fresh := if carry then !c.begun else !c.inMsg
  let c : CodecCtx := if fresh then { c with hist := [], total := 0, adler := (1, 0), begun := true } else c
  let c := if fresh && wrap then emitBits c zlibHeader else c
  let c := emitBits c (codeBlock c.bits (ends && !carry) stored c.hist data)
  let h := c.hist ++ data
  let c := { c with hist := h.drop (h.length - 32768), total := c.total + data.length,
                    adler := data.foldl adlerByte c.adler, used := c.used + data.length, inMsg := !ends,
                    input := c.input.drop (data.length + bit ends) }
  if !ends then c
  else
    let c := if carry then emitBits c (storedBlock c.bits false [])
      else emitBits c (padBits c.bits ++ checkBits wrap c)
    { c with output := c.output ++ [none] }

/-- Blocks coded until the input is used up. -/
def putBlocks (m : RegMap) (n : Nat) : Nat → CodecCtx → CodecCtx
  | 0, c => c
  | fuel + 1, c =>
    match nextBlock m n c with
    | none => c
    | some (data, ends) => putBlocks m n fuel (putBlock m n false c data ends)

/-- A context returns to CLOSED with its history reset; its output stays to be drained. -/
def shutCtx (d : Dev) (n : Nat) : Dev :=
  let out := (d.ctx n).output
  let d := d.setCtx n { output := out }
  let d := d.onCodec fun k => { k with comp := if k.comp = some n then none else k.comp,
                                       decomp := if k.decomp = some n then none else k.decomp }
  (d.setLiv pgCodec (CODEC.STATE n) 0).event pgCodec 10

/-- The stream of an open compress context ends (R330): a message in progress ends at the last byte
received, then the final empty block and the check value. DEDUCED: log entry 60. -/
def closeStream (d : Dev) (n : Nat) : Dev :=
  let m := d.regs
  let c := d.ctx n
  let c := if c.filt.pos = 0 then c
    else { c with input := c.input ++ (filtEnd c.filt).map some ++ [none], filt := {} }
  let c := putBlocks m n (c.input.length + 1) c
  let c := if codecFld m (CODEC.CTX.CARRY n) = 1 ∧ c.begun then
      let c := emitBits c (padBits (c.bits ++ fixedBlock true [] []))
      { emitBits c (checkBits (codecFld m (CODEC.CTX.WRAP n) == 1) c) with
        output := (emitBits c (checkBits (codecFld m (CODEC.CTX.WRAP n) == 1) c)).output ++ [none] }
    else c
  shutCtx (d.setCtx n c) n

/-- The engine of a context's direction. -/
def engineOf (d : Dev) (n : Nat) : Option Nat :=
  if decompresses d.regs n then d.codec.decomp else d.codec.comp

/-- A context takes its engine. -/
def takeEngine (d : Dev) (n : Nat) : Dev :=
  if decompresses d.regs n then d.onCodec fun k => { k with decomp := some n }
  else d.onCodec fun k => { k with comp := some n }

/-- Whether a context may use its engine: it holds it, or no context does. -/
def mayUse (d : Dev) (n : Nat) : Bool :=
  match engineOf d n with
  | none => true
  | some k => k == n

/-- CODEC_BLOCK (R329, R331): the block is coded, or sent stored when the checker finds it wrong; the
context's configuration group applies at its end (`ap`). DEDUCED: log entry 61. -/
def codecBlock (ap : Nat → Dev → Dev) (n : Nat) (verified storedVerified : Bool) (d : Dev) : Dev :=
  let c := d.ctx n
  if decompresses d.regs n || !c.isOpen || codecState d n == 4 || c.saved || !mayUse d n then d
  else
    match nextBlock d.regs n c with
    | none => d
    | some (data, ends) =>
      let d := takeEngine d n
      let pos := c.used
      let d := if verified then d
        else d.eventLog pgCodec 4 sevError (n + 8 * 2 ^ 4 + pos % 2 ^ 28 * 2 ^ 12)
      if !verified && !storedVerified then
        let d := d.setLiv pgCodec (CODEC.STATE n) 4
        let d := d.setLiv pgCodec (CODEC.ERR.CODE n) 8
        let d := d.setPair pgCodec (CODEC.ERR_POS_LO n).off (CODEC.ERR_POS_HI n).off (pos % 2 ^ 48)
        haltDrains (d.setStatus pgCodec (8 + n) true) n
      else
        let d := showCtx (d.setCtx n { putBlock d.regs n (!verified) c data ends with stall := none }) n
        if d.status pgCodec 2 then closeStream d n else ap n d

-- ---- decompression (R332, R333) ------------------------------------------------------------------------------

/-- The decompressor's settings for a context. -/
def inflateCfg (m : RegMap) (n : Nat) : InflateCfg :=
  { wrap := codecFld m (CODEC.CTX.WRAP n) == 1,
    skip := if codecFld m (CODEC.CTX.PREFILTER n) = 1 then some (codecFld m (CODEC.CTX.HDR_SKIP n)) else none,
    limit := codecFld m (CODEC.MSG_LIMIT n) }

/-- A context after its decoder has left the bits `r` of its input. -/
def keepBits (c : CodecCtx) (r : List Bool) : CodecCtx :=
  let n := ceilDiv r.length 8
  { c with input := c.input.drop (c.input.length - n), used := c.used + (c.input.length - n),
           bitPos := (8 - r.length % 8) % 8 }

/-- The context decoded up to its next block end; what it finds wrong. -/
def decodeCtx (m : RegMap) (n : Nat) (c : CodecCtx) : CodecCtx × Option Nat :=
  let bits := ((c.input.filterMap id).flatMap fun b => lsbBits 8 b.toNat).drop c.bitPos
  let r := inflateBlock (inflateCfg m n) (bits.length + 4) c bits
  (keepBits r.1 r.2.1, r.2.2)

/-- CODEC_DECODE (R332): the input is decoded up to the next block end. -/
def codecDecode (ap : Nat → Dev → Dev) (n : Nat) (d : Dev) : Dev :=
  let c := d.ctx n
  if !decompresses d.regs n || !c.isOpen || codecState d n == 4 || c.saved || !mayUse d n then d
  else
    let d := takeEngine d n
    let r := decodeCtx d.regs n c
    let d := d.setCtx n { r.1 with stall := none }
    match r.2 with
    | some code => ctxError d n code r.1.used r.1.bitPos 5
    | none =>
      if r.1.phase ≤ 1 then
        if d.status pgCodec 2 then ctxError d n 9 r.1.used r.1.bitPos 6 else ap n (showCtx d n)
      else showCtx d n

/-- Decoding on to the end of the input. -/
def decodeRest (m : RegMap) (n : Nat) : Nat → CodecCtx → CodecCtx × Option Nat
  | 0, c => (c, none)
  | fuel + 1, c =>
    let r := decodeCtx m n c
    if r.2.isSome || (r.1.used == c.used && r.1.bitPos == c.bitPos) then r else decodeRest m n fuel r.1

/-- CLOSE (R330, R333). DEDUCED: log entry 60. -/
def codecClose (n : Nat) (d : Dev) : Dev :=
  let c := d.ctx n
  if !c.isOpen || codecState d n == 4 then d
  else if decompresses d.regs n then
    let r := decodeRest d.regs n (c.input.length + 1) c
    let d := d.setCtx n r.1
    match r.2 with
    | some code => ctxError d n code r.1.used r.1.bitPos 5
    | none =>
      if r.1.phase = 0 ∧ r.1.input = [] then shutCtx d n else ctxError d n 7 r.1.used r.1.bitPos 5
  else closeStream d n

/-- CODEC_RESET (R333): CLOSED at once; output and history discarded, the context's channels halt. -/
def codecReset (n : Nat) (d : Dev) : Dev :=
  let d := haltCtx d n
  let d := d.setCtx n {}
  let d := d.onCodec fun k => { k with comp := if k.comp = some n then none else k.comp,
                                       decomp := if k.decomp = some n then none else k.decomp }
  (d.setLiv pgCodec (CODEC.STATE n) 0).setStatus pgCodec (8 + n) false

/-- A CTX_CMD word: RESET leads. -/
def ctxCmd (n : Nat) (v : Word) (d : Dev) : Dev :=
  if bitOf v.toNat 1 then codecReset n d else if bitOf v.toNat 0 then codecClose n d else d

-- ---- output (R330, R334) ----------------------------------------------------------------------------------------

/-- At most n bytes leave a context into a draining descriptor, up to a message end: the bytes, and whether
they end the message. DEDUCED: log entry 58. -/
def drainCtx (d : Dev) (k n : Nat) : Dev × List Byte × Bool :=
  let c := d.ctx k
  let bytes := ((c.output.takeWhile Option.isSome).take n).filterMap id
  let ends : Bool := match c.output[bytes.length]? with
    | some none => true
    | _ => false
  let d := addPair d (CODEC.OUT_LO k) (CODEC.OUT_HI k) bytes.length
  let d := d.setCtx k { c with output := c.output.drop (bytes.length + bit ends), stall := none }
  (showCtx d k, bytes, ends)

-- ---- switching (R334, R335) -----------------------------------------------------------------------------------------

/-- STALL_TIMEOUT (R334, R335): a stall on input counts STALL_IN; a compressor held in the middle of a block
counts COMP_HELD; the decompressor may now switch. Each stall counts once. -/
def stallTimeout (n : Nat) (d : Dev) : Dev :=
  let c := d.ctx n
  match c.stall with
  | none => d
  | some t =>
    if c.held then d
    else
      let d := d.advanceTo (t + codecFld d.regs CODEC.SWITCH.STALL + 1)
      let onInput := c.output.isEmpty
      let d := if onInput then (d.event pgCodec 8).setLiv pgCodec (CODEC.STATE n) 2 else d
      let mid := !decompresses d.regs n && d.codec.comp == some n && (!onInput || !c.input.isEmpty)
      let d := if mid then d.event pgCodec 9 else d
      d.setCtx n { c with held := true }

/-- Bytes the manual does not give: n of them from a free value on. DESIGN CHOICE: log entry 59. -/
def freeBytes (k n : Nat) : List Byte :=
  (List.range n).map fun i => BitVec.ofNat 8 ((Config.free (k + i / 8)).toNat / 2 ^ (8 * (i % 8)))

/-- A context leaves its engine: its area holds state whose format is internal (R335).
DESIGN CHOICE: log entry 59. -/
def saveCtx (d : Dev) (n : Nat) : Dev :=
  let c := d.ctx n
  if !c.isOpen || codecState d n == 4 then d
  else
    let d := (d.memWrite (codecFld d.regs (CODEC.SAVE n) * 64) (freeBytes d.freeCtr codecSaveBytes)).1
    let d := { d with freeCtr := d.freeCtr + codecSaveBytes / 8 }
    (d.setCtx n { c with saved := true }).setLiv pgCodec (CODEC.STATE n) 5

/-- Whether the context that holds an engine may be switched out: at a block end, or a decompressor after
a stall (R335). -/
def mayLeave (d : Dev) (k : Nat) : Bool :=
  let c := d.ctx k
  !c.isOpen || (if decompresses d.regs k then c.phase ≤ 1 || c.held else c.input.isEmpty)

/-- The ready context after k in rotation, of the same direction (R335). -/
def nextReady (d : Dev) (k : Nat) : Option Nat :=
  let l := (List.range 16).map fun i => (k + 1 + i) % 16
  l.find? fun n => n != k && decompresses d.regs n == decompresses d.regs k &&
    codecFld d.regs (CODEC.CTX.EN n) == 1 && codecState d n != 4 && codecState d n != 3 && !(d.ctx n).input.isEmpty

/-- An engine goes from context k to context n: the one is saved, the other restored. -/
def switchTo (n k : Nat) (ecc : Ecc) (d : Dev) : Dev :=
  let d := takeEngine ((saveCtx d k).advance 1040) n
  let c := d.ctx n
  if !c.saved then d
  else
    let r := d.memRead (codecFld d.regs (CODEC.SAVE n) * 64) codecSaveBytes ecc
    if r.2.1 = .ok then showCtx (r.1.setCtx n { c with saved := false }) n
    else ctxError (r.1.setCtx n { c with saved := false }) n 9 c.used c.bitPos 6

/-- CONTEXT_SWITCH (R335): the engine's context is saved in 1,040 core cycles and the next ready one in rotation, n, is
restored, at once: the spec bounds that time. A bad line in its area is a STATE_ERROR. DESIGN CHOICE: log entry 142. -/
def contextSwitch (n : Nat) (ecc : Ecc) (d : Dev) : Dev :=
  match engineOf d n with
  | none => takeEngine d n
  | some k =>
    if k = n ∨ !mayLeave d k ∨ nextReady d k ≠ some n then d else switchTo n k ecc d

/-- CODEC_INPUT (R326). -/
def execCodecInput (n : Fin 16) (bytes : List Byte) (eom : Bool) (s : State) :
    Host.Outcome State Fault Refusal :=
  done s (codecInput n.val bytes eom s.dev)

/-- CLOSE (R330). -/
def execCodecClose (k : Link) (n : Fin 16) (s : State) :
    Host.Outcome State Fault Refusal :=
  done s (s.dev.guarded k pgCodec (0xB00 + 4 * n.val) (codecClose n.val))

/-- CODEC_RESET (R333). -/
def execCodecReset (k : Link) (n : Fin 16) (s : State) :
    Host.Outcome State Fault Refusal :=
  done s (s.dev.guarded k pgCodec (0xB00 + 4 * n.val) (codecReset n.val))

/-- STALL_TIMEOUT (R335). -/
def execStallTimeout (n : Fin 16) (s : State) :
    Host.Outcome State Fault Refusal :=
  done s (stallTimeout n.val s.dev)

/-- CONTEXT_SWITCH (R335). -/
def execContextSwitch (n : Fin 16) (ecc : Ecc) (s : State) :
    Host.Outcome State Fault Refusal :=
  done s (contextSwitch n.val ecc s.dev)

end Sys2Proof.Machine
end

