-- ==== Sys2Proof/Machine/Hk.lean ====
section
/-!
DEFINITION. The housekeeping converter (chapter 10, R262 to R273): passes, urgent conversions, delivery of
results, limits, telemetry. Conversion starts are the boundary of the HK page, so the steps take the
apply (`ap`) as an argument.
-/
namespace Sys2Proof.Machine

/-- A field of an HK page in a register map. -/
def hkFld (m : RegMap) (f : Fld) : Nat := act m pgHk f

/-- HK changed. -/
def Dev.onHk (d : Dev) (f : Hk → Hk) : Dev := { d with hk := f d.hk }

/-- QUEUE and CURRENT show the converter. -/
def showHk (d : Dev) : Dev :=
  let d := d.setLiv pgHk HK.QUEUE d.hk.queue.length
  match d.hk.conv with
  | none => d
  | some c =>
    ((d.setLiv pgHk HK.CURRENT.SLOT c.slot).setLiv pgHk HK.CURRENT.URGENT (bit c.urgent)).setLiv pgHk
      HK.CURRENT.INPUT c.input

/-- The refusal of an HK apply: the lowest failing code (R273). -/
def hkCheck (m : RegMap) : Option Nat :=
  let len := hkFld m HK.SEQ_CTRL.LEN
  let per := hkFld m HK.TELEM.PERIOD
  if (List.range (min len 32)).any fun s => 23 < hkFld m (HK.SLOT.INPUT s) then some 1
  else if len < 1 ∨ 32 < len then some 2
  else if hkFld m HK.TELEM.EN = 1 ∧ (per < 10 ∨ 10000 < per) then some 3
  else none

/-- Whether the sequence fields of two configurations differ (R266). -/
def hkSeqDiffers (a b : RegMap) : Bool :=
  let words : List Nat := 0x100 :: (List.range 32).map fun s => 0x180 + 4 * s
  words.any fun o => rd a (pageBase pgHk + 0x400 + o) != rd b (pageBase pgHk + 0x400 + o)

/-- What an apply of HK changes at once. -/
def hkApplied (m0 : RegMap) (d : Dev) : Dev :=
  let d := d.onHk fun h => { h with renew := h.renew || hkSeqDiffers m0 d.regs }
  if hkFld m0 HK.TELEM.EN = 0 ∧ hkFld d.regs HK.TELEM.EN = 1 then
    d.onHk fun h => { h with telAt := d.clk.tick, tel := List.replicate 24 (0, 0, 0) }
  else d

-- ---- starting conversions (R264 to R269) -----------------------------------------------------------------

/-- The conversion that starts now: the page applies, a changed sequence starts a new pass, then an urgent
request, unless a protected sequence conversion comes first, or the next slot. DEDUCED: log entry 48. -/
def hkBegin (ap : Nat → Dev → Dev) (d : Dev) : Dev :=
  if d.hk.queue.isEmpty && d.hk.slot.isNone then showHk (d.onHk fun h => { h with conv := none })
  else
    let d := ap pgHk d
    let t := d.clk.tick
    let d := if d.hk.renew then
        d.onHk fun h => { h with renew := false, slot := some 0, passAt := some t }
      else d
    let urgentFirst := !d.hk.queue.isEmpty && !(d.hk.shield && d.hk.slot.isSome)
    match urgentFirst, d.hk.queue, d.hk.slot with
    | true, i :: rest, _ =>
      showHk (d.onHk fun h => { h with conv := some ⟨i, 0, true, t, 0, true, d.status pgHk 2⟩, queue := rest, shield := true })
    | _, _, some s =>
      let c : HkConv := ⟨hkFld d.regs (HK.SLOT.INPUT s), s, false, t, hkFld d.regs (HK.SLOT.ACQ s),
        hkFld d.regs (HK.SLOT.DATA s) == 1, d.status pgHk 2⟩
      showHk (d.onHk fun h => { h with conv := some c })
    | _, _, none => showHk (d.onHk fun h => { h with conv := none })

/-- The cycle in which a conversion ends. -/
def HkConv.stop (c : HkConv) : Nat := c.start + 625 + c.acq

/-- A pass starts in the present cycle. -/
def hkNewPass (d : Dev) : Dev := d.onHk fun h => { h with slot := some 0, passAt := some d.clk.tick }

/-- The cycle in which the successor of the pass before is due (R265): a multiple of PERIOD after its start, the cycle
after its end back to back. -/
def hkDue (d : Dev) (t : Nat) : Nat :=
  let period := hkFld d.regs HK.SEQ_CTRL.PERIOD * 625
  if period = 0 then d.hk.passEnd + 1 else t + period

/-- A pass has ended in cycle passEnd and the present cycle is the next (R265): a successor that is due starts at once,
SEQ_LATE counting where it was due before the end. -/
def hkPassOver (d : Dev) : Dev :=
  match d.hk.slot, d.hk.passAt with
  | none, some t =>
    if hkDue d t ≤ d.hk.passEnd + 1 then
      hkNewPass (if hkDue d t < d.hk.passEnd then d.event pgHk 9 else d)
    else d
  | _, _ => d

/-- HK_PASS_START (R265): a pass whose predecessor ended before it was due. -/
def hkPassStart (ap : Nat → Dev → Dev) (d : Dev) : Dev :=
  if !d.pageOn pgHk || d.hk.slot.isSome then d
  else
    let d := match d.hk.passAt with
      | none => d
      | some t => d.advanceTo (max (d.hk.passEnd + 1) (hkDue d t))
    let d := hkNewPass d
    if d.hk.conv.isSome then d else hkBegin ap d

/-- URGENT (R268): queued, or refused; an unprotected sequence conversion is aborted two cycles later. -/
def hkUrgent (ap : Nat → Dev → Dev) (input : Nat) (d : Dev) : Dev :=
  if 23 < input ∨ 4 ≤ d.hk.queue.length then d.event pgHk 7
  else
    let d := showHk (d.onHk fun h => { h with queue := h.queue ++ [input] })
    match d.hk.conv with
    | none => hkBegin ap (d.advance 3)
    | some c =>
      if !c.urgent && !d.hk.shield && d.clk.tick + 2 ≤ c.stop then
        hkBegin ap (((d.advance 2).event pgHk 6).advance 1)
      else d

-- ---- results (R264, R270, R271) ----------------------------------------------------------------------------

/-- Smallest, largest code and number of results, with one more. -/
def telAdd (e : Nat × Nat × Nat) (code : Nat) : Nat × Nat × Nat :=
  if e.2.2 = 0 then (code, code, 1) else (min e.1 code, max e.2.1 code, e.2.2 + 1)

/-- The limit check of an input (R271): the Foreman logs a rising edge. DEDUCED: log entry 48. -/
def hkLimit (d : Dev) (i code : Nat) : Dev :=
  let out := hkFld d.regs (HK.LIMIT.EN i) == 1 &&
    (code < hkFld d.regs (HK.LIMIT.LOW i) || hkFld d.regs (HK.LIMIT.HIGH i) < code)
  let was := d.status pgHk (8 + i)
  let d := d.setStatus pgHk (8 + i) out
  if out && !was then
    let d := (d.event pgHk 8).wakeEdge 4
    if d.foremanRuns then d.trouble pgHk 0x84 sevWarning (i + code * 2 ^ 16) else d
  else d

/-- A result in the data register (R270). -/
def hkData (d : Dev) (c : HkConv) (code : Nat) : Dev :=
  let ovr := rd d.regs (countAddr pgHk 4) != rd d.regs (countAddr pgHk 4 + 4)
  let d := d.setLiv pgHk HK.DATA
    (bit c.urgent * 2 ^ 31 + bit ovr * 2 ^ 30 + c.input * 2 ^ 24 + (if c.urgent then 0 else c.slot) * 2 ^ 16 + code)
  let d := d.setLiv pgHk HK.DATA_TICK (c.start + 100 + c.acq)
  let d := if ovr then d.event pgHk 5 else d
  d.event pgHk 4

/-- A result is delivered to its consumers. -/
def hkDeliver (d : Dev) (c : HkConv) (code : Nat) : Dev :=
  let d := d.onHk fun h =>
    { h with mirror := h.mirror.set c.input (some (code, c.start + 100 + c.acq)),
             tel := h.tel.set c.input (telAdd (h.tel.getD c.input (0, 0, 0)) code) }
  let d := hkLimit d c.input code
  if c.data then hkData d c code else d

/-- HK_CONVERSION (R264): the conversion ends, the next one starts a cycle later, and the result is delivered
two cycles after the end. The result of a conversion that began under a parity fault of the page is kept from its
consumers: that is what marks it invalid (R39). DEDUCED: log entry 48. -/
def hkConversion (ap : Nat → Dev → Dev) (code : Nat) (d : Dev) : Dev :=
  match d.hk.conv with
  | none => d
  | some c =>
    let d := d.advanceTo (c.stop + 1)
    let d := d.onHk fun h => { h with conv := none }
    let d := if c.urgent then d
      else
        let n := c.slot + 1
        d.onHk fun h => { h with shield := false, slot := if n < hkFld d.regs HK.SEQ_CTRL.LEN then some n else none,
                                 passEnd := if n < hkFld d.regs HK.SEQ_CTRL.LEN then h.passEnd else c.stop }
    let d := (hkBegin ap (if c.urgent then d else hkPassOver d)).advanceTo (c.stop + 2)
    if c.held then d else hkDeliver d c code

-- ---- telemetry (R272, R364) -----------------------------------------------------------------------------------

/-- Full scale of an input in millivolts. -/
def hkFullScale (i : Nat) : Nat :=
  if i = 9 ∨ i = 10 then 2500 else if i = 11 ∨ i = 12 then 5000 else 1250

/-- The converted value of a code (R263, R272). -/
def hkValue (i code : Nat) : Int :=
  if i ≤ 5 then roundHalfAway ((code : Int) * 128 - 349632) 5
  else roundHalfAway ((code * hkFullScale i : Nat) : Int) 4096

/-- The 12 bytes of an input's telemetry record; codes not converted are open (free values). -/
def telRecord (d : Dev) (i : Nat) : List Byte :=
  let e := d.hk.tel.getD i (0, 0, 0)
  let free := Config.free (d.freeCtr + i)
  let code : Nat := match d.hk.mirror.getD i none with
    | some v => v.1
    | none => free.toNat % 4096
  leBytes 2 code ++ leBytes 2 (if e.2.2 = 0 then free.toNat / 2 ^ 16 % 2 ^ 16 else e.1) ++
  leBytes 2 (if e.2.2 = 0 then free.toNat / 2 ^ 32 % 2 ^ 16 else e.2.1) ++ leBytes 2 (min e.2.2 0xFFFF) ++
  leBytes 4 (unsigned 32 (hkValue i code))

/-- TELEMETRY (R272): none is sent while the Foreman is not running. -/
def telemetry (d : Dev) : Dev :=
  if !d.pageOn pgHk || hkFld d.regs HK.TELEM.EN == 0 then d
  else
    let d := d.advanceTo (d.hk.telAt + hkFld d.regs HK.TELEM.PERIOD * 625000)
    let d := d.onHk fun h => { h with telAt := d.clk.tick }
    if !d.foremanRuns then d
    else
      let payload := leBytes 4 24 ++ leBytes 4 0 ++ (List.range 24).flatMap (telRecord d)
      let d := { d with freeCtr := d.freeCtr + 24 }
      (d.handOver (hkFld d.regs HK.TELEM.STREAM) 0x0B payload).onHk fun h =>
        { h with tel := List.replicate 24 (0, 0, 0) }

/-- TELEMETRY (R272). -/
def execTelemetry (s : State) : Host.Outcome State Fault Refusal := done s (telemetry s.dev)

end Sys2Proof.Machine
end

