-- ==== Sys2Proof/Machine/Pfe.lean ====
section
/-!
DEFINITION. The precision front end (chapter 09, R249 to R257): visits, conversions, autorange,
results, temperatures, excitation compliance, calibration visits.
-/
namespace Sys2Proof.Machine

/-- PFE changed. -/
def Dev.onPfe (d : Dev) (f : PfeSt → PfeSt) : Dev := { d with pfe := f d.pfe }

/-- A field of the active PFE page. -/
def pfeFld (m : RegMap) (f : Fld) : Nat := act m pgPfe f

/-- The enabled channels, ascending (R256). -/
def pfeChans (m : RegMap) : List Nat :=
  if enActive m pgPfe then (List.range 4).filter fun k => pfeFld m (PFE.CH.EN k) == 1 else []

/-- The period of an output rate in core cycles (R250). -/
def pfePeriod (rate : Nat) : Nat :=
  [12500000, 25000000, 31250000, 37500000, 62500000, 125000000, 250000000].getD rate 250000000

/-- N: the conversions a result combines (R251). -/
def pfeCount (m : RegMap) (k : Nat) : Nat := if pfeFld m (PFE.CH.WIRES k) = 1 then 4 else 2

/-- The die temperature that PFE's trims interpolate on: input 0 of HK (R262), 0 °C before HK has a result. -/
def coreTemp (d : Dev) : Int :=
  match d.hk.mirror.getD 0 none with
  | some (c, _) => hkDieTemp c
  | none => 0

/-- The offset and gain trims of a gain code (R257): those of its last calibration, else the factory's, interpolated as
R111 states. They act in the converter: its code q is what it yields under them. DEDUCED: log entry 139. -/
def pfeTrim (d : Dev) (g : Nat) : Int × Int :=
  match d.pfe.trims.getD g none with
  | some t => t
  | none =>
    let f (w : Nat) : Int := trimInterp ((List.range 5).map fun n => (Config.pfeFactory g w n).toInt) (coreTemp d)
    (f 0, f 1)

/-- The conversion that starts at tick t in the visit under way. -/
def pfeConvert (d : Dev) (k t : Nat) : Dev :=
  let e := t + pfePeriod (pfeFld d.regs (PFE.CH.RATE k))
  d.onPfe fun p => { p with endAt := e, openNow := d.status pgPfe (8 + k), eff := pfeTrim d (p.gains.getD k 0),
                            held := d.status pgPfe 2 }

/-- A visit of channel k starts at tick t: a change of channel, so four conversions settle (R252). -/
def pfeVisit (d : Dev) (k t : Nat) : Dev :=
  pfeConvert (d.onPfe fun p => { p with ch := some k, n := 0, settle := 4, recent := [], small := 0 }) k t

/-- The channel after k in ascending order, then the first again (R256). -/
def pfeNext (m : RegMap) (k : Nat) : Option Nat :=
  match (pfeChans m).find? fun j => k < j with
  | some j => some j
  | none => (pfeChans m).head?

/-- The visit of the channel after k starts, if there is one. -/
def pfeMove (d : Dev) (k t : Nat) : Dev :=
  match pfeNext d.regs k with
  | some j => pfeVisit d j t
  | none => d.onPfe fun p => { p with ch := none }

/-- Whether a channel is the one that AON watches and its valid result lies outside the window (R432). -/
def pfeOutside (d : Dev) (k : Nat) : Bool :=
  let t := livS d.regs pgPfe (PFE.TEMP k) * 100
  act d.aon pgAon AON.WAKE.PFE_CH == k && d.status pgPfe (12 + k) &&
    (actS d.aon pgAon AON.PFE_WINDOW.PFE_HIGH * 65536 < t || t < actS d.aon pgAon AON.PFE_WINDOW.PFE_LOW * 65536)

-- ---- results (R251, R255) -----------------------------------------------------------------------

/-- The resistance in 2^-16 Ω, rounded half away from zero (R251). -/
def pfeRes (m : RegMap) (k gain : Nat) (code : Int) : Int :=
  let w := pfeCount m k * 2 ^ (23 + gain)
  let lead := if pfeFld m (PFE.CH.WIRES k) = 0 then pfeFld m (PFE.CH.LEAD_R k) else 0
  roundHalfAway ((code * (pfeFld m PFE.RREF : Nat) - ((lead * w : Nat) : Int)) * 65536) (1000 * w)

/-- Coefficients of the temperature relation (R255): signed, 2^-38, 2^-51 and 2^-68. -/
structure Cvd where
  a : Int
  b : Int
  c : Int
deriving DecidableEq, Repr

/-- The coefficients of a channel. -/
def cvdOf (m : RegMap) (k : Nat) : Cvd :=
  ⟨signed 32 (pfeFld m (PFE.CVD_A k)), signed 32 (pfeFld m (PFE.CVD_B k)), signed 32 (pfeFld m (PFE.CVD_C k))⟩

/-- R / RNOM − 1 of the relation at t = n / 2^17 °C, in 2^-136 (R255). -/
def Cvd.rise (v : Cvd) (n : Int) : Int :=
  v.a * n * 2 ^ 81 + v.b * n * n * 2 ^ 51 +
    (if n < 0 then v.c * (n - 13107200) * n * n * n else 0)

/-- The relation at n / 2^17 °C against a resistance: positive when it lies above. -/
def Cvd.above (v : Cvd) (rnom res : Nat) (n : Int) : Int :=
  (2 ^ 136 + v.rise n) * ((65536 * rnom : Nat) : Int) - ((1000 * res * 2 ^ 136 : Nat) : Int)

/-- The largest k of lo + [0, 2^n) for which a falling predicate holds, from lo. -/
def searchUp (p : Int → Bool) : Nat → Int → Int
  | 0, lo => lo
  | n + 1, lo =>
    let mid := lo + ((2 ^ n : Nat) : Int)
    searchUp p n (if p mid then mid else lo)

/-- Whether the quadratic root for R ≥ RNOM lies at or above n / 2^17 °C; the root is
(−A + sqrt(A² − 4B(1 − R/RNOM))) / 2B (R255), of the linear relation when B = 0. -/
def Cvd.hotAtLeast (v : Cvd) (rnom res : Nat) (n : Int) : Bool :=
  let quad : Int := (2 ^ 136 + v.a * n * 2 ^ 81 + v.b * n * n * 2 ^ 51) * ((65536 * rnom : Nat) : Int) -
    ((1000 * res * 2 ^ 136 : Nat) : Int)
  -- A + 2 B t at n / 2^17, in 2^-67
  let slope : Int := v.a * 2 ^ 29 + v.b * n
  if v.b < 0 then decide (0 ≤ slope) && decide (quad ≤ 0)
  else if 0 < v.b then decide (slope ≤ 0) || decide (quad ≤ 0)
  else if 0 < v.a then decide (quad ≤ 0) else decide (0 ≤ quad)

/-- Whether the quadratic of R255 has a real root: A² − 4B(1 − R/RNOM) ≥ 0, and not both A and B are 0. -/
def Cvd.real (v : Cvd) (rnom res : Nat) : Bool :=
  let x : Int := ((65536 * rnom : Nat) : Int) - ((1000 * res : Nat) : Int)
  (v.a != 0 || v.b != 0) &&
    decide (0 ≤ v.a * v.a * ((65536 * rnom : Nat) : Int) - 4 * v.b * x * 2 ^ 25)

/-- What the relation gives for a resistance. -/
inductive CvdRoot where
  | temp (t : Int)
  | range
  | unstated
deriving DecidableEq, Repr

/-- A temperature in 2^-16 °C, or RANGE outside −200 °C to 850 °C (R255). -/
def cvdRange (t : Int) : CvdRoot :=
  if t < -13107200 ∨ 55705600 < t then .range else .temp t

/-- TEMP of a resistance (R255), correctly rounded. The root below RNOM is the unique one in −200 °C to
0 °C; the relation rises there for A > 0 and B, C ≤ 0. Where it need not rise, or has no real root, the
manual gives no value. DESIGN CHOICE: log entry 47. -/
def Cvd.root (v : Cvd) (rnom res : Nat) : CvdRoot :=
  if 65536 * rnom ≤ 1000 * res then
    if v.real rnom res then
      cvdRange (searchUp (fun k => v.hotAtLeast rnom res (2 * k - 1)) 27 (-13107201))
    else .unstated
  else if 0 < v.a ∧ v.b ≤ 0 ∧ v.c ≤ 0 then
    if 0 < v.above rnom res (-26214400) then .range
    else cvdRange (searchUp (fun k => decide (v.above rnom res (2 * k - 1) < 0)) 24 (-13107201))
  else .unstated

/-- The mark of a temperature out of range. -/
def pfeNoTemp : Nat := 0x80000000

/-- A valid result of channel k (R251, R255, R256). A resistance that RES cannot hold, and a temperature
the relation does not give, are free values. DESIGN CHOICE: log entry 47. -/
def pfeResult (d : Dev) (k gain : Nat) (code : Int) : Dev :=
  let m := d.regs
  let r := pfeRes m k gain code
  let stated : Bool := decide (0 ≤ r) && decide (r < 2 ^ 32)
  let res := if stated then r.toNat else d.free.toNat % 2 ^ 32
  let d := if stated then d else d.tookFree
  let root := (cvdOf m k).root (pfeFld m (PFE.RNOM k)) res
  let free : Int := signed 32 d.free.toNat
  let t := match root with
    | .temp t => CvdRoot.temp t
    | .range => .range
    | .unstated => cvdRange free
  let d := if root = .unstated then d.tookFree else d
  let temp := match t with
    | .temp t => unsigned 32 t
    | _ => pfeNoTemp
  let ranged := match t with
    | .temp _ => false
    | _ => true
  let was := pfeOutside d k
  let d := d.setLivS pgPfe (PFE.CODE k) code
  let d := d.setLiv pgPfe (PFE.RES k) res
  let d := d.setLiv pgPfe (PFE.TEMP k) temp
  let d := d.setPair pgPfe (PFE.TIME_LO k).off (PFE.TIME_HI k).off d.timeNs
  let d := d.setLiv pgPfe (PFE.FLAGS k) (gain * 256 + 128 + 8 * bit ranged)
  let d := (d.setStatus pgPfe (12 + k) true).event pgPfe 4
  let d := if pfeOutside d k && !was then d.wakeEdge 3 else d
  if ranged then d
  else d.onPfe fun p => { p with results := (k, d.clk.tick, signed 32 temp) :: p.results }

-- ---- conversions (R251 to R253) --------------------------------------------------------------------

/-- What a conversion is marked with (R252 to R254): FLAGS bits 6, 5 and 4. -/
def pfeMarks (settling big isOpen : Bool) : Nat := 64 * bit settling + 32 * bit big + 16 * bit isOpen

/-- The marks of several conversions joined. -/
def joinMarks (l : List (Int × Bool × Nat)) : Nat := l.foldl (fun a c => a ||| c.2.2) 0

/-- The ratio code of a conversion of channel k joins its visit (R251 to R253, R256); under CFG_FAULT it is
invalid (R39). DEDUCED: log entry 46. -/
def pfeCode (d : Dev) (k : Nat) (q : Int) (overload : Bool) : Dev :=
  let m := d.regs
  let p := d.pfe
  let gain := p.gains.getD k 0
  let auto := pfeFld m (PFE.CH.AUTORANGE k) == 1
  let big := overload || decide (7864320 ≤ q.natAbs)
  let down := big && auto && decide (0 < gain)
  let settling := decide (0 < p.settle)
  let marks := pfeMarks settling big (p.openNow || d.status pgPfe (8 + k))
  let valid := marks == 0 && !p.held
  let small := if auto && valid && decide (q.natAbs < 3145728) then p.small + 1 else 0
  let up := auto && decide (8 ≤ small) && decide (gain < 7)
  let gain' := if down then gain - 1 else if up then gain + 1 else gain
  let recent := ((q, valid, marks) :: p.recent).take 4
  let d := d.onPfe fun p =>
    { p with recent := recent, gains := p.gains.set k gain', small := if up then 0 else small,
             settle := if down || up then 4 else p.settle - 1, n := p.n + 1 }
  let d := if settling || down then d.event pgPfe 5 else d
  let d := if down || up then d.event pgPfe 7 else d
  let window := recent.take (pfeCount m k)
  if window.length = pfeCount m k ∧ window.all (·.2.1) then
    pfeResult d k gain ((window.map (·.1)).sum)
  else (d.setLiv pgPfe (PFE.FLAGS k) (gain * 256 + joinMarks window)).setStatus pgPfe (12 + k) false

/-- The calibration visit starts at tick t: 8 × 40 conversions of 20 ms (R257). -/
def pfeCalStart (d : Dev) (t : Nat) : Dev :=
  (d.onPfe fun p => { p with calReq := false, calEnd := some (t + 8 * 40 * 12500000) }).setStatus pgPfe 4 true

/-- After a conversion that ended at tick t: the visit goes on, or its boundary comes after DWELL
conversions: a calibration visit that is asked for, else the next channel (R256, R257). With one channel
the visit goes on without settling. -/
def pfeGoOn (d : Dev) (k t : Nat) : Dev :=
  if d.pfe.n < pfeFld d.regs PFE.DWELL then pfeConvert d k t
  else if d.pfe.calReq then pfeCalStart d t
  else if pfeNext d.regs k = some k then pfeConvert (d.onPfe fun p => { p with n := 0 }) k t
  else pfeMove d k t

/-- PFE_CONVERSION up to the start of the next conversion (R251). DEDUCED: log entry 46. -/
def pfeConversion (q : Int) (overload : Bool) (d : Dev) : Dev :=
  match d.pfe.ch with
  | none => d
  | some k =>
    if d.pfe.calEnd.isSome then d
    else
      let d := d.advanceTo d.pfe.endAt
      pfeGoOn (pfeCode d k q overload) k d.clk.tick

/-- PFE_COMPLIANCE_CHECK (R254): two failures in a row set OPEN and mark the conversion in progress; two
passes in a row clear it. Only the channel visited is excited. -/
def pfeComplianceCheck (k : Nat) (pass : Bool) (d : Dev) : Dev :=
  if d.pfe.ch != some k then d
  else
    let c := d.pfe.comply.getD k (0, 0)
    let c := if pass then (c.1 + 1, 0) else (0, c.2 + 1)
    let isOpen := d.status pgPfe (8 + k)
    let d := d.onPfe fun p => { p with comply := p.comply.set k c }
    if !isOpen && 2 ≤ c.2 then
      (((d.onPfe fun p => { p with openNow := true }).setStatus pgPfe (8 + k) true).event pgPfe 6).wakeEdge 3
    else if isOpen && 2 ≤ c.1 then
      (d.onPfe fun p => { p with settle := 4, small := 0 }).setStatus pgPfe (8 + k) false
    else d

/-- CTRL.CAL_REQ on PFE (R257): with no visit under way the visit starts at once. DEDUCED: log entry 22. -/
def pfeCalReq (d : Dev) : Dev :=
  if d.pfe.calEnd.isSome then d.onPfe fun p => { p with calReq := true }
  else if d.pfe.ch.isSome then d.onPfe fun p => { p with calReq := true }
  else pfeCalStart d d.clk.tick

/-- What a calibration visit finds for gain code g: the sums of its 20 conversions with the inputs shorted, and of its 20
on the divider (R257). -/
def calFound (shorted divider : List (List Int)) (g : Nat) : Int × Int :=
  (((shorted.getD g []).take 20).sum, ((divider.getD g []).take 20).sum)

/-- PFE_CAL_VISIT (R257): at the end of the visit its results replace the factory trims of each gain code and the
visits go on. -/
def pfeCalVisit (shorted divider : List (List Int)) (d : Dev) : Dev :=
  match d.pfe.calEnd with
  | none => d
  | some t =>
    let d := d.advanceTo t
    let d := d.onPfe fun p =>
      { p with calEnd := none, trims := (List.range 8).map fun g => some (calFound shorted divider g) }
    let d := calDoneOn (d.setStatus pgPfe 4 false) pgPfe
    let d := match d.pfe.ch with
      | some k => pfeMove d k d.clk.tick
      | none => match (pfeChans d.regs).head? with
        | some k => pfeVisit d k d.clk.tick
        | none => d
    if d.pfe.calReq then pfeCalStart d d.clk.tick else d

/-- Whether the wiring or the excitation of channel k differs between two register spaces (R252). -/
def pfeChanged (m0 m : RegMap) (k : Nat) : Bool :=
  pfeFld m0 (PFE.CH.WIRES k) != pfeFld m (PFE.CH.WIRES k) ||
  pfeFld m0 (PFE.CH.EXC k) != pfeFld m (PFE.CH.EXC k)

/-- The gain in force of a channel after an apply: GAIN itself without AUTORANGE, the start value when it
or AUTORANGE changes or PFE is enabled, the gain found otherwise (R249, R253). -/
def pfeGainAfter (m0 m : RegMap) (k gain : Nat) : Nat :=
  let g := pfeFld m (PFE.CH.GAIN k)
  if pfeFld m (PFE.CH.AUTORANGE k) = 0 || pfeFld m0 (PFE.CH.AUTORANGE k) = 0 ||
      pfeFld m0 (PFE.CH.GAIN k) != g || !enActive m0 pgPfe then g
  else gain

/-- What an apply of PFE does beside the copy; `m0` is the register space before it. -/
def pfeApplied (m0 : RegMap) (d : Dev) : Dev :=
  let m := d.regs
  let before := d.pfe.gains
  let d := d.onPfe fun p => { p with gains := (List.range 4).map fun k => pfeGainAfter m0 m k (p.gains.getD k 0) }
  if d.pfe.calEnd.isSome then
    if enActive m pgPfe then d else d.onPfe fun p => { p with ch := none }
  else
    match d.pfe.ch with
    | some k =>
      if (pfeChans m).contains k then
        if pfeChanged m0 m k || before.getD k 0 != d.pfe.gains.getD k 0 then
          pfeConvert (d.onPfe fun p => { p with settle := 4, recent := [], small := 0 }) k d.clk.tick
        else pfeConvert d k d.clk.tick
      else pfeMove d k d.clk.tick
    | none =>
      match (pfeChans m).head? with
      | some k => pfeVisit d k d.clk.tick
      | none => d

end Sys2Proof.Machine
end

