-- ==== Sys2Proof/Machine/Eth.lean ====
section
/-!
DEFINITION. The Ethernet ports (chapter 13, R348 to R353): Ethernet II frames, IPv4, IPv6, UDP, ARP,
neighbour discovery, echo, and the neighbour cache. What a port sends for the streams stands in Sahf;
what it receives stands in Links.
-/
namespace Sys2Proof.Machine

/-- A port. -/
def Dev.port (d : Dev) (p : Nat) : EthPort := if p = 0 then d.eth0 else d.eth1

/-- A port changed. -/
def Dev.onPort (d : Dev) (p : Nat) (f : EthPort → EthPort) : Dev :=
  if p = 0 then { d with eth0 := f d.eth0 } else { d with eth1 := f d.eth1 }

/-- A field of a port's active page. -/
def ethFld (d : Dev) (p : Nat) (f : Fld) : Nat := act d.regs (pgEth p) f

/-- Whether a port's link is up (R466). -/
def ethUp (d : Dev) (p : Nat) : Bool := d.pageOn (pgEth p) && liv d.regs (pgEth p) ETH.LINK.UP == 1

-- ---- addresses ----------------------------------------------------------------------------------

/-- The MAC address of a port. -/
def portMac (d : Dev) (p : Nat) : Nat := ethFld d p ETH.MAC_LO + 2 ^ 32 * ethFld d p ETH.MAC_HI

/-- A 128-bit address in four words, the most significant last. -/
def addr6 (w0 w1 w2 w3 : Nat) : Nat := w0 + 2 ^ 32 * w1 + 2 ^ 64 * w2 + 2 ^ 96 * w3

/-- The IPv6 address of a port. -/
def portIp6 (d : Dev) (p : Nat) : Nat :=
  addr6 (ethFld d p (ETH.IPV6 0)) (ethFld d p (ETH.IPV6 1)) (ethFld d p (ETH.IPV6 2)) (ethFld d p (ETH.IPV6 3))

/-- The modified EUI-64 of a MAC address. -/
def eui64 (mac : Nat) : Nat :=
  (mac / 2 ^ 24 ^^^ 0x020000) * 2 ^ 40 + 0xFFFE * 2 ^ 24 + mac % 2 ^ 24

/-- The link-local address of a port (R350). -/
def linkLocal (d : Dev) (p : Nat) : Nat := 0xFE80 * 2 ^ 112 + eui64 (portMac d p)

/-- Whether an address family is used on a port. -/
def familyOn (d : Dev) (p : Nat) (v6 : Bool) : Bool :=
  ethFld d p (if v6 then ETH.FAMILY.IPV6_EN else ETH.FAMILY.IPV4_EN) == 1

/-- Whether an address is the port's own. -/
def isOwn (d : Dev) (p : Nat) (v6 : Bool) (a : Nat) : Bool :=
  if v6 then a == portIp6 d p || a == linkLocal d p else a == ethFld d p ETH.IPV4

/-- The source address the port uses towards a destination. -/
def sourceFor (d : Dev) (p : Nat) (v6 : Bool) (dst : Nat) : Nat :=
  if !v6 then ethFld d p ETH.IPV4
  else if dst / 2 ^ 118 = 0x3FA then linkLocal d p else portIp6 d p

/-- The destination address of a destination table entry. -/
def destAddr (d : Dev) (p t : Nat) : Nat :=
  let w (f : Fld) : Nat := liv d.regs (pgEth p) f
  if w (ETH.DEST.IPV6 t) = 1 then
    addr6 (w (ETH.DEST.ADDR1 t)) (w (ETH.DEST.ADDR2 t)) (w (ETH.DEST.ADDR3 t)) (w (ETH.DEST.ADDR4 t))
  else w (ETH.DEST.ADDR1 t)

/-- Whether a destination entry uses IPv6. -/
def destV6 (d : Dev) (p t : Nat) : Bool := liv d.regs (pgEth p) (ETH.DEST.IPV6 t) == 1

/-- Whether a destination entry can be used (R352). -/
def destUsable (d : Dev) (p t : Nat) : Bool :=
  liv d.regs (pgEth p) (ETH.DEST.EN t) == 1 && familyOn d p (destV6 d p t)

-- ---- frames -------------------------------------------------------------------------------------

/-- The ones' complement sum of a byte list in 16-bit words, folded. -/
def inetSum (l : List Byte) : Nat :=
  let s := ((chunks 2 l.length l).map fun c => beNat (if c.length = 1 then c ++ [0] else c)).sum
  let s := s / 65536 + s % 65536
  let s := s / 65536 + s % 65536
  s / 65536 + s % 65536

/-- The Internet checksum of a byte list. -/
def inetCheck (l : List Byte) : Nat := 0xFFFF - inetSum l

/-- An Ethernet II frame from its destination to before its FCS: tagged as VLAN says, padded to 60 bytes
(R349). -/
def ethFrame (d : Dev) (p dst type : Nat) (payload : List Byte) : List Byte :=
  let tag := if ethFld d p ETH.VLAN.TAG = 1 then
      beBytes 2 0x8100 ++ beBytes 2 (ethFld d p ETH.VLAN.PCP * 2 ^ 13 + ethFld d p ETH.VLAN.VID)
    else []
  let f := beBytes 6 dst ++ beBytes 6 (portMac d p) ++ tag ++ beBytes 2 type ++ payload
  f ++ List.replicate (60 - f.length) 0

/-- An IPv4 packet (R350): no options, DF, TTL 64; `id` is its identification. DESIGN CHOICE: log entry 65. -/
def ip4Packet (id src dst dscp proto : Nat) (payload : List Byte) : List Byte :=
  let head (sum : Nat) : List Byte :=
    beBytes 1 0x45 ++ beBytes 1 (dscp * 4) ++ beBytes 2 (20 + payload.length) ++ beBytes 2 id ++
    beBytes 2 0x4000 ++ beBytes 1 64 ++ beBytes 1 proto ++ beBytes 2 sum ++ beBytes 4 src ++ beBytes 4 dst
  head (inetCheck (head 0)) ++ payload

/-- An IPv6 packet (R350): hop limit 64, no extension headers; `flow` is its flow label.
DESIGN CHOICE: log entry 65. -/
def ip6Packet (flow src dst dscp next : Nat) (payload : List Byte) : List Byte :=
  beBytes 4 (6 * 2 ^ 28 + dscp * 2 ^ 22 + flow % 2 ^ 20) ++ beBytes 2 payload.length ++ beBytes 1 next ++
  beBytes 1 64 ++ beBytes 16 src ++ beBytes 16 dst ++ payload

/-- The pseudo-header of an upper-layer checksum. -/
def pseudo (v6 : Bool) (src dst proto len : Nat) : List Byte :=
  if v6 then beBytes 16 src ++ beBytes 16 dst ++ beBytes 4 len ++ beBytes 4 proto
  else beBytes 4 src ++ beBytes 4 dst ++ beBytes 2 proto ++ beBytes 2 len

/-- A UDP datagram with its checksum (R350). -/
def udpPacket (v6 : Bool) (src dst sport dport : Nat) (payload : List Byte) : List Byte :=
  let n := 8 + payload.length
  let body (sum : Nat) : List Byte := beBytes 2 sport ++ beBytes 2 dport ++ beBytes 2 n ++ beBytes 2 sum ++ payload
  let c := inetCheck (pseudo v6 src dst 17 n ++ body 0)
  body (if c = 0 then 0xFFFF else c)

/-- An ICMP or ICMPv6 message with its checksum. -/
def icmpPacket (v6 : Bool) (src dst type : Nat) (rest : List Byte) : List Byte :=
  let body (sum : Nat) : List Byte := beBytes 1 type ++ beBytes 1 0 ++ beBytes 2 sum ++ rest
  body (inetCheck ((if v6 then pseudo true src dst 58 (4 + rest.length) else []) ++ body 0))

/-- An IP packet of a port in its Ethernet frame; the identification or flow label is open (a free value). -/
def ipFrame (d : Dev) (p mac : Nat) (v6 : Bool) (src dst dscp proto : Nat) (payload : List Byte) :
    Dev × List Byte :=
  let free := d.free.toNat
  (d.tookFree, if v6 then ethFrame d p mac 0x86DD (ip6Packet free src dst dscp proto payload)
   else ethFrame d p mac 0x0800 (ip4Packet free src dst dscp proto payload))

/-- An ARP packet for IPv4 over Ethernet. -/
def arpPacket (op smac sip tmac tip : Nat) : List Byte :=
  beBytes 2 1 ++ beBytes 2 0x0800 ++ beBytes 1 6 ++ beBytes 1 4 ++ beBytes 2 op ++ beBytes 6 smac ++
  beBytes 4 sip ++ beBytes 6 tmac ++ beBytes 4 tip

/-- The MAC address of an IPv6 multicast address. -/
def mac6 (a : Nat) : Nat := 0x3333 * 2 ^ 32 + a % 2 ^ 32

/-- The solicited-node multicast address of an IPv6 address. -/
def solicitedNode (a : Nat) : Nat := 0xFF02 * 2 ^ 112 + 0x1FF000000 + a % 2 ^ 24

/-- A frame waits among the answering frames of a port. -/
def sendCtl (d : Dev) (p : Nat) (f : List Byte) : Dev := d.onPort p fun e => { e with ctl := e.ctl ++ [f] }

/-- A neighbour advertisement of an address: R, S, O flags in the top bits, target, the MAC option. -/
def advertise (d : Dev) (p dstMac dst target flags : Nat) : Dev :=
  let rest := beBytes 4 (flags * 2 ^ 29) ++ beBytes 16 target ++ beBytes 2 0x0201 ++ beBytes 6 (portMac d p)
  let r := ipFrame d p dstMac true target dst 0 58 (icmpPacket true target dst 136 rest)
  sendCtl r.1 p r.2

/-- The request that asks for a neighbour: ARP, or a neighbour solicitation (R351). -/
def askFor (d : Dev) (p : Nat) (v6 : Bool) (a : Nat) : Dev :=
  if v6 then
    let src := sourceFor d p true a
    let g := solicitedNode a
    let rest := beBytes 4 0 ++ beBytes 16 a ++ beBytes 2 0x0101 ++ beBytes 6 (portMac d p)
    let r := ipFrame d p (mac6 g) true src g 0 58 (icmpPacket true src g 135 rest)
    sendCtl r.1 p r.2
  else
    sendCtl d p (ethFrame d p 0xFFFFFFFFFFFF 0x0806
      (arpPacket 1 (portMac d p) (ethFld d p ETH.IPV4) 0 a))

-- ---- the neighbour cache (R351) -------------------------------------------------------------------

/-- The next hop of a destination: itself inside the prefix or link-local, else the gateway; none without
one. -/
def nextHop (d : Dev) (p : Nat) (v6 : Bool) (a : Nat) : Option Nat :=
  if v6 then
    let n := 128 - min (ethFld d p ETH.PREFIX6) 128
    let g := addr6 (ethFld d p (ETH.GATEWAY6 0)) (ethFld d p (ETH.GATEWAY6 1)) (ethFld d p (ETH.GATEWAY6 2))
      (ethFld d p (ETH.GATEWAY6 3))
    if a / 2 ^ n = portIp6 d p / 2 ^ n ∨ a / 2 ^ 118 = 0x3FA then some a else if g = 0 then none else some g
  else
    let n := 32 - min (ethFld d p ETH.PREFIX4) 32
    let g := ethFld d p ETH.GATEWAY4
    if a / 2 ^ n = ethFld d p ETH.IPV4 / 2 ^ n then some a else if g = 0 then none else some g

/-- The MAC address of a multicast or broadcast destination. -/
def groupMac (v6 : Bool) (a : Nat) : Option Nat :=
  if v6 then (if a / 2 ^ 120 = 0xFF then some (mac6 a) else none)
  else if a = 0xFFFFFFFF then some 0xFFFFFFFFFFFF
  else if a / 2 ^ 28 = 14 then some (0x01005E000000 + a % 2 ^ 23)
  else none

/-- The MAC address to which packets for a destination go, if it is known. -/
def macFor (d : Dev) (p : Nat) (v6 : Bool) (a : Nat) : Option Nat :=
  match groupMac v6 a with
  | some m => some m
  | none =>
    match nextHop d p v6 a with
    | none => none
    | some h => ((d.port p).cache.find? fun n => n.ipv6 == v6 && n.addr == h).map Neigh.mac

/-- The port starts to resolve the next hop of a destination, unless it is known or being resolved.
DEDUCED: log entry 66. -/
def resolve (d : Dev) (p : Nat) (v6 : Bool) (a : Nat) : Dev :=
  match macFor d p v6 a, nextHop d p v6 a with
  | none, some h =>
    if (d.port p).wants.any fun w => w.1 == v6 && w.2.1 == h then d
    else (askFor d p v6 h).onPort p fun e => { e with wants := e.wants ++ [(v6, h, d.clk.tick)] }
  | _, _ => d

/-- A neighbour has answered: the cache of 16 entries takes it, the oldest leaving a full cache.
DEDUCED: log entry 66. -/
def learn (d : Dev) (p : Nat) (v6 : Bool) (a mac : Nat) : Dev :=
  let e := d.port p
  let asked := e.wants.any fun w => w.1 == v6 && w.2.1 == a
  if e.cache.any fun n => n.ipv6 == v6 && n.addr == a then
    d.onPort p fun e => { e with cache := e.cache.map fun n =>
      if n.ipv6 = v6 ∧ n.addr = a then { n with mac := mac } else n }
  else if asked then
    d.onPort p fun e =>
      let c := e.cache ++ [⟨v6, a, mac⟩]
      { e with wants := e.wants.filter (fun w => !(w.1 == v6 && w.2.1 == a)), cache := c.drop (c.length - 16) }
  else d

/-- CACHE_REFRESH (R351): 60 s after the last refresh each entry is asked for again. -/
def cacheRefresh (p : Nat) (d : Dev) : Dev :=
  if !ethUp d p then d
  else
    let d := d.advanceTo ((d.port p).fresh + 37500000000)
    let d := (d.port p).cache.foldl (fun d n => askFor d p n.ipv6 n.addr) d
    d.onPort p fun e => { e with fresh := d.clk.tick }

/-- Ticks of 250 ms. -/
def retryTicks : Nat := 156250000

/-- Ticks of 1 s. -/
def secondTicks : Nat := 625000000

/-- RESOLVE_RETRY (R351): next hops whose last try lies 250 ms back are asked for again; a reply whose next
hop stays unresolved for 1 s is dropped. -/
def resolveRetry (p : Nat) (d : Dev) : Dev :=
  match (d.port p).wants with
  | [] => d
  | w :: ws =>
    if !ethUp d p then d
    else
      let first := ws.foldl (fun t v => min t v.2.2) w.2.2
      let d := d.advanceTo (first + retryTicks)
      let due (v : Bool × Nat × Nat) : Bool := v.2.2 + retryTicks ≤ d.clk.tick
      let d' := ((d.port p).wants.filter due).foldl (fun e v => askFor e p v.1 v.2.1) d
      let d' := d'.onPort p fun e =>
        { e with wants := e.wants.map fun v => if due v then (v.1, v.2.1, d.clk.tick) else v }
      let late (r : EthReply) : Bool := r.tick + secondTicks ≤ d.clk.tick && (macFor d p r.ipv6 r.addr).isNone
      let n := ((d'.port p).replies.filter late).length
      (d'.onPort p fun e => { e with replies := e.replies.filter fun r => !late r }).events (pgEth p) 8 n

-- ---- link up --------------------------------------------------------------------------------------

/-- ETH_LINK_UP (R351, R466): one gratuitous ARP and one unsolicited neighbour advertisement. -/
def ethLinkUp (p : Nat) (d : Dev) : Dev :=
  if !d.pageOn (pgEth p) || !enActive d.regs (pgEth p) || ethUp d p then d
  else
    let d := d.setLiv (pgEth p) ETH.LINK.UP 1
    let d := d.setLiv (pgEth p) ETH.LINK.FEC_LOCK (bit (ethFld d p ETH.PORT.RSFEC == 1 && ethFld d p ETH.PORT.SPEED == 1))
    let d := d.onPort p fun e => { e with free := d.clk.tick, fresh := d.clk.tick }
    let d := if familyOn d p false then
        let ip := ethFld d p ETH.IPV4
        sendCtl d p (ethFrame d p 0xFFFFFFFFFFFF 0x0806 (arpPacket 1 (portMac d p) ip 0 ip))
      else d
    if familyOn d p true then
      advertise d p (mac6 (0xFF02 * 2 ^ 112 + 1)) (0xFF02 * 2 ^ 112 + 1) (portIp6 d p) 1
    else d

-- ---- transmission -----------------------------------------------------------------------------------

/-- Core cycles that a frame occupies a port: its bytes with FCS, preamble and gap (R353).
DEDUCED: log entry 68. -/
def wireTicks (d : Dev) (p n : Nat) : Nat :=
  ceilDiv ((n + 24) * 8) (if ethFld d p ETH.PORT.SPEED = 1 then 40 else 16)

/-- A frame leaves a port. DEDUCED: log entry 68. -/
def sendFrame (d : Dev) (p : Nat) (f : List Byte) : Dev :=
  d.onPort p fun e => { e with sent := f :: e.sent, free := d.clk.tick + wireTicks d p f.length }

/-- A Sahfort datagram of a port (R352). -/
def sahfDatagram (d : Dev) (p mac : Nat) (v6 : Bool) (a port dscp : Nat) (pkt : List Byte) : Dev × List Byte :=
  let src := sourceFor d p v6 a
  ipFrame d p mac v6 src a dscp 17 (udpPacket v6 src a (act d.regs pgSahf SAHF.UDP_PORT) port pkt)

end Sys2Proof.Machine
end

