-- ==== Sys2Proof/Machine/Sahf.lean ====
section
/-!
DEFINITION. SAHF (chapter 13): Sahfort packets, the stream table with its queues and LINK gap records,
the rings in host memory, compression of messages, replies and the retry cache. Commands themselves
stand in Commands and Links.
-/
namespace Sys2Proof.Machine

/-- SAHF changed. -/
def Dev.onSahf (d : Dev) (f : SahfSt → SahfSt) : Dev := { d with sahf := f d.sahf }

/-- The stream of a table entry. -/
def Dev.stream (d : Dev) (s : Nat) : StreamSt := d.sahf.streams.getD s {}

/-- The stream of a table entry replaced. -/
def Dev.setStream (d : Dev) (s : Nat) (v : StreamSt) : Dev :=
  d.onSahf fun k => { k with streams := k.streams.set s v }

/-- A ring. -/
def Dev.ring (d : Dev) (r : Nat) : RingSt := d.sahf.rings.getD r {}

/-- A ring replaced. -/
def Dev.setRing (d : Dev) (r : Nat) (v : RingSt) : Dev :=
  d.onSahf fun k => { k with rings := k.rings.set r v }

/-- Whether SAHF forms packets and takes commands (R466). -/
def sahfOn (d : Dev) : Bool := d.pageOn pgSahf && enActive d.regs pgSahf

/-- Whether the PCI Express link is up. -/
def pcieUp (d : Dev) : Bool := d.domainOn 2 && liv d.regs pgPcie PCIE.LINK.UP == 1

/-- A field of the stream table. -/
def streamFld (d : Dev) (f : Fld) : Nat := liv d.regs pgSahf f

-- ---- packets (R363) --------------------------------------------------------------------------------

/-- A Sahfort packet: header, CRC-32C over header and payload, payload. -/
def packet (type flags stream seq time index count : Nat) (payload : List Byte) : List Byte :=
  let head (crc : Nat) : List Byte :=
    leBytes 2 0x5348 ++ leBytes 1 1 ++ leBytes 1 type ++ leBytes 2 flags ++ leBytes 2 stream ++
    leBytes 4 seq ++ leBytes 8 time ++ leBytes 4 payload.length ++ leBytes 4 crc ++ leBytes 2 index ++
    leBytes 2 count
  head (crc32c (head 0 ++ payload)).toNat ++ payload

/-- A message as one packet. -/
def wholePacket (type flags stream seq time : Nat) (payload : List Byte) : List Byte :=
  packet type flags stream seq time 0 1 payload

-- ---- drops and LINK gap records (R369) -----------------------------------------------------------------

/-- LINK causes: 1 QUEUE_FULL, 2 UNRESOLVED, 3 LINK_DOWN, 4 NO_BUFFER, 5 NO_DESTINATION. -/
abbrev LinkCause := Nat

/-- A reserved record for one more message lost. -/
def reserveGap (gaps : List LinkGap) (m : Msg) (cause : LinkCause) : List LinkGap :=
  if gaps.any fun g => g.cause == cause then
    gaps.map fun g => if g.cause = cause then { g with lost := g.lost + 1 } else g
  else gaps ++ [⟨cause, m.tick, m.time, 1, m.type⟩]

/-- A message is not sent: MSG_DROPPED, a LINK gap record, the port's own count. DEDUCED: log entry 64. -/
def dropMsg (d : Dev) (s : Nat) (q : QMsg) (cause : LinkCause) : Dev :=
  let d := d.event pgSahf 8
  let d := if q.dest < 2 then d.event (pgEth q.dest) (if cause = 2 then 8 else 6) else d
  let st := d.stream s
  d.setStream s { st with gaps := reserveGap st.gaps q.msg cause }

/-- The payload of a LINK gap record. -/
def linkGapBytes (d : Dev) (g : LinkGap) : List Byte :=
  let r : GapRec := { cause := g.cause, tick := g.tick, time := g.time }
  r.bytes 4 0xFF g.lost g.type (cfgCheck d.regs pgSahf)

/-- Everything a stream holds for a destination is dropped, oldest first. -/
def dropAll (d : Dev) (s : Nat) (which : QMsg → Bool) (cause : LinkCause) : Dev :=
  let st := d.stream s
  let out : List QMsg := match st.out with
    | some o => if which o.src then [o.src] else []
    | none => []
  let lost := out ++ st.queue.filter which
  if lost.isEmpty then d
  else
    let d := d.setStream s { st with queue := st.queue.filter (fun q => !which q),
                                     out := if out.isEmpty then st.out else none }
    lost.foldl (fun d q => dropMsg d s q cause) d

/-- Every stream drops what it holds for a destination. -/
def dropDest (d : Dev) (which : QMsg → Bool) (cause : LinkCause) : Dev :=
  (List.range 64).foldl (fun d s => dropAll d s which cause) d

-- ---- routing (R365, R369) --------------------------------------------------------------------------------

/-- The entry that acts on a stream id: the lowest enabled one with that ID and a valid destination. -/
def matchEntry (d : Dev) (id : Nat) : Option Nat :=
  (List.range 64).find? fun s =>
    streamFld d (SAHF.STREAM.EN s) == 1 && streamFld d (SAHF.STREAM.ID s) == id &&
      (streamFld d (SAHF.STREAM.DEST s) < 2 ||
        (streamFld d (SAHF.STREAM.DEST s) == 2 && 2 ≤ streamFld d (SAHF.STREAM.TARGET s)))

/-- Why a destination cannot take a message now. DEDUCED: log entry 62. -/
def destBar (d : Dev) (q : QMsg) : Option LinkCause :=
  if q.dest = 2 then (if pcieUp d then none else some 3)
  else if !ethUp d q.dest then some 3
  else if !destUsable d q.dest q.target then some 5
  else none

/-- Whether the history ring has destroyed the point frame that a message stands for (R214). -/
def frameGone (d : Dev) (m : Msg) : Bool :=
  match m.frame with
  | none => false
  | some (n, f) => ringValid d (Line.ofUnit n) && !seqLe (oldestFrame d (Line.ofUnit n)) f

/-- The waiting point frames of a stream that the ring has destroyed are dropped as QUEUE_FULL (R369). -/
def dropGone (d : Dev) (s : Nat) : Dev :=
  let st := d.stream s
  let gone := st.queue.filter fun q => frameGone d q.msg
  if gone.isEmpty then d
  else gone.foldl (fun d q => dropMsg d s q 1) (d.setStream s { st with queue := st.queue.filter fun q => !frameGone d q.msg })

/-- STREAM_MESSAGE (R365, R369): the oldest message handed over is routed, queued or dropped.
DEDUCED: log entry 62. -/
def streamMessage (d : Dev) : Dev :=
  match d.inbox with
  | [] => d
  | m :: rest =>
    let d := { d with inbox := rest }
    if !sahfOn d then d.event pgSahf 7
    else
      match matchEntry d m.stream with
      | none => d.event pgSahf 7
      | some s =>
        let q : QMsg := ⟨m, d.clk.tick, streamFld d (SAHF.STREAM.DEST s), streamFld d (SAHF.STREAM.TARGET s),
          if streamFld d (SAHF.STREAM.COMPRESS s) = 1 then some (streamFld d (SAHF.STREAM.CTX s)) else none⟩
        match destBar d q with
        | some c => dropMsg d s q c
        | none =>
          let d := dropGone d s
          let st := d.stream s
          if max (streamFld d (SAHF.STREAM.QUEUE_MAX s)) 1 ≤ st.queue.length then dropMsg d s q 1
          else
            let d := d.setStream s { st with queue := st.queue ++ [q] }
            if q.dest < 2 then resolve d q.dest (destV6 d q.dest q.target) (destAddr d q.dest q.target) else d

/-- UNRESOLVED (R351, R369): the oldest message of a stream is dropped once its next hop has been unresolved
for 1 s; a next hop that no message waits for is no longer asked for. -/
def unresolved (s : Nat) (d : Dev) : Dev :=
  match (d.stream s).queue with
  | [] => d
  | q :: rest =>
    if 2 ≤ q.dest then d
    else
      let v6 := destV6 d q.dest q.target
      let a := destAddr d q.dest q.target
      if (macFor d q.dest v6 a).isSome then d
      else
        let d := d.advanceTo (q.tick + secondTicks)
        let d := dropMsg (d.setStream s { d.stream s with queue := rest }) s q 2
        let waits : Bool := (List.range 64).any (fun i => (d.stream i).queue.any fun w =>
            w.dest == q.dest && nextHop d q.dest (destV6 d q.dest w.target) (destAddr d q.dest w.target)
              == nextHop d q.dest v6 a) ||
          (d.port q.dest).replies.any fun r => nextHop d q.dest r.ipv6 r.addr == nextHop d q.dest v6 a
        if waits then d
        else d.onPort q.dest fun e => { e with wants := e.wants.filter fun w =>
          !(w.1 == v6 && some w.2.1 == nextHop d q.dest v6 a) }

-- ---- forming a message (R366, R367) --------------------------------------------------------------------------

/-- The payload of a queued message. A point frame is read from the history ring; none when the ring no
longer holds it. DEDUCED: log entry 63. -/
def msgPayload (d : Dev) (m : Msg) : Dev × Option (List Byte) :=
  match m.frame with
  | none => (d, some m.payload)
  | some (n, f) =>
    let x := Line.ofUnit n
    if !ringValid d x then (d, some m.payload)
    else if !seqLe (oldestFrame d x) f then (d, none)
    else
      let r := d.memRead (ringAddr d x f) m.payload.length .clean
      (r.1, if r.2.1 = .ok then some r.2.2.2 else none)

/-- Blocks of a context coded until its input is used up. -/
def codeAll (ap : Nat → Dev → Dev) (n : Nat) : Nat → Dev → Dev
  | 0, d => d
  | fuel + 1, d =>
    if (nextBlock d.regs n (d.ctx n)).isNone then d else codeAll ap n fuel (codecBlock ap n true true d)

/-- Bytes of SAHF.CODEC_WORK. -/
def codecWorkBytes : Nat := 262144

/-- Whether SAHF may drive the codec: CODEC_EN, its area initialised; an area found uninitialised halts
channels 28 to 31 (R465). DEDUCED: log entry 63. -/
def codecReady (d : Dev) : Dev × Bool :=
  if act d.regs pgSahf SAHF.CODEC.EN = 0 ∨ d.sahf.noCodec then (d, false)
  else if d.allInit (act d.regs pgSahf SAHF.CODEC.WORK) 1 then (d, true)
  else
    let d := [28, 29, 30, 31].foldl (fun d c => dmaHalt d c 4 false) d
    (d.onSahf fun k => { k with noCodec := true }, false)

/-- Whether a parity fault of CODEC has ended the stream of a context (R337, R39): a message for it is not sent. -/
def codecFaulted (d : Dev) (ctx : Option Nat) : Bool :=
  match ctx with
  | none => false
  | some n => (codecReady d).2 && d.pageOn pgCodec && d.status pgCodec 2 && !(d.ctx n).isOpen &&
      codecFld d.regs (CODEC.CTX.EN n) == 1 && !decompresses d.regs n

/-- Whether a message waits for its context: the context has no room for its output, or another context keeps the
compressor in the middle of a block (R334, R335). -/
def codecWaits (d : Dev) (ctx : Option Nat) : Bool :=
  match ctx with
  | none => false
  | some n => (codecReady d).2 && takesInput d n && !decompresses d.regs n &&
      (codecState d n == 3 || (!mayUse d n && !((engineOf d n).any (mayLeave d))))

/-- The compressor for a context: the one that holds it is switched out at its block end (R335). -/
def claimEngine (d : Dev) (n : Nat) : Dev :=
  match engineOf d n with
  | none => d
  | some k => if k = n then d else switchTo n k .clean d

/-- A payload passed through a compress context, with the FLAGS it gives (R366). -/
def compressPayload (ap : Nat → Dev → Dev) (d : Dev) (ctx : Option Nat) (payload : List Byte) :
    Dev × List Byte × Nat :=
  match ctx with
  | none => (d, payload, 0)
  | some n =>
    let r := codecReady d
    let d := r.1
    let d := if r.2 && takesInput d n && !decompresses d.regs n then claimEngine d n else d
    if !r.2 || !takesInput d n || decompresses d.regs n then (d, payload, 0)
    else
      let d := feedCtx d n payload true
      let d := codeAll ap n (payload.length + 2) d
      let o := drainCtx d n (2 * payload.length + 65536)
      (o.1, o.2.1, 0x80 + codecFld d.regs (CODEC.CTX.WRAP n) * 0x40 +
        bit (codecFld d.regs (CODEC.CTX.PREFILTER n) != 0) * 0x20)

/-- What a stream sends next: the head message, or a gap record before it, with its FLAGS and payload. -/
structure NextMsg where
  src     : QMsg
  gap     : Option LinkGap
  flags   : Nat
  payload : List Byte

/-- TYPE of what a stream sends next. -/
def NextMsg.type (n : NextMsg) : Nat := if n.gap.isSome then 0x07 else n.src.msg.type

/-- What a stream sends next; none when nothing is left to send. A message that can no longer be sent is
dropped. -/
def nextMessage (ap : Nat → Dev → Dev) (s : Nat) : Nat → Dev → Dev × Option NextMsg
  | 0, d => (d, none)
  | fuel + 1, d =>
    let st := d.stream s
    match st.queue with
    | [] => (d, none)
    | q :: rest =>
      match destBar d q with
      | some c => nextMessage ap s fuel (dropMsg (d.setStream s { st with queue := rest }) s q c)
      | none =>
        if codecFaulted d q.ctx then nextMessage ap s fuel (dropMsg (d.setStream s { st with queue := rest }) s q 5)
        else if codecWaits d q.ctx then (d, none)
        else
        match st.gaps with
        | g :: gs =>
          let r := compressPayload ap (d.setStream s { st with gaps := gs }) q.ctx (linkGapBytes d g)
          (r.1, some ⟨q, some g, r.2.2, r.2.1⟩)
        | [] =>
          let b := msgPayload (d.setStream s { st with queue := rest }) q.msg
          match b.2 with
          | none => nextMessage ap s fuel (dropMsg b.1 s q 1)
          | some bytes =>
            let r := compressPayload ap b.1 q.ctx bytes
            (r.1, some ⟨q, none, r.2.2, r.2.1⟩)

/-- Largest payload of a fragment on a port (R367). -/
def fragSize (d : Dev) (p : Nat) (v6 : Bool) : Nat := max (ethFld d p ETH.PORT.MTU - (if v6 then 80 else 60)) 1

/-- The message that stream s sends next on a port, cut into fragments. -/
def loadOut (ap : Nat → Dev → Dev) (d : Dev) (s : Nat) : Dev :=
  if (d.stream s).out.isSome then d
  else
    let r := nextMessage ap s ((d.stream s).queue.length + 1) d
    match r.2 with
    | none => r.1
    | some m =>
      let q := m.src
      let size := fragSize r.1 q.dest (destV6 r.1 q.dest q.target)
      let parts := if m.payload.isEmpty then [[]] else chunks size m.payload.length m.payload
      let o : StreamOut := ⟨q, m.type, m.flags, r.1.timeNs, parts.length, 0, parts⟩
      r.1.setStream s { r.1.stream s with out := some o }

-- ---- Ethernet (R353, R367, R368) ------------------------------------------------------------------------------

/-- Whether a stream has something for a port whose next hop is known. -/
def readyFor (d : Dev) (p s : Nat) : Bool :=
  let st := d.stream s
  let q : Option QMsg := match st.out with
    | some o => some o.src
    | none => st.queue.head?
  match q with
  | none => false
  | some q => q.dest == p && !d.status pgSahf 2 && !d.status (pgEth p) 2 && (destBar d q != none || (macFor d p (destV6 d p q.target) (destAddr d p q.target)).isSome)

/-- The streams in rotation after the one served last. -/
def rotation (last : Nat) : List Nat := (List.range 64).map fun i => (last + 1 + i) % 64

/-- The next packet of stream s leaves on a port. -/
def sendFragment (d : Dev) (p s : Nat) : Dev :=
  let st := d.stream s
  match st.out with
  | none => d
  | some o =>
    match o.rest, macFor d p (destV6 d p o.src.target) (destAddr d p o.src.target) with
    | part :: more, some mac =>
      let pkt := packet o.type o.flags o.src.msg.stream st.seq o.time o.index o.count part
      let t := o.src.target
      let r := sahfDatagram d p mac (destV6 d p t) (destAddr d p t) (liv d.regs (pgEth p) (ETH.DEST.UDP_PORT t))
        (liv d.regs (pgEth p) (ETH.DEST.DSCP t)) pkt
      let d := r.1.setStream s { st with
        seq := (st.seq + 1) % 2 ^ 32,
        out := if more.isEmpty then none else some { o with index := o.index + 1, rest := more } }
      sendFrame (d.onPort p fun e => { e with rot := s }) p r.2
    | _, _ => d

/-- A stream packet leaves on a port: in rotation over the streams that have packets. -/
def sendStream (ap : Nat → Dev → Dev) (p : Nat) : List Nat → Dev → Dev
  | [], d => d
  | s :: rest, d =>
    if !readyFor d p s then sendStream ap p rest d
    else
      let d := match (d.stream s).out with
        | some o => if destBar d o.src = none then d else dropAll d s (fun q => q == o.src) 5
        | none => d
      let d := loadOut ap d s
      match (d.stream s).out with
      | none => sendStream ap p rest d
      | some o =>
        if (macFor d p (destV6 d p o.src.target) (destAddr d p o.src.target)).isNone then sendStream ap p rest d
        else sendFragment d p s

/-- The first reply of a port whose next hop is known, and the others. -/
def takeReply (d : Dev) (p : Nat) : List EthReply → Option (EthReply × Nat × List EthReply)
  | [] => none
  | r :: rest =>
    match macFor d p r.ipv6 r.addr with
    | some mac => some (r, mac, rest)
    | none => (takeReply d p rest).map fun e => (e.1, e.2.1, r :: e.2.2)

/-- The egress stamp of a Delay_Req (R359): taken as its frame leaves. -/
def stampEgress (d : Dev) : Dev :=
  match d.ptp.dreq with
  | some (n, none) => { d with ptp := { d.ptp with dreq := some (n, some (d.timeNs : Int)) } }
  | _ => d

/-- PACKET_TRANSMIT (R353): at the frame boundary the pages apply (`ap`), and the next frame is a PTP event
message, a reply, an answer, or a stream packet. -/
def packetTransmit (ap apc : Nat → Dev → Dev) (p : Nat) (d : Dev) : Dev :=
  if !ethUp d p then d
  else
    let d := ap (pgEth p) (d.advanceTo (d.port p).free)
    if !ethUp d p then d
    else
      match (d.port p).ptp with
      | f :: rest => stampEgress (sendFrame (d.onPort p fun e => { e with ptp := rest }) p f)
      | [] =>
        match takeReply d p (d.port p).replies with
        | some (r, mac, rest) =>
          let d := d.onPort p fun e => { e with replies := rest }
          let f := sahfDatagram d p mac r.ipv6 r.addr r.port 0 r.pkt
          sendFrame f.1 p f.2
        | none =>
          match (d.port p).ctl with
          | f :: rest => sendFrame (d.onPort p fun e => { e with ctl := rest }) p f
          | [] => if sahfOn d then sendStream apc p (rotation (d.port p).rot) (ap pgSahf d) else d

/-- ETH_LINK_DOWN (R369, R466): what waits for the port is dropped. -/
def ethLinkDown (p : Nat) (d : Dev) : Dev :=
  if !ethUp d p then d
  else
    let d := d.setLiv (pgEth p) ETH.LINK.UP 0
    let d := d.setLiv (pgEth p) ETH.LINK.FEC_LOCK 0
    let d := d.event (pgEth p) 4
    let e := d.port p
    let d := d.events (pgEth p) 6 (e.ptp.length + e.replies.length + e.ctl.length)
    let d := d.onPort p fun e => { e with ptp := [], replies := [], ctl := [], wants := [] }
    dropDest d (fun q => q.dest == p) 3

-- ---- rings (R345 to R347) ----------------------------------------------------------------------------------------

/-- Entries of a ring. -/
def ringSize (d : Dev) (r : Nat) : Nat := 2 ^ act d.regs pgSahf (SAHF.RING.LOG2_SIZE r)

/-- Host address of a ring's entry, or of its status block at the index ringSize. -/
def ringEntry (d : Dev) (r i : Nat) : Nat :=
  act d.regs pgSahf (SAHF.RING.BASE_LO r) + 2 ^ 32 * act d.regs pgSahf (SAHF.RING.BASE_HI r) + 16 * i

/-- A memory write to the host. -/
def hostWrite (d : Dev) (a : Nat) (b : List Byte) : Dev :=
  { d with pcie := { d.pcie with writes := (a, b) :: d.pcie.writes } }

/-- STATUS of the entry at HEAD written, and HEAD advanced. -/
def closeEntry (d : Dev) (r : Nat) (err more : Bool) (used : Nat) : Dev :=
  let h := liv d.regs pgSahf (SAHF.RING_HEAD r)
  let d := hostWrite d (ringEntry d r h + 12) (leBytes 4 (bit err * 2 ^ 30 + bit more * 2 ^ 29 + used))
  let d := d.setRing r { d.ring r with entries := (d.ring r).entries.drop 1 }
  d.setLiv pgSahf (SAHF.RING_HEAD r) ((h + 1) % ringSize d r)

/-- The status block written: HEAD, messages completed. -/
def ringStatus (d : Dev) (r : Nat) : Dev :=
  hostWrite d (ringEntry d r (ringSize d r))
    (leBytes 4 (liv d.regs pgSahf (SAHF.RING_HEAD r)) ++ leBytes 4 (d.ring r).total)

/-- The ring interrupt is sent (R343, R347). -/
def ringMessage (d : Dev) (r : Nat) : Dev :=
  let v := act d.regs pgSahf (SAHF.RING.VECTOR r)
  let masked := d.pcie.funcMask || liv d.regs pgPcie (PCIE.MSIX.MASK v) == 1
  let d := d.setRing r { d.ring r with since := 0, held := masked }
  d.msix v

/-- A message is complete on a ring: counted, and the interrupt under coalescing (R347). -/
def ringDone (d : Dev) (r : Nat) : Dev :=
  let st := d.ring r
  let d := d.setRing r { st with total := (st.total + 1) % 2 ^ 32, since := st.since + 1,
                                 first := if st.since = 0 then d.clk.tick else st.first }
  let d := ringStatus d r
  if max (act d.regs pgSahf (SAHF.RING.COALESCE_N r)) 1 ≤ (d.ring r).since then ringMessage d r else d

/-- COALESCE_TIMEOUT (R347). -/
def coalesceTimeout (r : Nat) (d : Dev) : Dev :=
  let st := d.ring r
  let us := act d.regs pgSahf (SAHF.RING.COALESCE_US r)
  if st.since = 0 ∨ us = 0 ∨ !pcieUp d then d else ringMessage (d.advanceTo (st.first + us * 625)) r

/-- Whether a ring's entries hold a packet of n bytes. -/
def ringFits (st : RingSt) (n : Nat) : Bool :=
  st.live && n ≤ ((st.entries.takeWhile HostEntry.own).map HostEntry.length).sum

/-- A packet laid into buffers: the buffer address and bytes of each entry used. -/
def splitBuffers : List HostEntry → List Byte → List (Nat × List Byte)
  | [], _ => []
  | e :: es, b =>
    (e.buffer.toNat, b.take e.length) ::
      (if b.length ≤ e.length then [] else splitBuffers es (b.drop e.length))

/-- STATUS of the entries used, in order. -/
def closeEntries (r : Nat) : List (Nat × List Byte) → Dev → Dev
  | [], d => d
  | e :: es, d => closeEntries r es (closeEntry d r false (!es.isEmpty) e.2.length)

/-- A packet written into a ring (R347): data, STATUS of each entry, status block, interrupt. -/
def putRing (d : Dev) (r : Nat) (pkt : List Byte) : Dev :=
  let parts := splitBuffers (d.ring r).entries pkt
  let d := parts.foldl (fun d e => hostWrite d e.1 e.2) d
  ringDone (closeEntries r parts d) r

/-- The next stream message of a ring, in rotation over its streams. A gap record that finds no buffer stays
reserved, and the message behind it is dropped. -/
def ringStream (ap : Nat → Dev → Dev) (r : Nat) : List Nat → Dev → Dev
  | [], d => d
  | s :: rest, d =>
    let head : Bool := match (d.stream s).queue.head? with
      | some q => q.dest == 2 && q.target == r
      | none => false
    if !head || d.status pgSahf 2 || d.status pgPcie 2 then ringStream ap r rest d
    else
      let m := nextMessage ap s ((d.stream s).queue.length + 1) d
      let d := m.1.onSahf fun k => { k with ringRot := k.ringRot.set r s }
      match m.2 with
      | none => d
      | some n =>
        let st := d.stream s
        let pkt := wholePacket n.type n.flags n.src.msg.stream st.seq d.timeNs n.payload
        if ringFits (d.ring r) pkt.length then
          putRing (d.setStream s { st with seq := (st.seq + 1) % 2 ^ 32 }) r pkt
        else
          match n.gap with
          | none => dropMsg d s n.src 4
          | some g => dropMsg (d.setStream s { st with gaps := g :: st.gaps, queue := st.queue.drop 1 }) s n.src 4

/-- RING_WRITE (R347): ring 1 takes the oldest reply, rings 2 to 15 the next stream message. -/
def ringWriteCmd (ap apc : Nat → Dev → Dev) (r : Nat) (d : Dev) : Dev :=
  if !sahfOn d || !pcieUp d || r == 0 then d
  else
    let d := ap pgSahf d
    if r = 1 then
      match d.sahf.replies with
      | [] => d
      | (pkt, _) :: rest =>
        if ringFits (d.ring 1) pkt.length then putRing (d.onSahf fun k => { k with replies := rest }) 1 pkt else d
    else ringStream apc r (rotation (d.sahf.ringRot.getD r 63)) d

/-- REPLY_DROPPED (R347): the oldest reply of ring 1 has waited 10 ms for owned entries. -/
def replyDropped (d : Dev) : Dev :=
  match d.sahf.replies with
  | [] => d
  | (pkt, t) :: rest =>
    if ringFits (d.ring 1) pkt.length && pcieUp d then d
    else ((d.advanceTo (t + 6250000)).onSahf fun k => { k with replies := rest }).event pgSahf 9

/-- Rings follow an apply of SAHF: a ring enabled anew starts at HEAD 0 without entries.
DEDUCED: log entry 64. -/
def ringsApplied (d : Dev) : Dev :=
  let d := (List.range 16).foldl (fun d r =>
    let on := act d.regs pgSahf (SAHF.RING.EN r) == 1
    let st := d.ring r
    if on && !st.live then (d.setRing r { live := true }).setLiv pgSahf (SAHF.RING_HEAD r) 0
    else d.setRing r { st with live := on }) d
  d.onSahf fun k => { k with noCodec := false }

/-- Every ring is disabled (R344), and what waits for rings is dropped. -/
def ringsOff (d : Dev) : Dev :=
  let d := d.onSahf fun k => { k with rings := List.replicate 16 {}, replies := [] }
  dropDest d (fun q => q.dest == 2) 3

-- ---- replies (R371, R373) -----------------------------------------------------------------------------------------

/-- The payload of a reply: CODE, STATUS, ARG, JOURNAL_SEQ, data. -/
def replyBytes (code status arg jseq : Nat) (data : List Byte) : List Byte :=
  leBytes 2 code ++ leBytes 2 status ++ leBytes 4 arg ++ leBytes 4 jseq ++ data

/-- A reply packet goes back to the source of its command (R352). -/
def sendReply (d : Dev) (v : Via) (retry : Bool) (payload : List Byte) : Dev :=
  let pkt := wholePacket 0x02 (if retry then 0x10 else 0) 0 v.seq.toNat d.timeNs payload
  match v.link with
  | .eth0 | .eth1 =>
    let p := if v.link = .eth0 then 0 else 1
    if !ethUp d p then d
    else
      let d := d.onPort p fun e => { e with replies := e.replies ++ [⟨v.ipv6, v.source, v.port, pkt, d.clk.tick⟩] }
      resolve d p v.ipv6 v.source
  | _ => d.onSahf fun k => { k with replies := k.replies ++ [(pkt, d.clk.tick)] }

/-- The reply of a journalled command is kept: the last 32 of each link (R373). -/
def keepReply (d : Dev) (v : Via) (code : Nat) (payload : List Byte) : Dev :=
  let n := linkCode v.link
  let e : RetryEnt := ⟨v.source, v.port, v.seq, code, v.crc, payload⟩
  d.onSahf fun k => { k with retry := k.retry.set n ((e :: k.retry.getD n []).take 32) }

/-- The kept reply that a command matches in all five fields (R373). -/
def retryMatch (d : Dev) (v : Via) (code : Nat) : Option RetryEnt :=
  (d.sahf.retry.getD (linkCode v.link) []).find? fun e =>
    e.source == v.source && e.port == v.port && e.seq == v.seq && e.code == code && e.crc == v.crc

/-- STREAM_MESSAGE (R365). -/
def execStreamMessage (s : State) : Host.Outcome State Fault Refusal := done s (streamMessage s.dev)

/-- UNRESOLVED (R369). -/
def execUnresolved (e : Fin 64) (s : State) : Host.Outcome State Fault Refusal :=
  done s (unresolved e.val s.dev)

/-- ETH_LINK_UP (R351). -/
def execEthLinkUp (p : Fin 2) (s : State) : Host.Outcome State Fault Refusal := done s (ethLinkUp p.val s.dev)

/-- ETH_LINK_DOWN (R369). -/
def execEthLinkDown (p : Fin 2) (s : State) : Host.Outcome State Fault Refusal := done s (ethLinkDown p.val s.dev)

/-- RESOLVE_RETRY (R351). -/
def execResolveRetry (p : Fin 2) (s : State) : Host.Outcome State Fault Refusal := done s (resolveRetry p.val s.dev)

/-- CACHE_REFRESH (R351). -/
def execCacheRefresh (p : Fin 2) (s : State) : Host.Outcome State Fault Refusal := done s (cacheRefresh p.val s.dev)

/-- COALESCE_TIMEOUT (R347). -/
def execCoalesceTimeout (r : Fin 16) (s : State) : Host.Outcome State Fault Refusal :=
  done s (coalesceTimeout r.val s.dev)

/-- REPLY_DROPPED (R347). -/
def execReplyDropped (s : State) : Host.Outcome State Fault Refusal := done s (replyDropped s.dev)

end Sys2Proof.Machine
end

