-- ==== Sys2Proof/Machine/Checks.lean ====
section
/-!
DEFINITION. The checks that a page makes of a new configuration at its boundary (R25): each answers the
code of the refusal, `none` where the configuration is taken. They read a register map in which the
candidate configuration already stands in the active views. Pages without a REFUSE register answer 1.
-/
namespace Sys2Proof.Machine

/-- A code where a fault is present. -/
def faultCode (bad : Bool) (code : Nat) : Option Nat := if bad then some code else none

/-- The lowest of the codes present, the list being in ascending order (R25). -/
def lowestCode (l : List (Option Nat)) : Option Nat := (l.filterMap id).head?

/-- EMIT (R79, the page's field table). -/
def emitCheck (m : RegMap) (x : Line) : Option Nat :=
  let f := act m (pgEmit x)
  faultCode ((List.range 2).any fun l =>
    (23 < f (EMIT.TEC_COMP.COMP_SRC l) && f (EMIT.TEC_COMP.COMP_SRC l) != 31) ||
    2000 < f (EMIT.LIMIT.DUTY_MAX l) || f (EMIT.THERM.B l) == 0 || f (EMIT.THERM.R0 l) == 0 ||
    f (EMIT.THERM_REF.R_REF l) == 0) 1

/-- CANARY (R90, R92, the page's field table). SLOT_EFF reads 0 until SHOT has applied with EN = 1. -/
def canaryCheck (m : RegMap) (x : Line) : Option Nat :=
  let f := act m (pgCanary x)
  let s := liv m (pgShot x) SHOT.SLOT_EFF
  let ws := f CANARY.WIT_START
  let we := f CANARY.WIT_END
  let windows : Bool := f CANARY.BLANK < ws && ws < we && we < f CANARY.OBS_END &&
    (s == 0 || f CANARY.OBS_END ≤ s) && f CANARY.WIT_COUNT ≤ we - ws + 1
  let diag : Bool := f CANARY.DIAG.DIAG_SOA < f CANARY.THRESH.TRANSP_SOA &&
    f CANARY.DIAG.DIAG_RAM < f CANARY.THRESH.THRESH_RAM
  let every := f CANARY.PROBES.EVERY
  let len := f CANARY.RESTART_LEN
  faultCode (!(windows && diag && 60 ≤ every && every ≤ 300 && 32768 ≤ len && len ≤ 81920)) 1

/-- LANE (R103). -/
def laneCheck (m : RegMap) (mode : Nat) (x : Line) : Option Nat :=
  let f := act m (pgLane x)
  faultCode (((List.range 4).any fun j => 12 < f (LANE.GAIN.CODE j)) ||
    (mode != 7 && (List.range 4).any fun j => f (LANE.INPUT.SEL j) != 0) ||
    2 ^ 24 < f LANE.STAT_START + f LANE.STAT_LEN) 1

/-- TRIM (R113, the page's field table). -/
def trimCheck (m : RegMap) (mode : Nat) (x : Line) : Option Nat :=
  let f := act m (pgTrim x)
  faultCode ((mode != 7 && f TRIM.CONTROL.MODE == 2) || f TRIM.ITER_MAX == 0 || 4 < f TRIM.ITER_MAX) 1

/-- RAML (R258, the page's field table). -/
def ramlCheck (m : RegMap) (mode : Nat) (x : Line) : Option Nat :=
  let f := act m (pgRaml x)
  faultCode ((mode != 7 && (f RAML.MODE == 2 || (List.range 2).any fun j => f (RAML.INPUT.SEL j) != 0)) ||
    f RAML.ITER_MAX == 0 || 4 < f RAML.ITER_MAX) 1

/-- CHAN (R140). -/
def chanCheck (m : RegMap) (x : Line) : Option Nat :=
  let f := act m (pgChan x)
  lowestCode [
    faultCode ((List.range 8).any fun t =>
      f (CHAN.TONE_CFG.SHIFT t) < 8 || 40 < f (CHAN.TONE_CFG.SHIFT t)) 1,
    faultCode (f CHAN.PROBE.EN == 1 && 491520 ≤ f CHAN.PROBE.BIN) 2]

/-- PHASE (R152). -/
def phaseCheck (m : RegMap) (x : Line) : Option Nat :=
  let f := act m (pgPhase x)
  lowestCode [faultCode (f PHASE.TRACK.HOLE_MAX < nGroups m x) 1,
    faultCode (f PHASE.BRANCHES.BRANCH_EN == 0) 2]

/-- GAUGE (R144). -/
def gaugeCheck (m : RegMap) (x : Line) : Option Nat :=
  let f := act m (pgGauge x)
  let n := f GAUGE.COUNT
  let g := f GAUGE.GAUGE_LEN
  lowestCode [
    faultCode (1 ≤ n && (f GAUGE.FIRST < g / 2 ||
      shotFld m x SHOT.LINE_LEN ≤ f GAUGE.FIRST + (n - 1) * f GAUGE.SPACING - g / 2 + g)) 1,
    faultCode (f GAUGE.SPACING == 0 || 64 < f GAUGE.SPACING) 2,
    faultCode (g < 7 || 306 < g) 3,
    faultCode (262144 < n) 4,
    faultCode (55 * liv m (pgShot x) SHOT.SLOT_EFF < 16 * n) 5,
    faultCode (f GAUGE.WAVELENGTH < 1450000 || 1650000 < f GAUGE.WAVELENGTH || f GAUGE.XI < 32768 ||
      65536 < f GAUGE.XI || f GAUGE.PHASE_INDEX < 91751 || 101580 < f GAUGE.PHASE_INDEX) 6]

/-- PFILT (R189, R193). -/
def pfiltCheck (m : RegMap) (x : Line) : Option Nat :=
  let f := pfFld m x
  let t := f PFILT.DECIM.TYPE
  let o := f PFILT.DECIM.ORDER
  let l := f PFILT.DECIM.LP_SHIFT
  lowestCode [
    faultCode (2 ≤ t || f PFILT.DECIM.D == 0 || 4096 < f PFILT.DECIM.D ||
      (t == 0 && o != 1 && o != 2) || (t == 1 && (l == 0 || 12 < l))) 1,
    faultCode (20 < f PFILT.HIGHPASS.HP_SHIFT) 2,
    faultCode (614 < f PFILT.OUT.OUT_SHARE + pfFld m x.other PFILT.OUT.OUT_SHARE) 3]

/-- ZONE (R196): at the first point of a zone, no more than four zones may meet. -/
def zoneCheck (m : RegMap) (x : Line) : Option Nat :=
  let zs := (zonesOf m x).map fun z => (zoneFld m (ZONE.W0.FIRST z), zoneFld m (ZONE.W1.COUNT z))
  let ka := act m (pgZone x) ZONE.BANDS.KA
  let kb := act m (pgZone x) ZONE.BANDS.KB
  lowestCode [
    faultCode (zs.any fun e => e.2 == 0 || pointCount m x < e.1 + e.2) 1,
    faultCode (zs.any fun e => 4 < (zs.filter fun o => o.1 ≤ e.1 && e.1 < o.1 + o.2).length) 2,
    faultCode (ka == 0 || kb ≤ ka || 12 < kb) 3]

/-- The lowest fault of one trigger condition (R204). -/
def condCheck (m : RegMap) (x : Line) (c : Nat) : Option Nat :=
  let f (g : Fld) : Nat := trigFld m g
  let src := f (TRIG.W0.SOURCE c)
  let cmp := f (TRIG.W0.COMPARE c)
  let on := signed 32 (f (TRIG.W1.THRESH_ON c))
  let off := signed 32 (f (TRIG.W2.THRESH_OFF c))
  let z := f (TRIG.W0.ZONE c)
  let mask := condMask m c
  let names := (List.range 64).filter fun i => bitOf mask i
  lowestCode [
    faultCode (2 ≤ cmp || (7 < src && src != 15)) 1,
    faultCode ((cmp == 0 && on < off) || (cmp == 1 && off < on)) 2,
    faultCode (src != 15 && !(zonesOf m x).contains z) 3,
    faultCode (src == 15 && (names.isEmpty || names.any fun i => !condOn m x i || isCombine m i)) 4,
    faultCode (f (TRIG.W4.CAPTURE c) != 0 &&
      act m (pgCapt x) (CAPT.CLASS.DESC_COUNT (f (TRIG.W4.CLASS c))) == 0) 5]

/-- TRIG (R204): condition and code, as TRIG.REFUSE shows them. -/
def trigCheck (m : RegMap) (x : Line) : Option Nat :=
  ((condsOf m x).filterMap fun c => (condCheck m x c).map fun k => c * 256 + k).head?

/-- The descriptor ranges of a line: first descriptor and number. -/
def descRanges (m : RegMap) (x : Line) : List Range :=
  (List.range 4).map fun k =>
    (act m (pgCapt x) (CAPT.CLASS.DESC_FIRST k), act m (pgCapt x) (CAPT.CLASS.DESC_COUNT k))

/-- Whether two ranges of a list share an element. -/
def rangesMeet : List Range → Bool
  | [] => false
  | a :: r => r.any a.meets || rangesMeet r

/-- CAPT (R213). A RING_SIZE of 0 keeps no history and names no region. -/
def captCheck (d : Dev) (m : RegMap) (x : Line) : Option Nat :=
  let size := act m (pgCapt x) CAPT.RING_SIZE
  let ring : Range := (act m (pgCapt x) CAPT.RING_BASE * 2 ^ 20, size * 2 ^ 20)
  let slotBytes := (frameBytes (pointCount m x) + 63) / 64 * 64
  let mine := descRanges m x
  let theirs := descRanges m x.other
  lowestCode [
    faultCode (size != 0 && (ring.2 / slotBytes < 2 || d.capacity * 2 ^ 20 < ring.1 + ring.2)) 1,
    faultCode (size != 0 && !d.usable ring) 2,
    faultCode (ring.meets (ringRange m x.other)) 3,
    faultCode (rangesMeet mine || mine.any fun a => theirs.any a.meets) 4,
    faultCode (mine.any fun a => a.2 != 0 && 65535 < a.1 + a.2 - 1) 5]

/-- RAMAN (R259, R235, R241). -/
def ramanCheck (d : Dev) (m : RegMap) (x : Line) : Option Nat :=
  let f := ramFld m x
  let g := ramFld m x.other
  let double : Bool := ramDouble m
  let last := f RAMAN.OUT_FIRST + f RAMAN.OUT_COUNT * f RAMAN.STEP
  let limit := if double then ramFld m .a RAMAN.SUM + 1 else f RAMAN.RLEN
  let work : Range := (f RAMAN.WORK_BASE * 2 ^ 20, 4 * f RAMAN.RLEN)
  lowestCode [
    faultCode (shotFld m x SHOT.LINE_LEN + shotFld m x SHOT.GUARD <
        f RAMAN.RZERO + f RAMAN.RLEN + f RAMAN.DARK_LEN + 32 ||
      f RAMAN.RLEN == 0 || 491520 < f RAMAN.RLEN || f RAMAN.DARK_LEN < 16 || 1024 < f RAMAN.DARK_LEN) 1,
    faultCode (f RAMAN.REF_COUNT == 0 || f RAMAN.RLEN < f RAMAN.REF_FIRST + f RAMAN.REF_COUNT) 2,
    faultCode (f RAMAN.STEP == 0 || 64 < f RAMAN.STEP || f RAMAN.OUT_COUNT == 0 ||
      491520 < f RAMAN.OUT_COUNT || limit < last) 3,
    faultCode (f RAMAN.PROFILE.NSHOTS == 0 || 1048576 < f RAMAN.PROFILE.NSHOTS) 4,
    faultCode (x == .a && double && (!enActive m (pgRaman .b) ||
      g RAMAN.PROFILE.NSHOTS != f RAMAN.PROFILE.NSHOTS ||
      g RAMAN.PROFILE.SINGLE != f RAMAN.PROFILE.SINGLE)) 5,
    faultCode (act m pgPfe (PFE.CH.EN (f RAMAN.REF.REF_CH)) == 0) 6,
    faultCode (!d.usable work || work.meets (ringRange m .a) || work.meets (ringRange m .b)) 7]

/-- The first cycle of a line's reel window after the gate edge (R400). -/
def winStart (m : RegMap) (x : Line) : Int :=
  (8 * (act m (pgReel x) REEL.WINDOW.WIN_FIRST : Int) + (act m (pgChan x) CHAN.ZERO : Int) - 128).fdiv 4

/-- The largest kernel length of a line's plan. -/
def kernelMax (m : RegMap) (x : Line) : Nat := maxOf ((launchedTones m x).map (kernelLen m x))

/-- The core cycles of a line's reel window (R400). -/
def winCycles (m : RegMap) (x : Line) : Nat :=
  let r := act m (pgReel x)
  ((8 * ((r REEL.WINDOW.WIN_FIRST + r REEL.WIN_BINS + kernelMax m x : Nat) - 2 : Int) +
    (act m (pgChan x) CHAN.ZERO : Int) + 128).fdiv 4 - winStart m x + 1).toNat

/-- REEL (R417). -/
def reelCheck (d : Dev) (m : RegMap) (x : Line) : Option Nat :=
  let f := act m (pgReel x)
  let bins := f REEL.WIN_BINS
  let r := reelRange m
  let users := ringsAndWork m ++ [saveRange m] ++ (List.range 16).map (codecSaveRange m)
  lowestCode [
    faultCode (f REEL.WINDOW.REC_EN == 1 && (bins == 0 || 12243 < bins ||
      shotFld m x SHOT.LINE_LEN < f REEL.WINDOW.WIN_FIRST + bins)) 1,
    faultCode (x == .a && r.2 != 0 && (!d.usable r || users.any r.meets)) 2,
    faultCode (x == .a && r.2 != 0 && r.2 < 2 ^ 21) 3]

/-- PFE (R260). -/
def pfeCheck (m : RegMap) : Option Nat :=
  let on := (List.range 4).filter fun k => pfeFld m (PFE.CH.EN k) == 1
  let three : Bool := on.any fun k => pfeFld m (PFE.CH.WIRES k) == 1
  let dwell := pfeFld m PFE.DWELL
  faultCode (((List.range 4).any fun k => pfeFld m (PFE.CH.WIRES k) == 3 || pfeFld m (PFE.CH.RATE k) == 7) ||
    (!on.isEmpty && pfeFld m PFE.RREF == 0) || (on.any fun k => pfeFld m (PFE.RNOM k) == 0) ||
    dwell < 6 || (three && dwell < 8)) 1

/-- The lowest fault of one codec context (R338), `m0` being the map in force. -/
def ctxCheck (d : Dev) (m0 m : RegMap) (n : Nat) : Option Nat :=
  let f := codecFld m
  let save := codecSaveRange m n
  let others := ((List.range 16).filter (· != n)).map (codecSaveRange m)
  let kept := [CODEC.CTX.DIR n, CODEC.CTX.WRAP n, CODEC.CTX.CARRY n, CODEC.CTX.PREFILTER n,
    CODEC.CTX.HDR_SKIP n, CODEC.SAVE n]
  lowestCode [
    faultCode (2 ≤ f (CODEC.CTX.PREFILTER n)) 1,
    faultCode (f (CODEC.CTX.BLOCK_IN n) == 0 || 32 < f (CODEC.CTX.BLOCK_IN n)) 2,
    faultCode (save.2 != 0 && (!d.usable save || (others ++ ringsAndWork m).any save.meets)) 3,
    faultCode (codecState d n != 0 && kept.any fun g => codecFld m0 g != f g) 4]

/-- CODEC (R338): context and code, as CODEC.REFUSE shows them. -/
def codecCheck (d : Dev) (m0 m : RegMap) : Option Nat :=
  ((List.range 16).filterMap fun n => (ctxCheck d m0 m n).map fun k => n * 256 + k).head?

/-- ETH (R379). -/
def ethCheck (m : RegMap) (p : Nat) : Option Nat :=
  let f := act m (pgEth p)
  lowestCode [
    faultCode (f ETH.PORT.MTU < 1500 || 9000 < f ETH.PORT.MTU) 1,
    faultCode (f ETH.PORT.RSFEC == 1 && f ETH.PORT.SPEED == 0) 2,
    faultCode (enActive m (pgEth p) && f ETH.FAMILY.IPV4_EN == 0 && f ETH.FAMILY.IPV6_EN == 0) 3]

/-- SAHF (R379). -/
def sahfCheck (d : Dev) (m : RegMap) : Option Nat :=
  let f := act m pgSahf
  lowestCode [
    faultCode ((List.range 16).any fun k => f (SAHF.RING.EN k) == 1 &&
      (f (SAHF.RING.LOG2_SIZE k) < 4 || 16 < f (SAHF.RING.LOG2_SIZE k) || f (SAHF.RING.BASE_LO k) % 64 != 0)) 1,
    faultCode (f SAHF.CODEC.EN == 1 && !d.usable (f SAHF.CODEC.WORK * 2 ^ 20, codecWorkBytes)) 2]

/-- PTP (R379). -/
def ptpCheck (m : RegMap) : Option Nat :=
  let t := act m pgPtp PTP.PORT.TRANSPORT
  let p := act m pgPtp PTP.PORT.PORT
  lowestCode [
    faultCode (t == 3) 1,
    faultCode ((t == 0 && act m (pgEth p) ETH.FAMILY.IPV4_EN == 0) ||
      (t == 1 && act m (pgEth p) ETH.FAMILY.IPV6_EN == 0)) 2]

/-- FOREMAN (R416). -/
def foremanCheck (d : Dev) (m : RegMap) : Option Nat :=
  let r := saveRange m
  let users := ringsAndWork m ++ [reelRange m] ++ (List.range 16).map (codecSaveRange m)
  faultCode (r.2 != 0 && (!d.usable r || users.any r.meets)) 1

/-- The check of a page's candidate configuration in `m`, the map in force being `m0` (R25). -/
def pageCheck (d : Dev) (m0 m : RegMap) (pg : Page) : Option Nat :=
  let x := Line.ofUnit pg.unit
  let mode := d.pwr.mode
  match pg.block with
  | .shot => let r := planCheck m x; if r.code = 0 then none else some r.code
  | .emit => emitCheck m x
  | .canary => canaryCheck m x
  | .lane => laneCheck m mode x
  | .raml => ramlCheck m mode x
  | .trim => trimCheck m mode x
  | .chan => chanCheck m x
  | .phase => phaseCheck m x
  | .gauge => gaugeCheck m x
  | .pfilt => pfiltCheck m x
  | .zone => zoneCheck m x
  | .trig => trigCheck m x
  | .capt => captCheck d m x
  | .raman => ramanCheck d m x
  | .reel => reelCheck d m x
  | .hk => hkCheck m
  | .pfe => pfeCheck m
  | .tiu => tiuCheck m pg.unit
  | .ddr => let c := ddrCheck m pg.unit; if c = 0 then none else some c
  | .codec => codecCheck d m0 m
  | .eth => ethCheck m pg.unit
  | .sahf => sahfCheck d m
  | .ptp => ptpCheck m
  | .foreman => foremanCheck d m
  | .dev | .journal | .trouble | .tally | .pwr | .syn | .memx | .sram | .dma | .pcie | .spis | .legacy
  | .i2cm | .aon => none

/-- The offset of a page's REFUSE word, where it has one. -/
def refuseOff : Block → Option Nat
  | .chan => some CHAN.REFUSE.off
  | .phase => some PHASE.REFUSE.off
  | .gauge => some GAUGE.REFUSE.off
  | .pfilt => some PFILT.REFUSE.off
  | .zone => some ZONE.REFUSE.off
  | .trig => some TRIG.REFUSE.CODE.off
  | .capt => some CAPT.REFUSE.off
  | .raman => some RAMAN.REFUSE.off
  | .reel => some REEL.REFUSE.off
  | .ddr => some DDR.REFUSE.off
  | .codec => some CODEC.REFUSE.CODE.off
  | .eth => some ETH.REFUSE.off
  | .ptp => some PTP.REFUSE.off
  | .sahf => some SAHF.REFUSE.off
  | .tiu => some TIU.REFUSE.off
  | .hk => some HK.REFUSE.off
  | .foreman => some FOREMAN.REFUSE.off
  | .dev | .journal | .trouble | .pfe | .tally | .pwr | .shot | .syn | .emit | .canary | .lane | .raml
  | .trim | .memx | .sram | .dma | .pcie | .spis | .legacy | .i2cm | .aon => none

end Sys2Proof.Machine
end

