-- ==== Sys2Proof/Machine/Pcie.lean ====
section
/-!
DEFINITION. The PCI Express endpoint (chapter 13, R341 to R344): MSI-X, function level reset, the link, and
the window onto DRAM behind BAR2.
-/
namespace Sys2Proof.Machine

-- ---- MSI-X (R343) ------------------------------------------------------------------------------------

/-- Whether some source of a vector is raised: page interrupts routed to it, DMA channels, a ring whose
message was withheld. -/
def vectorRaised (d : Dev) (v : Nat) : Bool :=
  ((List.range 59).any fun i => d.irq.getD i false && liv d.regs pgDev (DEV.IRQ_ROUTE.EN i) == 1 &&
    liv d.regs pgDev (DEV.IRQ_ROUTE.VECTOR i) == v) ||
  ((List.range 32).any fun c => d.dma.irq.getD c false && act d.regs pgDma (DMA.CH.VECTOR c) == v) ||
  ((List.range 16).any fun r => (d.ring r).held && act d.regs pgSahf (SAHF.RING.VECTOR r) == v)

/-- The pending bit of a vector. -/
def pbaBit (d : Dev) (v : Nat) : Bool := bitOf (liv d.regs pgPcie (PCIE.PBA (v / 32))) (v % 32)

/-- The pending message of an unmasked vector: sent when its source is still raised, its bit cleared.
DEDUCED: log entry 29. -/
def sendPending (d : Dev) (v : Nat) : Dev :=
  if !pbaBit d v || d.pcie.funcMask || liv d.regs pgPcie (PCIE.MSIX.MASK v) == 1 || !pcieUp d then d
  else
    let up := vectorRaised d v
    let w := liv d.regs pgPcie (PCIE.PBA (v / 32))
    let d := d.setLiv pgPcie (PCIE.PBA (v / 32)) (putBits w (v % 32) (v % 32) 0)
    let free (e : RingSt × Nat) : RingSt :=
      if act d.regs pgSahf (SAHF.RING.VECTOR e.2) = v then { e.1 with held := false } else e.1
    let d := d.onSahf fun k => { k with rings := k.rings.zipIdx.map free }
    if up then d.msix v else d

/-- MSIX_UNMASK (R343): one vector, or the function. DEDUCED: log entry 29. -/
def msixUnmask (v : Option Nat) (d : Dev) : Dev :=
  if !d.domainOn 2 then d
  else
    match v with
    | some n => sendPending (d.setLiv pgPcie (PCIE.MSIX.MASK n) 0) n
    | none =>
      (List.range 64).foldl sendPending { d with pcie := { d.pcie with funcMask := false } }

-- ---- the endpoint's identity (R341, R342) -------------------------------------------------------------

/-- Dwords of the endpoint's configuration header as the spec fixes them: device 0x7020 and the fused vendor; class
0x11_8000; the type bits of BAR0 (64-bit, not prefetchable) and BAR2 (64-bit, prefetchable), whose size masks leave
16 MiB and 64 GiB; the fused subsystem. The revision is open (a free value of the part). PRESUMED: log entry 150. -/
def pcieHeader (revision : Nat) : Nat → Nat
  | 0 => 0x7020 * 2 ^ 16 + (Config.fusePci 0).toNat
  | 2 => 0x118000 * 2 ^ 8 + revision % 2 ^ 8
  | 4 => 0xFF000004
  | 5 => 0xFFFFFFFF
  | 6 => 0x0000000C
  | 7 => 0xFFFFFFF0
  | 11 => (Config.fusePci 2).toNat * 2 ^ 16 + (Config.fusePci 1).toNat
  | _ => 0

-- ---- reset and link (R344) -----------------------------------------------------------------------------

/-- What a function level reset and the loss of the link have in common: configuration space and the MSI-X
table at reset values, rings disabled, HOST accesses halted. -/
def flr (d : Dev) : Dev :=
  let d := { d with
    regs := d.regs.filter fun e => !(0x600C00 ≤ e.1 && e.1 < 0x601000) && !(e.1 == 0x6009F8 || e.1 == 0x6009FC),
    pcie := { d.pcie with funcMask := true } }
  haltHost (ringsOff d)

/-- PCIE_FLR (R344, the last row of R436). DEDUCED: log entry 70. -/
def pcieFlr (d : Dev) : Dev :=
  if pcieUp d then { flr d with aon := AON.RESET_CAUSE.put (flr d).aon (pageBase pgAon) 7 } else d

/-- LINK_DOWN (R344). DESIGN CHOICE: log entry 114. -/
def linkDown (d : Dev) : Dev :=
  if !pcieUp d then d
  else
    let d := d.setLiv pgPcie PCIE.LINK.UP 0
    let d := d.setLiv pgPcie PCIE.LINK.WIDTH 0
    let d := d.setLiv pgPcie PCIE.LINK.GEN 0
    flr (d.event pgPcie 4)

/-- PCIE_LINK_UP (R341, the PCIE page): the page applies (`ap`), and the link trains at most at MAX_GEN; while
HOST runs reduced the link stays down (R421). DEDUCED: log entry 70. DESIGN CHOICE: log entry 114. -/
def pcieLinkUp (ap : Nat → Dev → Dev) (width gen : Nat) (d : Dev) : Dev :=
  if !d.pageOn pgPcie || d.pwr.reduced then d
  else
    let d := ap pgPcie d
    let d := d.setLiv pgPcie PCIE.LINK.UP 1
    let d := d.setLiv pgPcie PCIE.LINK.WIDTH width
    d.setLiv pgPcie PCIE.LINK.GEN (min gen (act d.regs pgPcie PCIE.MAX_GEN + 1))

-- ---- BAR2 (R342) ---------------------------------------------------------------------------------------------

/-- The enabled bytes of one line of a write from an address. -/
def lineOpt (a : Nat) (data : List (Option Byte)) (line : Nat) : List (Option Byte) :=
  (List.range 64).map fun i => if line * 64 + i < a then none else data.getD (line * 64 + i - a) none

/-- The answer to a BAR2 access. -/
def bar2Reply (d : Dev) (status : Nat) (data : List Byte) : Dev :=
  { d with pcie := { d.pcie with reply := some (status, data) } }

/-- A BAR2 access that meets a bus error (R42). DEDUCED: log entry 69. -/
def bar2Error (d : Dev) (a : Nat) (e : BusErr) : Dev :=
  bar2Reply (d.busError (a % 2 ^ 24) e (linkCode .pcie)) (16 + e.code) []

/-- What a DRAM status makes of a BAR2 access. -/
def bar2End (d : Dev) (a : Nat) (st : MemStatus) (data : List Byte) : Dev :=
  match st with
  | .ok => bar2Reply d 0 data
  | .poisoned => bar2Reply d 1 data
  | .uninit => bar2Error d a .uninit
  | .unmapped => bar2Error d a .unmapped
  | .off => bar2Error d a .domainOff

/-- The bytes of the DRAM address space, while MEM is off those that AON keeps for its next power-up (R285, R286); at
most BAR2's 64 GiB. -/
def dramSize (d : Dev) : Nat :=
  min (2 ^ 36) ((if d.domainOn 4 then d else loadDram d).capacity * 2 ^ 20)

/-- BAR2_ACCESS (R342): a read of `len` bytes, or a write with byte enables. DEDUCED: log entry 69. -/
def bar2Access (a len : Nat) (wr : Option (List (Option Byte))) (ecc : Ecc) (d : Dev) : Dev :=
  if !pcieUp d then d
  else
    let n : Nat := match wr with | some w => w.length | none => len
    if dramSize d < a + n then bar2Error d a .unmapped
    else if !d.domainOn 4 then bar2Error d a .domainOff
    else
      match wr with
      | none =>
        let r := d.memRead a n ecc
        bar2End r.1 a r.2.1 r.2.2.2
      | some w =>
        let r := d.writeLines (lineOpt a w) (linesOf a n) ecc .ok
        bar2End r.1 a r.2 []

/-- PCIE_FLR (R344, the last row of R436). -/
def execPcieFlr (s : State) : Host.Outcome State Fault Refusal := done s (pcieFlr s.dev)

/-- LINK_DOWN (R344). -/
def execLinkDown (s : State) : Host.Outcome State Fault Refusal := done s (linkDown s.dev)

/-- BAR2_ACCESS (R342). -/
def execBar2Access (a len : Nat) (wr : Option (List (Option Byte))) (ecc : Ecc) (s : State) :
    Host.Outcome State Fault Refusal :=
  done s (bar2Access a len wr ecc s.dev)

/-- MSIX_UNMASK (R343). -/
def execMsixUnmask (v : Option (Fin 64)) (s : State) : Host.Outcome State Fault Refusal :=
  done s (msixUnmask (v.map Fin.val) s.dev)

end Sys2Proof.Machine
end

