-- ==== Sys2Proof/Machine/Ptp.lean ====
section
/-!
DEFINITION. Device time and its discipline (chapter 13, R355 to R362): steps, the PTP servo, PPS_IN and
PPS_OUT, REFCLK_IN; and the I²C masters of the SFP28 cages (R354).
-/
namespace Sys2Proof.Machine

/-- PTP changed. -/
def Dev.onPtp (d : Dev) (f : PtpSt → PtpSt) : Dev := { d with ptp := f d.ptp }

/-- A field of the active PTP page. -/
def ptpFld (d : Dev) (f : Fld) : Nat := act d.regs pgPtp f

/-- Whether the PTP page produces. -/
def ptpOn (d : Dev) : Bool := d.pageOn pgPtp && enActive d.regs pgPtp

/-- PTP.SOURCE: 0 FREE, 1 PTP, 2 PPS, 3 PTP_PPS (R357). -/
def ptpSource (d : Dev) : Nat := ptpFld d PTP.PORT.SOURCE

/-- PTP.STATE: 0 FREE, 1 ACQUIRE, 2 LOCKED, 3 HOLDOVER (R360). -/
def ptpState (d : Dev) : Nat := liv d.regs pgPtp PTP.STATE

/-- STATE written, with STATUS.LOCKED. -/
def setPtpState (d : Dev) (s : Nat) : Dev := (d.setLiv pgPtp PTP.STATE s).setStatus pgPtp 8 (s == 2)

/-- The servo enters ACQUIRE (R360). -/
def acquire (d : Dev) : Dev :=
  (setPtpState d 1).onPtp fun p => { p with good := 0, bad := 0, stepped := false }

/-- Device time in units of the clock, per nanosecond and per picosecond. -/
def nsUnits : Nat := 327680000000

/-- Units of a picosecond. -/
def psUnits : Nat := 327680000

-- ---- steps and slews (R356) -----------------------------------------------------------------------------

/-- A step: device time replaced, STEP counted, TIME_STEP journalled with the old time; PPS_OUT is
suppressed for one second; stamps taken before it no longer count. -/
def stepTime (d : Dev) (units : Int) : Dev :=
  let old := d.timeNs
  let t : Nat := (units % ((2 ^ 64 * nsUnits : Nat) : Int)).toNat
  let d := { d with clk := { d.clk with time := t } }
  let d := d.onPtp fun p => { p with quiet := d.clk.tick + 625000000, twoStep := none, lastM := none, dreq := none }
  let d := d.event pgPtp 4
  d.journal { link := linkHardware, kind := kindTimeStep, page := pgPtp, arg := old }

/-- The servo's step. -/
def servoStep (d : Dev) (units : Int) : Dev :=
  let n := d.jr.nextSeq
  (stepTime d units).onPtp fun p => { p with stepAt := some (d.clk.tick, n) }

/-- FREQ written, in 2^-16 ppm. -/
def setFreq (d : Dev) (f : Int) : Dev :=
  { d with clk := { d.clk with freq := f } }.setLivS pgPtp PTP.FREQ f

/-- The largest |FREQ|: 500 ppm (R355). -/
def freqMax : Int := 32768000

/-- A slew: the servo chooses FREQ within its limit from an offset in picoseconds and its gains; the scale of its law
is open (a free value). DESIGN CHOICE: log entry 71. -/
def slew (d : Dev) (off : Int) : Dev :=
  setFreq d.tookFree (clamp (-freqMax) freqMax
    (Config.servoFreq (ptpFld d PTP.SERVO.KP_SHIFT) (ptpFld d PTP.SERVO.KI_SHIFT) off d.clk.freq d.freeCtr))

/-- A signed value shown in a 32-bit register; one outside the format is open (a free value).
DESIGN CHOICE: log entry 71. -/
def showSigned (d : Dev) (f : Fld) (v : Int) : Dev :=
  if satS 32 v = v then d.setLivS pgPtp f v else d.tookFree.setLiv pgPtp f (d.free.toNat % 2 ^ 32)

-- ---- the servo (R359, R360) ---------------------------------------------------------------------------------

/-- Whether PTP offsets steer device time now (R357). -/
def ptpSteers (d : Dev) : Bool := ptpSource d == 1 || (ptpSource d == 3 && ptpState d == 2)

/-- An offset in picoseconds reaches the servo. DEDUCED: log entry 73. -/
def servo (d : Dev) (off : Int) : Dev :=
  let d := showSigned d PTP.OFFSET (off.fdiv 1000)
  let d := if ptpState d = 3 then acquire d else d
  let big := ((ptpFld d PTP.STEP_THRESH * 1000 : Nat) : Int) < (off.natAbs : Int)
  match ptpState d with
  | 1 =>
    if big && !d.ptp.stepped && ptpSteers d then
      (servoStep d ((d.clk.time : Int) - off * (psUnits : Int))).onPtp fun p => { p with stepped := true, good := 0 }
    else
      let d := if ptpSteers d then slew d off else d
      let good := if off.natAbs ≤ 100000 then d.ptp.good + 1 else 0
      let d := d.onPtp fun p => { p with good := good, bad := 0 }
      if 16 ≤ good then setPtpState d 2 else d
  | 2 =>
    let bad := if big then d.ptp.bad + 1 else 0
    let d := d.onPtp fun p => { p with bad := bad }
    if 4 ≤ bad then acquire (d.event pgPtp 5) else if ptpSteers d then slew d off else d
  | _ => d

/-- t2 − t1 of the last Sync with its corrections, in picoseconds. -/
def syncDelta (d : Dev) (m : Int × Int × Int) : Int :=
  (m.2.1 - m.1 - m.2.2) * 1000 - (ptpFld d PTP.LATENCY.RX_PS : Int)

/-- ASYM in picoseconds. -/
def ptpAsym (d : Dev) : Int := signed 32 (ptpFld d PTP.ASYM)

/-- The offset of the last Sync, once the mean path is known (R359). DEDUCED: log entry 72. -/
def measure (d : Dev) : Dev :=
  match d.ptp.lastM, d.ptp.path with
  | some m, some path => servo d (syncDelta d m - path - ptpAsym d)
  | _, _ => d

/-- A Sync with its time of departure known. DEDUCED: log entry 72. -/
def syncDone (d : Dev) (t1 t2 corr : Int) : Dev :=
  measure (d.onPtp fun p => { p with lastM := some (t1, t2, corr), twoStep := none })

/-- Whether the PTP block takes messages. -/
def ptpTakes (d : Dev) : Bool := ptpOn d && (ptpSource d == 1 || ptpSource d == 3)

/-- Whether a SET falls in this cycle. -/
def setNow (d : Dev) : Bool := d.ptp.setAt == some d.clk.tick

/-- Ticks of 2^log seconds. -/
def logTicks (log : Int) : Nat :=
  if 0 ≤ log then secondTicks * 2 ^ log.toNat else secondTicks / 2 ^ (-log).toNat

-- ---- the best master (R358) ---------------------------------------------------------------------------

/-- The first of two lists of numbers in lexical order. -/
def lexLess : List Nat → List Nat → Bool
  | a :: as, b :: bs => a < b || (a == b && lexLess as bs)
  | _, _ => false

/-- Whether a foreign master is better than another by the comparison of data sets: of one grandmaster the shorter way,
else the better grandmaster. PRESUMED: log entry 143. -/
def Foreign.better (a b : Foreign) : Bool :=
  if a.ann.gm = b.ann.gm then
    lexLess [a.ann.steps.toNat, a.source.toNat] [b.ann.steps.toNat, b.source.toNat]
  else
    let key (f : Foreign) : List Nat :=
      [f.ann.priority1.toNat, f.ann.clockClass.toNat, f.ann.accuracy.toNat, f.ann.variance.toNat,
       f.ann.priority2.toNat, f.ann.gm.toNat]
    lexLess (key a) (key b)

/-- The Announces of a foreign master within the last four of its announce intervals. PRESUMED: log entry 143. -/
def Foreign.recent (f : Foreign) (now : Nat) : List Nat := f.seen.filter fun t => now ≤ t + 4 * logTicks f.ann.logInterval

/-- The best of the foreign masters that have announced themselves twice. PRESUMED: log entry 143. -/
def bestMaster (l : List Foreign) (now : Nat) : Option Foreign :=
  (l.filter fun f => 2 ≤ (f.recent now).length).foldl (fun best f => match best with
    | none => some f
    | some b => if f.better b then some f else some b) none

/-- The clock identity of a port's PTP clock: the EUI-64 of its MAC address. PRESUMED: log entry 74. -/
def clockIdentity (d : Dev) (p : Nat) : Nat :=
  let mac := portMac d p
  mac / 2 ^ 24 * 2 ^ 40 + 0xFFFE * 2 ^ 24 + mac % 2 ^ 24

/-- An Announce joins the foreign masters; those not heard of within their window are forgotten. -/
def noteAnnounce (l : List Foreign) (now : Nat) (src : BitVec 80) (a : Announce) : List Foreign :=
  let old := ((l.find? fun f => f.source == src).map Foreign.seen).getD []
  let f : Foreign := ⟨src, a, now :: old⟩
  ⟨src, a, f.recent now⟩ :: l.filter fun g => g.source != src && !(g.recent now).isEmpty

/-- A master is followed: what its Announce shows; a change of master enters ACQUIRE (R360). -/
def followMaster (d : Dev) (f : Foreign) : Dev :=
  let shown (d : Dev) : Dev :=
    ((d.setPair pgPtp 0x924 0x928 (f.source.toNat / 2 ^ 16)).setLiv pgPtp PTP.UTC_OFFSET f.ann.utcOffset.toNat).onPtp
      fun p => { p with master := some f.source, logInt := f.ann.logInterval }
  if d.ptp.master = some f.source then shown d
  else
    let d := if d.ptp.master.isSome then d.event pgPtp 6 else d
    (acquire (shown d)).onPtp fun p =>
      { p with syncAt := d.clk.tick, lastM := none, twoStep := none, dreq := none, path := none }

/-- An Announce (R358): the best-master selection among the foreign masters. PRESUMED: log entry 143. -/
def announce (d : Dev) (o : PtpFrom) (a : Announce) : Dev :=
  if 255 ≤ a.steps.toNat ∨ o.source.toNat / 2 ^ 16 = clockIdentity d o.port.val then d
  else
    let l := noteAnnounce d.ptp.foreign d.clk.tick o.source a
    let d := d.onPtp fun p => { p with foreign := l }
    match bestMaster l d.clk.tick with
    | none => d
    | some f => followMaster d f

/-- Whether a message concerns the PTP block (R358): its port, transport and domain. -/
def ptpConcerns (d : Dev) (o : PtpFrom) : Bool :=
  ptpFld d PTP.PORT.PORT == o.port.val && ptpFld d PTP.PORT.TRANSPORT == o.transport.val &&
    ptpFld d PTP.PORT.DOMAIN == o.domain.toNat && ethUp d o.port.val

/-- PTP_MESSAGE (R358 to R360); the page applies at the message (`ap`). Sync and its like count from the master
alone. -/
def ptpMessage (ap : Nat → Dev → Dev) (o : PtpFrom) (m : PtpMsg) (d : Dev) : Dev :=
  let d := ap pgPtp d
  if !ptpTakes d || !ptpConcerns d o then d
  else
    match m with
    | .announce a => announce d o a
    | .sync seq two t1 corr t2 =>
      if d.ptp.master ≠ some o.source then d
      else
        let d := d.onPtp fun p => { p with syncAt := d.clk.tick }
        if setNow d then d
        else if two then d.onPtp fun p => { p with twoStep := some (seq.toNat, t2, corr) }
        else syncDone d t1 t2 corr
    | .followUp seq t1 corr =>
      match d.ptp.twoStep with
      | some (n, t2, c) => if n = seq.toNat ∧ d.ptp.master = some o.source then syncDone d t1 t2 (corr + c) else d
      | none => d
    | .delayResp seq t4 corr =>
      match d.ptp.dreq, d.ptp.lastM with
      | some (n, some t3), some s =>
        if n ≠ seq.toNat ∨ d.ptp.master ≠ some o.source then d
        else
          let back := (t4 - t3 - corr) * 1000 - (ptpFld d PTP.LATENCY.TX_PS : Int)
          let path := (syncDelta d s + back).fdiv 2
          let d := d.onPtp fun p => { p with dreq := none, path := some path }
          measure (showSigned d PTP.MEAN_PATH (path.fdiv 1000))
      | _, _ => d

/-- SYNC_TIMEOUT (R360). -/
def syncTimeout (d : Dev) : Dev :=
  if !ptpTakes d || d.ptp.master.isNone || ptpState d == 0 || ptpState d == 3 then d
  else (setPtpState (d.advanceTo (d.ptp.syncAt + 3 * logTicks d.ptp.logInt)) 3).event pgPtp 8

-- ---- Delay_Req (R358) -----------------------------------------------------------------------------------------

/-- The 44 bytes of a Delay_Req. PRESUMED: log entry 74. -/
def delayReqBytes (d : Dev) (p seq : Nat) : List Byte :=
  let clockId := clockIdentity d p
  beBytes 1 0x01 ++ beBytes 1 0x12 ++ beBytes 2 44 ++ beBytes 1 (ptpFld d PTP.PORT.DOMAIN) ++ beBytes 1 0 ++
  beBytes 2 0 ++ beBytes 8 0 ++ beBytes 4 0 ++ beBytes 8 clockId ++ beBytes 2 1 ++ beBytes 2 seq ++
  beBytes 1 1 ++ beBytes 1 0x7F ++ beBytes 10 0

/-- A PTP event message in its frame (R358). PRESUMED: log entry 74. -/
def ptpFrame (d : Dev) (p : Nat) (body : List Byte) : Dev × List Byte :=
  match ptpFld d PTP.PORT.TRANSPORT with
  | 0 =>
    let src := sourceFor d p false 0xE0000181
    ipFrame d p 0x01005E000181 false src 0xE0000181 0 17 (udpPacket false src 0xE0000181 319 319 body)
  | 1 =>
    let dst := 0xFF0E * 2 ^ 112 + 0x181
    let src := sourceFor d p true dst
    ipFrame d p (mac6 dst) true src dst 0 17 (udpPacket true src dst 319 319 body)
  | _ => (d, ethFrame d p 0x011B19000000 0x88F7 body)

/-- DELAY_REQ (R358): one interval after the last. -/
def delayReq (ap : Nat → Dev → Dev) (d : Dev) : Dev :=
  if !ptpTakes d || d.ptp.master.isNone then d
  else
    let d := d.advanceTo (d.ptp.dreqAt + logTicks (-(signed 8 (ptpFld d PTP.LOG_DELAY_REQ))))
    let d := ap pgPtp d
    let p := ptpFld d PTP.PORT.PORT
    let d := d.onPtp fun s => { s with dreqAt := d.clk.tick }
    if !ptpTakes d || !ethUp d p then d
    else
      let n := d.ptp.dseq
      let f := ptpFrame d p (delayReqBytes d p n)
      let d := f.1.onPtp fun s => { s with dreq := some (n, none), dseq := (n + 1) % 65536 }
      d.onPort p fun e => { e with ptp := e.ptp ++ [f.2] }

-- ---- SET (R357) ----------------------------------------------------------------------------------------------------

/-- The journal entry of a servo step that a SET of the same cycle replaces now records the SET. -/
def restamp (d : Dev) (seq time : Nat) : Dev :=
  let fix (e : JEntry) : JEntry := if e.seq = seq then { e with time := time } else e
  { d with jr := { d.jr with entries := d.jr.entries.map fix, uncopied := d.jr.uncopied.map fix,
                             outbox := d.jr.outbox.map fix } }

/-- SET (R357): device time steps to SET_HI:SET_LO and a servo with a master enters ACQUIRE; a step of the servo in
the same cycle is discarded with its measurement. -/
def timeSet (d : Dev) : Dev :=
  let t := d.pair pgPtp 0x980 0x984
  let same : Bool := match d.ptp.stepAt with
    | some (k, _) => k == d.clk.tick
    | none => false
  let d := match d.ptp.stepAt with
    | some (k, n) =>
      if k = d.clk.tick then
        restamp { d with clk := { d.clk with time := t * nsUnits } } n t
      else stepTime d ((t * nsUnits : Nat) : Int)
    | none => stepTime d ((t * nsUnits : Nat) : Int)
  let d := if ptpTakes d && d.ptp.master.isSome then acquire d else d
  d.onPtp fun p =>
    { p with setAt := some d.clk.tick, stepAt := none, twoStep := none, lastM := none, dreq := none,
             ppsAt := if same && p.ppsAt == some d.clk.tick then none else p.ppsAt }

-- ---- PPS (R361) --------------------------------------------------------------------------------------------------------

/-- Whether PPS_IN edges steer device time now (R357). DEDUCED: log entry 73. -/
def ppsSteers (d : Dev) : Bool := ptpSource d == 2 || (ptpSource d == 3 && ptpState d != 2)

/-- PPS_IN_EDGE (R361). DEDUCED: log entry 75. -/
def ppsInEdge (rising : Bool) (d : Dev) : Dev :=
  let d := tiuEdge 2 rising d
  if !ptpOn d || ptpFld d PTP.PPS_IN.EN == 0 || rising == (ptpFld d PTP.PPS_IN.POL == 1) then d
  else if ppsSteers d && d.ptp.ppsAt.isNone && setNow d then d
  else
    let t := d.timeNs
    let whole := (t + 500000000) / 1000000000 * 1000000000
    let first := d.ptp.ppsAt.isNone
    let d := d.setLivS pgPtp PTP.PPS_IN_ERR ((t : Int) - (whole : Int))
    let d := d.onPtp fun p => { p with ppsAt := some d.clk.tick, ppsGone := false }
    if !ppsSteers d then d
    else if first then servoStep d ((whole * nsUnits : Nat) : Int)
    else slew d (((t : Int) - (whole : Int)) * 1000)

/-- PPS_MISSING (R361): 1.1 s after the last edge. -/
def ppsMissing (d : Dev) : Dev :=
  match d.ptp.ppsAt with
  | none => d
  | some t =>
    if !ptpOn d || ptpFld d PTP.PPS_IN.EN == 0 || d.ptp.ppsGone then d
    else ((d.advanceTo (t + 687500000)).onPtp fun p => { p with ppsGone := true }).event pgPtp 7

/-- PPS_OUT (R361): the clock moves to the first cycle at which device time has reached the next whole second
plus PPS_OFFSET; PPS_OUT rises unless a step suppresses it. DEDUCED: log entry 75. -/
def ppsOut (d : Dev) : Dev :=
  if !ptpOn d || ptpFld d PTP.PPS_OUT.EN == 0 || !d.clk.coreOn then d
  else
    let sec : Int := ((1000000000 * nsUnits : Nat) : Int)
    let cur : Int := (d.clk.time : Int) - signed 32 (ptpFld d PTP.PPS_OFFSET) * (nsUnits : Int)
    let gap : Nat := ((cur.fdiv sec + 1) * sec - cur).toNat
    let d := d.advance (ceilDiv gap (8 * (65536000000 + d.clk.freq)).toNat)
    if d.clk.tick < d.ptp.quiet then d
    else
      let d := if d.ptp.ppsOut then d else tiuEdge 3 true d
      d.onPtp fun p => { p with ppsOut := true, outEnd := d.clk.tick + ptpFld d PTP.PPS_OUT.WIDTH }

/-- PPS_OUT_END (R361). -/
def ppsOutEnd (d : Dev) : Dev :=
  if d.ptp.ppsOut then tiuEdge 3 false ((d.advanceTo d.ptp.outEnd).onPtp fun p => { p with ppsOut := false }) else d

-- ---- REFCLK_IN (R362) ------------------------------------------------------------------------------------------------------

/-- REF_PRESENT and REF_LOST follow REFCLK_IN. -/
def showRef (d : Dev) : Dev :=
  let d := if d.pageOn pgPtp then d.setStatus pgPtp 9 (!d.pins.refPresent) else d
  if d.pageOn pgPwr then d.setLiv pgPwr PWR.CLOCKS.REF_PRESENT (bit d.pins.refPresent) else d

/-- REF_LOST (R362): 1 µs without an edge. -/
def refLost (d : Dev) : Dev :=
  if !d.pins.refPresent || !d.clk.coreOn then d
  else lanePllLoss (showRef { d.advance 625 with pins := { d.pins with refPresent := false } })

/-- REF_RETURN (R362): present for 450 µs. -/
def refReturn (d : Dev) : Dev :=
  if d.pins.refPresent then d
  else
    let d := showRef { d.advance 281250 with pins := { d.pins with refPresent := true } }
    if d.domainOn 10 then lanePllLock d else d

/-- What an apply of the PTP page changes at once: SOURCE FREE sets FREQ to 0 (R357); under a new source the
first PPS_IN edge steps again. -/
def ptpApplied (m0 : RegMap) (d : Dev) : Dev :=
  let d := if act m0 pgPtp PTP.PORT.SOURCE = ptpSource d then d
    else d.onPtp fun p => { p with ppsAt := none, ppsGone := false }
  if ptpSource d = 0 then setPtpState (setFreq d 0) 0
  else if ptpState d = 0 ∧ act m0 pgPtp PTP.PORT.SOURCE = 0 ∧ d.ptp.master.isSome then acquire d else d

-- ---- I²C (R354) -------------------------------------------------------------------------------------------------------------

/-- The readings of a cage published. -/
def showCage (d : Dev) (p : Nat) (r : SfpReading) : Dev :=
  let d := d.setLiv pgI2cm (I2CM.CAGE.LOS p) (bit r.los)
  let d := d.setLiv pgI2cm (I2CM.TEMP p) r.temp.toNat
  let d := d.setLiv pgI2cm (I2CM.VCC p) r.vcc.toNat
  let d := d.setLiv pgI2cm (I2CM.TX_BIAS p) r.txBias.toNat
  let d := d.setLiv pgI2cm (I2CM.TX_POWER p) r.txPower.toNat
  d.setLiv pgI2cm (I2CM.RX_POWER p) r.rxPower.toNat

/-- I2C_POLL (R354): one second after the last poll of the cage. -/
def i2cPoll (ap : Nat → Dev → Dev) (p : Nat) (diag : Option SfpReading) (d : Dev) : Dev :=
  if !d.pageOn pgI2cm || !enActive d.regs pgI2cm || act d.regs pgI2cm I2CM.CONTROL.POLL_EN == 0 then d
  else
    let d := ap pgI2cm (d.advanceTo (d.ser.pollAt.getD p 0 + secondTicks))
    let d := { d with ser := { d.ser with pollAt := d.ser.pollAt.set p d.clk.tick } }
    if liv d.regs pgI2cm (I2CM.CAGE.PRESENT p) = 0 then d
    else showCage d p (diag.getD ⟨false, 0, 0, 0, 0, 0⟩)

/-- XFER (R354): one byte, when GO is written. DESIGN CHOICE: log entry 76. -/
def xfer (ap : Nat → Dev → Dev) (v : Word) (ack : Bool) (data : Byte) (d : Dev) : Dev :=
  if !bitOf v.toNat 31 then d
  else
    let d := ap pgI2cm d
    let d := d.setLiv pgI2cm I2CM.XFER_RESULT.DONE 1
    let d := d.setLiv pgI2cm I2CM.XFER_RESULT.NACK (bit !ack)
    let d := if ack && !bitOf v.toNat 25 then d.setLiv pgI2cm I2CM.XFER_RESULT.DATA data.toNat else d
    if ack then d else d.event pgI2cm 4

/-- MODULE_CHANGE (R354): MOD_ABS of a cage changes. -/
def moduleChange (p : Nat) (present : Bool) (d : Dev) : Dev :=
  if !d.pageOn pgI2cm || liv d.regs pgI2cm (I2CM.CAGE.PRESENT p) == bit present then d
  else (d.setLiv pgI2cm (I2CM.CAGE.PRESENT p) (bit present)).event pgI2cm 5

/-- SYNC_TIMEOUT (R360). -/
def execSyncTimeout (s : State) : Host.Outcome State Fault Refusal := done s (syncTimeout s.dev)

/-- SET (R357). -/
def execTimeSet (k : Link) (s : State) : Host.Outcome State Fault Refusal :=
  done s (s.dev.guarded k pgPtp 0x988 timeSet)

/-- PPS_IN_EDGE (R361). -/
def execPpsInEdge (rising : Bool) (s : State) : Host.Outcome State Fault Refusal := done s (ppsInEdge rising s.dev)

/-- PPS_MISSING (R361). -/
def execPpsMissing (s : State) : Host.Outcome State Fault Refusal := done s (ppsMissing s.dev)

/-- PPS_OUT (R361). -/
def execPpsOut (s : State) : Host.Outcome State Fault Refusal := done s (ppsOut s.dev)

/-- PPS_OUT_END (R361). -/
def execPpsOutEnd (s : State) : Host.Outcome State Fault Refusal := done s (ppsOutEnd s.dev)

/-- REF_LOST (R362). -/
def execRefLost (s : State) : Host.Outcome State Fault Refusal := done s (refLost s.dev)

/-- REF_RETURN (R362). -/
def execRefReturn (s : State) : Host.Outcome State Fault Refusal := done s (refReturn s.dev)

/-- MODULE_CHANGE (R354). -/
def execModuleChange (p : Fin 2) (present : Bool) (s : State) : Host.Outcome State Fault Refusal :=
  done s (moduleChange p.val present s.dev)

end Sys2Proof.Machine
end

