-- ==== Sys2Proof/Machine/Apply.lean ====
section
/-!
DEFINITION. How settings take effect (chapter 01): arming, the copy from shadow to active with the
checks of the chapters, idle and natural boundaries, what each block does at its apply, strobes,
the journal entries, and the parity sweep.
-/
namespace Sys2Proof.Machine

/-- A shadowed stretch of words: where its shadow and active views stand, its size, the words of it
that belong to the page. -/
structure Part where
  shadow : Nat
  active : Nat
  size   : Nat
  keep   : Nat → Bool

/-- The entries of 32 bytes of a table region whose LINE, in the shadow or the active view, is `x`. -/
def entryKeep (m : RegMap) (shadow active : Nat) (line : Nat → Fld) (x : Line) (off : Nat) : Bool :=
  (line (off / 32)).at m shadow == x.idx || (line (off / 32)).at m active == x.idx

/-- The shadowed region of a page, if it has one (R17, R22). -/
def regionPart (m : RegMap) (pg : Page) : Option Part :=
  let x := Line.ofUnit pg.unit
  match pg.block with
  | .shot => some ⟨0xA60000 + 0x2000 * x.idx, planBase x, 0x1000, fun _ => true⟩
  | .zone => some ⟨0xA00000, 0xA20000, 0x20000, entryKeep m 0xA00000 0xA20000 ZONE.W0.LINE x⟩
  | .trig => some ⟨0xA40000, 0xA44000, 0x4000, entryKeep m 0xA40000 0xA44000 TRIG.W0.LINE x⟩
  | .dev | .foreman | .journal | .trouble | .hk | .pfe | .tiu | .tally | .pwr | .syn | .emit | .canary
  | .lane | .raml | .trim | .chan | .phase | .gauge | .pfilt | .capt | .raman | .reel | .ddr | .memx
  | .sram | .dma | .codec | .pcie | .eth | .ptp | .sahf | .spis | .legacy | .i2cm | .aon => none

/-- The shadowed words of a page: its configuration and its region. -/
def pageParts (m : RegMap) (pg : Page) : List Part :=
  ⟨pageBase pg.num + 0x100, pageBase pg.num + 0x500, 0x400, fun _ => true⟩ :: (regionPart m pg).toList

/-- CTRL.EN_ACTIVE of a page written. -/
def setEnActive (p : Nat) (b : Bool) (m : RegMap) : RegMap :=
  wr m (pageBase p + 0x008) (Word.ofNat (putBits (rd m (pageBase p + 0x008)).toNat 8 8 (bit b)))

/-- The whole shadow of a page, as it stands in `m0`, copied to the active copy in `m`. -/
def copyPage (m0 : RegMap) (pg : Page) (m : RegMap) : RegMap :=
  setEnActive pg.num (enShadow m0 pg.num)
    ((pageParts m0 pg).foldl (fun m t => copyWords m0 t.shadow t.active t.size t.keep m) m)

/-- SLOT_EFF and PERIOD_EFF of a SHOT page's plan, where its candidate has EN = 1: the pages that apply with it are
checked against them (R24, R72, R90, R144). -/
def showPlan (m : RegMap) (pg : Page) : RegMap :=
  let x := Line.ofUnit pg.unit
  if pg.block == .shot && enActive m pg.num then
    SHOT.PERIOD_EFF.put (SHOT.SLOT_EFF.put m (pageBase pg.num) (planSlot m x)) (pageBase pg.num) (planPeriod m x)
  else m

/-- The active copy of a page as it stands in `m0` put back into `m`, SHOT's with the plan it shows. -/
def revertPage (m0 : RegMap) (pg : Page) (m : RegMap) : RegMap :=
  let m := setEnActive pg.num (enActive m0 pg.num)
    ((pageParts m0 pg).foldl (fun m t => copyWords m0 t.active t.active t.size t.keep m) m)
  if pg.block == .shot then
    let a := pageBase pg.num
    wr (wr m (a + 0x90C) (rd m0 (a + 0x90C))) (a + 0x910) (rd m0 (a + 0x910))
  else m

-- ---- parity (R38, R39) ---------------------------------------------------------------------------

/-- Whether an address is a shadow word of a page. -/
def shadowOf (m : RegMap) (pg : Page) (a : Nat) : Bool :=
  (pageParts m pg).any fun t => inRange t.shadow t.size t.keep a

/-- Whether an address is an active word of a page. -/
def activeOf (m : RegMap) (pg : Page) (a : Nat) : Bool :=
  (pageParts m pg).any fun t => inRange t.active t.size t.keep a

/-- Whether some shadow word of a page fails its parity. -/
def shadowBad (d : Dev) (m : RegMap) (pg : Page) : Bool := d.bus.parityBad.any (shadowOf m pg)

/-- The class of a page for R39: Launch, Acquisition or Sensing, by its cluster. -/
def launchPage (p : Nat) : Bool := p / 0x100 == 2 || p / 0x100 == 3

/-- Whether a page belongs to a line's recording (R403): Launch, Acquisition or Sensing. -/
def sensingPath (p : Nat) : Bool := launchPage p || p / 0x100 == 4

/-- The line of a page of the Launch, Acquisition and Sensing clusters. -/
def Page.line (pg : Page) : Line := Line.ofUnit pg.unit

/-- Whether a Launch or Acquisition page of a line other than CANARY shows CFG_FAULT (R39).
DEDUCED: log entry 26. -/
def launchFault (d : Dev) (x : Line) : Bool :=
  directory.any fun pg => launchPage pg.num && pg.line == x && pg.block != .canary && d.status pg.num 2

/-- Whether the shots of a line have been stopped for a parity fault (R39). DEDUCED: log entry 26. -/
def faultStopped (d : Dev) (x : Line) : Bool := d.bus.faultHold.contains (pgShot x)

/-- A line whose shots a parity fault had stopped launches again once every page is repaired: its first
round begins like that of an enabled line (R64). -/
def resumeShots (d : Dev) (x : Line) : Dev :=
  if faultStopped d x && !launchFault d x then
    let d := { d with bus := { d.bus with faultHold := d.bus.faultHold.filter (· != pgShot x) } }
    if !enActive d.regs (pgShot x) then d
    else if shotFld d.regs x SHOT.TRIG_CTRL.MODE = 0 then
      d.onLine x fun l => { l with shot := { l.shot with nextSlot := 0, nextEdge := some (d.clk.tick + 16) } }
    else
      (d.setStatus (pgShot x) 8 true).onLine x fun l =>
        { l with shot := { l.shot with nextSlot := 0, extWait := true } }
  else d

/-- Every word of a page passes parity again: CFG_FAULT clears (R39). -/
def faultCleared (d : Dev) (pg : Page) : Dev :=
  let bad := d.bus.parityBad.any fun a => shadowOf d.regs pg a || activeOf d.regs pg a
  if pg.block == .canary || bad || !d.statusHome pg.num 2 then d
  else
    let d := d.setStatusHome pg.num 2 false
    if launchPage pg.num then resumeShots d pg.line else d

/-- A shadow word written anew passes its parity (R39). -/
def repairWord (d : Dev) (a : Nat) : Dev :=
  if d.bus.parityBad.contains a then
    let d := { d with bus := { d.bus with parityBad := d.bus.parityBad.filter (· != a) } }
    directory.foldl (fun d pg => if shadowOf d.regs pg a then faultCleared d pg else d) d
  else d

/-- The pages that own a configuration word and are powered; CANARY keeps two copies instead (R40). -/
def parityOwners (d : Dev) (a : Nat) : List Page :=
  directory.filter fun pg => d.domainOn pg.domain && pg.block != .dev && pg.block != .canary &&
    (shadowOf d.regs pg a || activeOf d.regs pg a)

/-- A configuration word that fails its parity is found (R38). The entry's offset of a word in a table window
region, which has no page offset, is the address modulo 0x1000. DEDUCED: log entry 25. -/
def parityFault (d : Dev) (a : Nat) : Dev :=
  let owners := parityOwners d a
  if owners.isEmpty then d
  else
    let d := { d with bus := { d.bus with
      parityBad := if d.bus.parityBad.contains a then d.bus.parityBad else a :: d.bus.parityBad } }
    owners.foldl (fun d pg =>
      if d.statusHome pg.num 2 then d
      else (d.setStatusHome pg.num 2 true).eventLog pg.num 1 sevError (a % 0x1000)) d

/-- PARITY_SWEEP (R38). DEDUCED: log entry 25. -/
def paritySweep (bad : List Nat) (d : Dev) : Dev := bad.foldl parityFault d

-- ---- what the blocks do at their apply -----------------------------------------------------------------

/-- The fields of a list that an apply changes. -/
def changed (m0 m : RegMap) (p : Nat) (l : List Fld) : Bool := l.any fun f => act m0 p f != act m p f

/-- CTRL.EN applies as 1 after 0. -/
def enRises (m0 m : RegMap) (p : Nat) : Bool := !enActive m0 p && enActive m p

/-- CTRL.EN applies as 0 after 1. -/
def enFalls (m0 m : RegMap) (p : Nat) : Bool := enActive m0 p && !enActive m p

/-- The derived registers of GAUGE (R153). DEDUCED: log entry 39. -/
def showGauge (d : Dev) (x : Line) : Dev :=
  if !d.pageOn (pgGauge x) then d
  else
    let m := d.regs
    let p := pgGauge x
    let d := d.setPair p 0x900 0x904 (gaugeConst m x)
    let d := d.setLiv p GAUGE.CENTRE0 (lowBin m x 0 + highBin m x 0)
    let k := pointCount m x - 1
    let d := d.setLiv p GAUGE.CENTRE_LAST (lowBin m x k + highBin m x k)
    d.setLiv p GAUGE.CAPACITY (capacityOf m x)

/-- The reel window of a line (R400). -/
def showWindow (d : Dev) (x : Line) : Dev :=
  if !d.pageOn (pgReel x) then d
  else
    let d := d.setLivS (pgReel x) REEL.WIN_START (winStart d.regs x)
    d.setLiv (pgReel x) REEL.WIN_CYCLES (winCycles d.regs x)

/-- SHOT (R56, R57, R62, R64, R73, R236). DEDUCED: log entry 18. -/
def shotApplied (m0 : RegMap) (x : Line) (d : Dev) : Dev :=
  let m := d.regs
  let p := pgShot x
  let on := enActive m p
  let d := d.putPlanResult x ⟨0, 0, 0⟩
  let d := if on then
      (d.setLiv p SHOT.SLOT_EFF (planSlot m x)).setLiv p SHOT.PERIOD_EFF (planPeriod m x)
    else d
  let d := d.onLine x fun l =>
    { l with shot := { l.shot with newPlan := true, appliedFlag := true, slotCount := 0 } }
  let breaks := changed m0 m p [SHOT.RAMAN_TIMING.WIDTH, SHOT.GROUP_INDEX, SHOT.LINE_LEN, SHOT.GUARD] ||
    (ramanEn m0 x && !ramanEn m x)
  let d := if breaks then abortProfile d x 2 else d
  let d := if enRises m0 m p then
      let d := d.setPair p 0x900 0x904 0
      if shotFld m x SHOT.TRIG_CTRL.MODE = 0 then
        d.onLine x fun l => { l with shot := { l.shot with nextSlot := 0, nextEdge := some (d.clk.tick + 16),
                                                           extWait := false } }
      else
        (d.setStatus p 8 true).onLine x fun l =>
          { l with shot := { l.shot with nextSlot := 0, nextEdge := none, extWait := true } }
    else if enFalls m0 m p then
      (d.setStatus p 8 false).onLine x fun l =>
        { l with shot := { l.shot with nextEdge := none, extWait := false } }
    else d
  showWindow (showGauge d x) x

/-- A steady emitter follows its ON bit while its line is lit (R76). -/
def driveSteady (d : Dev) (x : Line) : Dev :=
  let t := d.clk.tick
  let seed := setptOn d x 0
  let boost := setptOn d x 2
  let st := canState d x
  let step := (d.line x).can.step
  let put (d : Dev) (e : Nat) (on : Bool) : Dev :=
    d.onCan x fun c => if (c.drive.getD e (false, 0)).1 == on then c else { c with drive := c.drive.set e (on, t) }
  let d := if st = 1 ∨ st = 2 then put (d.onCells x fun c => { c with seedOn := seed }) 0 seed else d
  if st = 2 ∨ (st = 1 ∧ step = 3) then put (d.onCells x fun c => { c with boostOn := boost }) 2 boost else d

/-- EMIT (R76, R80, R81). -/
def emitApplied (m0 : RegMap) (x : Line) (d : Dev) : Dev :=
  let p := pgEmit x
  let one (d : Dev) (l : Laser) : Dev :=
    let i := laserIdx l
    let dm0 := act m0 p (EMIT.LIMIT.DUTY_MAX i)
    let dm := act d.regs p (EMIT.LIMIT.DUTY_MAX i)
    let sl := d.slow
    let t := d.clk.tick
    let d := if dm = 0 then
        (d.setStatus p (14 + i) false).onLoop x l fun s => { s with enabled := none }
      else if dm0 = 0 then d.onLoop x l fun s => { s with enabled := some sl }
      else d
    if changed m0 d.regs p [EMIT.TEC_COMP.COMP_SRC i] then d.onLoop x l fun s => { s with hkFrom := t } else d
  driveSteady (one (one d .seed) .raman) x

/-- The configuration words of a CANARY page as its two copies keep them, at their shadow offsets. -/
def canaryWords (m : RegMap) (x : Line) : RegMap :=
  copyWords m (pageBase (pgCanary x) + 0x500) (pageBase (pgCanary x) + 0x100) 0x400 (fun _ => true) []

/-- CANARY (R82, R96): both copies are written anew; CTRL.EN applying as 0 moves the line to OFF. -/
def canaryApplied (m0 : RegMap) (x : Line) (d : Dev) : Dev :=
  let p := pgCanary x
  let w := canaryWords d.regs x
  let st := canState d x
  let d := d.onCan x fun c => { c with copy0 := ⟨w, st⟩, copy1 := ⟨w, st⟩ }
  let d := (d.setStatus p 2 false).setStatus p 10 false
  if enFalls m0 d.regs p then
    if st = 1 ∨ st = 2 then goDark d x 0 false else if st = 3 then toOff d x else d
  else d

/-- LANE (R102, R105, R108): a core that is no longer checked is not STUCK, and LOW_j follows RMS_LOW; a gain
change marks the slot it falls in; at an idle boundary it affects no slot. -/
def laneApplied (m0 : RegMap) (x : Line) (idle : Bool) (d : Dev) : Dev :=
  let checked (k : Nat) : Bool := laneEnabled d.regs x (k / 2) && laneInput d.regs x (k / 2) % 2 == 0
  let d := d.onLane x fun l => { l with stuck := l.stuck.zipIdx.map fun e => e.1 && checked e.2 }
  let d := (List.range 4).foldl (fun d j => d.setStatus (pgLane x) (12 + j) (laneStuck (d.line x).lane j)) d
  let d := showLow d x
  if changed m0 d.regs (pgLane x) ((List.range 4).map LANE.GAIN.CODE) then
    (d.onLane x fun l => { l with gainStep := !idle }).event (pgLane x) 7
  else d

/-- TRIM and RAML (R113, R119): MANUAL words act at the boundary; at an idle boundary EFF takes TARGET; CAL_ADVISED
follows ADVISE_STEP. -/
def trimApplied (x : Line) (k : TrimKind) (idle : Bool) (d : Dev) : Dev :=
  let d := if trimMode d x k = 2 then
      (List.range k.n).foldl (fun d i =>
        d.setWord (pageBase (k.page x) + k.eff + 4 * i) (rd d.regs (pageBase (k.page x) + 0x540 + 4 * i))) d
    else if idle ∧ trimMode d x k = 0 then effToTarget d x k
    else d
  showAdvised d x k

/-- The line's points restart with the first traced shot launched from the present boundary on (R157). -/
def askRestart (d : Dev) (x : Line) : Dev :=
  let t := d.clk.tick
  d.onPhase x fun p => { p with restart := some t }

/-- SYN (R157): a change of ALIGN restarts the line's points. -/
def synApplied (m0 : RegMap) (x : Line) (d : Dev) : Dev :=
  if changed m0 d.regs (pgSyn x) [SYN.DAC_CTRL.ALIGN] then askRestart d x else d

/-- CHAN (R157): a change of ZERO or of a WINDOW restarts the line's points. -/
def chanApplied (m0 : RegMap) (x : Line) (d : Dev) : Dev :=
  let d := if changed m0 d.regs (pgChan x) (CHAN.ZERO :: (List.range 8).map CHAN.TONE_CFG.WINDOW) then
      askRestart d x else d
  showWindow d x

/-- PHASE (R157). -/
def phaseApplied (m0 : RegMap) (x : Line) (d : Dev) : Dev :=
  if enRises m0 d.regs (pgPhase x) then askRestart d x else d

/-- GAUGE (R153, R157, R160). -/
def gaugeApplied (m0 : RegMap) (x : Line) (d : Dev) : Dev :=
  let geo := changed m0 d.regs (pgGauge x) [GAUGE.FIRST, GAUGE.SPACING, GAUGE.COUNT, GAUGE.GAUGE_LEN]
  let d := if geo then (askRestart d x).onPhase x fun p => { p with oosClear := true } else d
  showGauge d x

/-- PFILT (R172, R175, R181, R186, R188, R189). -/
def pfiltApplied (m0 : RegMap) (x : Line) (d : Dev) : Dev :=
  let p := pgPfilt x
  let m := d.regs
  let rises := enRises m0 m p
  let falls := enFalls m0 m p
  let decim' := changed m0 m p [PFILT.INPUT.MODE, PFILT.DECIM.TYPE, PFILT.DECIM.ORDER, PFILT.DECIM.LP_SHIFT,
    PFILT.DECIM.D]
  let hp := changed m0 m p [PFILT.HIGHPASS.HP_SHIFT]
  let share := changed m0 m p [PFILT.OUT.OUT_SHARE]
  let t := d.clk.tick
  let since := min (((d.line x).pf.offSince).getD t) t
  let gap : GapRec := { cause := 10, tick := since, time := d.timeAt since, ticks := t - since,
                        points := pointCount m x }
  let d := if falls then abandonFrame d x 10 else d
  let d := d.onPf x fun f =>
    { f with action := max f.action (if decim' then 2 else if hp then 1 else 0), applied := true,
             lag := lagEff m x, prevTick := if rises || share then none else f.prevTick,
             heads := if rises then [] else f.heads, stopped := if rises then none else f.stopped,
             nextSeq := if rises then 0 else f.nextSeq, starting := f.starting || rises,
             pending := if rises then f.pending ++ [gap] else f.pending,
             offSince := if rises then none else if falls then some t else f.offSince }
  let d := if rises then d.onCapt x fun c => { c with restart := true } else d
  let d := d.setLiv p PFILT.LAG_EFF (lagEff m x)
  if rises || share then d.setLiv p PFILT.CREDIT (2 ^ 27) else d

/-- ZONE (R195, R199, R203). -/
def zoneApplied (m0 : RegMap) (x : Line) (d : Dev) : Dev :=
  let p := pgZone x
  let m := d.regs
  let clear := enRises m0 m p || changed m0 m p [ZONE.BANDS.KA, ZONE.BANDS.KB]
  let fill := act m0 p ZONE.OUT.EN == 0 && act m p ZONE.OUT.EN == 1
  let d := d.onZone x fun z =>
    { z with zoneNew := true, bandClear := z.bandClear || clear, credit := if fill then 2 ^ 20 * 64 else z.credit,
             prevTick := if fill then none else z.prevTick }
  (d.setLiv (pgZone .a) ZONE.ZONES (zonesOf m .a).length).setLiv (pgZone .b) ZONE.ZONES (zonesOf m .b).length

/-- The conditions of a line that an apply of TRIG sets inactive (R206): every field but W4 and W5
counts. -/
def condsChanged (m0 m : RegMap) (x : Line) : Nat :=
  ((List.range 64).map fun c =>
    let differs := [0, 1, 2, 3, 6, 7].any fun w =>
      rd m0 (0xA44000 + 32 * c + 4 * w) != rd m (0xA44000 + 32 * c + 4 * w)
    if differs && (condOn m0 x c || condOn m x c) then 2 ^ c else 0).sum

/-- The other line. -/
def otherLine (x : Line) : Line := if x = .a then .b else .a

/-- TRIG (R195, R206, R210): a condition that the apply takes from the other line is set inactive there too. -/
def trigApplied (m0 : RegMap) (x : Line) (d : Dev) : Dev :=
  let m := d.regs
  let y := otherLine x
  let mask := if enRises m0 m (pgTrig x) then 2 ^ 64 - 1 else condsChanged m0 m x
  let left := condsChanged m0 m y
  let d := d.onZone x fun z => { z with condReset := z.condReset ||| mask }
  let d := if left = 0 then d else
      let d := showActive (d.onZone y fun z => { z with condReset := z.condReset ||| left }) y
      alarmLevels d y m0 d.clk.tick
  let d := showActive d x
  alarmLevels (if x = .a then refreshAlarms d else d) x m0 d.clk.tick

/-- CAPT (R212, R215, R222): the cursor of every class starts at its DESC_FIRST. DEDUCED: log entry 21. -/
def captApplied (m0 : RegMap) (x : Line) (d : Dev) : Dev :=
  let p := pgCapt x
  let m := d.regs
  let ring := changed m0 m p [CAPT.RING_BASE, CAPT.RING_SIZE]
  let d := if ring || !enActive m p then endSegments d x segAborted else d
  let d := if ring || enRises m0 m p then d.onCapt x fun c => { c with restart := true } else d
  let d := if !enActive m p then d.setStatus p 9 false else d
  (List.range 4).foldl (fun d c => d.setLiv p (CAPT.CURSOR c) (act m p (CAPT.CLASS.DESC_FIRST c))) d

/-- RAMAN (R233, R236). -/
def ramanApplied (m0 : RegMap) (x : Line) (d : Dev) : Dev :=
  let p := pgRaman x
  let m := d.regs
  let d := if enFalls m0 m p then abortProfile d x 3 else d
  let d := d.onRaman x fun r =>
    { r with applied := true, singleDone := false, running := r.running && enActive m p, nextSeq := if enRises m0 m p then 0 else r.nextSeq }
  d.setStatus p 9 false

/-- An apply ends a recording of its line (R403): SHOT with EN = 0 disables it. DEDUCED: log entry 107. -/
def reelChange (d : Dev) (pg : Page) : Dev :=
  if sensingPath pg.num then
    endReel d pg.line (if pg.block == .shot && !enActive d.regs pg.num then 6 else 3)
  else d

/-- What an accepted apply of a page does beside the copy; `m0` is the register space before it. -/
def pageApplied (m0 : RegMap) (pg : Page) (idle : Bool) (d : Dev) : Dev :=
  let x := pg.line
  match pg.block with
  | .shot => shotApplied m0 x d
  | .emit => emitApplied m0 x d
  | .canary => canaryApplied m0 x d
  | .lane => laneApplied m0 x idle d
  | .raml => trimApplied x ramlKind idle d
  | .trim => trimApplied x trimKind idle d
  | .syn => synApplied m0 x d
  | .chan => chanApplied m0 x d
  | .phase => phaseApplied m0 x d
  | .gauge => gaugeApplied m0 x d
  | .pfilt => pfiltApplied m0 x d
  | .zone => zoneApplied m0 x d
  | .trig => trigApplied m0 x d
  | .capt => captApplied m0 x d
  | .raman => ramanApplied m0 x d
  | .reel => showWindow d x
  | .hk => hkApplied m0 d
  | .pfe => pfeApplied m0 d
  | .tiu => tiuApplied pg.unit d
  | .ddr => ddrApplied m0 pg.unit d
  | .eth => if enFalls m0 d.regs pg.num then ethLinkDown pg.unit d else d
  | .ptp => ptpApplied m0 d
  | .sahf => ringsApplied d
  | .dev | .foreman | .journal | .trouble | .tally | .pwr | .memx | .sram | .dma | .codec | .pcie
  | .spis | .legacy | .i2cm | .aon => d

-- ---- one apply (R23, R25) ----------------------------------------------------------------------------

/-- The arming of a page that waits for its boundary. -/
def Dev.armedAs (d : Dev) (p : Nat) : Option Armed := d.bus.armed.find? fun a => a.page == p

/-- PENDING of a page, in its home. -/
def Dev.setPending (d : Dev) (p : Nat) (b : Bool) : Dev := d.setStatusHome p 1 b

/-- A page's apply at a boundary, accepted or refused: it is no longer armed, and its journal entry
follows (R25). -/
def recordApply (d : Dev) (a : Armed) (boundary : Nat) (rejected : Bool) (oldCheck : Word) : Dev :=
  let r : Applied := ⟨a.page, a.link, a.seq, boundary, rejected, d.clk.tick, oldCheck⟩
  { d with bus := { d.bus with
      armed := d.bus.armed.filter fun e => e.page != a.page
      marks := d.bus.marks.filter fun e => e.1 != a.page
      applied := d.bus.applied ++ [r] } }

/-- An accepted apply: parity of the words written is good, the block takes its new settings.
DEDUCED: log entry 20. -/
def acceptApply (m0 : RegMap) (pg : Page) (a : Armed) (boundary : Nat) (d : Dev) : Dev :=
  let bad := d.bus.parityBad.filter fun w => !activeOf d.regs pg w
  let d := recordApply { d with bus := { d.bus with parityBad := bad } } a boundary false (cfgCheck m0 pg.num)
  let d := faultCleared (d.setPending pg.num false) pg
  reelChange (pageApplied m0 pg (boundary == 0) d) pg

/-- A refused apply: the code is shown, APPLY_REFUSED counts (R25). DEDUCED: log entry 20. -/
def refuseApply (pg : Page) (a : Armed) (boundary : Nat) (code : Option Nat) (d : Dev) : Dev :=
  let d := recordApply d a boundary true (cfgCheck d.regs pg.num)
  let d := d.setPending pg.num false
  let d := match code, refuseOff pg.block with
    | some c, some off => d.setWord (pageBase pg.num + off) (Word.ofNat c)
    | _, _ => d
  d.event pg.num 2

/-- Why a candidate configuration is refused: a shadow word that fails its parity (no code), or a rule
of the page's chapter. -/
def applyBar (d : Dev) (m0 m : RegMap) (pg : Page) : Option (Option Nat) :=
  if shadowBad d m0 pg then some none
  else match pageCheck d m0 m pg with
    | some c => some (some c)
    | none => none

/-- The pages of a list judged one after another on the candidate in which all of them are active; a
refused page falls back to its active copy before the next is judged.
DEDUCED: log entry 17. DEDUCED: log entry 19. -/
def judge (d : Dev) (m0 : RegMap) : List Page → RegMap → RegMap × List (Page × Option (Option Nat))
  | [], m => (m, [])
  | pg :: rest, m =>
    let bar := applyBar d m0 m pg
    let m := if bar.isSome then revertPage m0 pg m else m
    let r := judge d m0 rest m
    (r.1, (pg, bar) :: r.2)

/-- The candidate on which a page of a list was judged: those judged before it have fallen back where they were
refused. -/
def judgedOn (d : Dev) (m0 : RegMap) (p : Nat) : List Page → RegMap → RegMap
  | [], m => m
  | pg :: rest, m =>
    if pg.num = p then m
    else judgedOn d m0 p rest (if (applyBar d m0 m pg).isSome then revertPage m0 pg m else m)

/-- The armed pages of a list apply together in the present cycle (R23 to R25). DEDUCED: log entry 17. -/
def applyPages (pages : List Page) (boundary : Nat) (d : Dev) : Dev :=
  let pages := pages.filter fun pg => (d.armedAs pg.num).isSome && d.domainOn pg.domain
  let m0 := d.regs
  let joint := pages.foldl showPlan (pages.foldl (fun m pg => copyPage m0 pg m) m0)
  let r := judge d m0 pages joint
  let old := d
  let plan (d : Dev) (pg : Page) : Dev :=
    if pg.block == .shot then
      d.putPlanResult pg.line (planCheck (judgedOn old m0 pg.num pages joint) pg.line)
    else d
  r.2.foldl (fun d e =>
    match d.armedAs e.1.num with
    | none => d
    | some a => match e.2 with
      | none => acceptApply m0 e.1 a boundary d
      | some code => plan (refuseApply e.1 a boundary code d) e.1) { d with regs := r.1 }

/-- The page of a number applies, where it is armed, at a boundary. -/
def applyOne (p boundary : Nat) (d : Dev) : Dev :=
  match pageOf p with
  | some pg => applyPages [pg] boundary d
  | none => d

-- ---- boundaries (R24) ----------------------------------------------------------------------------------

/-- Whether shots of a line are being fired, or it waits for TRIG_IN to fire one (R24, R67). -/
def launching (d : Dev) (x : Line) : Bool :=
  let s := (d.line x).shot
  d.domainOn 10 && d.pwr.mode != 6 && enActive d.regs (pgShot x) && (s.nextEdge.isSome || s.extWait)

/-- OOS_APPLIED (R158): the round boundaries of a line that launches take its pending command themselves; of a line
that launches nothing the idle boundary has their place, as for its pages (R24). DEDUCED: log entry 130. -/
def oosApplied (x : Line) (d : Dev) : Dev := if launching d x then d else oosTake x d

/-- OOS_APPLIED (R158). -/
def execOosApplied (x : Line) (s : State) :
    Host.Outcome State Fault Refusal :=
  done s (oosApplied x s.dev)

/-- Whether a line's pipeline is fed from a reel (R405). -/
def replaying (d : Dev) : Bool := d.pwr.mode == 6 && d.reel.playing

/-- Whether something waits to be sent on a port, or is on its wire. -/
def ethCarries (d : Dev) (p : Nat) : Bool :=
  let e := d.port p
  d.clk.tick < e.free || !e.ptp.isEmpty || !e.replies.isEmpty || !e.ctl.isEmpty ||
    d.sahf.streams.any fun s => (s.queue.any fun q => q.dest == p) ||
      (match s.out with | some o => o.src.dest == p && !o.rest.isEmpty | none => false)

/-- Whether the link of a Host page carries something (R339): a frame on the wire or waiting for its port, a
message that waits for a ring, a PTP exchange under way, a packet still to be formed. Frames of the SPI slave
and of the NHR4010 port and transactions of the I²C master are single commands here: between them their links
carry nothing. DEDUCED: log entry 117. -/
def linkCarries (d : Dev) (pg : Page) : Bool :=
  match pg.block with
  | .eth => ethCarries d pg.unit
  | .pcie => liv d.regs pgPcie PCIE.LINK.UP == 1 &&
      (!d.sahf.replies.isEmpty || d.sahf.streams.any fun s => s.queue.any fun q => q.dest == 2)
  | .ptp => d.ptp.twoStep.isSome || d.ptp.dreq.isSome
  | .sahf => !d.inbox.isEmpty || !d.sahf.replies.isEmpty || d.sahf.streams.any fun s => !s.queue.isEmpty
  | _ => false

/-- Whether the block of a page is producing, so that the page waits for the boundary of its class. -/
def producing (d : Dev) (pg : Page) : Bool :=
  let on := enActive d.regs pg.num
  match pg.boundary with
  | 1 => on && launching d pg.line
  | 2 => on && enActive d.regs (pgPfilt pg.line) && (launching d pg.line || replaying d)
  | 3 => on && launching d pg.line && (d.line pg.line).raman.running
  | 4 => on && linkCarries d pg
  | 5 => on
  | 8 => on
  | _ => false

/-- The class-1 pages of a line, SHOT first (R24, R90). -/
def roundPages (x : Line) : List Page :=
  directory.filter fun pg => pg.boundary == 1 && pg.line == x

/-- A round boundary of a line: every armed page of class 1 applies (R24). DEDUCED: log entry 16. -/
def applyRound (x : Line) (d : Dev) : Dev :=
  applyPages ((roundPages x).filter fun pg => enActive d.regs pg.num) 1 (applyPages
    ((roundPages x).filter fun pg => !enActive d.regs pg.num) 0 d)

/-- A frame boundary of a line: PFILT, ZONE, CAPT and TRIG apply (R24, R168). -/
def applyFrame (x : Line) (d : Dev) : Dev :=
  applyPages ([pgPfilt x, pgZone x, pgCapt x, pgTrig x].filterMap pageOf) 2 d

-- ---- groups of DMA and CODEC (R312, R313) ------------------------------------------------------------

/-- The mark of the page-wide fields and CTRL.EN of an armed page that applies by groups. -/
def pageMark : Nat := 99

/-- Groups of a page that applies by groups. -/
def groupCount (p : Nat) : Nat := if p = pgDma then 32 else 16

/-- The groups of a page whose shadow differs from the active copy. -/
def groupsDiffering (m : RegMap) (p : Nat) : List Nat :=
  (List.range (groupCount p)).filter fun g =>
    [0x100, 0x104, 0x108].any fun o =>
      rd m (pageBase p + o + 16 * g) != rd m (pageBase p + o + 0x400 + 16 * g)

/-- The words of one group copied to the active view; `pageMark` copies the page-wide words and EN. -/
def copyGroup (p g : Nat) (m : RegMap) : RegMap :=
  let b := pageBase p
  if g = pageMark then
    setEnActive p (enShadow m p) (copyWords m (b + 0x100) (b + 0x500) 0x400 (fun o => 16 * groupCount p ≤ o) m)
  else copyWords m (b + 0x100 + 16 * g) (b + 0x500 + 16 * g) 16 (fun _ => true) m

/-- The last marked group of a page has applied: the apply completes (R312). -/
def groupsDone (p boundary : Nat) (m0 : RegMap) (d : Dev) : Dev :=
  match d.armedAs p, pageOf p with
  | some a, some pg =>
    if d.bus.marks.any fun e => e.1 == p then d else acceptApply m0 pg a boundary d
  | _, _ => d

/-- A marked group of an armed page applies (R312); EN applying as 0 on an open codec context closes
it. -/
def applyGroup (p g boundary : Nat) (d : Dev) : Dev :=
  if (d.armedAs p).isSome && d.bus.marks.contains (p, g) then
    let m0 := d.regs
    let opens := p == pgCodec && g != pageMark && (d.ctx g).isOpen &&
      act m0 p (CODEC.CTX.EN g) == 1 && cfgIn m0 0 p (CODEC.CTX.EN g) == 0
    let d := if opens then codecClose g d else d
    let d := { d with regs := copyGroup p g d.regs,
                      bus := { d.bus with marks := d.bus.marks.filter (· != (p, g)) } }
    groupsDone p boundary m0 d
  else d

/-- Whether a group may apply within eight cycles: its channel not in RUN, its context CLOSED or in
ERROR. -/
def groupIdle (d : Dev) (p g : Nat) : Bool :=
  g == pageMark || (if p = pgDma then dmaState d g != 1 else codecState d g == 0 || codecState d g == 4)

/-- The groups of an armed page that apply at once. -/
def applyIdleGroups (p : Nat) (d : Dev) : Dev :=
  ((d.bus.marks.filter fun e => e.1 == p && groupIdle d p e.2).map Prod.snd).foldl
    (fun d g => applyGroup p g 0 d) d

/-- The group of a DMA channel applies at its descriptor fetch. DEDUCED: log entry 19. -/
def applyChan (c : Nat) (d : Dev) : Dev := applyGroup pgDma c 6 d

/-- The group of a codec context applies at its block end. -/
def applyCtx (n : Nat) (d : Dev) : Dev := applyGroup pgCodec n 7 d

-- ---- arming (R22, R28, R30) ----------------------------------------------------------------------------

/-- A page is armed by a link, for a journal entry's SEQ or 0 (R22, R23). -/
def armPage (link seq : Nat) (d : Dev) (p : Nat) : Dev :=
  match pageOf p with
  | none => d
  | some pg =>
    if pg.block == .dev || !d.domainOn pg.domain || (d.armedAs p).isSome then d
    else
      let a : Armed := ⟨p, link, seq, d.clk.tick⟩
      let d := { d with bus := { d.bus with armed := d.bus.armed ++ [a] } }
      let d := d.setPending p true
      if p = pgDma ∨ p = pgCodec then
        match applyBar d d.regs (copyPage d.regs pg d.regs) pg with
        | some code => refuseApply pg a 0 code d
        | none =>
          let marks := (pageMark :: groupsDiffering d.regs p).map fun g => (p, g)
          { d with bus := { d.bus with marks := d.bus.marks ++ marks } }
      else d

/-- MODE of APPLY: 0 AUTO, 2 STROBE, otherwise ARMED (R19). -/
def applyMode (m : RegMap) (p : Nat) : Nat := bitsOf (rd m (pageBase p + 0x00C)).toNat 5 4

/-- GROUP of APPLY. -/
def applyGroupOf (m : RegMap) (p : Nat) : Nat := bitsOf (rd m (pageBase p + 0x00C)).toNat 7 6

/-- A shadow write of a page arms it in AUTO mode (R22). -/
def autoArm (link : Nat) (d : Dev) (p : Nat) : Dev :=
  if applyMode (if p = pgAon then d.aon else d.regs) p = 0 then armPage link 0 d p else d

/-- The pages that APPLY_LIST names, slot by slot (R28). -/
def listedPages (m : RegMap) : List Nat :=
  ((List.range 16).flatMap fun i => [liv m pgDev (DEV.APPLY_LIST.PAGE_A i), liv m pgDev (DEV.APPLY_LIST.PAGE_B i)]).filter
    (· != 0)

/-- Why an APPLY_SET fails as a whole (R28): a page whose domain is off, a page that is not in the directory. -/
def applySetBar (d : Dev) : Option BusErr :=
  let pages := listedPages d.regs
  if pages.any fun p => (pageOf p).isSome && !d.pageOn p then some .domainOff
  else if pages.any fun p => (pageOf p).isNone then some .reserved
  else none

/-- The entry of an APPLY_SET, then its pages armed, each once (R28, R29). A set whose slots are all empty
commits its entry too, with no page. DEDUCED: log entry 116. -/
def armSet (k : Link) (tag : Nat) (d : Dev) : Dev :=
  let pages := (listedPages d.regs).dedup
  let seq := d.jr.nextSeq
  let d := d.journal { link := linkCode k, kind := kindApplySet, arg := tag + pages.length * 2 ^ 16 }
  pages.foldl (armPage (linkCode k) seq) d

/-- APPLY_SET (R28, R29). -/
def applySet (k : Link) (tag : Nat) (d : Dev) : Dev :=
  match applySetBar d with
  | some e => d.busError (pageBase pgDev + 0x140) e (linkCode k)
  | none => armSet k tag d

/-- A strobe of some groups by a write over link `k` or by UPD (R30): the entry's source is DEV or UPD, the pages
are armed by the link that wrote. DEDUCED: log entry 27. -/
def strobe (k : Link) (groups : Nat) (d : Dev) : Dev :=
  if groups = 0 then d
  else
    let seq := d.jr.nextSeq
    let source : Link := if k = .upd then .upd else .strobe
    let d := d.journal { link := linkCode source, kind := kindStrobe, arg := groups }
    (directory.filter fun pg =>
      let m := if pg.num = pgAon then d.aon else d.regs
      pg.block != .dev && d.domainOn pg.domain && applyMode m pg.num == 2 &&
        bitOf groups (applyGroupOf m pg.num)).foldl
      (fun d pg => armPage (linkCode k) seq d pg.num) d

/-- UPD_EDGE (R30, R31): the groups are armed four cycles after the edge is sampled. DEDUCED: log entry 27. -/
def updEdge (d : Dev) : Dev :=
  let d := tiuEdge 14 true d
  if d.domainOn 1 && liv d.regs pgDev DEV.UPD_CTRL.EN == 1 then
    let g := liv d.regs pgDev DEV.UPD_CTRL.GROUPS
    strobe .upd g (d.advance 4)
  else d

-- ---- APPLY and its entry ---------------------------------------------------------------------------------

/-- The whole shadow of the AON page becomes active at the completion of a write (class 9), unless a shadow word
fails its parity (R39). -/
def applyAon (d : Dev) : Dev :=
  match d.armedAs pgAon, pageOf pgAon with
  | some a, some pg =>
    let m0 := d.aon
    if shadowBad d m0 pg then
      ((recordApply d a 9 true (cfgCheck m0 pgAon)).setPending pgAon false).event pgAon 2
    else
      let bad := d.bus.parityBad.filter fun w => !activeOf m0 pg w
      let d := { d with aon := copyPage m0 pg m0, bus := { d.bus with parityBad := bad } }
      faultCleared ((recordApply d a 9 false (cfgCheck m0 pgAon)).setPending pgAon false) pg
  | _, _ => d

/-- APPLY (R23, R24): an armed page whose block is not producing applies `delay` cycles after arming,
with the pages of its line and class armed in the same cycle; an ETH page whose port has a frame on the wire
applies as that frame ends, where the next one starts (R339). A page that waits for another boundary stays
armed: that boundary's command applies it. -/
def applyPage (p delay : Nat) (d : Dev) : Dev :=
  match d.armedAs p, pageOf p with
  | some a, some pg =>
    if p = pgAon then applyAon (d.advanceSlow (d.slow + 1))
    else if 8 < delay then d
    else if p = pgDma ∨ p = pgCodec then applyIdleGroups p (d.advanceTo (a.tick + delay))
    else if pg.block = .eth ∧ producing d pg ∧ d.clk.tick < (d.port pg.unit).free then
      applyPages [pg] 4 (d.advanceTo (d.port pg.unit).free)
    else if producing d pg then d
    else
      let together := if pg.boundary = 1 then
          (roundPages pg.line).filter fun q =>
            (d.armedAs q.num).any (fun b => b.tick == a.tick) && !producing d q
        else [pg]
      applyPages together 0 (d.advanceTo (a.tick + delay))
  | _, _ => d

/-- APPLY_ENTRY_COMMIT (R25): the oldest apply of the page whose entry is still to be committed. -/
def applyEntryCommit (p : Nat) (d : Dev) : Dev :=
  match d.bus.applied.find? fun r => r.page == p with
  | none => d
  | some r =>
    let d := d.advanceTo (r.tick + 260)
    let d := { d with bus := { d.bus with applied := d.bus.applied.erase r } }
    let seq := d.jr.nextSeq
    let check := cfgCheck (if p = pgAon then d.aon else d.regs) p
    let d := d.journal { link := r.link, kind := kindApply, page := p, result := bit r.rejected,
                         digest := check.toNat, arg := r.boundary + r.seq * 2 ^ 32 }
    let d := if d.pageOn p then d.setHome (pageBase p + 0x034) (Word.ofNat seq) else d
    if r.rejected then d else d.event p 0

/-- APPLY (R23). -/
def execApplyPage (p : PageNo) (delay : Nat) (s : State) : Host.Outcome State Fault Refusal :=
  done s (applyPage p.toNat delay s.dev)

/-- APPLY_ENTRY_COMMIT (R25). -/
def execApplyEntryCommit (p : PageNo) (s : State) : Host.Outcome State Fault Refusal :=
  done s (applyEntryCommit p.toNat s.dev)

/-- APPLY_SET (R28). -/
def execApplySet (k : Link) (tag : BitVec 16) (s : State) : Host.Outcome State Fault Refusal :=
  done s (s.dev.guarded k pgDev 0x140 (applySet k tag.toNat))

/-- STROBE (R30). -/
def execStrobe (k : Link) (groups : BitVec 4) (s : State) : Host.Outcome State Fault Refusal :=
  done s (s.dev.guarded k pgDev 0x144 (strobe k groups.toNat))

/-- UPD_EDGE (R31). -/
def execUpdEdge (s : State) : Host.Outcome State Fault Refusal := done s (updEdge s.dev)

/-- PARITY_SWEEP (R38). -/
def execParitySweep (bad : List Addr) (s : State) : Host.Outcome State Fault Refusal :=
  done s (paritySweep (bad.map BitVec.toNat) s.dev)

-- ---- commands that carry a boundary (R24) ----------------------------------------------------------------

/-- The page of a number applies, where it is armed, at its class's boundary in the present cycle. -/
def applyNow (p : Nat) (d : Dev) : Dev :=
  applyOne p (match pageOf p with
    | some pg => if enActive d.regs p then pg.boundary else 0
    | none => 0) d

/-- HK_PASS_START (R265). -/
def execHkPassStart (s : State) : Host.Outcome State Fault Refusal := done s (hkPassStart applyNow s.dev)

/-- URGENT (R268): a write of HK.URGENT. -/
def execUrgent (k : Link) (input : BitVec 5) (s : State) : Host.Outcome State Fault Refusal :=
  done s (s.dev.guarded k pgHk 0x980 (hkUrgent applyNow input.toNat))

/-- HK_CONVERSION (R264). -/
def execHkConversion (code : BitVec 12) (s : State) : Host.Outcome State Fault Refusal :=
  done s (hkConversion applyNow code.toNat s.dev)

/-- PFE_CONVERSION (R251): an armed page applies as the next conversion starts. -/
def execPfeConversion (q : Int) (overload : Bool) (s : State) : Host.Outcome State Fault Refusal :=
  done s (applyNow pgPfe (pfeConversion q overload s.dev))

/-- PFE_COMPLIANCE_CHECK (R254). -/
def execPfeComplianceCheck (ch : Fin 4) (pass : Bool) (s : State) : Host.Outcome State Fault Refusal :=
  done s (pfeComplianceCheck ch.val pass s.dev)

/-- PFE_CAL_VISIT (R257): an armed page applies as the next conversion starts. -/
def execPfeCalVisit (shorted divider : List (List Int)) (s : State) : Host.Outcome State Fault Refusal :=
  done s (applyNow pgPfe (pfeCalVisit shorted divider s.dev))

/-- SR_EXIT (R292). -/
def execSrExit (p : Fin 8) (s : State) : Host.Outcome State Fault Refusal :=
  done s (srExit (applyNow (pgDdr (p.val / 2))) p.val s.dev)

/-- RETRAIN (R293): a write of MEMX.RETRAIN. -/
def execRetrain (k : Link) (u : Fin 4) (s : State) : Host.Outcome State Fault Refusal :=
  done s (s.dev.guarded k pgMemx 0x990 (retrain (applyNow (pgDdr u.val)) u.val))

/-- DMA_FETCH (R317). -/
def execDmaFetch (c : Fin 32) (ecc : Ecc) (s : State) : Host.Outcome State Fault Refusal :=
  done s (dmaFetch applyChan c.val ecc s.dev)

/-- CODEC_BLOCK (R329). -/
def execCodecBlock (n : Fin 16) (verified storedVerified : Bool) (s : State) :
    Host.Outcome State Fault Refusal :=
  done s (codecBlock applyCtx n.val verified storedVerified s.dev)

/-- CODEC_DECODE (R332). -/
def execCodecDecode (n : Fin 16) (s : State) : Host.Outcome State Fault Refusal :=
  done s (codecDecode applyCtx n.val s.dev)

/-- RING_WRITE (R347). -/
def execRingWrite (r : Fin 16) (s : State) : Host.Outcome State Fault Refusal :=
  done s (ringWriteCmd applyNow applyCtx r.val s.dev)

/-- PACKET_TRANSMIT (R353). -/
def execPacketTransmit (p : Fin 2) (s : State) : Host.Outcome State Fault Refusal :=
  done s (packetTransmit applyNow applyCtx p.val s.dev)

/-- I2C_POLL (R354). -/
def execI2cPoll (p : Fin 2) (diag : Option SfpReading) (s : State) : Host.Outcome State Fault Refusal :=
  done s (i2cPoll applyNow p.val diag s.dev)

/-- XFER (R354): a write of I2CM.XFER. -/
def execXfer (k : Link) (v : Word) (ack : Bool) (data : Byte) (s : State) : Host.Outcome State Fault Refusal :=
  done s (s.dev.guarded k pgI2cm 0x980 (xfer applyNow v ack data))

/-- PTP_MESSAGE (R359). -/
def execPtpMessage (m : PtpArrival) (s : State) : Host.Outcome State Fault Refusal :=
  done s (ptpMessage applyNow m.sender m.msg s.dev)

/-- DELAY_REQ (R358). -/
def execDelayReq (s : State) : Host.Outcome State Fault Refusal := done s (delayReq applyNow s.dev)

/-- PCIE_LINK_UP (R379). -/
def execPcieLinkUp (width gen : BitVec 4) (s : State) : Host.Outcome State Fault Refusal :=
  done s (pcieLinkUp applyNow width.toNat gen.toNat s.dev)

/-- RAMAN_TRACE (R232). -/
def execRamanTrace (x : Line) (antiStokes stokes darkAs darkS : List Int) (s : State) :
    Host.Outcome State Fault Refusal :=
  done s (ramanTrace (fun p d => applyOne p 3 d) x antiStokes stokes darkAs darkS s.dev)

end Sys2Proof.Machine
end

