-- ==== Sys2Proof/Machine/Regs.lean ====
section
/-!
DEFINITION. The register bus (chapter 01): which location an address names, what a read returns, what
a write does, bus errors, the always-on page, SEEN words, the Tally.
-/
namespace Sys2Proof.Machine

-- ---- locations (R14, R17, R19, R42) ------------------------------------------------------------------

/-- What an address of the register space names. -/
inductive Place where
  | page (pg : Page) (off : Nat)
  | desc (n w : Nat)
  | zone (off : Nat)
  | trig (off : Nat)
  | plan (x : Line) (off : Nat)
  | tally (entry off : Nat)
deriving DecidableEq, Repr

/-- The place of an address; none in an unassigned range. DEDUCED: log entry 11. -/
def placeOf (a : Nat) : Option Place :=
  if a < 0x800000 then (pageOf (a / 0x1000)).map fun pg => .page pg (a % 0x1000)
  else if a < 0xA00000 then some (.desc ((a - 0x800000) / 32) (a / 4 % 8))
  else if a < 0xA40000 then some (.zone (a - 0xA00000))
  else if a < 0xA48000 then some (.trig (a - 0xA40000))
  else if 0xA60000 ≤ a ∧ a < 0xA62000 then some (.plan .a (a - 0xA60000))
  else if 0xA62000 ≤ a ∧ a < 0xA64000 then some (.plan .b (a - 0xA62000))
  else if 0xF00000 ≤ a ∧ a < 0xF80000 then some (.tally ((a - 0xF00000) / 0x1000) (a % 0x1000))
  else none

/-- The power domain of a place. -/
def Place.domain : Place → Nat
  | .page pg _ => pg.domain
  | .desc _ _ => 7
  | .zone _ => 7
  | .trig _ => 7
  | .plan _ _ => 10
  | .tally _ _ => 1

/-- Whether a page implements the word at an offset (R19, R463). DEDUCED: log entry 12. -/
def pageHas (pg : Page) (off : Nat) : Bool :=
  let b := pg.block
  if off < 0x40 then
    if b = .dev then [0x000, 0x004, 0x010, 0x014, 0x018].contains off else off ≤ 0x034
  else if off < 0x100 then (off - 0x40) / 8 < pg.nEvents
  else if b = .dev then hasWord (b.ro ++ b.rw ++ b.wc) off
  else if off < 0x500 then hasWord b.cfg off && !pg.lacks off
  else if off < 0x900 then hasWord b.cfg (off - 0x400) && !pg.lacks (off - 0x400)
  else (hasWord b.ro off || hasWord b.rw off || hasWord b.wc off) && !pg.lacks off

/-- Whether a place is implemented. -/
def Place.implemented : Place → Bool
  | .page pg off => pageHas pg off
  | .plan _ off => off % 0x1000 < 0xA0
  | .desc _ _ => true
  | .zone _ => true
  | .trig off => off % 0x4000 < 0x800
  | .tally _ _ => true

/-- Why an access of `w` bytes at an address fails, in the order of R42; AON_BUSY apart.
DEDUCED: log entry 11. -/
def busBar (d : Dev) (a w : Nat) : Option BusErr :=
  match placeOf a with
  | none => some .unmapped
  | some pl =>
    if w ≠ 4 ∨ a % 4 ≠ 0 then some .width
    else if !d.domainOn pl.domain then some .domainOff
    else if !pl.implemented then some .reserved
    else none

-- ---- reading (R19, R21) --------------------------------------------------------------------------------

/-- Low words of the 64-bit pairs of a block (R21), writable ones and those of the active mirror among them;
CAL_TIME is one on every page, and HK.DATA latches DATA_TICK (R270). DEDUCED: log entry 13. -/
def lowWords : Block → List Nat
  | .shot => [0x900]
  | .canary => [0x908, 0x910]
  | .chan => [0x950]
  | .phase => [0x910]
  | .gauge => [0x900]
  | .trig => [0x900]
  | .tiu => [0x900, 0x908, 0x910]
  | .tally => [0x900]
  | .pfe => (List.range 4).map fun k => 0x90C + 0x20 * k
  | .memx => [0x900]
  | .codec => (List.range 16).flatMap fun k => [0x904 + 0x20 * k, 0x90C + 0x20 * k, 0x918 + 0x20 * k]
  | .ptp => [0x900, 0x908, 0x924, 0x980]
  | .aon => [0x108, 0x508, 0x900]
  | .hk => [0x900]
  | .pcie => (List.range 64).map fun v => 0xC00 + 16 * v
  | .eth => [0x108, 0x508]
  | .sahf => (List.range 16).flatMap fun k => [0x114 + 0x10 * k, 0x514 + 0x10 * k]
  | .dev | .foreman | .journal | .trouble | .pwr | .syn | .emit | .lane | .raml | .trim | .pfilt
  | .zone | .capt | .raman | .reel | .ddr | .sram | .dma | .spis | .legacy | .i2cm => []

/-- Whether a page's word is the low word of a pair. -/
def isLow (pg : Page) (off : Nat) : Bool :=
  pg.block != .dev && (off == 0x024 || (lowWords pg.block).contains off)

/-- STATUS.RUNNING (R19). -/
def running (d : Dev) (pg : Page) : Bool :=
  match pg.boundary with
  | 1 => producing d pg
  | 2 => producing d pg
  | 3 => enActive d.regs pg.num && launching d pg.line && ramanEn d.regs pg.line
  | _ => enActive d.regs pg.num

/-- CFG_CHECK as it reads: the value from before an apply for 256 cycles after its boundary (R25). -/
def readCheck (d : Dev) (p : Nat) : Word :=
  match d.bus.applied.reverse.find? fun r => r.page == p && !r.rejected with
  | some r => if d.clk.tick < r.tick + 256 then r.oldCheck else cfgCheck d.regs p
  | none => cfgCheck d.regs p

/-- The interrupt of the directory entries 32n to 32n + 31 as bits (R35). -/
def irqSummary (d : Dev) (n : Nat) : Nat :=
  ((List.range 32).map fun i =>
    match directory[32 * n + i]? with
    | some pg => if d.irqRaised pg then 2 ^ i else 0
    | none => 0).sum

/-- DEAD_AGE (R60): slow edges since the end of the last dead time, 0 during one, saturating. -/
def deadAge (d : Dev) (x : Line) : Nat :=
  let s := (d.line x).shot
  if s.inDead then 0 else min (d.slow - s.deadEnd) (2 ^ 19 - 1)

/-- NEXT_PROBE (R95). -/
def nextProbe (d : Dev) (x : Line) : Nat :=
  let c := (d.line x).can
  match c.probeHeld with
  | some n => n
  | none => match c.probeDue with
    | some n => n - d.slow
    | none => 0

/-- The AON clock at the last slow edge, in 1/64 ns (R430). -/
def aonClock (d : Dev) : Nat :=
  let c := d.clk
  if d.domainOn 1 then
    let back := if c.coreOn then (c.cyc - slowStart d.slow) * (8 * (65536000000 + c.freq)).toNat else 0
    (c.time - back) / 5120000000
  else d.aonSt.clock + (d.slow - d.aonSt.clockAt) * 1953125

/-- Nanoseconds of the AON clock. -/
def aonClockNs (d : Dev) : Nat := aonClock d / 64 % 2 ^ 64

/-- The 32-byte window of JOURNAL (chapter 14): word w of entry READ_SEQ + i, 0 when not kept. -/
def journalWindow (d : Dev) (off : Nat) : Word :=
  let i := (off - 0xC00) / 32
  let seq := (liv d.regs pgJournal JOURNAL.READ_SEQ + i) % 2 ^ 32
  match d.jr.entries.find? fun e => e.seq == seq with
  | some e => (leWords e.bytes).getD (off / 4 % 8) 0
  | none => 0

/-- Entry n of the trouble log, counted by TOTAL from the first ever written (R393). -/
def troubleAt (d : Dev) (n : Nat) : Option TEntry :=
  let total := liv d.regs pgTrouble TROUBLE.TOTAL
  if n < total then d.tr.entries[total - 1 - n]? else none

/-- The 16-byte window of TROUBLE. -/
def troubleWindow (d : Dev) (off : Nat) : Word :=
  match troubleAt d (liv d.regs pgTrouble TROUBLE.READ_INDEX + (off - 0xC00) / 16) with
  | some e => (leWords e.bytes).getD (off / 4 % 4) 0
  | none => 0

/-- Packets queued on an Ethernet port (QUEUED, chapter 13). -/
def ethQueued (d : Dev) (p : Nat) : Nat :=
  let e := d.port p
  e.ptp.length + e.replies.length + e.ctl.length +
    (d.sahf.streams.map fun s => (s.queue.filter fun q => q.dest == p).length +
      (match s.out with | some o => if o.src.dest = p then o.rest.length else 0 | none => 0)).sum

/-- Code of PWR.MODE's target: the target of an open mode change, the mode otherwise (chapter 15). -/
def pwrTarget (d : Dev) : Nat :=
  match d.fm.procs.find? fun p => p.code == 0x0101 with
  | some p => p.arg
  | none => d.pwr.mode

/-- Whether a mode change is in progress (TRANSITION). -/
def inTransition (d : Dev) : Bool := d.fm.procs.any fun p => p.code == 0x0101

/-- Lines in service (PWR.MODE). -/
def inService (d : Dev) : Nat := bit !(d.pwr.outs.getD 0 false) + 2 * bit !(d.pwr.outs.getD 1 false)

/-- A live word of a page that is computed as it is read; none where the word stands in the register
space. DEDUCED: log entry 14. -/
def computedWord (d : Dev) (pg : Page) (off : Nat) : Option Nat :=
  let p := pg.num
  let m := d.regs
  let w (f : Fld) (v : Nat) : Nat := v % 2 ^ f.width * 2 ^ f.lo
  match pg.block with
  | .dev => if 0x900 ≤ off ∧ off < 0x910 then some (irqSummary d ((off - 0x900) / 4)) else none
  | .foreman =>
    if off = 0x91C then some (w FOREMAN.HANDLER.DEPTH d.tr.handling.length +
        w FOREMAN.HANDLER.QUEUED d.tr.queue.length)
    else if off = 0x920 then some (w FOREMAN.PROCS.OPEN d.fm.procs.length +
        liv m p FOREMAN.PROCS.CFG_FAULTS * 2 ^ 8)
    else none
  | .journal => if 0xC00 ≤ off then some (journalWindow d off).toNat else none
  | .trouble => if 0xC00 ≤ off then some (troubleWindow d off).toNat else none
  | .pwr =>
    if off = 0x900 then some (w PWR.MODE.IN_SERVICE (inService d) +
        w PWR.MODE.TRANSITION (bit (inTransition d)) + w PWR.MODE.TARGET (pwrTarget d) +
        w PWR.MODE.MODE d.pwr.mode)
    else if off = 0x904 then some d.pwr.domains
    else if off = 0x908 then some (w PWR.CLOCKS.REF_PRESENT (bit d.pins.refPresent) +
        w PWR.CLOCKS.LANE_LOCK (bit d.pll.locked) + w PWR.CLOCKS.CORE_LOCK (bit d.clk.coreOn))
    else none
  | .shot => if off = 0x920 then some (deadAge d pg.line) else none
  | .syn =>
    let e (k : Nat) : Nat := unsigned 10 (synEff d pg.line k)
    if off = 0x900 then some (e 0 * 2 ^ 16 + e 1) else if off = 0x904 then some (e 2 * 2 ^ 16 + e 3) else none
  | .emit => if 0x920 ≤ off ∧ off < 0x930 then some (spEff d pg.line ((off - 0x920) / 4)) else none
  | .canary => if off = 0x918 then some (nextProbe d pg.line % 2 ^ 25) else none
  | .chan => if 0xC00 ≤ off then some (unsigned 16 (chanCoef ((off - 0xC00) / 4))) else none
  | .memx =>
    if off = 0x938 then
      let r := liv m p MEMX.INIT_QUERY.REGION
      some (r + 2 ^ 31 * bit (d.initialised r) + 2 ^ 30 * bit (d.mem.tracking.any fun t => t.1 == r))
    else none
  | .sram =>
    if off = 0x900 then some ((List.range 288).filter Config.sramSpared).length else none
  | .eth => if off = 0x904 then some (min (ethQueued d pg.unit) 0xFFFF) else none
  | .ptp =>
    if off = 0x900 then some (d.timeNs % 2 ^ 32) else if off = 0x904 then some (d.timeNs / 2 ^ 32)
    else if off = 0x908 then some (d.clk.tick % 2 ^ 32) else if off = 0x90C then some (d.clk.tick / 2 ^ 32 % 2 ^ 32)
    else none
  | .aon =>
    if off = 0x900 then some (aonClockNs d % 2 ^ 32) else if off = 0x904 then some (aonClockNs d / 2 ^ 32) else none
  | .pfilt =>
    if off = 0x904 then some (support m pg.line) else if off = 0x908 then some (groupDelay m pg.line)
    else if off = 0x910 then some (frameBytes (pointCount m pg.line)) else none
  | .hk | .pfe | .tiu | .tally | .lane | .raml | .trim | .phase | .gauge | .zone | .trig | .capt
  | .raman | .reel | .ddr | .dma | .codec | .pcie | .sahf | .spis | .legacy | .i2cm => none

/-- SCRUBBING of SRAM's STATUS: the scrubber runs over the banks that have power (R310). -/
def scrubbing (d : Dev) : Bool := act d.regs pgSram SRAM.SCRUB.EN == 1 && banksOn d != 0

/-- The word that a page shows at an implemented offset, high words not latched. DEDUCED: log entry 14. -/
def pageWord (d : Dev) (pg : Page) (off : Nat) : Word :=
  let a := pageBase pg.num + off
  if off = 0x010 ∧ pg.block ≠ .dev then
    let w := putBits (rd d.regs a).toNat 3 3 (bit (running d pg))
    Word.ofNat (match pg.block with
      | .canary => putBits w 8 8 (bit (permitShown d pg.line))
      | .sram => putBits w 8 8 (bit (scrubbing d))
      | _ => w)
  else if off = 0x018 then
    Word.ofNat (irqPend d.regs pg.num (rd d.regs (pageBase pg.num + 0x014)).toNat pg.nEvents)
  else if off = 0x01C then readCheck d pg.num
  else if off < 0x900 then rd d.regs a
  else if hasWord pg.block.wc off then 0
  else match computedWord d pg off with
    | some v => Word.ofNat v
    | none => rd d.regs a

/-- The word of a place. -/
def placeWord (d : Dev) (a : Nat) : Place → Word
  | .page pg off => pageWord d pg off
  | .desc _ _ => rd d.regs a
  | .zone _ => rd d.regs a
  | .trig _ => rd d.regs a
  | .plan _ _ => rd d.regs a
  | .tally _ _ => rd d.regs a

/-- A read of an implemented word: the low word of a pair latches the high word, and the next read of the
high word returns what was latched (R21). Each address has one latch, which all links share.
DEDUCED: log entry 13. -/
def readPlace (d : Dev) (a : Nat) (pl : Place) : Dev × Word :=
  match pl with
  | .page pg off =>
    if isLow pg off then
      let hi := pageWord d pg (off + 4)
      ({ d with bus := { d.bus with latch := (a + 4, hi) :: d.bus.latch.filter fun e => e.1 != a + 4 } },
       pageWord d pg off)
    else
      match d.bus.latch.find? fun e => e.1 == a with
      | some e => ({ d with bus := { d.bus with latch := d.bus.latch.filter fun e => e.1 != a } }, e.2)
      | none => (d, pageWord d pg off)
  | _ => (d, placeWord d a pl)

/-- A read of the bus: the device after it, the error or the word. The error is not yet recorded.
DEDUCED: log entry 13. -/
def busGet (a w : Nat) (d : Dev) : Dev × Option BusErr × Word :=
  match busBar d a w, placeOf a with
  | some e, _ => (d, some e, 0)
  | none, some pl => let r := readPlace d a pl; (r.1, none, r.2)
  | none, none => (d, some .unmapped, 0)

/-- A read of the bus over a link, its error recorded (R42). -/
def busRead (k : Link) (a w : Nat) (d : Dev) : Dev × Option BusErr × Word :=
  let r := busGet a w d
  match r.2.1 with
  | some e => (r.1.busError a e (linkCode k), r.2)
  | none => r

-- ---- calibration requests (R60, R71, R114, R119, R230, R257) ------------------------------------------------

/-- The calibration kind of a page, where it has one in dead time. -/
def calKindOf : Block → Option CalKind
  | .lane => some calLane
  | .trim => some calLane
  | .syn => some calDac
  | .raml => some calRaman
  | .dev | .foreman | .journal | .trouble | .hk | .pfe | .tiu | .tally | .pwr | .shot | .emit | .canary
  | .chan | .phase | .gauge | .pfilt | .zone | .trig | .capt | .raman | .reel | .ddr | .memx | .sram
  | .dma | .codec | .pcie | .eth | .ptp | .sahf | .spis | .legacy | .i2cm | .aon => none

/-- CTRL.CAL_REQ of a page; a page with nothing to calibrate ignores it. -/
def calReqOn (pg : Page) (d : Dev) : Dev :=
  match calKindOf pg.block with
  | some k => requestCal d pg.line k
  | none => if pg.block = .pfe then pfeCalReq d else d

/-- CTRL.CAL_FACTORY of a page: the factory set returns at the next boundary of the page, at once where
that is its idle boundary (R119). -/
def calFactoryOn (pg : Page) (d : Dev) : Dev :=
  match calKindOf pg.block with
  | some k =>
    let d := d.onCal pg.line k fun c => { c with factory := true }
    if launching d pg.line then d else factoryBoundary d pg.line true
  | none =>
    if pg.block = .pfe then (d.onPfe fun p => { p with trims := [] }).setPair pgPfe 0x024 0x028 0 else d

-- ---- SEEN words (R34, R35, R323) ------------------------------------------------------------------------

/-- COUNT and SEEN after a write of `v` to SEEN (R34). DEDUCED: log entry 28. -/
def seenAfter (count v : Nat) : Nat × Nat :=
  if count = 0xFFFFFFFF ∧ v = 0xFFFFFFFF then (0, 0) else (count, min v count)

/-- A write to SEEN n of a page: an interrupt that stays raised sends its message again (R35).
DEDUCED: log entry 28. -/
def writeSeen (pg : Page) (n v : Nat) (d : Dev) : Dev :=
  let was := d.irqRaised pg
  let r := seenAfter (rd d.regs (countAddr pg.num n)).toNat v
  let d := d.setWord (countAddr pg.num n) (Word.ofNat r.1)
  let d := d.setWord (countAddr pg.num n + 4) (Word.ofNat r.2)
  if was && d.irqRaised pg then
    match entryOf pg.num with
    | some e => d.irqMessage e
    | none => d
  else d

/-- A write to COMP_SEEN of a DMA channel (R323). -/
def writeCompSeen (c v : Nat) (d : Dev) : Dev :=
  let was := d.chanRaised c
  let r := seenAfter (liv d.regs pgDma (DMA.COMP_COUNT c)) v
  let d := (d.setLiv pgDma (DMA.COMP_COUNT c) r.1).setLiv pgDma (DMA.COMP_SEEN c) r.2
  if was && d.chanRaised c then d.chanMessage c else d

-- ---- Tally (R36, R37) -------------------------------------------------------------------------------------

/-- The words of a page's Tally image that are not 0: its COUNT words; AON's has AON_COPY in PAGE_CAPS.
DEDUCED: log entry 15. -/
def tallyImage (d : Dev) (entry : Nat) (pg : Page) (m : RegMap) : RegMap :=
  let base := 0xF00000 + entry * 0x1000
  if !d.domainOn pg.domain then m
  else
    let m := (List.range pg.nEvents).foldl (fun m n =>
      wr m (base + 0x040 + 8 * n) (rd d.regs (countAddr pg.num n))) m
    let m := if pg.block = .dma then
        (List.range 32).foldl (fun m c => wr m (base + 0xB00 + 8 * c) (rd d.regs (pageBase pgDma + 0xB00 + 8 * c))) m
      else m
    if pg.block = .aon then wr m (base + 0x004) 0x20000000 else m

/-- TALLY_CAPTURE (R36): every counter of every powered page, the tick, SEQ. DEDUCED: log entry 15. -/
def tallyCapture (d : Dev) : Dev :=
  let m := d.regs.filter fun e => !(0xF00000 ≤ e.1 && e.1 < 0xF80000)
  let m := directory.zipIdx.foldl (fun m e => tallyImage d e.2 e.1 m) m
  let d := { d with regs := m }
  let d := d.setPair pgTally 0x900 0x904 d.clk.tick
  d.setLiv pgTally TALLY.SEQ (liv d.regs pgTally TALLY.SEQ + 1)

-- ---- the AON page (R32, R431, R438) -------------------------------------------------------------------------

/-- A write over the bus to an AON register enters the queue, or meets it full (R32). -/
def queueAonWrite (link off : Nat) (v : Word) (d : Dev) : Dev × Option BusErr :=
  if 8 ≤ d.bus.aonQueue.length then (d, some .aonBusy)
  else ({ d with bus := { d.bus with aonQueue := d.bus.aonQueue ++ [⟨off, v, link, d.slow + 3⟩] } }, none)

/-- A word of the AON page written, masked to its implemented bits. DEDUCED: log entry 24. -/
def setAonWord (d : Dev) (off mask : Nat) (v : Word) : Dev :=
  { d with aon := wr d.aon (pageBase pgAon + off) (v &&& Word.ofNat mask) }

/-- Whether AON refuses a configuration write at its completion (R438). DEDUCED: log entry 23. -/
def aonRefuses (d : Dev) (off : Nat) (v : Word) : Bool :=
  let mode := bitsOf v.toNat 18 16
  (off == 0x100 && (mode == 0 || mode == 6 || mode == 7)) || (off == 0x118 && d.domainOn 1)

/-- Whether the interrupt of the AON page is raised, in its own domain (R35). -/
def aonRaised (d : Dev) : Bool :=
  match pageOf pgAon with
  | some pg => irqPendAny d.aon pgAon (rd d.aon (pageBase pgAon + 0x014)).toNat pg.nEvents
  | none => false

/-- DRAM_CFG written, by a link or by MEMX (R285): a link's write rebuilds the map when MEM next loads it.
DEDUCED: log entry 147. -/
def noteDramCfg (off : Nat) (link : Bool) (d : Dev) : Dev :=
  if off = 0x144 then d.onAon fun a => { a with dramSet := link } else d

/-- What a completed write of an AON register does: a SEEN write that leaves the interrupt raised sends its
message again (R35). DEDUCED: log entry 23. -/
def aonEffect (w : AonWrite) (d : Dev) : Dev :=
  let off := w.off
  let v := w.value
  let base := pageBase pgAon
  if w.link = linkHardware then
    let d := noteDramCfg off false (setAonWord d off 0xFFFFFFFF v)
    if 0x100 ≤ off ∧ off < 0x500 then setAonWord d (off + 0x400) 0xFFFFFFFF v else d
  else if off = 0x008 then
    let c := (rd d.aon (base + 0x008)).toNat
    autoArm w.link { d with aon := wr d.aon (base + 0x008) (Word.ofNat (putBits c 0 0 (bitsOf v.toNat 0 0))) } pgAon
  else if off = 0x00C then
    let d := setAonWord d 0x00C 0xF0 v
    if bitOf v.toNat 0 then armPage w.link 0 d pgAon else d
  else if off = 0x014 then setAonWord d 0x014 0xFF v
  else if 0x040 ≤ off ∧ off < 0x100 then
    if off % 8 = 4 then
      let r := seenAfter (rd d.aon (base + off - 4)).toNat v.toNat
      let was := aonRaised d
      let d := { d with aon := wr (wr d.aon (base + off - 4) (Word.ofNat r.1)) (base + off) (Word.ofNat r.2) }
      match was && aonRaised d, entryOf pgAon with
      | true, some e => d.irqMessage e
      | _, _ => d
    else d
  else if 0x100 ≤ off ∧ off < 0x500 then
    if aonRefuses d off v then
      recordApply (d.event pgAon 2) ⟨pgAon, w.link, 0, d.clk.tick⟩ 9 true (cfgCheck d.aon pgAon)
    else
      let d := noteDramCfg off true (repairWord (setAonWord d off (wordMask aonCfg off) v) (base + off))
      let d := if off = 0x100 ∨ off = 0x108 ∨ off = 0x10C then
          { d with aonSt := { d.aonSt with alarm := true } }
        else d
      autoArm w.link d pgAon
  else if off = 0x980 ∨ off = 0x984 then setAonWord d off (wordMask aonRw off) v
  else if off = 0x988 then
    let d := setAonWord d off 0xFFFFFFFF v
    let ptr := liv d.aon pgAon AON.SCRIPT_PTR
    let hi := liv d.aon pgAon AON.SCRIPT_HI
    let e := BitVec.ofNat 64 (hi * 2 ^ 32 + v.toNat)
    let d := { d with aonSt := { d.aonSt with script := Sparse.set (fun _ => 0) d.aonSt.script ptr e } }
    setAonWord d 0x980 0x7FF (Word.ofNat (ptr + 1))
  else d

/-- AON_WRITE_COMPLETE (R32): the oldest queued write takes effect at the next slow edge; an armed AON page
applies there (class 9); WRITE_ACK counts the writes that links made. -/
def aonWriteComplete (d : Dev) : Dev :=
  match d.bus.aonQueue with
  | [] => d
  | w :: rest =>
    let d := d.advanceSlow (min w.due (d.slow + 1))
    let d := { d with bus := { d.bus with aonQueue := rest } }
    let d := applyAon (aonEffect w d)
    if w.link = linkHardware then d
    else setAonWord d 0x910 0xFFFFFFFF (Word.ofNat (liv d.aon pgAon AON.WRITE_ACK + 1))

-- ---- writing (R12, R22, R42) ------------------------------------------------------------------------------

/-- Entries of a ring whose host memory the write that moves the tail does not show: their buffers are
free values. -/
def freeEntries : Nat → Dev → Dev × List HostEntry
  | 0, d => (d, [])
  | n + 1, d =>
    let e : HostEntry := ⟨d.free, d.tookFree.free.toNat % 2 ^ 32, true, []⟩
    let r := freeEntries n d.tookFree.tookFree
    (r.1, e :: r.2)

/-- RING_TAIL of a ring moves on (R346): entries up to it join the ring. -/
def moveTail (r tail : Nat) (entries : List HostEntry) (d : Dev) : Dev :=
  let st := d.ring r
  let d := d.setLiv pgSahf (SAHF.RING_TAIL r) tail
  if st.live then d.setRing r { d.ring r with entries := st.entries ++ entries } else d

/-- A write of RING_TAIL without its entries. -/
def writeTail (r tail : Nat) (d : Dev) : Dev :=
  let old := liv d.regs pgSahf (SAHF.RING_TAIL r)
  let n := (tail + 2 ^ 16 - old) % ringSize d r
  let f := if (d.ring r).live then freeEntries n d else (d, [])
  moveTail r tail f.2 f.1

/-- A command register of a page written (access WC). `sys` does the two that reset the device or run a
service command: PWR.RESET and FOREMAN.MBX_CMD. -/
def writeCommand (sys : Link → Nat → Word → Dev → Dev) (k : Link) (pg : Page) (off : Nat) (v : Word)
    (d : Dev) : Dev :=
  let n := v.toNat
  let x := pg.line
  match pg.block with
  | .dev =>
    if off = 0x140 then (if bitOf n 0 then applySet k (bitsOf n 31 16) d else d)
    else if off = 0x144 then strobe k (bitsOf n 3 0) d else d
  | .foreman => sys k pgForeman v d
  | .pwr => sys k pgPwr v d
  | .hk => hkUrgent applyNow (bitsOf n 4 0) d
  | .tiu => tiuCmd pg.unit v d
  | .tally => tallyCapture d
  | .canary =>
    if off = 0x980 then (if bitOf n 0 then restart x (bitsOf n 31 16) d else d)
    else if bitsOf n 5 0 = 0 then serviceStop x (bitsOf n 31 16) d
    else serviceOpen x (bitsOf n 31 16) (bitOf n 15) (bitsOf n 5 0) d
  | .phase =>
    if bitsOf n 1 0 = 1 then oosCommand x true d else if bitsOf n 1 0 = 2 then oosCommand x false d else d
  | .pfilt =>
    let i := bitsOf n 9 8
    if bitsOf n 1 0 = 1 then hostFreezeSet x i d else if bitsOf n 1 0 = 2 then hostFreezeClear x i d else d
  | .trig => alarmClear (bitsOf n 3 0) d
  | .memx =>
    if off = 0x988 then (if bitOf n 0 then fillCmd d else d)
    else if off = 0x98C then (if bitOf n 8 then migrate (bitsOf n 2 0) d else d)
    else if bitOf n 8 then retrain (applyNow (pgDdr (bitsOf n 1 0))) (bitsOf n 1 0) d else d
  | .dma => dmaDoorbell ((off - 0xC00) / 4) v d
  | .codec => ctxCmd ((off - 0xB00) / 4) v d
  | .ptp => if bitOf n 0 then timeSet d else d
  | .i2cm =>
    -- the module's answer is not among the operands of a register write: free values
    let d' := d.tookFree.tookFree
    xfer applyNow v (bitOf d.free.toNat 0) (BitVec.ofNat 8 d.tookFree.free.toNat) d'
  | .journal | .trouble | .pfe | .shot | .syn | .emit | .lane | .raml | .trim | .chan | .gauge | .zone
  | .capt | .raman | .reel | .ddr | .sram | .pcie | .eth | .sahf | .spis | .legacy | .aon => d

/-- The SEQ of a stream starts at 0 when a write enables its table entry (R368); `was` is the device before the write. -/
def streamEnabled (was : Dev) (off : Nat) (d : Dev) : Dev :=
  let s := (off - 0xC00) / 16
  if off % 16 = 0 ∧ streamFld was (SAHF.STREAM.EN s) = 0 ∧ streamFld d (SAHF.STREAM.EN s) = 1 then
    d.setStream s { d.sahf.streams.getD s {} with seq := 0 }
  else d

/-- A live register of a page with access RW written. -/
def writeLive (pg : Page) (off : Nat) (v : Word) (d : Dev) : Dev :=
  let put : Dev := d.setWord (pageBase pg.num + off) (v &&& Word.ofNat (wordMask pg.block.rw off))
  match pg.block with
  | .memx => if off = 0x938 then initQuery (bitsOf v.toNat 15 0) d else put
  | .dma => writeCompSeen ((off - 0xB04) / 8) v.toNat d
  | .pcie =>
    let i := (off - 0xC00) / 16
    if off % 16 = 0xC ∧ !bitOf v.toNat 0 then msixUnmask (some i) d else put
  | .sahf => if off < 0x9C0 then writeTail ((off - 0x980) / 4) (bitsOf v.toNat 15 0) d
    else if 0xC00 ≤ off then streamEnabled d off put else put
  | .dev | .foreman | .journal | .trouble | .hk | .pfe | .tiu | .tally | .pwr | .shot | .syn | .emit
  | .canary | .lane | .raml | .trim | .chan | .phase | .gauge | .pfilt | .zone | .trig | .capt | .raman
  | .reel | .ddr | .sram | .codec | .eth | .ptp | .spis | .legacy | .i2cm | .aon => put

/-- A write of CTRL: EN into the shadow, then the calibration commands (R19). DEDUCED: log entry 22. -/
def writeCtrl (k : Link) (pg : Page) (v : Word) (d : Dev) : Dev :=
  let a := pageBase pg.num + 0x008
  let d := d.setWord a (Word.ofNat (putBits (rd d.regs a).toNat 0 0 (bitsOf v.toNat 0 0)))
  let d := autoArm (linkCode k) d pg.num
  let d := if bitOf v.toNat 1 then calReqOn pg d else d
  if bitOf v.toNat 2 then calFactoryOn pg d else d

/-- A write of APPLY: GROUP and MODE, then ARM (R19, R22). -/
def writeApply (k : Link) (pg : Page) (v : Word) (d : Dev) : Dev :=
  let d := d.setWord (pageBase pg.num + 0x00C) (v &&& 0xF0)
  if bitOf v.toNat 0 then armPage (linkCode k) 0 d pg.num else d

/-- A write of an implemented word of a page other than AON. -/
def writePage (sys : Link → Nat → Word → Dev → Dev) (k : Link) (pg : Page) (off : Nat) (v : Word)
    (d : Dev) : Dev :=
  let a := pageBase pg.num + off
  if off = 0x008 then writeCtrl k pg v d
  else if off = 0x00C then writeApply k pg v d
  else if off = 0x014 then d.setWord a (v &&& Word.ofNat (2 ^ pg.nEvents - 1))
  else if off < 0x040 then d
  else if off < 0x100 then (if off % 8 = 4 then writeSeen pg ((off - 0x040) / 8) v.toNat d else d)
  else if pg.block = .dev then
    if hasWord devWc off then writeCommand sys k pg off v d
    else if hasWord devRw off then writeLive pg off v d else d
  else if off < 0x500 then
    let d := repairWord (d.setWord a (v &&& Word.ofNat (wordMask pg.block.cfg off))) a
    autoArm (linkCode k) d pg.num
  else if off < 0x900 then d
  else if hasWord pg.block.wc off then writeCommand sys k pg off v d
  else if hasWord pg.block.rw off then writeLive pg off v d
  else d

/-- The implemented bits of a word of a zone entry. -/
def zoneMask (off : Nat) : Nat :=
  wordMask [ZONE.W0.EN 0, ZONE.W0.LINE 0, ZONE.W0.FIRST 0, ZONE.W1.COUNT 0, ZONE.W2.MIN_VALID 0,
    ZONE.W3.REPORT 0] (off % 32)

/-- The implemented bits of a word of a trigger condition. -/
def trigMask (off : Nat) : Nat :=
  wordMask [TRIG.W0.EN 0, TRIG.W0.RELEASE_EVENT 0, TRIG.W0.COMPARE 0, TRIG.W0.SOURCE 0, TRIG.W0.LINE 0,
    TRIG.W0.ZONE 0, TRIG.W1.THRESH_ON 0, TRIG.W2.THRESH_OFF 0, TRIG.W3.ON_FRAMES 0, TRIG.W3.OFF_FRAMES 0,
    TRIG.W4.ALARM 0, TRIG.W4.EVENT 0, TRIG.W4.FREEZE 0, TRIG.W4.CAPTURE 0, TRIG.W4.CLASS 0, TRIG.W4.SCOPE 0,
    TRIG.W4.MARGIN 0, TRIG.W5.PRE 0, TRIG.W5.POST 0, TRIG.W6.MASK_LO 0, TRIG.W7.MASK_HI 0] (off % 32)

/-- The implemented bits of a word of a tone plan. -/
def planMask (off : Nat) : Nat :=
  if off < 0x80 then
    wordMask [SHOT.TONE.SHAPE 0, SHOT.TONE.BW 0, SHOT.TONE.DUR 0, SHOT.TONE.AMP 0, SHOT.TONE.EDGE 0,
      SHOT.TONE.PHASE0 0] (off % 16)
  else wordMask [SHOT.GROUP.TONES 0] 0x080

/-- A shadow word of a table entry written: each line page that the entry names, in its active LINE or in its
shadow LINE after the write, sees a shadow write (R22). DEDUCED: log entry 12. -/
def writeEntry (k : Link) (a : Nat) (v : Word) (page : Line → Nat) (keep : RegMap → Line → Bool) (d : Dev) : Dev :=
  let d := repairWord (d.setWord a v) a
  let one (d : Dev) (x : Line) : Dev := if keep d.regs x then autoArm (linkCode k) d (page x) else d
  one (one d .a) .b

/-- A write of an implemented place other than an AON register. -/
def writePlace (sys : Link → Nat → Word → Dev → Dev) (k : Link) (a : Nat) (pl : Place) (v : Word)
    (d : Dev) : Dev :=
  match pl with
  | .page pg off => writePage sys k pg off v d
  | .desc n w => descWrite n w v d
  | .zone off =>
    if off < 0x20000 then
      writeEntry k a (v &&& Word.ofNat (zoneMask off)) pgZone
        (fun m x => entryKeep m 0xA00000 0xA20000 ZONE.W0.LINE x off) d
    else d
  | .trig off =>
    if off < 0x4000 then
      writeEntry k a (v &&& Word.ofNat (trigMask off)) pgTrig
        (fun m x => entryKeep m 0xA40000 0xA44000 TRIG.W0.LINE x off) d
    else d
  | .plan x off =>
    if off < 0x1000 then
      autoArm (linkCode k) (repairWord (d.setWord a (v &&& Word.ofNat (planMask off))) a) (pgShot x)
    else d
  | .tally _ _ => d

/-- The bus error with which a write of DEV.APPLY_SET fails as a whole (R28). -/
def setBar (a : Nat) (v : Word) (d : Dev) : Option BusErr :=
  if a = pageBase pgDev + 0x140 ∧ bitOf v.toNat 0 then applySetBar d else none

/-- A write of the bus: the device after it and its error, not yet recorded. -/
def busPut (sys : Link → Nat → Word → Dev → Dev) (k : Link) (a w : Nat) (v : Word) (d : Dev) :
    Dev × Option BusErr :=
  match busBar d a w, placeOf a with
  | some e, _ => (d, some e)
  | none, some pl =>
    if a / 0x1000 = pgAon then queueAonWrite (linkCode k) (a % 0x1000) v d
    else match setBar a v d with
      | some e => (d, some e)
      | none => (writePlace sys k a pl v d, none)
  | none, none => (d, some .unmapped)

/-- A write of the bus over a link, its error recorded (R42). -/
def busWrite (sys : Link → Nat → Word → Dev → Dev) (k : Link) (a w : Nat) (v : Word) (d : Dev) :
    Dev × Option BusErr :=
  let r := busPut sys k a w v d
  match r.2 with
  | some e => (r.1.busError a e (linkCode k), some e)
  | none => r

/-- The bus for writers that never reach PWR.RESET or FOREMAN.MBX_CMD. -/
def noSys (_ : Link) (_ : Nat) (_ : Word) (d : Dev) : Dev := d

/-- A write of a word without a service command among its effects. -/
def putWord (k : Link) (a : Nat) (v : Word) (d : Dev) : Dev := (busWrite noSys k a 4 v d).1

-- ---- commands -----------------------------------------------------------------------------------------------

/-- ARM (R22): a write of a page's APPLY register. -/
def execArm (k : Link) (p : PageNo) (v : Word) (s : State) : Host.Outcome State Fault Refusal :=
  done s (putWord k (pageBase p.toNat + 0x00C) v s.dev)

/-- AON_WRITE (R32). -/
def execAonWrite (k : Link) (off : BitVec 12) (v : Word) (s : State) : Host.Outcome State Fault Refusal :=
  done s (putWord k (pageBase pgAon + off.toNat) v s.dev)

/-- AON_WRITE_COMPLETE (R32). -/
def execAonWriteComplete (s : State) : Host.Outcome State Fault Refusal := done s (aonWriteComplete s.dev)

/-- SEEN_WRITE (R34). -/
def execSeenWrite (k : Link) (p : PageNo) (n : Nat) (v : Word) (s : State) :
    Host.Outcome State Fault Refusal :=
  done s (if n < 24 then putWord k (countAddr p.toNat n + 4) v s.dev
    else s.dev.busError (pageBase p.toNat) .reserved (linkCode k))

/-- TALLY_CAPTURE (R36). -/
def execTallyCapture (k : Link) (v : Word) (s : State) : Host.Outcome State Fault Refusal :=
  done s (putWord k (pageBase pgTally + 0x980) v s.dev)

/-- A calibration command written to CTRL of a page: a bus error as R42 has it, the command otherwise. -/
def ctrlCommand (k : Link) (p : Nat) (f : Page → Dev → Dev) (d : Dev) : Dev :=
  match busBar d (pageBase p + 0x008) 4, pageOf p with
  | none, some pg => f pg d
  | some e, _ => d.busError (pageBase p + 0x008) e (linkCode k)
  | none, none => d

/-- CAL_REQ (R60): CTRL.CAL_REQ of a page. -/
def execCalReq (k : Link) (p : PageNo) (s : State) : Host.Outcome State Fault Refusal :=
  done s (ctrlCommand k p.toNat calReqOn s.dev)

/-- CTRL_CAL_FACTORY (R119): CTRL.CAL_FACTORY of a page. -/
def execCtrlCalFactory (k : Link) (p : PageNo) (s : State) : Host.Outcome State Fault Refusal :=
  done s (ctrlCommand k p.toNat calFactoryOn s.dev)

end Sys2Proof.Machine
end

