-- ==== Sys2Proof/Machine/DmaBurst.lean ====
section
/-!
DEFINITION. A burst of the DMA engine (R316, R320, R324): the bytes one grant moves between DRAM, host
memory, the register space and codec contexts.
-/
namespace Sys2Proof.Machine

/-- What one side of a burst brings: the device, the bytes that stand, why it stops after them, whether a
codec message ends with them, whether a partial write met poison. -/
structure Moved where
  dev    : Dev
  bytes  : List Byte := []
  halt   : Option Nat := none
  ends   : Bool := false
  poison : Bool := false
deriving DecidableEq, Repr

/-- The halt code of a DRAM access that fails (R324); LAST_BUS shows DOMAIN_OFF for a sub-channel out of
service (R293). -/
def memHalt : MemStatus → Option Nat
  | .ok => none
  | .poisoned => some 5
  | .uninit => some 4
  | .unmapped => some 3
  | .off => some 6

/-- LAST_BUS after a DRAM access. -/
def noteBus (d : Dev) (st : MemStatus) : Dev := if st = .off then d.setLiv pgDma DMA.LAST_BUS 4 else d

-- ---- sources ------------------------------------------------------------------------------------------

/-- n bytes of DRAM from an address, line by line; those before a line that fails stand. -/
def readDram : Nat → Nat → Nat → Ecc → Moved → Moved
  | 0, _, _, _, r => r
  | k + 1, a, n, ecc, r =>
    if n = 0 then r
    else
      let here := min n (64 - a % 64)
      let g := r.dev.memRead a here ecc
      match memHalt g.2.1 with
      | some code => { r with dev := noteBus g.1 g.2.1, halt := some code }
      | none => readDram k (a + here) (n - here) .clean { r with dev := g.1, bytes := r.bytes ++ g.2.2.2 }

/-- n reads of one element of DRAM at a fixed address. -/
def readFixed (a w : Nat) : Nat → Ecc → Moved → Moved
  | 0, _, r => r
  | k + 1, ecc, r =>
    let g := r.dev.memRead a w ecc
    match memHalt g.2.1 with
    | some code => { r with dev := noteBus g.1 g.2.1, halt := some code }
    | none => readFixed a w k .clean { r with dev := g.1, bytes := r.bytes ++ g.2.2.2 }

/-- n words of the register space from an address that moves on by `step`. -/
def readRegs (step : Nat) : Nat → Nat → Moved → Moved
  | 0, _, r => r
  | k + 1, a, r =>
    let g := busRead .dma a 4 r.dev
    match g.2.1 with
    | some e => { r with dev := g.1.setLiv pgDma DMA.LAST_BUS e.code, halt := some 6 }
    | none => readRegs step k (a + step) { r with dev := g.1, bytes := r.bytes ++ leBytes 4 g.2.2.toNat }

/-- Output bytes of a codec context up to a message end, and whether it is there. -/
def ctxReady (d : Dev) (n : Nat) : Nat × Bool :=
  let l := (d.ctx n).output
  let k := (l.takeWhile Option.isSome).length
  (k, l[k]? == some none)

/-- Bytes that a codec source can give towards n: whole destination elements, or all up to a message end or an error. -/
def codecGives (d : Dev) (g : DmaDesc) (n : Nat) : Nat :=
  let r := ctxReady d g.src
  if n ≤ r.1 then n else if r.2 || codecState d g.src == 4 then r.1 else r.1 / g.dstW * g.dstW

/-- The source side of n bytes of a descriptor from offset `o` (R316). DEDUCED: log entry 56. -/
def readSource (g : DmaDesc) (o n : Nat) (host : HostReply) (ecc : Ecc) (d : Dev) : Moved :=
  let a := if g.srcFix then g.src else g.src + o
  match g.srcSpace with
  | 0 => if g.srcFix then readFixed a g.srcW (n / g.srcW) ecc { dev := d } else readDram 8 a n ecc { dev := d }
  | 1 =>
    match host with
    | .data b => if pcieUp d ∧ b.length = n then { dev := d, bytes := b } else { dev := d, halt := some 7 }
    | .error => { dev := d, halt := some 7 }
  | 2 => readRegs (if g.srcFix then 0 else 4) (n / 4) a { dev := d }
  | _ =>
    if givesOutput d g.src then
      let r := drainCtx d g.src (codecGives d g n)
      let last : Bool := codecState d g.src == 4 && (r.1.ctx g.src).output.isEmpty
      { dev := r.1, bytes := r.2.1, ends := r.2.2, halt := if last then some 10 else none }
    else { dev := d, halt := some 10 }

-- ---- destinations -------------------------------------------------------------------------------------

/-- Pieces of a write of DRAM one after another, the first line written in part showing `ecc`; `bytes` of the result
are those written. -/
def writePieces : List (Nat × List Byte) → Ecc → Moved → Moved
  | [], _, r => r
  | (a, b) :: rest, ecc, r =>
    let g := r.dev.memWrite a b ecc
    let poison := g.2 == .poisoned
    match if poison then none else memHalt g.2 with
    | some code => { r with dev := noteBus g.1 g.2, halt := some code }
    | none => writePieces rest (if b.length = 64 then ecc else .clean) { r with dev := g.1, bytes := r.bytes ++ b, poison := r.poison || poison }

/-- Bytes from an address cut at the ends of lines. -/
def linePieces : Nat → Nat → List Byte → List (Nat × List Byte)
  | 0, _, _ => []
  | k + 1, a, b =>
    if b.isEmpty then []
    else
      let n := 64 - a % 64
      (a, b.take n) :: linePieces k (a + n) (b.drop n)

/-- Words written over the bus from an address that moves on by `step`. -/
def writeRegs (sys : Link → Nat → Word → Dev → Dev) (step : Nat) : List (List Byte) → Nat → Moved → Moved
  | [], _, r => r
  | b :: rest, a, r =>
    let g := busWrite sys .dma a 4 (Word.ofNat (leNat b)) r.dev
    match g.2 with
    | some e => { r with dev := g.1.setLiv pgDma DMA.LAST_BUS e.code, halt := some 6 }
    | none => writeRegs sys step rest (a + step) { r with dev := g.1, bytes := r.bytes ++ b }

/-- The destination side: the bytes from offset `o` of a descriptor; `last` when the descriptor ends with
them, `ecc` what the first line written in part shows. -/
def writeDest (sys : Link → Nat → Word → Dev → Dev) (g : DmaDesc) (o : Nat) (b : List Byte) (last : Bool)
    (ecc : Ecc) (d : Dev) : Moved :=
  let a := if g.dstFix then g.dst else g.dst + o
  match g.dstSpace with
  | 0 =>
    writePieces (if g.dstFix then (chunks g.dstW b.length b).map fun e => (a, e) else linePieces 8 a b) ecc { dev := d }
  | 1 =>
    if !pcieUp d then { dev := d, halt := some 7 }
    else if g.dstFix then { dev := (chunks g.dstW b.length b).foldl (fun d e => hostWrite d a e) d, bytes := b }
    else if b.isEmpty then { dev := d }
    else { dev := hostWrite d a b, bytes := b }
  | 2 => writeRegs sys (if g.dstFix then 0 else 4) (chunks 4 b.length b) a { dev := d }
  | _ =>
    if takesInput d g.dst then { dev := feedCtx d g.dst b (last && bitOf g.ctrl 21), bytes := b }
    else { dev := d, halt := some 10 }

-- ---- a burst --------------------------------------------------------------------------------------------

/-- Whether a channel waits for a burst (R320): a codec context that withholds bytes or room holds it back
(R324). -/
def burstWaits (d : Dev) (c : Nat) : Bool :=
  let h := d.chan c
  match h.desc with
  | none => false
  | some g =>
    let n := min 256 (g.len - h.moved)
    dmaState d c == 1 && h.done.isNone && !h.link &&
      (g.srcSpace != 3 || !givesOutput d g.src || codecState d g.src == 4 || codecGives d g n != 0 || (ctxReady d g.src).2) &&
      (g.dstSpace != 3 || !takesInput d g.dst || codecState d g.dst != 3)

/-- What a burst leaves on its channel: bytes counted, the halt or the completion code. DESIGN CHOICE: a
descriptor that ends early completes EOM even if it met poison. DEDUCED: log entry 57. -/
def burstEnd (c : Nat) (g : DmaDesc) (r w : Moved) : Dev :=
  let d := w.dev.onChan c fun h =>
    { h with moved := h.moved + w.bytes.length, poison := h.poison || w.poison }
  let d := if w.poison then d.event pgDma 10 else d
  let h := d.chan c
  let d := d.setLiv pgDma (DMA.MOVED c) h.moved
  match if w.halt.isSome then w.halt else r.halt with
  | some code => dmaHalt d c code true
  | none =>
    if h.moved = g.len then d.onChan c fun h => { h with done := some (if h.poison then 0x11 else 0) }
    else if r.ends then d.onChan c fun h => { h with done := some 0x10 }
    else d

/-- One burst of a channel: what the source gives goes out in whole destination elements, except at a
message end. -/
def burstOf (sys : Link → Nat → Word → Dev → Dev) (c : Nat) (g : DmaDesc) (host : HostReply) (ecc out : Ecc)
    (d : Dev) : Dev :=
  let o := (d.chan c).moved
  let n := min 256 (g.len - o)
  let r := readSource g o n host ecc d
  let b := if r.ends || (g.srcSpace == 3 && r.halt.isSome) then r.bytes else r.bytes.take (r.bytes.length / g.dstW * g.dstW)
  let w := writeDest sys g o b (o + b.length == g.len) out r.dev
  burstEnd c g { r with ends := r.ends && o + b.length != g.len } w

/-- DMA_BURST (R320): the grant, then the burst. DEDUCED: log entry 57. DESIGN CHOICE: log entry 111. -/
def dmaBurst (sys : Link → Nat → Word → Dev → Dev) (host : HostReply) (ecc out : Ecc) (d : Dev) : Dev :=
  let waits := (List.range 32).filter (burstWaits d)
  match grantLevel d waits with
  | none => d
  | some level =>
    match grantAt d waits level with
    | none => d
    | some c =>
      let d := noteGrant d waits level c
      match (d.chan c).desc with
      | none => d
      | some g => burstOf sys c g host ecc out d

end Sys2Proof.Machine
end

