-- ==== Sys2Proof/Machine/Crypto.lean ====
section
/-!
DEFINITION. What the checks of a patch image compute (R385, R407, R408): SHA-256 and the verification of an ECDSA
P-256 signature. The spec names the two by name alone: their definitions are those of FIPS 180-4 and FIPS 186-4.
PRESUMED: log entry 84.
-/
namespace Sys2Proof.Machine

-- ---- SHA-256 ------------------------------------------------------------------------------------------------

/-- The round constants: 32 bits of the fractional parts of the cube roots of the first 64 primes. -/
def shaConstants : List Word :=
  [0x428A2F98, 0x71374491, 0xB5C0FBCF, 0xE9B5DBA5, 0x3956C25B, 0x59F111F1, 0x923F82A4, 0xAB1C5ED5,
   0xD807AA98, 0x12835B01, 0x243185BE, 0x550C7DC3, 0x72BE5D74, 0x80DEB1FE, 0x9BDC06A7, 0xC19BF174] ++
  [0xE49B69C1, 0xEFBE4786, 0x0FC19DC6, 0x240CA1CC, 0x2DE92C6F, 0x4A7484AA, 0x5CB0A9DC, 0x76F988DA,
   0x983E5152, 0xA831C66D, 0xB00327C8, 0xBF597FC7, 0xC6E00BF3, 0xD5A79147, 0x06CA6351, 0x14292967] ++
  [0x27B70A85, 0x2E1B2138, 0x4D2C6DFC, 0x53380D13, 0x650A7354, 0x766A0ABB, 0x81C2C92E, 0x92722C85,
   0xA2BFE8A1, 0xA81A664B, 0xC24B8B70, 0xC76C51A3, 0xD192E819, 0xD6990624, 0xF40E3585, 0x106AA070] ++
  [0x19A4C116, 0x1E376C08, 0x2748774C, 0x34B0BCB5, 0x391C0CB3, 0x4ED8AA4A, 0x5B9CCA4F, 0x682E6FF3,
   0x748F82EE, 0x78A5636F, 0x84C87814, 0x8CC70208, 0x90BEFFFA, 0xA4506CEB, 0xBEF9A3F7, 0xC67178F2]

/-- The eight working words of the hash. -/
structure Sha where
  a : Word
  b : Word
  c : Word
  d : Word
  e : Word
  f : Word
  g : Word
  h : Word
deriving DecidableEq, Repr

/-- The first hash value: 32 bits of the fractional parts of the square roots of the first 8 primes. -/
def Sha.initial : Sha :=
  ⟨0x6A09E667, 0xBB67AE85, 0x3C6EF372, 0xA54FF53A,
   0x510E527F, 0x9B05688C, 0x1F83D9AB, 0x5BE0CD19⟩

/-- The sum of two hash values, word by word. -/
def Sha.add (x y : Sha) : Sha :=
  ⟨x.a + y.a, x.b + y.b, x.c + y.c, x.d + y.d, x.e + y.e, x.f + y.f, x.g + y.g, x.h + y.h⟩

/-- One round with its message word and its constant. -/
def Sha.round (s : Sha) (w k : Word) : Sha :=
  let s1 := s.e.rotateRight 6 ^^^ s.e.rotateRight 11 ^^^ s.e.rotateRight 25
  let ch := (s.e &&& s.f) ^^^ (~~~s.e &&& s.g)
  let t1 := s.h + s1 + ch + k + w
  let s0 := s.a.rotateRight 2 ^^^ s.a.rotateRight 13 ^^^ s.a.rotateRight 22
  let maj := (s.a &&& s.b) ^^^ (s.a &&& s.c) ^^^ (s.b &&& s.c)
  ⟨t1 + (s0 + maj), s.a, s.b, s.c, s.d + t1, s.e, s.f, s.g⟩

/-- The message schedule continued by n words, newest first. -/
def shaSchedule : Nat → List Word → List Word
  | 0, l => l
  | n + 1, l =>
    let w15 := l.getD 14 0
    let w2 := l.getD 1 0
    let s0 := w15.rotateRight 7 ^^^ w15.rotateRight 18 ^^^ (w15 >>> 3)
    let s1 := w2.rotateRight 17 ^^^ w2.rotateRight 19 ^^^ (w2 >>> 10)
    shaSchedule n ((s1 + l.getD 6 0 + s0 + l.getD 15 0) :: l)

/-- The hash value after one more block of 64 bytes. -/
def Sha.block (s : Sha) (b : List Byte) : Sha :=
  let words := (chunks 4 16 b).map fun w => Word.ofNat (beNat w)
  let l := (shaSchedule 48 words.reverse).reverse
  s.add ((l.zip shaConstants).foldl (fun s e => s.round e.1 e.2) s)

/-- SHA-256 of bytes, as a number of 256 bits. -/
def sha256 (b : List Byte) : Nat :=
  let padded := b ++ [0x80] ++ List.replicate ((119 - b.length % 64) % 64) 0 ++ beBytes 8 (8 * b.length)
  let s := (chunks 64 padded.length padded).foldl Sha.block Sha.initial
  [s.a, s.b, s.c, s.d, s.e, s.f, s.g, s.h].foldl (fun n w => n * 2 ^ 32 + w.toNat) 0

-- ---- ECDSA over P-256 ---------------------------------------------------------------------------------------

/-- The prime of P-256. -/
def p256 : Nat := 2 ^ 256 - 2 ^ 224 + 2 ^ 192 + 2 ^ 96 - 1

/-- The order of the base point. -/
def p256Order : Nat := 0xFFFFFFFF00000000FFFFFFFFFFFFFFFFBCE6FAADA7179E84F3B9CAC2FC632551

/-- The coefficient b of the curve y² = x³ − 3x + b. -/
def p256b : Nat := 0x5AC635D8AA3A93E7B3EBBD55769886BC651D06B0CC53B0F63BCE3C3E27D2604B

/-- A point of the curve in affine coordinates; none is the point at infinity. -/
abbrev Point := Option (Nat × Nat)

/-- The base point. -/
def p256Base : Point :=
  some (0x6B17D1F2E12C4247F8BCE6E563A440F277037D812DEB33A0F4A13945D898C296,
        0x4FE342E2FE1A7F9B8EE7EB4A7C0F9E162BCE33576B315ECECBB6406837BF51F5)

/-- b to the power e modulo m, of exponents below 2^n. -/
def powMod : Nat → Nat → Nat → Nat → Nat
  | 0, _, _, m => 1 % m
  | n + 1, b, e, m =>
    let h := powMod n (b * b % m) (e / 2) m
    if e % 2 = 1 then b * h % m else h

/-- The inverse of v modulo a prime of 256 bits. -/
def invMod (v m : Nat) : Nat := powMod 256 (v % m) (m - 2) m

/-- The sum of two points. -/
def Point.add (u v : Point) : Point :=
  match u, v with
  | none, q => q
  | q, none => q
  | some (x1, y1), some (x2, y2) =>
    if x1 = x2 ∧ (y1 + y2) % p256 = 0 then none
    else
      let s := if x1 = x2 then 3 * (x1 * x1 + (p256 - 1)) * invMod (2 * y1) p256
        else (y2 + (p256 - y1)) * invMod (x2 + (p256 - x1)) p256
      let x := (s * s + (p256 - x1) + (p256 - x2)) % p256
      some (x, (s * (x1 + (p256 - x)) + (p256 - y1)) % p256)

/-- k times a point, of factors below 2^n. -/
def Point.times : Nat → Nat → Point → Point
  | 0, _, _ => none
  | n + 1, k, q =>
    let h := Point.times n (k / 2) (Point.add q q)
    if k % 2 = 1 then Point.add q h else h

/-- Whether two coordinates name a point of the curve. -/
def onCurve (x y : Nat) : Bool :=
  x < p256 && y < p256 && y * y % p256 == (x * x * x + (p256 - 3) * x + p256b) % p256

/-- Whether (r, s) signs a hash under the public key (x, y). -/
def ecdsaGood (hash x y r s : Nat) : Bool :=
  if !onCurve x y || r = 0 || s = 0 || p256Order ≤ r || p256Order ≤ s then false
  else
    let w := invMod s p256Order
    let u := Point.times 256 (hash * w % p256Order) p256Base
    let v := Point.times 256 (r * w % p256Order) (some (x, y))
    match Point.add u v with
    | none => false
    | some (x', _) => x' % p256Order == r

end Sys2Proof.Machine
end

