-- ==== Sys2Proof/Machine/Launch.lean ====
section
/-!
DEFINITION. The shot sequencer (chapter 02): round boundaries, holds, calibration rounds, slots, external
launch on TRIG_IN, and the shot record's way down the pipeline (R73, R124, R156, R167 to R169).
-/
namespace Sys2Proof.Machine

/-- The sequencer of a line changed. -/
def Dev.onSeq (d : Dev) (x : Line) (f : Shot → Shot) : Dev := d.onLine x fun l => { l with shot := f l.shot }

/-- The sequencer of a line. -/
def Dev.seq (d : Dev) (x : Line) : Shot := (d.line x).shot

/-- TRIG_CTRL.MODE: 0 OFF, 1 SLOT, 2 ROUND. -/
def trigMode (m : RegMap) (x : Line) : Nat := shotFld m x SHOT.TRIG_CTRL.MODE

/-- Whether a line's launch path runs: EMIT on, the core clock present, no replay. -/
def launchPath (d : Dev) (x : Line) : Bool :=
  d.domainOn 10 && d.clk.coreOn && d.pwr.mode != 6 && enActive d.regs (pgShot x)

/-- Whether the Canary lets a slot emit: PERMIT, or step 3 of a probe (R82, R93). DEDUCED: log entry 34. -/
def slotPermit (d : Dev) (x : Line) : Bool :=
  canState d x == 2 || (canState d x == 1 && (d.line x).can.step == 3)

-- ---- calibration rounds (R59 to R61) -------------------------------------------------------------------

/-- Whether a pending request makes the next round a calibration round (R60). -/
def calForced (d : Dev) (x : Line) : Bool :=
  calPending d x && ((d.seq x).calForced || 327680 ≤ deadAge d x)

/-- Whether the next round is a calibration round under a configuration (R60). -/
def calDueIn (m : RegMap) (d : Dev) (x : Line) : Bool :=
  let every := shotFld m x SHOT.CAL_CTRL.EVERY
  (every != 0 && every ≤ (d.seq x).sinceCal) || calForced d x

/-- Whether the next round is a calibration round (R60). -/
def calDue (d : Dev) (x : Line) : Bool := calDueIn d.regs d x

/-- A round boundary ends the calibration round before it, with its dead time (R59, R118). -/
def endCalRound (d : Dev) (x : Line) : Dev :=
  if (d.seq x).calRound then
    let d := [calLane, calDac, calRaman].foldl (fun d k => calRoundEnds d x k) d
    let sl := d.slow
    let d := d.onSeq x fun s =>
      { s with calRound := false, deadFrom := none, inDead := false,
               deadEnd := if s.inDead then sl else s.deadEnd }
    d.setStatus (pgShot x) 9 false
  else d

/-- A round that starts at tick t is a calibration round: its dead time is placed (R59); a diagnostic request
that it cannot serve takes the next slot (R61, R91). In SLOT and ROUND modes, where the next boundary is not
known in advance, the dead time is taken to end PERIOD_EFF after the boundary, as for internal launches, and
D0 ≥ PERIOD_EFF gives none. DESIGN CHOICE: log entry 120. -/
def startCalRound (d : Dev) (x : Line) (t : Nat) : Dev :=
  let s := d.seq x
  let p := liv d.regs (pgShot x) SHOT.PERIOD_EFF
  let start := max t s.echoEnd
  let short : Bool := t + p < start + 500
  let want := (d.line x).can.diagReq && short
  let d := [calLane, calDac, calRaman].foldl (fun d k => calRoundStarts d x k) d
  let d := d.onSeq x fun s =>
    { s with calRound := true, sinceCal := 0, calForced := false, newPlan := false,
             deadFrom := if start < t + p then some start else none, deadTo := t + p,
             taken := s.taken || want }
  (d.setStatus (pgShot x) 9 true).event (pgShot x) 7

/-- DEAD_AGE_EXPIRY (R60): DEAD_AGE reaches 327,680 with a request pending. -/
def deadAgeExpiry (x : Line) (d : Dev) : Dev :=
  if d.domainOn 10 && calPending d x && !(d.seq x).inDead then
    (d.advanceSlow ((d.seq x).deadEnd + 327680)).onSeq x fun s => { s with calForced := true }
  else d

/-- DEAD_TIME_START (R59): D0 after the boundary of a calibration round; a diagnostic slot is served from a
dead time of at least 500 cycles (R61, R91). -/
def deadTimeStart (x : Line) (d : Dev) : Dev :=
  let s := d.seq x
  match s.deadFrom with
  | none => d
  | some f =>
    if s.calRound ∧ !s.inDead then
      let d := d.advanceTo f
      let d := d.onLine x fun l => { l with shot := { l.shot with inDead := true }, passAt := f, rpassAt := f }
      if (d.line x).can.diagReq ∧ !s.taken ∧ f + 500 ≤ s.deadTo then serveDiag d x f else d
    else d

/-- DIAG_REQUEST (R91, R61): at 1,024 the Canary asks for a diagnostic slot; unless a calibration round
starts next, the next slot is taken. -/
def diagRequest (x : Line) (d : Dev) : Dev :=
  if d.domainOn 10 && 1024 ≤ liv d.regs (pgCanary x) CANARY.DIAG_AGE && !(d.line x).can.diagReq then
    let wait := trigMode d.regs x == 0 && calDue d x
    let d := d.onCan x fun c => { c with diagReq := true }
    d.onSeq x fun s => { s with taken := !wait }
  else d

-- ---- a slot (R57, R68, R73, R77, R82) -------------------------------------------------------------------

/-- What a slot launches: its tones (0 for none), whether a Raman pulse, whether it is dark. -/
structure Firing where
  tones : Nat
  raman : Bool
  dark  : Bool
deriving DecidableEq, Repr

/-- The decision of the launch path for slot g (R57, R58, R59, R61, R82, R93). -/
def firing (d : Dev) (x : Line) (g : Nat) : Firing :=
  let m := d.regs
  let s := d.seq x
  let mask := if cohEn m x then groupMask m x g else 0
  let pulse := ramanEn m x && s.slotCount % max (shotFld m x SHOT.RAMAN_CTRL.EVERY) 1 == 0
  if s.calRound || s.taken then ⟨0, false, false⟩
  else if slotPermit d x then ⟨mask, pulse && !(canState d x == 1 && cohEn m x), false⟩
  else ⟨0, false, mask != 0 || pulse⟩

/-- The gates of a slot that have an edge, lit or DARK (R274): the SOA's and the Raman laser's. -/
def gateEdges (d : Dev) (x : Line) (g : Nat) (f : Firing) : Bool × Bool :=
  let m := d.regs
  let pulse := ramanEn m x && (d.seq x).slotCount % max (shotFld m x SHOT.RAMAN_CTRL.EVERY) 1 == 0
  (f.tones != 0 || (f.dark && cohEn m x && groupMask m x g != 0), f.raman || (f.dark && pulse))

/-- The FLAGS of a shot record (R73). DEDUCED: log entry 31. -/
def slotFlags (s : Shot) (f : Firing) (ext hold : Bool) : Nat :=
  bit (f.tones != 0) + 2 * bit f.raman + 4 * bit s.taken + 8 * bit s.calRound + 16 * bit ext +
    64 * bit hold + 128 * bit f.dark + 256 * bit s.appliedFlag

/-- The shot record of slot g in the present cycle (R73). DEDUCED: log entry 34. -/
def shotRecord (d : Dev) (x : Line) (g : Nat) (f : Firing) (ext hold : Bool) : ShotRec :=
  { tick := d.clk.tick, time := d.timeNs, seq := (d.seq x).nextSeq,
    round := liv d.regs (pgShot x) SHOT.ROUND_LO, line := x.idx, group := g, tones := f.tones,
    flags := slotFlags (d.seq x) f ext hold, cfg := (cfgCheck d.regs (pgShot x)).toNat }

/-- The coherent launch of a slot: the SOA gate, the tones' launches, SYN's waveform (R51, R54, R77). -/
def launchTones (d : Dev) (x : Line) (s : Slot) : Dev :=
  let m := s.cfg
  let t := s.shot.tick
  let mask := s.shot.tones
  let stop := t + soaGate m x mask
  let d := d.onCells x fun c => { c with soaOn := true, soaFrom := t, soaOff := stop }
  let d := d.onCan x fun c => { c with diagSlot := none, drive := c.drive.set 1 (true, t) }
  let ends := t + maxOf ((maskTones mask).map (toneClear m x))
  let d := d.onSeq x fun q =>
    { q with tones := q.tones.zipIdx.map fun e => if bitOf mask e.2 then some t else e.1,
             echoEnd := max q.echoEnd ends }
  if enActive m (pgSyn x) then
    (d.onLine x fun l => { l with fired := some s }).events (pgSyn x) 4 (clipCount m x mask)
  else d

/-- The Raman launch of a slot is scheduled (R57). -/
def scheduleRaman (d : Dev) (x : Line) (s : Slot) : Dev :=
  let m := s.cfg
  let t := s.shot.tick + shotFld m x SHOT.RAMAN_TIMING.OFFSET
  let ends := t + clearCycles m x + shotFld m x SHOT.RAMAN_TIMING.WIDTH
  d.onSeq x fun q => { q with raman := some t, ramanDue := some t, echoEnd := max q.echoEnd ends }

/-- The windows of the lit slots before a slot end, and the checks of a lit slot open (R88, R90, R91). -/
def noteLit (d : Dev) (x : Line) (s : Slot) (f : Firing) : Dev :=
  let coh : Bool := f.tones != 0
  let launch := if coh || !f.raman then s.shot.tick else s.shot.tick + shotFld s.cfg x SHOT.RAMAN_TIMING.OFFSET
  let d := d.onCan x (endWindows launch)
  if coh || f.raman then
    litSlot d x launch (!coh) (if coh then some (soaGate s.cfg x f.tones) else none)
      (if f.raman then some (shotFld s.cfg x SHOT.RAMAN_TIMING.WIDTH) else none)
  else d

/-- Where the sequencer goes after slot g at tick t: the next slot on SHOT's own timing, or the next edge of
TRIG_IN (R65, R67). -/
def nextSlotOf (d : Dev) (x : Line) (g t : Nat) : Dev :=
  let m := d.regs
  let g' := (g + 1) % max (nGroups m x) 1
  let wait := trigMode m x == 1 || (trigMode m x == 2 && g' == 0)
  let edge := t + liv m (pgShot x) SHOT.SLOT_EFF
  let d := d.setStatus (pgShot x) 8 wait
  d.onSeq x fun s =>
    { s with nextSlot := g', nextEdge := if wait then none else some edge, extWait := wait,
             lastEdge := some t, taken := false, appliedFlag := false, slotCount := s.slotCount + 1,
             nextSeq := (s.nextSeq + 1) % 2 ^ 32 }

/-- Slot g launches in the present cycle; `hold` cycles of a hold came before it (R62, R68, R73). -/
def slotAt (d : Dev) (x : Line) (g hold : Nat) (ext : Bool) : Dev :=
  let f := firing d x g
  let r := shotRecord d x g f ext (hold != 0)
  let held (p : Nat) : Bool := d.bus.faultHold.contains p
  let s : Slot :=
    { shot := r, cfg := d.regs, gainStep := (d.line x).lane.gainStep, hold := hold,
      chanHold := held (pgChan x) && d.status (pgChan x) 2,
      phaseHold := held (pgPhase x) && (d.status (pgPhase x) 2 || d.status (pgGauge x) 2),
      guardHold := d.status (pgChan x) 8 }
  let taken := (d.seq x).taken
  let d := (openSlot d x s).onLine x fun l => { l with slots := l.slots ++ [s] }
  let gates := gateEdges d x g f
  let d := if gates.1 then tiuEdge (4 + x.idx) true d else d
  let d := if f.tones = 0 then d else launchTones d x s
  let d := if f.raman then scheduleRaman d x s
    else if gates.2 then d.onSeq x fun q => { q with ramanDue := some (r.tick + shotFld d.regs x SHOT.RAMAN_TIMING.OFFSET) }
    else d
  let d := noteLit d x s f
  let d := if taken then d.event (pgShot x) 8 else d
  let d := if f.dark then d.event (pgShot x) 9 else d
  let d := if taken && (d.line x).can.diagReq then serveDiag d x r.tick else d
  nextSlotOf d x g r.tick

-- ---- round boundaries (R24, R39, R60, R62, R64, R67) -------------------------------------------------------

/-- PFILT notes where the line's shots stop, for the record that the next shot gives (R9); `cause` is 8 for a
configuration fault (R39), else 10. -/
def noteStop (d : Dev) (x : Line) (t cause : Nat) : Dev :=
  d.onPf x fun p => if p.starting || p.stopped.isSome then p else { p with stopped := some (t, cause) }

/-- The line's shots stop at tick t. -/
def stopSlots (d : Dev) (x : Line) (t : Nat) : Dev :=
  let d := noteStop (closeSlots d x t) x t 10
  let d := d.onSeq x fun s => { s with nextEdge := none, extWait := false, holdTo := none, nextSlot := 0 }
  d.setStatus (pgShot x) 8 false

/-- CHAN, PHASE and GAUGE judge their configuration faults, and CHAN its guard, at a round boundary (R126,
R138, R39). -/
def roundFaults (d : Dev) (x : Line) : Dev :=
  let put (d : Dev) (p : Nat) (b : Bool) : Dev :=
    let rest := d.bus.faultHold.filter (· != p)
    { d with bus := { d.bus with faultHold := if b then p :: rest else rest } }
  let d := put d (pgChan x) (d.status (pgChan x) 2)
  let d := put d (pgPhase x) (d.status (pgPhase x) 2 || d.status (pgGauge x) 2)
  if d.pageOn (pgChan x) then d.setStatus (pgChan x) 8 (guardShort d.regs x) else d

/-- What waits for a round boundary takes effect: configurations, returns to the factory set, tracking steps, an
out-of-service command (R23, R24, R113, R119, R158). DEDUCED: log entry 16. -/
def boundaryApplies (d : Dev) (x : Line) : Dev :=
  let d := oosTake x d
  let d := factoryBoundary (applyRound x d) x false
  roundFaults (trackStep (trackStep d x trimKind) x ramlKind) x

/-- A round starts in the present cycle (R60, R62, R63): counted, made a calibration round where one is due,
held where a new plan needs it (not in external modes). DEDUCED: log entry 32. -/
def startRound (d : Dev) (x : Line) (t : Nat) (ext : Bool) : Dev :=
  let d := d.setPair (pgShot x) 0x900 0x904 (d.pair (pgShot x) 0x900 0x904 + 1)
  if calDue d x then slotAt (startCalRound d x t) x 0 0 ext
  else
    let new := (d.seq x).newPlan
    let want := (d.line x).can.diagReq
    let h := if new && !ext then holdNeeded d.regs x (d.seq x) t else 0
    let d := d.onSeq x fun s =>
      { s with sinceCal := s.sinceCal + 1, newPlan := false, taken := s.taken || want }
    if h = 0 then slotAt d x 0 0 ext
    else
      let d := d.onSeq x fun s => { s with nextSlot := 0, nextEdge := some t, holdTo := some (t + h) }
      (d.setStatus (pgShot x) 10 true).event (pgShot x) 6

/-- The round boundary of a line at tick t, in the present cycle; `ext` when an accepted edge made it. A line that is to
wait for an edge keeps its last slot open until that edge (R100). -/
def roundBoundary (d : Dev) (x : Line) (t : Nat) (ext : Bool) : Dev :=
  let d := endCalRound d x
  if launchFault d x then
    let d := stopSlots (noteStop d x t 8) x t
    { d with bus := { d.bus with faultHold := pgShot x :: d.bus.faultHold } }
  else
    let d := boundaryApplies d x
    if !enActive d.regs (pgShot x) then stopSlots d x t
    else if !ext && trigMode d.regs x != 0 then
      let d := d.onSeq x fun s => { s with nextEdge := none, nextSlot := 0, extWait := true }
      d.setStatus (pgShot x) 8 true
    else startRound d x t ext

/-- SLOT_LAUNCH (R68): the scheduled slot. A slot that waits for the end of a hold is launched by HOLD_END. -/
def slotLaunch (x : Line) (d : Dev) : Dev :=
  let s := d.seq x
  match s.nextEdge with
  | none => d
  | some t =>
    if !launchPath d x || s.holdTo.isSome then d
    else
      let d := d.advanceTo t
      if s.nextSlot = 0 then roundBoundary d x t false else slotAt d x s.nextSlot 0 false

/-- HOLD_END (R62): the held round launches. -/
def holdEnd (x : Line) (d : Dev) : Dev :=
  let s := d.seq x
  match s.holdTo, s.nextEdge with
  | some stop, some b =>
    if !launchPath d x then d
    else
      let d := (d.advanceTo stop).onSeq x fun s => { s with holdTo := none }
      slotAt (d.setStatus (pgShot x) 10 false) x 0 (stop - b) false
  | _, _ => d

/-- RAMAN_PULSE (R57): the Raman gate opens OFFSET cycles after the slot's gate edge; a gate without permit
stays off (R68). Of a DARK slot only the edge reaches the interval units (R274). DEDUCED: log entry 44. -/
def ramanPulse (x : Line) (d : Dev) : Dev :=
  match (d.seq x).ramanDue, (d.line x).lane.spans with
  | some t, sp :: _ =>
    let d := tiuEdge (6 + x.idx) true ((d.advanceTo t).onSeq x fun s => { s with ramanDue := none })
    if !bitOf sp.slot.shot.flags 1 then d
    else
      let w := shotFld sp.slot.cfg x SHOT.RAMAN_TIMING.WIDTH
      let d := if slotPermit d x then
          let d := d.onCells x fun c => { c with ramOn := true, ramFrom := t, ramOff := t + w }
          d.onCan x fun c => { c with drive := c.drive.set 3 (true, t) }
        else d
      let inputs := (List.range 2).any fun j => act d.regs (pgRaml x) (RAML.INPUT.SEL j) != 0
      let p : RamPulse :=
        { shot := sp.slot.shot, start := t, time := d.timeNs, cfg := d.regs, probe := canState d x == 1,
          input := inputs }
      d.onRaman x fun r =>
        { r with pulses := r.pulses ++ [p], fired := (t, w) :: r.fired.filter fun f => t ≤ f.1 + 2 ^ 25 }
  | _, _ => d

-- ---- TRIG_IN (R65 to R68) -----------------------------------------------------------------------------------

/-- The shadows of the armed pages among some, active together with the rest of the active configuration. -/
def armedShadows (d : Dev) (ps : List Nat) : RegMap :=
  ((ps.filterMap pageOf).filter fun pg => (d.armedAs pg.num).isSome && d.domainOn pg.domain &&
    !shadowBad d d.regs pg).foldl (fun m pg => copyPage d.regs pg m) d.regs

/-- The configuration that judges an edge for slot g (R66): for slot 0 with an armed SHOT page, the shadow with
which the launch would run, an armed SYN page's ALIGN in it, where it passes the plan check; the active one
otherwise. Whether it is the shadow's. -/
def edgeConfig (d : Dev) (x : Line) (g : Nat) : RegMap × Bool :=
  match pageOf (pgShot x) with
  | none => (d.regs, false)
  | some pg =>
    let m := armedShadows d [pgShot x, pgSyn x]
    if g = 0 ∧ (d.armedAs (pgShot x)).isSome ∧ !shadowBad d d.regs pg ∧ (planCheck m x).code = 0 then (m, true)
    else (d.regs, false)

/-- Whether an edge sampled in cycle c, its slot's gate edge 16 cycles later, is accepted (R66). An edge of SLOT mode
that applies ROUND or OFF starts a whole round on SHOT's own timing, which must keep R54. -/
def edgeAccepted (d : Dev) (x : Line) (c : Nat) : Bool :=
  let s := d.seq x
  let e := edgeConfig d x s.nextSlot
  let m := e.1
  let t := c + 16
  let after (n : Nat) : Bool := match s.lastAccept with
    | none => true
    | some l => l + n ≤ c
  let dark : Bool := if s.nextSlot = 0 then calDueIn m d x else s.calRound
  let count := if e.2 then 0 else s.slotCount
  let pulse := ramanEn m x && count % max (shotFld m x SHOT.RAMAN_CTRL.EVERY) 1 == 0
  s.extWait &&
    (if trigMode d.regs x == 1 then
       after (planSlot m x) && (dark || s.taken || slotClears m x s s.nextSlot t pulse) &&
         (dark || trigMode m x == 1 || holdNeeded m x s t == 0)
     else
       after (planPeriod m x) && (dark || !(s.newPlan || e.2) || holdNeeded m x s t == 0))

/-- An edge of the selected polarity on one line (R66, R67). -/
def trigLine (c : Nat) (rising : Bool) (d : Dev) (x : Line) : Dev :=
  let m := d.regs
  if !d.domainOn 10 || !d.clk.coreOn || d.pwr.mode == 6 || trigMode m x == 0 ||
      (shotFld m x SHOT.TRIG_CTRL.POLARITY == 0) != rising then d
  else if !enActive m (pgShot x) then d.event (pgShot x) 5
  else if edgeAccepted d x c then
    let s := d.seq x
    let d := d.advanceTo (c + 16)
    let d := d.onSeq x fun s => { s with extWait := false, lastAccept := some c }
    let d := d.setStatus (pgShot x) 8 false
    if s.nextSlot = 0 then roundBoundary d x (c + 16) true else slotAt d x s.nextSlot 0 true
  else d.event (pgShot x) 4

/-- TRIG_IN_EDGE (R66): both lines judge the edge, and the interval units see it (R274). -/
def trigInEdge (rising : Bool) (d : Dev) : Dev :=
  let c := d.clk.tick
  trigLine c rising (trigLine c rising (tiuEdge 1 rising d) .a) .b

-- ---- prediction (R72) ----------------------------------------------------------------------------------------

/-- SHOT_PREDICT (R72). -/
def shotPredict (x : Line) (d : Dev) : Dev :=
  match pageOf (pgShot x) with
  | none => d
  | some pg =>
    if d.domainOn 10 then
      let m := copyPage d.regs pg d.regs
      let d := d.setLiv (pgShot x) SHOT.TCLEAR_MAX (toneClearMax m x)
      let d := d.setLiv (pgShot x) SHOT.PERIOD_PRED (planPeriod m x)
      let d := d.setLiv (pgShot x) SHOT.SLOT_PRED (planSlot m x)
      d.putPlanResult x (planCheck m x)
    else d

-- ---- the record's way down (R73, R124, R156, R157, R167 to R169) ----------------------------------------------

/-- What restarts every point of a line when it changes between consecutive traced shots (R157); the other changes
restart them from their apply. DEDUCED: log entry 33. -/
def restartKey (m : RegMap) (x : Line) : List Nat :=
  nGroups m x ::
    ((List.range 8).map (groupMask m x) ++
      (List.range 8).flatMap fun t =>
        [planFld m x (SHOT.TONE.SHAPE t), planFld m x (SHOT.TONE.BW t), toneDur m x t,
         planFld m x (SHOT.TONE.EDGE t)])

/-- A traced shot: a restart of the line's points takes effect with it, if one is due (R157). -/
def tracedShot (d : Dev) (x : Line) (s : Slot) : Dev :=
  let ph := (d.line x).phase
  let differs : Bool := match ph.traced with
    | some l => restartKey l.cfg x != restartKey s.cfg x
    | none => false
  let due : Bool := match ph.restart with
    | some t => decide (t ≤ s.shot.tick)
    | none => false
  let d := if due || differs then
      let e := (liv d.regs (pgPhase x) PHASE.EPOCH + 1) % 2 ^ 16
      (d.setLiv (pgPhase x) PHASE.EPOCH e).event (pgPhase x) 6
    else d
  d.onPhase x fun p => { p with restart := if due then none else p.restart, traced := some s }

/-- Whether a shot is a gap shot (R156): no coherent launch, notices, or PHASE or GAUGE not processing. -/
def isGapShot (s : Slot) (x : Line) (l : List Trace) : Bool :=
  !isCoherent s || l.any (·.notice) || !enActive s.cfg (pgPhase x) || !enActive s.cfg (pgGauge x) ||
    s.phaseHold

/-- OVERLOAD of a shot (R155). -/
def showOverload (d : Dev) (x : Line) (s : Slot) (gap : Bool) : Dev :=
  let far : Bool := capacityOf s.cfg x < pointCount s.cfg x && enActive s.cfg (pgGauge x)
  let d := d.setStatus (pgPhase x) 8 far
  if far && !gap then d.event (pgPhase x) 4 else d

/-- REEL takes its image at the frame boundary of a line that waits to record (R399): the frame's first shot is
the first recorded. -/
def tapFrame (d : Dev) (x : Line) (s : Slot) : Dev :=
  let l := d.reel.line x
  match (d.line x).pf.frames.getLast? with
  | some f =>
    if l.armed && l.first.isNone && l.stop.isNone then
      let ps := (List.range (pointCount d.regs x)).filter (isReplayed d.regs x)
      d.onReel x fun l =>
        { l with cfg := d.regs, first := some s.shot, frame0 := f.seq, trig0 := (d.line x).zone.nextTrig,
                 epoch := liv d.regs (pgPhase x) PHASE.EPOCH, nextSeq := s.shot.seq,
                 ticks := (d.line x).phase.ticks.drop 1,
                 oos := packBits (ps.map (oosBit d x)),
                 freezes := (List.range 68).flatMap fun i =>
                   (List.range 4).flatMap fun w => leBytes 4 (freezeWord d x i w) }
    else d
  | none => d

/-- The frame boundary at a shot record (R168, R169): the pages of the frame class apply; CAPT under a
configuration fault ends its segments (R39); the next frame starts where PFILT runs. -/
def frameBoundary (d : Dev) (x : Line) (s : Slot) (geo : Bool) : Dev :=
  let d := applyFrame x d
  let d := if d.status (pgCapt x) 2 then endSegments d x segAborted else d
  if enActive d.regs (pgPfilt x) && (!roundMode d.regs x || s.shot.group == 0) then
    tapFrame (startFrame d x s geo) x s
  else d

/-- PFILT at a shot record: a new geometry ends the frame in progress, a first slot starts one (R167 to
R169). -/
def frameStep (d : Dev) (x : Line) (s : Slot) : Dev :=
  let g := geometry s.cfg x
  let old := (d.line x).pf.geom
  let d := d.onPf x fun p => { p with geom := some g }
  if !enActive d.regs (pgPfilt x) then
    if old.isSome && old != some g then d.onPf x fun p => { p with action := 3 } else d
  else if old.isSome && old != some g then
    let d := geometrySegments (abandonFrame d x 9) x (seqAdd (d.line x).pf.nextSeq (2 ^ 32 - 1))
    frameBoundary (d.onCapt x fun c => { c with restart := true }) x s true
  else if (openFrame d x).isNone then frameBoundary d x s false
  else d

/-- The shot record reaches CHAN, PHASE and PFILT. DEDUCED: log entry 33. -/
def passRecord (d : Dev) (x : Line) (s : Slot) : Dev :=
  if !d.domainOn 7 then d
  else
    let traces := tracesOf s x
    let gap := isGapShot s x traces
    let d := (sendNotices d x s traces).events (pgChan x) 6 (traces.filter (·.notice)).length
    let d := if gap then d else tracedShot d x s
    let d := showOverload d x s gap
    let before := (d.line x).phase.ticks
    let d := d.onPhase x fun p => { p with ticks := (s.shot.tick :: p.ticks).take 256 }
    let d := frameStep d x s
    let c := countSlot d x s gap
    let e := liv c.1.regs (pgPhase x) PHASE.EPOCH
    let shot : PhaseShot :=
      { slot := s, traces := traces, gap := gap, ticks := before, epoch := e,
        overload := capacityOf s.cfg x < pointCount s.cfg x, frame := c.2.1, first := c.2.2.1,
        sample := c.2.2.2.1, out := c.2.2.2.2 }
    settleShots (c.1.onPhase x fun p => { p with shots := p.shots ++ [shot] }) x

/-- SHOT_RECORD (R73): 300 cycles after its gate edge the oldest slot's record goes down the pipeline. -/
def shotRecordOut (x : Line) (d : Dev) : Dev :=
  match (d.line x).slots with
  | [] => d
  | s :: rest =>
    let d := d.advanceTo (s.shot.tick + 300)
    let d := d.onLine x fun l => { l with slots := rest }
    passRecord (d.setLiv (pgShot x) SHOT.SEQ s.shot.seq) x s

/-- SLOT_LAUNCH (R68). -/
def execSlotLaunch (x : Line) (s : State) : Host.Outcome State Fault Refusal := done s (slotLaunch x s.dev)

/-- HOLD_END (R62). -/
def execHoldEnd (x : Line) (s : State) : Host.Outcome State Fault Refusal := done s (holdEnd x s.dev)

/-- RAMAN_PULSE (R57). -/
def execRamanPulse (x : Line) (s : State) : Host.Outcome State Fault Refusal := done s (ramanPulse x s.dev)

/-- TRIG_IN_EDGE (R66). -/
def execTrigInEdge (rising : Bool) (s : State) : Host.Outcome State Fault Refusal :=
  done s (trigInEdge rising s.dev)

/-- SHOT_PREDICT (R72). -/
def execShotPredict (x : Line) (s : State) : Host.Outcome State Fault Refusal := done s (shotPredict x s.dev)

/-- SHOT_RECORD (R73). -/
def execShotRecord (x : Line) (s : State) : Host.Outcome State Fault Refusal := done s (shotRecordOut x s.dev)

/-- DEAD_AGE_EXPIRY (R60). -/
def execDeadAgeExpiry (x : Line) (s : State) : Host.Outcome State Fault Refusal :=
  done s (deadAgeExpiry x s.dev)

/-- DEAD_TIME_START (R59). -/
def execDeadTimeStart (x : Line) (s : State) : Host.Outcome State Fault Refusal :=
  done s (deadTimeStart x s.dev)

/-- DIAG_REQUEST (R91). -/
def execDiagRequest (x : Line) (s : State) : Host.Outcome State Fault Refusal :=
  done s (diagRequest x s.dev)

end Sys2Proof.Machine
end

