-- ==== Sys2Proof/Machine/Save.lean ====
section
/-!
DEFINITION. Page images: the Foreman's save region (R405, R411, R412, R422, R465) and the pages and
regions that a reel's configuration image holds (R399, R402). The layout of the save region is the model's.
-/
namespace Sys2Proof.Machine

/-- The bytes of n words from an address. -/
def wordBytes (m : RegMap) (a n : Nat) : List Byte :=
  (List.range n).flatMap fun i => leBytes 4 (rd m (a + 4 * i)).toNat

/-- Words written from an address. -/
def putWords (m : RegMap) (a : Nat) (ws : List Word) : RegMap :=
  ws.zipIdx.foldl (fun m e => wr m (a + 4 * e.2) e.1) m

/-- Bytes n of a list from an offset. -/
def sliceOf (l : List Byte) (o n : Nat) : List Byte := (l.drop o).take n

/-- The number that n bytes at an offset of a list hold, little-endian. -/
def numAt (l : List Byte) (o n : Nat) : Nat := leNat (sliceOf l o n)

-- ---- shadows written by the Foreman ------------------------------------------------------------------

/-- The shadow words of a page that failed their parity are good again when written (R39). -/
def repairShadow (d : Dev) (pg : Page) : Dev :=
  (d.bus.parityBad.filter (shadowOf d.regs pg)).foldl repairWord d

/-- CTRL.EN of the shadow of a page written. -/
def setEnShadow (d : Dev) (p : Nat) (b : Bool) : Dev :=
  d.setWord (pageBase p + 0x008) (Word.ofNat (putBits (rd d.regs (pageBase p + 0x008)).toNat 0 0 (bit b)))

/-- The configuration shadow of a page written whole, with EN. -/
def writeShadow (d : Dev) (pg : Page) (ws : List Word) (en : Bool) : Dev :=
  let d := { d with regs := putWords d.regs (pageBase pg.num + 0x100) ws }
  repairShadow (setEnShadow d pg.num en) pg

-- ---- the save region -----------------------------------------------------------------------------------

/-- First byte of the save region. -/
def saveBase (d : Dev) : Nat := (saveRange d.regs).1

/-- Whether the save region is enabled and initialised (R411, R465). -/
def saveReady (d : Dev) : Bool :=
  d.domainOn 4 && (saveRange d.regs).2 != 0 && d.usable (saveRange d.regs)

/-- Where the record of a page stands in the save region. -/
def saveAddr (d : Dev) (p : Nat) : Nat := saveBase d + 4096 * directory.findIdx fun pg => pg.num == p

/-- The record of a page: head, shadow, active. DESIGN CHOICE: log entry 108. -/
def saveRecord (m : RegMap) (p : Nat) : List Byte :=
  leBytes 4 p ++ leBytes 4 1024 ++ leBytes 4 (cfgCheck m p).toNat ++
    leBytes 4 (bit (enShadow m p) + 2 * bit (enActive m p)) ++
    wordBytes m (pageBase p + 0x100) 256 ++ wordBytes m (pageBase p + 0x500) 256

/-- The shadowed region that the save region keeps with a page, if any: where it stands there, its shadow
and active views, its bytes. The zone table and the trigger conditions go with line A's page. -/
def saveRegion (pg : Page) : Option (Nat × Nat × Nat × Nat) :=
  match pg.num with
  | 0x200 => some (0x40000, 0xA60000, 0xA61000, 0x1000)
  | 0x201 => some (0x42000, 0xA62000, 0xA63000, 0x1000)
  | 0x408 => some (0x80000, 0xA00000, 0xA20000, 0x20000)
  | 0x40A => some (0x48000, 0xA40000, 0xA44000, 0x4000)
  | _ => none

/-- A page's shadow, active mirror and region copied to the save region, where its domain is on. -/
def savePage (d : Dev) (pg : Page) : Dev :=
  if !saveReady d || !d.domainOn pg.domain then d
  else
    let m := d.regs
    let d := (d.memWrite (saveAddr d pg.num) (saveRecord m pg.num)).1
    match saveRegion pg with
    | some (o, sh, ac, n) =>
      (d.memWrite (saveBase d + o) (wordBytes m sh (n / 4) ++ wordBytes m ac (n / 4))).1
    | none => d

/-- Which of a record's two copies a write-back takes. -/
inductive SavedView where
  | shadow | active
deriving DecidableEq, Repr

/-- Where the view lies behind the head of a record of n bytes a view, and its EN bit. -/
def SavedView.idx : SavedView → Nat
  | .shadow => 0
  | .active => 1

/-- The region of a page written back to its shadow: whether its lines could be read. -/
def loadRegion (d : Dev) (pg : Page) (v : SavedView) (faults : List (Nat × Ecc)) : Dev × Bool :=
  match saveRegion pg with
  | none => (d, true)
  | some (o, sh, _, n) =>
    let r := d.memReadWith (saveBase d + o + v.idx * n) n faults
    if r.2.1 = .ok then ({ r.1 with regs := putWords r.1.regs sh (leWords r.2.2.2) }, true) else (r.1, false)

/-- A page written back to its shadow from the save region and armed by the Foreman; false where a line of
its record is bad (R404). A record that is not there leaves the page as it is. -/
def loadPage (d : Dev) (pg : Page) (v : SavedView) (seq : Nat) (faults : List (Nat × Ecc)) : Dev × Bool :=
  if !saveReady d || !d.domainOn pg.domain then (d, true)
  else
    let r := d.memReadWith (saveAddr d pg.num) 2064 faults
    if r.2.1 != .ok then (r.1, false)
    else
      let b := r.2.2.2
      if numAt b 0 4 != pg.num || numAt b 4 4 != 1024 then (r.1, true)
      else
        let t := loadRegion r.1 pg v faults
        if t.2 then
          let d := writeShadow t.1 pg (leWords (sliceOf b (16 + 1024 * v.idx) 1024)) (bitOf (numAt b 12 4) v.idx)
          (armPage (linkCode .foreman) seq d pg.num, true)
        else t

-- ---- what a reel's image holds (R399, R402) ---------------------------------------------------------------

/-- The pages of a configuration image. -/
def imagePages : List Page := directory.filter fun pg => sensingPath pg.num

/-- The regions of a configuration image: base, active view, bytes. -/
def imageRegions : List (Nat × Nat × Nat) :=
  [(0xA60000, 0xA61000, 0x1000), (0xA62000, 0xA63000, 0x1000), (0xA00000, 0xA20000, 0x20000),
   (0xA40000, 0xA44000, 0x4000)]

/-- The configuration image of a register space, line A's and line B's pages as the two maps have them. -/
def configImage (m : Line → RegMap) : List Byte :=
  (imagePages.flatMap fun pg =>
    let m := m pg.line
    leBytes 4 pg.num ++ leBytes 4 1024 ++ leBytes 4 (cfgCheck m pg.num).toNat ++
      leBytes 4 (bit (enActive m pg.num)) ++ wordBytes m (pageBase pg.num + 0x500) 256) ++
  imageRegions.flatMap fun r =>
    let m := m (if r.1 = 0xA62000 then .b else .a)
    leBytes 4 r.1 ++ leBytes 4 r.2.2 ++ leBytes 8 0 ++ wordBytes m r.2.1 (r.2.2 / 4)

/-- Bytes of a configuration image. -/
def configLength : Nat := 1040 * imagePages.length + (imageRegions.map fun r => 16 + r.2.2).sum

/-- The region records of a configuration image, from an offset of it on, written to the shadows. -/
def loadImageRegions (img : List Byte) : List (Nat × Nat × Nat) → Nat → Dev → Dev
  | [], _, d => d
  | r :: rest, o, d =>
    loadImageRegions img rest (o + 16 + r.2.2)
      { d with regs := putWords d.regs r.1 (leWords (sliceOf img (o + 16) r.2.2)) }

/-- The page records of a configuration image written to the shadows and armed by the Foreman (R405). -/
def loadImagePages (img : List Byte) (seq : Nat) : List Page → Nat → Dev → Dev
  | [], _, d => d
  | pg :: rest, o, d =>
    let b := sliceOf img o 1040
    let d := writeShadow d pg (leWords (b.drop 16)) (bitOf (numAt b 12 4) 0)
    loadImagePages img seq rest (o + 1040) (armPage (linkCode .foreman) seq d pg.num)

/-- A configuration image written back whole, regions first. -/
def loadImage (d : Dev) (img : List Byte) (seq : Nat) : Dev :=
  loadImagePages img seq imagePages 0 (loadImageRegions img imageRegions (1040 * imagePages.length) d)

/-- Whether every page's CFG_CHECK agrees with its record (R405, check 4). -/
def imageAgrees (d : Dev) (img : List Byte) : Bool :=
  imagePages.zipIdx.all fun e => (cfgCheck d.regs e.1.num).toNat == numAt img (1040 * e.2 + 8) 4

end Sys2Proof.Machine
end

