-- ==== Sys2Proof/Machine/Reel.lean ====
section
/-!
DEFINITION. Reels (chapter 14, R399 to R406): recording, the reel's bytes, the checks and the feed of a
replay.
-/
namespace Sys2Proof.Machine

/-- First byte of the reel region. -/
def reelBase (d : Dev) : Nat := (reelRange d.regs).1

/-- REC_EN of a line. -/
def recEn (m : RegMap) (x : Line) : Bool := act m (pgReel x) REEL.WINDOW.REC_EN == 1

/-- REEL.STATE of a line. -/
def setReelState (d : Dev) (x : Line) (v : Nat) : Dev := d.setLiv (pgReel x) REEL.STATE v

-- ---- bytes of entries (R121, R402) ----------------------------------------------------------------------

/-- The 32 bytes of a shot record (R73). -/
def ShotRec.bytes (r : ShotRec) : List Byte :=
  leBytes 8 r.tick ++ leBytes 8 r.time ++ leBytes 4 r.seq ++ leBytes 4 r.round ++
    leBytes 1 (r.line * 128 + r.group) ++ leBytes 1 r.tones ++ leBytes 2 r.flags ++ leBytes 4 r.cfg

/-- The shot record that 32 bytes hold. -/
def ShotRec.ofBytes (b : List Byte) : ShotRec :=
  { tick := numAt b 0 8, time := numAt b 8 8, seq := numAt b 16 4, round := numAt b 20 4,
    line := bitsOf (numAt b 24 1) 7 7, group := bitsOf (numAt b 24 1) 2 0, tones := numAt b 25 1,
    flags := numAt b 26 2, cfg := numAt b 28 4 }

/-- Bytes of the samples of core cycle c of a window, four codes of each lane (R121). -/
def cycleBytes (codes : List (List Int)) (c : Nat) : List Byte :=
  leBytes 24 ((List.range 4).map fun j =>
    ((List.range 4).map fun i => unsigned 12 ((codes.getD j []).getD (4 * c + i) 0) * 2 ^ (48 * j + 12 * i)).sum).sum

/-- The samples of a window of n core cycles. -/
def windowBytes (codes : List (List Int)) (n : Nat) : List Byte := (List.range n).flatMap (cycleBytes codes)

/-- The codes of lane j that sample bytes hold. -/
def laneOfBytes (b : List Byte) (j : Nat) : List Int :=
  (chunks 24 b.length b).flatMap fun c =>
    (List.range 4).map fun i => signed 12 (leNat c / 2 ^ (48 * j + 12 * i))

/-- A shot entry: record, slot word, kind (bit 0 SAMPLES, 1 LEAD, 2 TAIL), samples. -/
def entryBytes (r : ShotRec) (word kind : Nat) (samples : List Byte) : List Byte :=
  r.bytes ++ leBytes 4 word ++ leBytes 1 kind ++ leBytes 3 0 ++ leBytes 4 samples.length ++
    leBytes 4 (if samples.isEmpty then 0 else (crc32c samples).toNat) ++ leBytes 16 0 ++ padTo 64 samples

-- ---- sizes ------------------------------------------------------------------------------------------------

/-- The replayed points of a line. -/
def replayedPoints (m : RegMap) (x : Line) : List Nat := (List.range (pointCount m x)).filter (isReplayed m x)

/-- Bytes of a line's part of the state image (R402). -/
def stateLength (m : RegMap) (x : Line) : Nat :=
  let n := (replayedPoints m x).length
  2048 + 120 * n + ceilDiv n 64 * 8 + 64 * (zonesOf m x).length + 1024 + 1088

/-- The register space of which a line's image is made: that of its boundary, or the present one. -/
def imageMap (d : Dev) (x : Line) : RegMap :=
  if (d.reel.line x).first.isSome then (d.reel.line x).cfg else d.regs

/-- Whether a line belongs to the reel being recorded. -/
def inReel (d : Dev) (x : Line) : Bool := (d.reel.line x).active || ((d.reel.line x).ended && (d.reel.line x).first.isSome)

/-- The lines of the reel. -/
def reelLines (d : Dev) : List Line := [Line.a, Line.b].filter (inReel d)

/-- Offset of the state image: 64-byte aligned behind the configuration image (R401). -/
def stateOffset : Nat := ceilDiv (512 + configLength) 64 * 64

/-- Offset of the shot area: the first MiB behind the state image (R401). -/
def shotOffset (d : Dev) : Nat :=
  ceilDiv (stateOffset + ((reelLines d).map fun x => stateLength (imageMap d x) x).sum) (2 ^ 20) * 2 ^ 20

/-- Bytes of one recorded shot of a line with its samples (R402). DEDUCED: log entry 107. -/
def shotBytes (d : Dev) (x : Line) : Nat := 64 + ceilDiv (24 * winCycles (imageMap d x) x) 64 * 64

/-- Tail entries that a line's last window can need (R400). -/
def tailCount (d : Dev) (x : Line) : Nat :=
  let m := imageMap d x
  (winStart m x + (winCycles m x : Int) - 1).toNat / max (liv m (pgShot x) SHOT.SLOT_EFF) 1

/-- Whether one more recorded shot of a line and the tail entries still fit (R403). -/
def reelRoom (d : Dev) (x : Line) : Bool :=
  let tails := (([Line.a, Line.b].filter fun y => (d.reel.line y).running).map fun y => 64 * tailCount d y).sum
  d.reel.shotOff + d.reel.ptr + shotBytes d x + tails ≤ (reelRange d.regs).2

-- ---- recording (R399 to R403) -------------------------------------------------------------------------------

/-- USED: MiB of the region written, on both pages. -/
def showUsed (d : Dev) : Dev :=
  let n := ceilDiv (d.reel.shotOff + d.reel.ptr) (2 ^ 20)
  (d.setLiv (pgReel .a) REEL.USED n).setLiv (pgReel .b) REEL.USED n

/-- A shot entry is appended to the shot area; REEL writes whole lines (R404). -/
def appendEntry (d : Dev) (x : Line) (b : List Byte) : Dev :=
  let d := (d.memWrite (reelBase d + d.reel.shotOff + d.reel.ptr) b).1
  let d := { d with reel := { d.reel with ptr := d.reel.ptr + b.length } }
  showUsed (d.onReel x fun l => { l with entries := l.entries + 1 })

/-- REEL_RECORD arms the recorded lines (R399). -/
def armReel (d : Dev) : Dev :=
  let l (x : Line) : ReelLine := { armed := recEn d.regs x }
  let d := { d with reel := { d.reel with lineA := l .a, lineB := l .b, shotOff := 0, ptr := 0 } }
  [Line.a, Line.b].foldl (fun d x =>
    let d := setReelState d x (if recEn d.regs x then 1 else 0)
    (d.setLiv (pgReel x) REEL.SHOTS 0).setLiv (pgReel x) REEL.END_CAUSE 0) d

/-- The slot before a line's first recorded shot, where its window begins before its gate edge (R400). -/
def leadSpan (d : Dev) (x : Line) : Option SlotSpan :=
  let l := d.reel.line x
  match l.first with
  | some f =>
    if 0 ≤ winStart l.cfg x then none
    else (d.line x).lane.spans.find? fun s => s.slot.shot.seq == seqAdd f.seq (2 ^ 32 - 1)
  | none => none

/-- REEL_START (R399): the line's frame boundary has come, and shots are recorded from its first on. -/
def reelStart (x : Line) (d : Dev) : Dev :=
  let l := d.reel.line x
  if d.domainOn 7 && l.armed && l.first.isSome && l.stop.isNone then
    let d := if (d.reel.line x.other).running then d
      else { d with reel := { d.reel with shotOff := shotOffset d, ptr := 0 } }
    let d := setReelState (d.onReel x fun l => { l with armed := false, running := true }) x 2
    match leadSpan d x with
    | some s => appendEntry d x (entryBytes s.slot.shot (spanWord d x s) 2 [])
    | none => showUsed d
  else d

/-- Whether a recorded shot carries samples: gap shots do not (R402). -/
def hasSamples (x : Line) (s : Slot) : Bool := !isGapShot s x (tracesOf s x)

/-- The samples of a shot's window as the lanes pass them on (R400). -/
def windowOf (d : Dev) (x : Line) (s : Slot) (raw : Lanes) : List Byte :=
  let m := (d.reel.line x).cfg
  let n := 4 * winCycles m x
  let a : Int := 4 * ((s.shot.tick : Int) + winStart m x)
  let cov := coveredBy d x a n
  windowBytes ((List.range 4).map fun j => windowCodes d x a cov j ((laneOf raw j).take n)) (winCycles m x)

/-- REEL_SHOT (R402): the next recorded slot, once its word has passed, is written when its window has passed.
Without room for it the recording ends FULL (R403). -/
def reelShot (x : Line) (samples : Lanes) (d : Dev) : Dev :=
  let l := d.reel.line x
  match (d.line x).lane.spans.find? fun s => s.slot.shot.seq == l.nextSeq with
  | none => d
  | some sp =>
    match sp.word with
    | none => d
    | some w =>
      if !l.running || l.stop.isSome || !d.domainOn 7 then d
      else if !reelRoom d x then endReel d x 2
      else
        let stop := (sp.slot.shot.tick : Int) + winStart l.cfg x + (winCycles l.cfg x : Int)
        let d := d.advanceTo stop.toNat
        let full := hasSamples x sp.slot
        let b := if full then windowOf d x sp.slot samples else []
        let d := appendEntry d x (entryBytes sp.slot.shot w (bit full) b)
        let d := d.onReel x fun l => { l with shots := l.shots + bit full, nextSeq := seqAdd l.nextSeq 1 }
        d.setLiv (pgReel x) REEL.SHOTS (d.reel.line x).shots

/-- The slots behind the last recorded shot whose words its window needs, oldest first (R400). -/
def tailSpans (d : Dev) (x : Line) : List SlotSpan :=
  let l := d.reel.line x
  let spans := (d.line x).lane.spans
  match spans.find? fun s => s.slot.shot.seq == seqAdd l.nextSeq (2 ^ 32 - 1) with
  | none => []
  | some last =>
    let stop := (last.slot.shot.tick : Int) + winStart l.cfg x + (winCycles l.cfg x : Int)
    (spans.reverse.filter fun s =>
      seqLe l.nextSeq s.slot.shot.seq && (s.slot.shot.tick : Int) < stop)

/-- Whether the words that a line's tail needs have all passed: no slot of it is open or still to come. -/
def tailReady (d : Dev) (x : Line) : Bool :=
  let l := d.reel.line x
  let spans := (d.line x).lane.spans
  let reach : Bool := match spans.head?, spans.find? fun s => s.slot.shot.seq == seqAdd l.nextSeq (2 ^ 32 - 1) with
    | some h, some last =>
      decide ((last.slot.shot.tick : Int) + winStart l.cfg x + (winCycles l.cfg x : Int) ≤
        (h.slot.shot.tick : Int))
    | _, _ => true
  l.entries == 0 || !launching d x || (reach && (tailSpans d x).all fun s => s.word.isSome)

/-- A line's part of the state image (R402). DESIGN CHOICE: log entry 108. -/
def stateBytes (d : Dev) (x : Line) : List Byte :=
  let l := d.reel.line x
  let m := l.cfg
  let pts := replayedPoints m x
  let words (ws : List Word) : List Byte := ws.flatMap fun w => leBytes 4 w.toNat
  let point (p : Nat) : List Byte :=
    let taken := ((l.points.find? fun e => e.1 == p).map (·.2)).getD []
    let base := if taken.length < 16 then ptStored d x p else taken.take 16
    let pf := if taken.length < 28 then (readPf d x p).words else taken.drop 16
    let b := bandWord x p
    let band := ((l.bands.find? fun e => e.1 == p).map (·.2)).getD
      [d.sramGet b.1 b.2, d.sramGet b.1 (b.2 + 1)]
    words base ++ words pf ++ words band
  let ticks := (l.ticks.take 256).flatMap (leBytes 8)
  ticks ++ leBytes (2048 - ticks.length) 0 ++ pts.flatMap point ++ l.oos ++
    (if l.zones.isEmpty then
       (zonesOf m x).flatMap fun _ => leBytes 4 (liv d.regs (pgZone x) ZONE.BAND_AGE) ++ leBytes 60 0
     else l.zones) ++
    (if l.conds.isEmpty then (d.line x).zone.conds.flatMap condBytes else l.conds) ++ l.freezes

/-- A line's record in the header (R401); zero when the line is not recorded. -/
def lineRecord (d : Dev) (x : Line) : List Byte :=
  let l := d.reel.line x
  let m := l.cfg
  match l.first with
  | none => leBytes 64 0
  | some f =>
    let pts := replayedPoints m x
    leBytes 4 f.seq ++ leBytes 4 l.shots ++ leBytes 4 l.entries ++
      leBytes 4 (act m (pgReel x) REEL.WINDOW.WIN_FIRST) ++ leBytes 4 (act m (pgReel x) REEL.WIN_BINS) ++
      leBytes 4 (unsigned 32 (winStart m x)) ++ leBytes 4 (winCycles m x) ++ leBytes 4 l.frame0 ++
      leBytes 4 l.trig0 ++ leBytes 2 l.epoch ++ leBytes 1 (l.stop.getD 0) ++ leBytes 1 0 ++
      leBytes 8 f.tick ++ leBytes 4 (pts.headD 0) ++ leBytes 4 pts.length ++ leBytes 8 0

/-- Free values for the dither-generator states of the header (R401). DESIGN CHOICE: log entry 109. -/
def seedBytes : Nat → Dev → Dev × List Byte
  | 0, d => (d, [])
  | n + 1, d =>
    let r := seedBytes n d.tookFree
    (r.1, leBytes 8 d.free.toNat ++ r.2)

/-- The header of a reel (R401), its HEADER_CRC in place. DESIGN CHOICE: log entry 109. -/
def headerBytes (d : Dev) (seeds cfg st : List Byte) : List Byte :=
  let flags := 4 + (if (d.reel.lineB.first).isSome then 2 else 0) + bit (d.reel.lineA.first).isSome
  let head := leBytes 4 0x4C454552 ++ leBytes 2 1 ++ leBytes 2 flags
  let tail := leBytes 4 cfg.length ++ leBytes 4 (crc32c cfg).toNat ++ leBytes 4 stateOffset ++
    leBytes 4 st.length ++ leBytes 4 (crc32c st).toNat ++ leBytes 4 d.reel.shotOff ++ leBytes 4 0 ++
    leBytes 8 d.reel.ptr ++ seeds ++ leBytes 16 0 ++ lineRecord d .a ++ lineRecord d .b ++ leBytes 256 0
  head ++ leBytes 4 (crc32c (head ++ leBytes 4 0 ++ tail)).toNat ++ tail

/-- The last line has ended: header and images are written, COMPLETE (R403). -/
def finishReel (d : Dev) : Dev :=
  let recorded := [Line.a, Line.b].filter fun x => (d.reel.line x).first.isSome
  if recorded.isEmpty then d
  else
    let cfg := configImage fun x => if (d.reel.line x).first.isSome then (d.reel.line x).cfg
      else (d.reel.line x.other).cfg
    let st := recorded.flatMap (stateBytes d)
    let s := seedBytes 8 d
    let d := (s.1.memWrite (reelBase s.1) (padTo 64 (headerBytes s.1 s.2 cfg st ++ cfg))).1
    (d.memWrite (reelBase d + stateOffset) (padTo 64 st)).1

/-- A line that waited without a recorded shot gives up its place in the reel. -/
def dropLine (d : Dev) (x : Line) : Dev :=
  setReelState (d.onReel x fun _ => {}) x 0

/-- Port 3 more than 1 MiB behind ends a recording at its last whole entry, and OVERRUN counts (R403). -/
def reelOverrun (x : Line) (behind : Nat) (d : Dev) : Dev :=
  let l := d.reel.line x
  if l.running && l.stop.isNone && d.domainOn 7 && 2 ^ 20 < behind then (endReel d x 4).event (pgReel x) 5 else d

/-- The end of a recording that has its cause (R403): the tail entries follow the last recorded shot; the reel is
complete when no line records any more. -/
def closeReel (x : Line) (d : Dev) : Dev :=
  let l := d.reel.line x
  match l.stop with
  | none => d
  | some c =>
    if !l.active || !d.domainOn 7 then d
    else if l.running && !tailReady d x then d
    else
      let d := if l.running then
          (tailSpans d x).foldl (fun d s => appendEntry d x (entryBytes s.slot.shot (spanWord d x s) 4 [])) d
        else d
      let d := (d.setLiv (pgReel x) REEL.END_CAUSE c).event (pgReel x) 4
      let d := if l.running then
          setReelState (d.onReel x fun l => { l with running := false, ended := true }) x 3
        else dropLine d x
      if (d.reel.line x.other).active then d else finishReel d

/-- REEL_END (R403), with the bytes that MEMX port 3 lies behind. -/
def reelEnd (x : Line) (behind : Nat) (d : Dev) : Dev := closeReel x (reelOverrun x behind d)

/-- A recording in progress (R403): whether some line waits or records. -/
def recording (d : Dev) : Bool := d.reel.lineA.active || d.reel.lineB.active

/-- Every recording is to end for one cause (R403). -/
def endReels (d : Dev) (cause : Nat) : Dev := endReel (endReel d .a cause) .b cause

-- ---- the checks of a replay (R404, R405) --------------------------------------------------------------------

/-- A read of the reel region: the data, and whether every line was good. -/
def reelRead (faults : List (Nat × Ecc)) (d : Dev) (o n : Nat) : Dev × Option (List Byte) :=
  let r := d.memReadWith (reelBase d + o) n faults
  (r.1, if r.2.1 = .ok then some r.2.2.2 else none)

/-- Each sample block's CRC, from an offset of the shot area on. -/
def blocksGood (faults : List (Nat × Ecc)) : Nat → Nat → Nat → Dev → Dev × Bool
  | 0, _, _, d => (d, true)
  | k + 1, o, left, d =>
    if left < 64 then (d, true)
    else
      match reelRead faults d o 64 with
      | (d, none) => (d, false)
      | (d, some h) =>
        let n := numAt h 40 4
        if bitOf (numAt h 36 1) 0 then
          match reelRead faults d (o + 64) n with
          | (d, none) => (d, false)
          | (d, some b) =>
            if (crc32c b).toNat = numAt h 44 4 then
              blocksGood faults k (o + 64 + ceilDiv n 64 * 64) (left - 64 - ceilDiv n 64 * 64) d
            else (d, false)
        else blocksGood faults k (o + 64) (left - 64) d

/-- The check of R405 that the reel in the region fails: 1 header, 2 HEADER_CRC, 3 CFG_CRC or STATE_CRC, 5 a
sample block. Checks 4 and 6 come later. DEDUCED: log entry 110. -/
def reelFailure (faults : List (Nat × Ecc)) (d : Dev) : Dev × Option Nat :=
  match reelRead faults d 0 512 with
  | (d, none) => (d, some 2)
  | (d, some h) =>
    if numAt h 0 4 ≠ 0x4C454552 ∨ numAt h 4 2 ≠ 1 ∨ !bitOf (numAt h 6 2) 2 then (d, some 1)
    else if (crc32c (h.take 8 ++ leBytes 4 0 ++ h.drop 12)).toNat ≠ numAt h 8 4 then (d, some 2)
    else
      match reelRead faults d 512 (numAt h 12 4) with
      | (d, none) => (d, some 3)
      | (d, some c) =>
        match reelRead faults d (numAt h 20 4) (numAt h 24 4) with
        | (d, none) => (d, some 3)
        | (d, some s) =>
          if (crc32c c).toNat ≠ numAt h 16 4 ∨ (crc32c s).toNat ≠ numAt h 28 4 then (d, some 3)
          else
            let b := blocksGood faults (numAt h 136 4 + numAt h 200 4) (numAt h 32 4) (numAt h 40 8) d
            (b.1, if b.2 then none else some 5)

/-- Whether a reel is COMPLETE in the region, as far as its header can be read. -/
def reelPresent (d : Dev) : Bool :=
  let h := d.bytesAt (reelBase d) 8
  numAt h 0 4 == 0x4C454552 && bitOf (numAt h 6 2) 2

/-- The configuration image of the reel. -/
def reelImage (d : Dev) : List Byte := d.bytesAt (reelBase d + 512) (numAt (d.bytesAt (reelBase d) 512) 12 4)

-- ---- loading the state image (R405) ---------------------------------------------------------------------------

/-- The words of one replayed point put into the SRAM. -/
def loadPoint (d : Dev) (x : Line) (p : Nat) (b : List Byte) : Dev :=
  let w := leWords b
  let d := (w.take 16).zipIdx.foldl (fun d e => d.sramSet (ptBank x p) (ptWord p + e.2) e.1) d
  let d := ((w.drop 16).take 12).zipIdx.foldl (fun d e => d.sramSet (pfBank x p e.2) (p / 4) e.1) d
  let k := bandWord x p
  (d.sramSet k.1 k.2 (w.getD 28 0)).sramSet k.1 (k.2 + 1) (w.getD 29 0)

/-- The out-of-service map of a replay: bits of the image for the replayed points, all others out. -/
def loadOos (d : Dev) (x : Line) (pts : List Nat) (bits : Nat) : Dev :=
  showOos ((List.range (pointCount d.regs x)).foldl (fun d p =>
    setOosBit d x p (match pts.findIdx? (· == p) with
      | some i => bitOf bits i
      | none => true)) d) x

/-- The conditions that 16 bytes each hold. -/
def loadConds (b : List Byte) : List (Nat × Bool) :=
  (List.range 64).map fun c => (numAt b (16 * c) 4, bitOf (numAt b (16 * c + 4) 4) 0)

/-- The parts of a line's state image: ticks, points, out-of-service bits, zones, conditions, freezes. -/
def loadState (d : Dev) (x : Line) (b record : List Byte) : Dev :=
  let m := d.regs
  let pts := replayedPoints m x
  let n := pts.length
  let o1 := 2048
  let o2 := o1 + 120 * n
  let o3 := o2 + ceilDiv n 64 * 8
  let nz := (zonesOf m x).length
  let o4 := o3 + 64 * nz
  let o5 := o4 + 1024
  let d := pts.zipIdx.foldl (fun d e => loadPoint d x e.1 (sliceOf b (o1 + 120 * e.2) 120)) d
  let d := loadOos d x pts (leNat (sliceOf b o2 (o3 - o2)))
  let d := (List.range 68).foldl (fun d i =>
    setFreeze d x i ((List.range 4).map fun w => numAt b (o5 + 16 * i + 4 * w) 4)) d
  let d := if nz = 0 then d else d.setLiv (pgZone x) ZONE.BAND_AGE (numAt b o3 4)
  let d := d.setLiv (pgPhase x) PHASE.EPOCH (numAt record 36 2)
  let frame0 := numAt record 28 4
  let ticks := (List.range 256).map fun i => numAt b (8 * i) 8
  let d := d.onPhase x fun p =>
    { p with shots := [], ticks := ticks, traced := none, restart := none, oos := none, oosClear := false }
  let d := d.onPf x fun p =>
    { p with frames := [], nextSeq := frame0, starting := false, geom := none, action := 0, applied := false,
             prevTick := none, pending := [], freezes := [], heads := [], stopped := none,
             lastRel := seqAdd frame0 (2 ^ 32 - 1) }
  let d := d.onZone x fun z =>
    { z with frames := [], conds := loadConds (sliceOf b o4 1024), nextTrig := numAt record 32 4,
             skipped := none, applied := false, zoneNew := false, bandClear := false, condReset := 0 }
  let d := d.onCapt x fun c => { c with newest := none, gapped := [], restart := true }
  showActive (d.onLane x fun l => { l with spans := [] }) x

/-- Step 5 of REEL_PLAY: the state image of every recorded line. -/
def loadStates (d : Dev) : Dev :=
  let h := d.bytesAt (reelBase d) 512
  let st := d.bytesAt (reelBase d + numAt h 20 4) (numAt h 24 4)
  let a := bitOf (numAt h 6 2) 0
  let d := if a then loadState d .a st (sliceOf h 128 64) else d
  if bitOf (numAt h 6 2) 1 then
    loadState d .b (st.drop (if a then stateLength d.regs .a else 0)) (sliceOf h 192 64)
  else d

/-- Step 6 of REEL_PLAY: the feed starts 1 ms later. `faults` are the reel's bad DRAM lines while it plays. -/
def startFeed (faults : List (Nat × Ecc)) (d : Dev) : Dev :=
  let h := d.bytesAt (reelBase d) 512
  let put (d : Dev) (x : Line) : Dev :=
    if bitOf (numAt h 6 2) x.idx then (setReelState d x 4).setLiv (pgReel x) REEL.SHOTS 0 else setReelState d x 0
  let d := { d with reel := { d.reel with
    playing := true, feedAt := d.clk.tick + 625000, next := numAt h 32 4, left := numAt h 40 8, base := none,
    windows := [], bad := false, faults := faults } }
  put (put d .a) .b

-- ---- the feed (R405) --------------------------------------------------------------------------------------------

/-- The slot of a recorded shot as the pipeline meets it again; `hold` from the spacing of the records. -/
def replaySlot (d : Dev) (x : Line) (r : ShotRec) (word : Nat) (unproc : Bool) : Slot :=
  let len := liv d.regs (pgShot x) SHOT.SLOT_EFF
  let before := match (d.line x).lane.spans, (d.line x).phase.ticks with
    | s :: _, _ => r.tick - s.slot.shot.tick - len
    | [], t :: _ => r.tick - t - len
    | [], [] => 0
  { shot := r, cfg := d.regs, gainStep := bitOf word 30, hold := if bitOf r.flags 6 then before else 0,
    chanHold := unproc, guardHold := guardShort d.regs x }

/-- The slot and its word join the line's stream. -/
def replaySpan (d : Dev) (x : Line) (s : Slot) (word : Nat) : Dev :=
  let d := (openSlot d x s).onLane x fun l => { l with spans := setWordOf l.spans s.shot.seq word }
  (d.setLiv (pgLane x) LANE.SLOT_WORD word).setLiv (pgLane x) LANE.SLOT_SEQ s.shot.seq

/-- A recorded window joins the lane stream; windows wholly behind the shots in flight leave it. -/
def addWindow (d : Dev) (x : Line) (r : ShotRec) (b : List Byte) : Dev :=
  let oldest := ((d.line x).phase.shots.head?.map fun s => s.slot.shot.tick).getD r.tick
  let w : ReelWin :=
    { line := x, start := ((r.tick : Int) + winStart d.regs x).toNat,
      codes := ⟨laneOfBytes b 0, laneOfBytes b 1, laneOfBytes b 2, laneOfBytes b 3⟩ }
  let keep := d.reel.windows.filter fun w => w.line != x || oldest ≤ w.start + w.codes.xi.length / 4
  { d with reel := { d.reel with windows := keep ++ [w] } }

/-- An entry's sample block: the bytes when it has one whose CRC is good. -/
def sampleBlock (faults : List (Nat × Ecc)) (d : Dev) (h : List Byte) : Dev × Option (List Byte) :=
  if bitOf (numAt h 36 1) 0 then
    match reelRead faults d (d.reel.next + 64) (numAt h 40 4) with
    | (d, none) => (d, none)
    | (d, some b) => (d, if (crc32c b).toNat = numAt h 44 4 then some b else none)
  else (d, none)

/-- The feed comes to the tick of an entry: 1 ms after setup for the first, then at the recorded spacing. -/
def feedTime (d : Dev) (tick : Nat) : Dev :=
  match d.reel.base with
  | none =>
    let d := d.advanceTo d.reel.feedAt
    { d with reel := { d.reel with base := some (d.clk.tick, tick) } }
  | some _ => d.advanceTo (replayTick d tick)

/-- An entry's shot goes down the pipeline, if it is one; lead and tail entries give only their slot. -/
def feedShot (d : Dev) (x : Line) (r : ShotRec) (word kind : Nat) (block : Option (List Byte)) : Dev :=
  let s := replaySlot d x r word block.isNone
  let d := replaySpan d x s word
  if bitOf kind 1 || bitOf kind 2 then d
  else
    let d := if bitOf kind 0 then d.setLiv (pgReel x) REEL.SHOTS (liv d.regs (pgReel x) REEL.SHOTS + 1) else d
    let d := match block with
      | some b => addWindow d x r b
      | none => if bitOf kind 0 then d.event (pgReel x) 6 else d
    passRecord d x s

/-- REEL_FEED (R405): the next shot entry; one whose first line is bad ends the replay (R404).
DEDUCED: log entry 110. -/
def reelFeed (faults : List (Nat × Ecc)) (d : Dev) : Dev :=
  if !d.reel.playing || d.reel.left < 64 || d.pwr.mode != 6 then d
  else
    match reelRead faults d d.reel.next 64 with
    | (d, none) => { d with reel := { d.reel with left := 0, bad := true } }
    | (d, some h) =>
      let r := ShotRec.ofBytes h
      let kind := numAt h 36 1
      let size := 64 + (if bitOf kind 0 then ceilDiv (numAt h 40 4) 64 * 64 else 0)
      let d := feedTime d r.tick
      let b := sampleBlock faults d h
      let d := feedShot b.1 (Line.ofUnit r.line) r (numAt h 32 4) kind b.2
      { d with reel := { d.reel with next := d.reel.next + size, left := d.reel.left - size } }

/-- The last slot of a line's replayed stream ends. -/
def closeReplay (d : Dev) (x : Line) : Dev :=
  let d := match (d.line x).lane.spans with
    | s :: _ => closeSlots d x (s.slot.shot.tick + liv d.regs (pgShot x) SHOT.SLOT_EFF)
    | [] => d
  if liv d.regs (pgReel x) REEL.STATE = 4 then setReelState d x 3 else d

/-- REPLAY_END (R405): after the last entry; the device stays in Replay. -/
def replayEnd (d : Dev) : Dev :=
  if d.reel.playing && d.reel.left < 64 then
    let d := closeReplay (closeReplay d .a) .b
    { d with reel := { d.reel with playing := false } }
  else d

/-- REEL_START (R399). -/
def execReelStart (x : Line) (s : State) : Host.Outcome State Fault Refusal := done s (reelStart x s.dev)

/-- REEL_SHOT (R402). -/
def execReelShot (x : Line) (samples : Lanes) (s : State) : Host.Outcome State Fault Refusal :=
  done s (reelShot x samples s.dev)

/-- REEL_END (R403). -/
def execReelEnd (x : ReelStop) (s : State) : Host.Outcome State Fault Refusal :=
  done s (reelEnd x.line x.behind s.dev)

/-- REEL_FEED (R405). -/
def execReelFeed (s : State) : Host.Outcome State Fault Refusal :=
  done s (reelFeed s.dev.reel.faults s.dev)

/-- REPLAY_END (R405). -/
def execReplayEnd (s : State) : Host.Outcome State Fault Refusal := done s (replayEnd s.dev)

end Sys2Proof.Machine
end

