-- ==== Sys2Proof/Machine/Power.lean ====
section
/-!
DEFINITION. Power (chapter 15): rails, domains, modes and the MODE entry, what a reset keeps.
-/
namespace Sys2Proof.Machine

/-- An AON register written in the always-on domain. -/
def Dev.setAon (d : Dev) (f : Fld) (v : Nat) : Dev := { d with aon := f.put d.aon (pageBase pgAon) v }

/-- An AON configuration field of the hardware written in both views. -/
def Dev.setAonBoth (d : Dev) (f : Fld) (v : Nat) : Dev :=
  { d with aon := f.put (f.put d.aon (pageBase pgAon) v) (pageBase pgAon + 0x400) v }

/-- A field of AON's active configuration. -/
def aonFld (d : Dev) (f : Fld) : Nat := act d.aon pgAon f

/-- RESET_CAUSE (R436): the row of its table. -/
def resetCause (d : Dev) (row : Nat) : Dev := d.setAon AON.RESET_CAUSE row

-- ---- the retention store (R390) ------------------------------------------------------------------------

/-- Entries copied to the retention store, oldest first; it keeps the newest 256. -/
def retain (d : Dev) (es : List JEntry) : Dev :=
  let kept := (es.reverse ++ d.jr.retained).take 256
  let d := { d with jr := { d.jr with retained := kept } }
  if d.domainOn 1 then d.setLiv pgJournal JOURNAL.MIRROR_OLDEST ((kept.getLast?.map (·.seq)).getD 0) else d

/-- Every entry not yet copied reaches the retention store. -/
def retainAll (d : Dev) : Dev :=
  let d := retain d d.jr.uncopied
  { d with jr := { d.jr with uncopied := [] } }

-- ---- domains (R41, R418, R420) -----------------------------------------------------------------------------

/-- Whether an address belongs to a domain. -/
def inDomain (c a : Nat) : Bool :=
  match placeOf a with
  | some pl => pl.domain == c
  | none => false

/-- Whether a page belongs to a domain. -/
def pageIn (c p : Nat) : Bool :=
  match pageOf p with
  | some pg => pg.domain == c
  | none => false

/-- Registers and regions of a domain at their reset values, nothing of its pages armed or latched. -/
def clearRegs (d : Dev) (c : Nat) : Dev :=
  let b := d.bus
  { d with
    regs := d.regs.filter fun e => !inDomain c e.1
    bus := { b with armed := b.armed.filter (fun r => !pageIn c r.page)
                    marks := b.marks.filter (fun r => !pageIn c r.1)
                    faultHold := b.faultHold.filter (fun p => !pageIn c p)
                    parityBad := b.parityBad.filter (fun a => !inDomain c a)
                    latch := b.latch.filter (fun e => !inDomain c e.1) } }

/-- The SRAM banks of a domain zeroed (R308). -/
def zeroBanks (d : Dev) (c : Nat) : Dev :=
  let other (k : Nat) : Bool := (224 ≤ k / 65536 && k / 65536 ≤ 263) != (c == 8)
  { d with sram := { d.sram with words := d.sram.words.filter (fun e => other e.1)
                                 bad := d.sram.bad.filter other } }

/-- The state of both lines changed. -/
def Dev.onLines (d : Dev) (f : LineSt → LineSt) : Dev := (d.onLine .a f).onLine .b f

/-- What stands behind the pages of a domain, as it is when the domain comes up. -/
def clearState (d : Dev) (c : Nat) : Dev :=
  let t := d.slow
  match c with
  | 1 => { d with jr := { retained := d.jr.retained }, tr := {}, fm := {}, hk := {}, tiu0 := {}, tiu1 := {},
                  pll := {}, tap := {} }
  | 2 => { d with pcie := { sent := d.pcie.sent, writes := d.pcie.writes }, ptp := {}, sahf := {},
                  ser := { pollAt := d.ser.pollAt }, inbox := [] }
  | 3 => { d with eth0 := { sent := d.eth0.sent }, eth1 := { sent := d.eth1.sent },
                  ser := { d.ser with pollAt := [0, 0] } }
  | 4 => { d with mem := {}, dma := {} }
  | 5 => d.onLine .a fun l => { l with lane := {}, trim := {}, dac := {}, passAt := 0 }
  | 6 => d.onLine .b fun l => { l with lane := {}, trim := {}, dac := {}, passAt := 0 }
  | 7 =>
    let off (l : LineSt) : PfSt := { offSince := some (l.pf.offSince.getD d.clk.tick) }
    zeroBanks { d.onLines fun l => { l with phase := {}, pf := off l, zone := {}, capt := {} } with
      reel := {}, alarm := {} } 7
  | 8 => zeroBanks (d.onLines fun l => { l with raml := {}, raman := {}, rpassAt := 0 }) 8
  | 9 => { d with pfe := {} }
  | 10 => d.onLines fun l => { l with shot := { deadEnd := t }, slots := [], fired := none, loopSeed := {},
                                      loopRaman := {}, cells := {}, can := {} }
  | 11 => { d with codec := {} }
  | _ => d

/-- A domain's bit in PWR.DOMAINS. DEDUCED: log entry 98. -/
def setDomain (d : Dev) (c : Nat) (on : Bool) : Dev :=
  { d with pwr := { d.pwr with domains := putBits d.pwr.domains c c (bit on) } }

/-- A domain is switched off: a Raman profile in progress is announced first (R236), the AON clock goes on
by itself when CTRL goes (R430). -/
def domainDown (d : Dev) (c : Nat) : Dev :=
  if !d.domainOn c then d
  else
    let d := if c = 8 then abortProfile (abortProfile d .a 3) .b 3 else d
    let clock := aonClock d
    let t := d.slow
    let d := if c = 1 then
        { (retainAll d).onAon fun a => { a with clock := clock, clockAt := t } with clk := { d.clk with coreOn := false } }
      else d
    resetCause (setDomain (clearRegs (clearState d c) c) c false) 5

/-- The MAC address of a port in the fuse map (R464): universally administered, unicast, ETH1's one above ETH0's
in the same block. -/
def fuseMac (port : Nat) : Nat :=
  let oui := Config.fuseOui.toNat
  oui / 2 ^ 16 * 2 ^ 42 + oui % 2 ^ 16 * 2 ^ 24 + Config.fuseNic.toNat % (2 ^ 24 - 1) + port

/-- The tables of R13 that a page takes at READY: factory trims, MAC addresses, the fuse counter. -/
def loadPageTables (d : Dev) (pg : Page) : Dev :=
  let factory (base n : Nat) (mask : Word) : Dev :=
    (List.range n).foldl (fun d i =>
      let a := pageBase pg.num + 0xC00 + base * (i / (if n = 40 then 8 else 2)) + 4 * (i % (if n = 40 then 8 else 2))
      d.setWord a (Config.factory a &&& mask)) d
  match pg.block with
  | .trim => factory 0x20 40 0x0FFFFFFF
  | .raml => factory 0x10 10 0x000FFFFF
  | .eth =>
    let mac := fuseMac pg.unit
    let put (d : Dev) (f : Fld) (v : Nat) : Dev := (d.setLiv pg.num f v).setAct pg.num f v
    put (put d ETH.MAC_LO (mac % 2 ^ 32)) ETH.MAC_HI (mac / 2 ^ 32)
  | .foreman => d.setLiv pgForeman FOREMAN.ROLLBACK (max (min Config.fuseRollback.toNat 32) d.fuse)
  | _ => d

/-- The pages of a domain report READY (R13); the banks of SENSE and RAMAN are initialised then (R308). -/
def readyPages (d : Dev) (c : Nat) : Dev :=
  let d := if c = 7 ∨ c = 8 then d.event pgSram 6 else d
  (directory.filter fun pg => pg.domain == c).foldl (fun d pg =>
    (loadPageTables d pg).setStatus pg.num 0 true) d

/-- Whether DRAM ranks are fitted on a sub-channel. -/
def subFitted (d : Dev) (s : Nat) : Bool := act d.regs (pgDdr s) DDR.CONFIG.RANK_FIT != 0

/-- DRAM as MEM finds it at power-up and after a warm reset: the kept rank configuration, the trainings
started (R285). -/
def startDram (d : Dev) : Dev :=
  (List.range 4).foldl (fun d s => if subFitted d s then startTraining d s else d) (loadDram d)

/-- What a domain shows of the rest of the device when it comes up. -/
def showDomain (d : Dev) (c : Nat) : Dev :=
  match c with
  | 2 => showRef d
  | 4 => startDram d
  | 5 => showLow (d.setStatus (pgLane .a) 20 d.pll.locked) .a
  | 6 => showLow (d.setStatus (pgLane .b) 20 d.pll.locked) .b
  | 7 =>
    showWindow (showGauge (showWindow (showGauge d .a) .a) .b) .b
  | 10 => if d.pins.interlock then d else interlockOpen d
  | _ => d

/-- A domain is switched on: its pages hold their reset values (R41).
DEDUCED: log entry 8. DEDUCED: log entry 98. -/
def domainUp (d : Dev) (c : Nat) : Dev := showDomain (setDomain (clearRegs (clearState d c) c) c true) c

/-- The order in which PWR switches domains on (R420). -/
def switchOrder : List Nat := [1, 2, 3, 4, 9, 10, 5, 6, 8, 7, 11]

/-- Steps of 4,096 core cycles from a domain's switch-on to the READY of its pages: 16,384 core cycles, with
the point-state banks of SENSE and RAMAN to zero 65,536 (R13, R308). -/
def readySteps (c : Nat) : Nat := if c = 7 ∨ c = 8 then 16 else 4

/-- One step of a switch-on: the pages whose time has come are READY, the next domain comes up. -/
def upStep (l : List Nat) (d : Dev) (j : Nat) : Dev :=
  let d := if j = 0 then d else d.advance 4096
  let d := (l.zipIdx.filter fun e => e.2 + readySteps e.1 == j).foldl (fun d e => readyPages d e.1) d
  match l[j]? with
  | some c => domainUp d c
  | none => d

/-- Domains switched on one after another, 4,096 core cycles apart, the pages of each READY in its own time; the
switch-on ends with the last READY (R13, R308, R420). DEDUCED: log entry 98. -/
def domainsUp (d : Dev) (cs : List Nat) : Dev :=
  let l := switchOrder.filter fun c => cs.contains c && !d.domainOn c
  let last := (l.zipIdx.map fun e => e.2 + readySteps e.1).foldl max 0
  if l.isEmpty then d else (List.range (last + 1)).foldl (upStep l) d

/-- Domains switched off in the reverse order (R420). -/
def domainsDown (d : Dev) (cs : List Nat) : Dev :=
  (switchOrder.reverse.filter fun c => cs.contains c).foldl domainDown d

/-- HOST goes to its reduced state, or to full power (R421). -/
def hostReduced (d : Dev) (b : Bool) : Dev :=
  let d := if b then linkDown d else d
  { d with pwr := { d.pwr with reduced := b } }

-- ---- modes (R421) --------------------------------------------------------------------------------------------

/-- The level of a mode on the ladder (R422). -/
def modeLevel (m : Nat) : Nat := min m 3

/-- The switched domains of a mode (R421). -/
def modeDomains : Nat → List Nat
  | 0 => []
  | 1 => [1, 2, 9]
  | 2 => [1, 2, 3, 4, 9, 10]
  | 3 => [1, 2, 3, 4, 9, 10, 8, 11]
  | 4 => [1, 2, 3, 4, 9, 10, 5, 6, 7, 11]
  | _ => [1, 2, 3, 4, 9, 10, 5, 6, 7, 8, 11]

/-- The line a domain's ACQ belongs to, when it is out of service (R421). -/
def outDomain (d : Dev) (c : Nat) : Bool :=
  (c == 5 && d.pwr.outs.getD 0 false) || (c == 6 && d.pwr.outs.getD 1 false)

/-- The domains a mode takes, the ACQ of a line out of service apart. -/
def domainsFor (d : Dev) (m : Nat) : List Nat := (modeDomains m).filter fun c => !outDomain d c

/-- The MODE entry (R387). -/
def modeEntry (d : Dev) (link new old cause : Nat) : Dev :=
  d.journal { link := link, kind := kindMode,
              arg := new + 2 ^ 8 * old + 2 ^ 16 * cause + 2 ^ 24 * inService d }

/-- A line that emits leaves the emitting modes: its Canary goes to OFF (R82). -/
def leaveEmission (d : Dev) (x : Line) : Dev := if canLit d x then goDark d x 0 false else d

/-- The count to the next automatic probe held in Service mode, and going on after it (R95). -/
def holdProbe (d : Dev) (x : Line) : Dev :=
  let t := d.slow
  d.onCan x fun c =>
    match c.probeDue with
    | some n => { c with probeHeld := some (n - t), probeDue := none }
    | none => c

/-- The count goes on. -/
def resumeProbe (d : Dev) (x : Line) : Dev :=
  let t := d.slow
  d.onCan x fun c =>
    match c.probeHeld with
    | some n => { c with probeDue := some (t + n), probeHeld := none }
    | none => c

/-- A line's shots stop as Replay begins: none launches in that mode. -/
def stopForReplay (d : Dev) (x : Line) : Dev :=
  if launching d x then stopSlots d x d.clk.tick else d

/-- A line that is to launch launches again after Replay, as when CTRL.EN applies as 1 (R64). -/
def startAfterReplay (d : Dev) (x : Line) : Dev :=
  if !enActive d.regs (pgShot x) || !d.domainOn 10 then d
  else if act d.regs (pgShot x) SHOT.TRIG_CTRL.MODE = 0 then
    let t := d.clk.tick + 16
    d.onLine x fun l => { l with shot := { l.shot with nextSlot := 0, nextEdge := some t, extWait := false } }
  else
    (d.setStatus (pgShot x) 8 true).onLine x fun l =>
      { l with shot := { l.shot with nextSlot := 0, nextEdge := none, extWait := true } }

/-- Whether a mode lets reels be recorded (R399). -/
def reelMode (m : Nat) : Bool := m == 4 || m == 5 || m == 7

/-- What PWR.MODE's change does at once. -/
def modeChanged (d : Dev) (old : Nat) : Dev :=
  let new := d.pwr.mode
  let both (d : Dev) (f : Dev → Line → Dev) : Dev := f (f d .a) .b
  let d := if old = 7 ∧ new ≠ 7 then
      both d fun d x => resumeProbe (if (d.line x).can.session.isSome then endSession x d else d) x
    else d
  let d := if emittingMode d then d else if new = 7 ∧ old = 7 then d else both d leaveEmission
  let d := if new = 7 ∧ old ≠ 7 then both d holdProbe else d
  let d := if reelMode old && !reelMode new then endReels d 5 else d
  let d := if new = 6 ∧ old ≠ 6 then both d stopForReplay else d
  if old = 6 ∧ new ≠ 6 then both { d with reel := { d.reel with playing := false } } startAfterReplay else d

/-- A mode change is complete: PWR.MODE, the MODE entry, MODE_CHANGE (R387, R422). -/
def commitMode (d : Dev) (link new cause : Nat) : Dev :=
  let old := d.pwr.mode
  let d := { d with pwr := { d.pwr with mode := new } }
  let d := (modeEntry d link new old cause).event pgPwr 4
  modeChanged d old

/-- PWR.STATUS.TRANSITION and PWR.STEP follow the mode change in progress. -/
def showTransition (d : Dev) : Dev :=
  if !d.pageOn pgPwr then d
  else
    let n := match d.fm.procs.find? fun p => p.code == 0x0101 with
      | some p => p.step + 1
      | none => 0
    (d.setStatus pgPwr 8 (inTransition d)).setLiv pgPwr PWR.STEP n

-- ---- rails (R419) ----------------------------------------------------------------------------------------------

/-- A PWR_EN output. -/
def setRail (d : Dev) (k : Nat) (b : Bool) : Dev := d.onAon fun a => { a with rails := a.rails.set k b }

/-- The rails from 5 down to `low` removed, GAP slow edges of a rail after it before the next.
DEDUCED: log entry 99. -/
def railsDown (d : Dev) (low : Nat) : Dev :=
  ([5, 4, 3, 2, 1, 0].filter fun k => low ≤ k).foldl (fun d k =>
    if d.aonSt.rails.getD k false then
      let d := setRail d k false
      if k = low then d else d.advanceSlow (d.slow + aonFld d (AON.RAIL.GAP k))
    else d) (d.onAon fun a => { a with goal := none, railAt := none })

/-- The MODE entry for Hibernate, committed and copied before the CTRL rail goes (R6, R390): its cause is that of the
mode change in progress. DEDUCED: log entry 100. -/
def enterHibernate (d : Dev) : Dev :=
  if !d.domainOn 1 || d.pwr.mode = 0 then d
  else
    let cause := match d.fm.procs.find? fun p => p.code == 0x0101 with
      | some p => p.cause
      | none => 0
    commitMode d linkHardware 0 cause

/-- The device falls back to Hibernate: every switched domain off, every rail removed.
DEDUCED: log entry 100. -/
def toHibernate (d : Dev) : Dev :=
  let d := domainsDown (retainAll (enterHibernate d)) switchOrder
  let d := { d with pwr := { d.pwr with mode := 0, reduced := false } }
  railsDown (d.onAon fun a => { a with booting := 0 }) 0

/-- Rails come up to `last` from rail `first` on (R419). -/
def startRails (d : Dev) (first last : Nat) : Dev :=
  let t := d.slow
  d.onAon fun a => { a with goal := some last, rail := first, railAt := none, upAt := t }

/-- PWR_EN_k is asserted at the present slow edge. -/
def assertRail (d : Dev) (k : Nat) : Dev :=
  let t := d.slow
  (setRail d k true).onAon fun a => { a with rail := k, railAt := some t }

/-- A rail is good: GAP slow edges later the next is asserted; after the last of the sequence CTRL is
switched on by AON in 2 slow edges (R420), or the mode change goes on. DEDUCED: log entry 99. -/
def railDone (d : Dev) (k last : Nat) : Dev :=
  if k < last then assertRail (d.advanceSlow (d.slow + aonFld d (AON.RAIL.GAP k))) (k + 1)
  else
    let d := d.onAon fun a => { a with goal := none, railAt := none }
    if last = 3 then (d.advanceSlow (d.slow + 2)).onAon fun a => { a with booting := 1 } else d

/-- RAIL_STEP (R419) of the rail that is to come up: asserted at a slow edge if it is not; good when PWR_GOOD_k
is high at a slow edge within WAIT of them, or after WAIT slow edges where PG_USE is 0.
DESIGN CHOICE: log entry 106. -/
def railStep (k : Nat) (good : Bool) (last : Nat) (d : Dev) : Dev :=
  let d := if d.aonSt.railAt.isSome then d else assertRail (d.advanceSlow (d.slow + 1)) k
  let t := d.aonSt.railAt.getD d.slow
  let limit := t + aonFld d (AON.RAIL.WAIT k)
  if aonFld d (AON.RAIL.PG_USE k) = 0 then railDone (d.advanceSlow limit) k last
  else if good ∧ max d.slow (t + 1) ≤ limit then railDone (d.advanceSlow (t + 1)) k last
  else d

/-- RAIL_FAIL (R419): the power-good wait of the rail coming up is over. DEDUCED: log entry 100. -/
def railFail (d : Dev) : Dev :=
  match d.aonSt.goal, d.aonSt.railAt with
  | some _, some t =>
    let k := d.aonSt.rail
    if aonFld d (AON.RAIL.PG_USE k) = 0 then d
    else
      let d := toHibernate (d.advanceSlow (t + aonFld d (AON.RAIL.WAIT k)))
      (d.setAon AON.WAKE_RESULT.RAIL_FAIL (k + 1)).event pgAon 5
  | _, _ => d

/-- REFCLK_TIMEOUT (R429): no edge of REFCLK_IN within 1.0 s of the start of Up 0→1. -/
def refclkTimeout (d : Dev) : Dev :=
  if d.aonSt.goal != some 3 && d.aonSt.booting != 1 then d
  else
    let d := toHibernate (d.advanceSlow (d.aonSt.upAt + 32768))
    let d := { d with pins := { d.pins with refPresent := false } }
    (d.setAon AON.WAKE_RESULT.RAIL_FAIL 15).event pgAon 5

/-- The rails that a domain draws (R418). -/
def domainRails : Nat → List Nat
  | 1 => [0, 1, 2, 3]
  | 2 => [0, 3]
  | 3 => [0, 3]
  | 4 => [0, 1, 4]
  | 5 => [0, 2]
  | 6 => [0, 2]
  | 7 => [0, 1]
  | 8 => [0, 1, 2]
  | 9 => [2]
  | 10 => [0, 2, 5]
  | 11 => [0, 1]
  | _ => []

/-- POWER_GOOD_LOSS (R445): a rail that is on loses its power-good input. No domain that draws it stays on (R418); one
that CTRL draws takes the device to Hibernate. DEDUCED: log entry 100. -/
def powerGoodLoss (k : Nat) (d : Dev) : Dev :=
  if d.aonSt.rails.getD k false && d.aonSt.goal.isNone && aonFld d (AON.RAIL.PG_USE k) == 1 then
    let d := if (domainRails 1).contains k then toHibernate d
      else domainsDown d (switchOrder.filter fun c => (domainRails c).contains k)
    (d.setAon AON.WAKE_RESULT.RAIL_FAIL (k + 1)).event pgAon 5
  else d

/-- RAIL_STEP (R419). A rail that rises out of order meets R446: "its behaviour is then not specified". -/
def execRailStep (k : Fin 6) (good : Bool) (s : State) : Host.Outcome State Fault Refusal :=
  match s.dev.aonSt.goal with
  | none => done s s.dev
  | some last =>
    if k.val = s.dev.aonSt.rail then done s (railStep k.val good last s.dev) else .fault .railOutOfOrder

/-- RAIL_FAIL (R419). -/
def execRailFail (s : State) : Host.Outcome State Fault Refusal := done s (railFail s.dev)

/-- REFCLK_TIMEOUT (R429). -/
def execRefclkTimeout (s : State) : Host.Outcome State Fault Refusal := done s (refclkTimeout s.dev)

/-- POWER_GOOD_LOSS (R445). -/
def execPowerGoodLoss (k : Fin 6) (s : State) : Host.Outcome State Fault Refusal := done s (powerGoodLoss k.val s.dev)

end Sys2Proof.Machine
end

