-- ==== Sys2Proof/Machine/Proc.lean ====
section
/-!
DEFINITION. Procedures of the Foreman (R382, R383): the steps of mode changes (R422), LINE_OUT and LINE_IN
(R411, R412), calibrations (R415), patches (R408 to R410), reels (R399, R405), emitter swaps (R413) and
migrations (R414). A step runs in parts; part 0 begins it.
-/
namespace Sys2Proof.Machine

-- ---- failure reasons (R383) ----------------------------------------------------------------------------

/-- MODE. -/
def whyMode : Nat := 0x01
/-- STATE. -/
def whyState : Nat := 0x02
/-- CONFLICT. -/
def whyConflict : Nat := 0x03
/-- INTERLOCK. -/
def whyInterlock : Nat := 0x04
/-- SIGNATURE. -/
def whySignature : Nat := 0x05
/-- KEY. -/
def whyKey : Nat := 0x06
/-- ROLLBACK. -/
def whyRollback : Nat := 0x07
/-- IMAGE. -/
def whyImage : Nat := 0x08
/-- REGION. -/
def whyRegion : Nat := 0x09
/-- REFUSED, with the page in ARG[19:8]. -/
def whyRefused (p : Nat) : Nat := 0x0A + 2 ^ 8 * p
/-- NO_CAL. -/
def whyNoCal : Nat := 0x0B
/-- REEL, with the check in ARG[15:8]. -/
def whyReel (check : Nat) : Nat := 0x0C + 2 ^ 8 * check
/-- TIMEOUT, with the step in ARG[15:8]. -/
def whyTimeout (step : Nat) : Nat := 0x0D + 2 ^ 8 * step
/-- MEMX, with CMD_RESULT in ARG[15:8]. -/
def whyMemx (result : Nat) : Nat := 0x0E + 2 ^ 8 * result

-- ---- the open procedures -----------------------------------------------------------------------------------

/-- The Foreman's state changed. -/
def Dev.onFm (d : Dev) (f : FmSt → FmSt) : Dev := { d with fm := f d.fm }

/-- The line a page belongs to, where it serves one. -/
def lineOfPage (p : Nat) : Option Line :=
  match pageOf p with
  | none => none
  | some pg =>
    match pg.block with
    | .shot | .syn | .emit | .canary | .lane | .raml | .trim | .chan | .phase | .gauge | .pfilt | .zone | .trig
    | .capt | .raman | .reel => some pg.line
    | .dev | .foreman | .journal | .trouble | .hk | .pfe | .tiu | .tally | .pwr | .ddr | .memx | .sram | .dma
    | .codec | .pcie | .eth | .ptp | .sahf | .spis | .legacy | .i2cm | .aon => none

/-- What a command holds while its procedure is open (R382): 0 line A, 1 line B, 2 the patch banks, 3 the
reel, 4 DRAM. -/
def holds (code arg : Nat) : List Nat :=
  match code with
  | 0x0101 => [0, 1]
  | 0x0102 => [arg]
  | 0x0103 => [arg]
  | 0x0110 => match lineOfPage arg with
    | some x => [x.idx]
    | none => []
  | 0x0130 => [2]
  | 0x0131 => [2]
  | 0x0132 => [2]
  | 0x0133 => [2]
  | 0x0140 => [3]
  | 0x0142 => [3, 0, 1]
  | 0x0150 => [arg % 2]
  | 0x0151 => [arg % 2]
  | 0x0160 => [4]
  | _ => []

/-- Whether an open procedure holds what a command needs (CONFLICT). -/
def conflict (d : Dev) (code arg : Nat) : Bool :=
  d.fm.procs.any fun p => (holds p.code p.arg).any fun r => (holds code arg).contains r

/-- An open procedure replaced. -/
def setProc (d : Dev) (i : Nat) (p : Proc) : Dev := d.onFm fun f => { f with procs := f.procs.set i p }

/-- How a part of a step ends: it waits, the next part follows, the step is complete, the procedure fails. -/
inductive Verdict where
  | wait
  | next
  | fin
  | fail (arg : Nat)
deriving DecidableEq, Repr

/-- A part's outcome. -/
abbrev PartEnd := Dev × Proc × Verdict

/-- The Foreman arms pages; the procedure waits for their applies. -/
def armFor (d : Dev) (p : Proc) (pages : List Nat) : Dev × Proc :=
  pages.foldl (fun r g =>
    if r.1.pageOn g then
      (armPage (linkCode .foreman) 0 r.1 g, { r.2 with waits := r.2.waits ++ [(g, r.1.count g 2)] })
    else r) (d, p)

/-- The applies a procedure waits for: a refusal fails it with REFUSED (R397), an armed page keeps it
waiting, `after` follows when all have applied. -/
def applied (d : Dev) (p : Proc) (after : Verdict) : PartEnd :=
  match p.waits.find? fun w => d.pageOn w.1 && d.count w.1 2 != w.2 with
  | some w => (d, p, .fail (whyRefused w.1))
  | none =>
    if p.waits.any fun w => (d.armedAs w.1).isSome then (d, p, .wait)
    else (d, { p with waits := [] }, after)

/-- CTRL.EN of pages written to their shadows, where the domain is on. -/
def setEns (d : Dev) (pages : List Nat) (b : Bool) : Dev :=
  pages.foldl (fun d g => if d.pageOn g then setEnShadow d g b else d) d

/-- The sensing pages that LINE_OUT disables in its step 4. -/
def sensePages (x : Line) : List Nat :=
  [pgChan x, pgPhase x, pgGauge x, pgPfilt x, pgZone x, pgTrig x, pgCapt x]

/-- The page of a number. -/
def onPage (p : Nat) (f : Page → Dev → Dev) (d : Dev) : Dev :=
  match pageOf p with
  | some pg => f pg d
  | none => d

/-- A page saved by number. -/
def saveNum (d : Dev) (p : Nat) : Dev := onPage p (fun pg d => savePage d pg) d

/-- The lines in service. -/
def linesIn (d : Dev) : List Line := [Line.a, Line.b].filter fun x => !d.pwr.outs.getD x.idx false

-- ---- quieting a line (R411, steps 1 to 4) --------------------------------------------------------------------

/-- Step 1: SHOT CTRL.EN = 0. -/
def quiet1 (x : Line) (r : Dev × Proc) : Dev × Proc := armFor (setEns r.1 [pgShot x] false) r.2 [pgShot x]

/-- Step 2: SHOT.TCLEAR_MAX after the last gate edge. -/
def quiet2 (x : Line) (d : Dev) : Dev :=
  match (d.line x).shot.lastEdge with
  | some t => if d.domainOn 10 then d.advanceTo (t + liv d.regs (pgShot x) SHOT.TCLEAR_MAX) else d
  | none => d

/-- Step 3: CANARY and RAMAN CTRL.EN = 0, the EMIT set-points ON = 0. -/
def quiet3 (x : Line) (r : Dev × Proc) : Dev × Proc :=
  let d := setEns r.1 [pgCanary x, pgRaman x] false
  let d := if d.pageOn (pgEmit x) then
      (List.range 4).foldl (fun d e => d.setLiv (pgEmit x) (EMIT.SETPT.ON e) 0) d
    else d
  armFor d r.2 [pgEmit x, pgCanary x, pgRaman x]

/-- Step 4: the sensing pages CTRL.EN = 0; a recording of the line ends DISABLED. -/
def quiet4 (x : Line) (r : Dev × Proc) : Dev × Proc :=
  armFor (endReel (setEns r.1 (sensePages x) false) x 6) r.2 (sensePages x)

/-- A part that only does something, and the next part follows. -/
def goes (r : Dev × Proc) : PartEnd := (r.1, r.2, .next)

-- ---- LINE_OUT and LINE_IN (R411, R412) ------------------------------------------------------------------------

/-- A line's in-service bit, with the MODE entry where there is one. -/
def setOut (d : Dev) (x : Line) (b : Bool) : Dev :=
  { d with pwr := { d.pwr with outs := d.pwr.outs.set x.idx b } }

/-- The ACQ domain of a line. -/
def acqOf (x : Line) : Nat := 5 + x.idx

/-- A part that reads or writes the save region: the procedure ends FAILED with REGION where the region is not
initialised (R465). -/
def withSave (d : Dev) (p : Proc) (f : Dev → PartEnd) : PartEnd := if saveReady d then f d else (d, p, .fail whyRegion)

/-- The steps of LINE_OUT. DEDUCED: log entry 92. -/
def lineOutPart (n : Nat) (x : Line) (d : Dev) (p : Proc) : PartEnd :=
  match n, p.part with
  | 1, 0 => goes (quiet1 x (d, p))
  | 2, 0 => (d, p, .next)
  | 2, _ => (quiet2 x d, p, .fin)
  | 3, 0 => withSave d p fun d => goes (quiet3 x (saveNum d (pgEmit x), p))
  | 4, 0 => goes (quiet4 x (d, p))
  | 5, 0 => (d, p, .next)
  | 5, _ => withSave d p fun d => (saveNum (saveNum d (pgLane x)) (pgTrim x), p, .fin)
  | 6, 0 => (d, p, .next)
  | 6, _ =>
    let d := setOut (domainDown d (acqOf x)) x true
    (modeEntry d p.link d.pwr.mode d.pwr.mode 0, p, .fin)
  | _, _ => applied d p .fin

/-- Pages written back from the save region and armed; the first bad record is kept in `mark` (R404). -/
def loadFor (d : Dev) (p : Proc) (v : SavedView) (pages : List Nat) : Dev × Proc :=
  pages.foldl (fun r g =>
    match pageOf g with
    | none => r
    | some pg =>
      if !r.1.pageOn g then r
      else
        let c := r.1.count g 2
        let t := loadPage r.1 pg v 0 p.ecc
        let q := if t.2 || r.2.mark != 0 then r.2 else { r.2 with mark := g }
        (t.1, if (t.1.armedAs g).isSome then { q with waits := q.waits ++ [(g, c)] } else q)) (d, p)

/-- The record of a page in the save region, where a good one stands; whether a line of it is bad. -/
def savedRecord (d : Dev) (p : Nat) (faults : List (Nat × Ecc)) : Dev × Option (List Byte) × Bool :=
  if !saveReady d then (d, none, false)
  else
    let r := d.memReadWith (saveAddr d p) 2064 faults
    if r.2.1 != .ok then (r.1, none, true)
    else if numAt r.2.2.2 0 4 = p ∧ numAt r.2.2.2 4 4 = 1024 then (r.1, some r.2.2.2, false)
    else (r.1, none, false)

/-- The EMIT set-points, ON bits included, written back from the save region. -/
def restoreSetpts (x : Line) (r : Dev × Proc) : Dev × Proc :=
  let t := savedRecord r.1 (pgEmit x) r.2.ecc
  match t.2.1 with
  | none => (t.1, if t.2.2 && r.2.mark == 0 then { r.2 with mark := pgEmit x } else r.2)
  | some b => ({ t.1 with regs := putWords t.1.regs (pageBase (pgEmit x) + 0x100) (leWords (sliceOf b 16 16)) }, r.2)

/-- Whether the saved record of a page has CTRL.EN. -/
def savedEn (d : Dev) (p : Nat) (faults : List (Nat × Ecc)) : Bool :=
  match (savedRecord d p faults).2.1 with
  | some b => bitOf (numAt b 12 4) 0
  | none => false

/-- SHOT of a line as a mode asks (R58): COH_EN = 0 in Survey, RAMAN_CTRL.EN = 0 in Listen.
DEDUCED: log entry 93. -/
def modeShot (m : Nat) (x : Line) (r : Dev × Proc) : Dev × Proc :=
  let put (f : Fld) : Dev × Proc :=
    let armed := (r.1.armedAs (pgShot x)).isSome && liv r.1.regs (pgShot x) f != 0
    if !r.1.pageOn (pgShot x) || (act r.1.regs (pgShot x) f == 0 && !armed) then r
    else armFor (r.1.setLiv (pgShot x) f 0) r.2 [pgShot x]
  if m = 3 then put SHOT.ROUND_CTRL.COH_EN else if m = 4 then put SHOT.RAMAN_CTRL.EN else r

/-- The steps of LINE_IN. ACQ comes up where the mode has it on (R421). DEDUCED: log entry 92. -/
def lineInPart (n : Nat) (x : Line) (d : Dev) (p : Proc) : PartEnd :=
  match n, p.part with
  | 1, 0 => (d, p, .next)
  | 1, _ => (if (modeDomains d.pwr.mode).contains (acqOf x) then domainsUp d [acqOf x] else d, p, .fin)
  | 2, 0 => withSave d p fun d => goes (loadFor d p .shadow [pgLane x, pgTrim x])
  | 3, 0 =>
    let pages := sensePages x ++ (if (modeDomains d.pwr.mode).contains 8 then [pgRaman x] else [])
    goes (armFor (setEns d pages true) p pages)
  | 3, _ =>
    let r := applied d p .fin
    if r.2.2 = .fin ∧ p.plan.length = 1 then (setOut r.1 x false, r.2) else r
  | 4, 0 => withSave d p fun d =>
    let r := restoreSetpts x (d, p)
    goes (armFor (setEns r.1 [pgCanary x] true) r.2 [pgEmit x, pgCanary x])
  | 5, 0 => goes (modeShot d.pwr.mode x (armFor (setEns d [pgShot x] true) p [pgShot x]))
  | 5, _ =>
    let r := applied d p .fin
    if r.2.2 = .fin then
      let d := setOut r.1 x false
      (modeEntry d p.link d.pwr.mode d.pwr.mode 0, r.2)
    else r
  | _, _ => applied d p .fin

-- ---- mode changes (R58, R420 to R423) ----------------------------------------------------------------------------

/-- The domains switched on that a mode does not take. -/
def surplus (d : Dev) (m : Nat) : List Nat :=
  switchOrder.filter fun c => d.domainOn c && !(domainsFor d m).contains c

/-- The domains of a mode that are still off. -/
def missing (d : Dev) (m : Nat) : List Nat := (domainsFor d m).filter fun c => !d.domainOn c

/-- A list of domains as bits. DEDUCED: log entry 10. -/
def domainBits (l : List Nat) : Nat := (l.map (2 ^ ·)).sum

/-- The pages of a list of domains. -/
def pagesOf (l : List Nat) : List Nat := (directory.filter fun pg => l.contains pg.domain).map (·.num)

/-- The shadows of a line's launch pages as they were saved: EMIT's set-points, CANARY's and SHOT's EN. -/
def restoreLaunch (x : Line) (r : Dev × Proc) : Dev × Proc :=
  if !saveReady r.1 || !r.1.domainOn 10 then r
  else
    let r := restoreSetpts x r
    let d := setEnShadow r.1 (pgCanary x) (savedEn r.1 (pgCanary x) r.2.ecc)
    let d := setEnShadow d (pgShot x) (savedEn d (pgShot x) r.2.ecc)
    armFor d r.2 [pgEmit x, pgCanary x, pgShot x]

/-- The saved configuration of a replay written back (R405). -/
def leaveReplay (r : Dev × Proc) : Dev × Proc :=
  if r.1.pwr.mode = 6 then loadFor r.1 r.2 .active (imagePages.map (·.num)) else r

/-- The lanes' clock locks 450 µs after its start (R429). -/
def lockLanes (d : Dev) : Dev :=
  let d := { d with pll := { locked := true, since := d.clk.tick } }
  let d := if d.domainOn 5 then d.setStatus (pgLane .a) 20 true else d
  if d.domainOn 6 then d.setStatus (pgLane .b) 20 true else d

/-- Up 1→2: the rails, then the domains, then lane lock (its tick in `arg2`) and DRAM training. -/
def up12Part (d : Dev) (p : Proc) : PartEnd :=
  match p.part with
  | 0 =>
    let p := { p with arg2 := d.clk.tick + 281250 }
    if d.aonSt.rails.getD 5 false && d.aonSt.goal.isNone then (d, p, .next) else (startRails d 4 5, p, .next)
  | 1 =>
    if d.aonSt.goal.isSome then (d, p, .wait)
    else (domainsUp (hostReduced d false) [2, 3, 4, 10], { p with since := d.clk.tick }, .next)
  | _ =>
    if d.mem.retrain.any (·.isSome) then (d, p, .wait)
    else if d.pll.locked then (d, p, .fin)
    else if d.pins.refPresent then (lockLanes (d.advanceTo p.arg2), p, .fin)
    else (d, p, .wait)

/-- Up 2→3. -/
def up23Part (m : Nat) (d : Dev) (p : Proc) : PartEnd :=
  match p.part with
  | 0 => (d, { p with arg2 := domainBits (missing d m) }, .next)
  | 1 =>
    let d := domainsUp d (missing d m)
    goes (loadFor d p .shadow (pagesOf ((List.range 12).filter (bitOf p.arg2))))
  | 2 => applied d p .next
  | 3 => goes ((linesIn d).foldl (fun r x => modeShot m x (restoreLaunch x r)) (d, p))
  | _ => applied d p .fin

/-- Down 3→2. The pages are saved as they stand before the lines go quiet. -/
def down32Part (d : Dev) (p : Proc) : PartEnd :=
  match p.part with
  | 0 => (d, p, .next)
  | 1 => goes (leaveReplay (d, p))
  | 2 => applied d p .next
  | 3 =>
    let pages := pagesOf (surplus d 2 ++ [10])
    goes ((linesIn d).foldl (fun r x => quiet1 x r) (pages.foldl saveNum d, p))
  | 4 => applied d p .next
  | 5 =>
    let d := (linesIn d).foldl (fun d x => quiet2 x d) d
    goes ((linesIn d).foldl (fun r x => quiet3 x r) (d, p))
  | 6 => applied d p .next
  | 7 => goes ((linesIn d).foldl (fun r x => quiet4 x r) (d, p))
  | 8 => applied d p .next
  | _ => (domainsDown (closeReel .b (closeReel .a d)) (surplus d 2), p, .fin)

/-- Down 2→1: MEM goes off with its ranks in self-refresh, its contents are lost (R423). -/
def down21 (d : Dev) : Dev :=
  let d := hostReduced (domainsDown d (surplus d 1)) true
  railsDown { d with pll := {} } 4

/-- A change between two modes of level 3. DEDUCED: log entry 93. -/
def acrossPart (m : Nat) (d : Dev) (p : Proc) : PartEnd :=
  match p.part with
  | 0 => (d, p, .next)
  | 1 => goes (leaveReplay (d, p))
  | 2 => applied d p .next
  | 3 => goes ((linesIn d).foldl (fun r x => modeShot m x r) (domainsUp d (missing d m), p))
  | 4 => applied d p .next
  | _ =>
    let d := if reelMode m then d else closeReel .b (closeReel .a (endReels d 5))
    (domainsDown d (surplus d m), p, .fin)

/-- The steps from one mode to another (R422). -/
def modePlan (old new : Nat) : List PStep :=
  let lo := modeLevel old
  let ln := modeLevel new
  if old = new then []
  else if lo = 3 ∧ ln = 3 then [.across]
  else
    (if lo = 3 ∧ ln < 3 then [.down32] else []) ++ (if 2 ≤ lo ∧ ln < 2 then [.down21] else []) ++
    (if 1 ≤ lo ∧ ln < 1 then [.down10] else []) ++ (if lo < 2 ∧ 2 ≤ ln then [.up12] else []) ++
    (if lo < 3 ∧ ln = 3 then [.up23] else [])

-- ---- calibrations (R415) -------------------------------------------------------------------------------------------

/-- The page whose pairs report a calibration asked of a page. DEDUCED: log entry 95. -/
def calReports (p : Nat) : Nat :=
  match pageOf p with
  | none => p
  | some pg => match calKindOf pg.block with
    | some k => k.page pg.line
    | none => p

/-- Whether a page has something to calibrate. -/
def calibrates (p : Nat) : Bool :=
  match pageOf p with
  | none => false
  | some pg => (calKindOf pg.block).isSome || pg.block == .pfe

/-- CAL_DONE, and CAL_FAILED where the page has it, as one number. -/
def calCounts (d : Dev) (p : Nat) : Nat :=
  d.count (calReports p) 3 + 2 ^ 32 * (if (lineOfPage p).isSome then d.count (calReports p) 5 else 0)

/-- Whether a page's calibration has met 16 calibration rounds without a pass (R118). -/
def calStarved (d : Dev) (p : Nat) : Bool :=
  match pageOf p with
  | none => false
  | some pg => match calKindOf pg.block with
    | some k => (calRun d pg.line k).pending && 16 ≤ (calRun d pg.line k).starve
    | none => false

/-- How the calibration of CAL_RUN has ended, if it has. The reason of a CAL_FAILED is not stated: a free
value. DESIGN CHOICE: log entry 94. -/
def calOutcome (d : Dev) (p : Proc) : PartEnd :=
  let g := p.arg % 4096
  let now := calCounts d g
  if now % 2 ^ 32 ≠ p.mark % 2 ^ 32 then (d, { p with mark := 0 }, .fin)
  else if now ≠ p.mark then (d.tookFree, { p with mark := 0 }, .fail (d.free.toNat % 2 ^ 8))
  else if calStarved d g then (d, { p with mark := 0 }, .fail (whyTimeout (p.step + 1)))
  else (d, p, .wait)

/-- CAL_RUN: CAL_REQ; with NOW one calibration round under EVERY = 1, then the previous EVERY (in `arg2`, with
the count of calibration rounds before). -/
def calPart (d : Dev) (p : Proc) : PartEnd :=
  let g := p.arg % 4096
  let x := (lineOfPage g).getD .a
  let now : Bool := bitOf p.arg 16 && (lineOfPage g).isSome && d.domainOn 10
  match p.part with
  | 0 =>
    let p := { p with mark := calCounts d g }
    let d := onPage g calReqOn d
    if now then
      let s := pgShot x
      let p := { p with arg2 := act d.regs s SHOT.CAL_CTRL.EVERY + 2 ^ 16 * d.count s 7 }
      goes (armFor (d.setLiv s SHOT.CAL_CTRL.EVERY 1) p [s])
    else (d, p, .next)
  | 1 =>
    if !now then (d, p, .next)
    else
      let r := applied d p .next
      if r.2.2 = .next ∧ d.count (pgShot x) 7 = p.arg2 / 2 ^ 16 then (d, p, .wait) else r
  | 2 =>
    if !now then (d, p, .next)
    else goes (armFor (d.setLiv (pgShot x) SHOT.CAL_CTRL.EVERY (p.arg2 % 2 ^ 16)) p [pgShot x])
  | 3 => applied d p .next
  | _ => calOutcome d p

-- ---- patches (R407 to R410) -------------------------------------------------------------------------------------------

/-- A bank's bit in a BANK field. -/
def bankBit (d : Dev) (f : Fld) (b : Nat) : Bool := bitOf (liv d.regs pgForeman f) b

/-- A bank's bit in a BANK field written. -/
def setBankBit (d : Dev) (f : Fld) (b : Nat) (v : Bool) : Dev :=
  d.setLiv pgForeman f (putBits (liv d.regs pgForeman f) b b (bit v))

/-- The active bank: 0 ROM only, 1 bank 0, 2 bank 1. -/
def activeBank (d : Dev) : Nat := liv d.regs pgForeman FOREMAN.BANK.ACTIVE

/-- The bank that PATCH_LOAD loads: the one not active; with none active, the first that is not verified. -/
def idleBank (d : Dev) : Nat :=
  if activeBank d = 1 then 1 else if activeBank d = 2 then 0
  else if bankBit d FOREMAN.BANK.VERIFIED 0 && !bankBit d FOREMAN.BANK.VERIFIED 1 then 1 else 0

/-- The bank that PATCH_SWAP goes to: verified, bootable and not active. -/
def swapBank (d : Dev) : Option Nat :=
  [0, 1].find? fun b => bankBit d FOREMAN.BANK.VERIFIED b && !bankBit d FOREMAN.BANK.NOT_BOOTABLE b &&
    activeBank d != b + 1

/-- The image in a bank. -/
def bankImage (d : Dev) (b : Nat) : List Byte := d.fm.banks.getD b []

/-- The PATCH entry (R387) of a bank. -/
def patchEntry (d : Dev) (link b cause result : Nat) : Dev :=
  let img := bankImage d b
  d.journal { link := link, kind := kindPatch, result := result, digest := (crc32c img).toNat,
              arg := (b + 1) + 2 ^ 8 * cause + 2 ^ 32 * numAt img 4 4 }

/-- A patch image is rejected: PATCH_REJECT in the log, with its event (R408). -/
def patchRejected (d : Dev) (p : Proc) (why : Nat) : PartEnd :=
  ((d.trouble pgForeman 0x83 sevWarning (why % 2 ^ 8)).event pgForeman 6, p, .fail why)

/-- The header's own faults (R407, R408). -/
def imageBad (d : Dev) (h : List Byte) : Bool :=
  let n := numAt h 12 4
  numAt h 0 4 != 0x5450484E || numAt h 8 4 != liv d.regs pgForeman FOREMAN.ROM_VERSION || n == 0 || 32576 < n ||
    n ≤ numAt h 16 4

/-- Whether the public key of an image is the one of the fuses (R408). -/
def keyGood (h : List Byte) : Bool := sha256 (sliceOf h 64 64) == Config.fuseKey.toNat

/-- Whether the signature that ends an image is one of its header and body under its key (R407, R408).
PRESUMED: log entry 84. -/
def signatureGood (img : List Byte) : Bool :=
  let n := img.length - 64
  ecdsaGood (sha256 (img.take n)) (beNat (sliceOf img 64 32)) (beNat (sliceOf img 96 32)) (beNat (sliceOf img n 32))
    (beNat (sliceOf img (n + 32) 32))

/-- PATCH_LOAD: the image goes to the idle bank and is checked in the order of R408; a bad line fails it with
IMAGE (R404). -/
def patchLoadPart (d : Dev) (p : Proc) : PartEnd :=
  match p.part with
  | 0 =>
    let b := idleBank d
    (setBankBit d FOREMAN.BANK.VERIFIED b false, { p with mark := 0, arg2 := b }, .next)
  | _ =>
    let b := p.arg2
    let r := d.memReadWith p.arg 128 p.ecc
    let d := r.1
    if r.2.1 = .poisoned then patchRejected d p whyImage
    else if r.2.1 ≠ .ok then (d, p, .fail whyRegion)
    else
      let h := r.2.2.2
      if imageBad d h then patchRejected d p whyImage
      else
        let t := d.memReadWith p.arg (192 + numAt h 12 4) p.ecc
        let d := t.1
        if t.2.1 = .poisoned then patchRejected d p whyImage
        else if t.2.1 ≠ .ok then (d, p, .fail whyRegion)
        else
          let d := d.onFm fun f => { f with banks := f.banks.set b t.2.2.2 }
          if !keyGood h then patchRejected d p whyKey
          else if numAt h 20 1 < liv d.regs pgForeman FOREMAN.ROLLBACK then patchRejected d p whyRollback
          else if !signatureGood t.2.2.2 then patchRejected d p whySignature
          else
            let d := d.onFm fun f => { f with digests := f.digests.set b (sha256 t.2.2.2) }
            let d := setBankBit (setBankBit d FOREMAN.BANK.VERIFIED b true) FOREMAN.BANK.NOT_BOOTABLE b false
            (patchEntry d p.link b 1 0, p, .fin)

/-- The Foreman goes to a bank (0 ROM only, b + 1 bank b). -/
def runBank (d : Dev) (b : Nat) : Dev :=
  let v := if b = 0 then 0 else numAt (bankImage d (b - 1)) 4 4
  (d.setLiv pgForeman FOREMAN.BANK.ACTIVE b).setLiv pgForeman FOREMAN.PATCH_VERSION v

/-- Before the active bank runs again the ROM compares its SHA-256 with the digest kept since it was verified; a bank
that differs is not bootable, and ROM runs alone (R385). -/
def checkBank (d : Dev) : Dev :=
  let b := activeBank d
  if b = 0 || sha256 (bankImage d (b - 1)) == d.fm.digests.getD (b - 1) 0 then d
  else runBank (setBankBit d FOREMAN.BANK.NOT_BOOTABLE (b - 1) true) 0

/-- PATCH_SWAP and PATCH_REVERT: the restart waits for its boundary, and the step for the restart. -/
def patchSwapPart (cause : Nat) (d : Dev) (p : Proc) : PartEnd :=
  match p.part with
  | 0 => (d.onFm fun f => { f with swap := some cause }, p, .next)
  | _ => if d.fm.swap.isSome then (d, p, .wait) else (d, p, .fin)

/-- PATCH_COMMIT: fuses are blown up to the active patch's ROLLBACK (R410). -/
def patchCommitPart (d : Dev) (p : Proc) : PartEnd :=
  match p.part with
  | 0 => (d, p, .next)
  | _ =>
    let b := activeBank d - 1
    let v := max (numAt (bankImage d b) 20 1) (liv d.regs pgForeman FOREMAN.ROLLBACK)
    let d := { d.setLiv pgForeman FOREMAN.ROLLBACK v with fuse := max d.fuse v }
    (patchEntry d p.link b 4 0, p, .fin)

-- ---- reels (R399, R405) ----------------------------------------------------------------------------------------------------

/-- REEL_RECORD: open until no line records any more. -/
def reelRecordPart (d : Dev) (p : Proc) : PartEnd :=
  match p.part with
  | 0 => (armReel d, p, .next)
  | _ => if recording d then (d, p, .wait) else (d, p, .fin)

/-- The steps of REEL_PLAY. -/
def reelPlayPart (n : Nat) (d : Dev) (p : Proc) : PartEnd :=
  match n, p.part with
  | 1, 0 => (d, p, .next)
  | 1, _ =>
    let r := reelFailure p.ecc d
    match r.2 with
    | some c => (r.1, p, .fail (whyReel c))
    | none => (if d.pwr.mode = 6 then r.1 else imagePages.foldl savePage r.1, p, .fin)
  | 2, 0 => (d, p, .next)
  | 2, _ => if d.pwr.mode = 6 then (d, p, .fin) else (commitMode (domainsUp d (missing d 6)) p.link 6 0, p, .fin)
  | 3, 0 =>
    let pages := (imagePages.map (·.num)).filter d.pageOn
    let ws := pages.map fun g => (g, d.count g 2)
    (loadImage d (reelImage d) 0, { p with waits := ws }, .next)
  | 4, 0 => (d, p, .next)
  | 4, _ => if imageAgrees d (reelImage d) then (d, p, .fin) else (d, p, .fail (whyReel 4))
  | 5, 0 => (d, p, .next)
  | 5, _ => (loadStates d, p, .fin)
  | 6, 0 => (d, p, .next)
  | 6, _ => (startFeed p.ecc d, p, .fin)
  | 7, 0 => (d, p, .next)
  | 7, _ =>
    if d.reel.playing then (d, p, .wait)
    else if d.reel.bad then (d, p, .fail (whyReel 6)) else (d, p, .fin)
  | _, _ => applied d p .fin

-- ---- emitter swaps and migrations (R413, R414) -------------------------------------------------------------------------------

/-- The colour loop of an emitter, where it is a laser. -/
def loopOfEmitter (e : Nat) : Option Nat := if e = 0 then some 0 else if e = 3 then some 1 else none

/-- EMIT_SWAP_BEGIN: the set-point off, a laser's DUTY_MAX 0; what they were is kept. -/
def emitBeginPart (d : Dev) (p : Proc) : PartEnd :=
  let x := Line.ofUnit (p.arg % 2)
  let e := p.arg / 16 % 4
  let g := pgEmit x
  match p.part with
  | 0 =>
    let duty := match loopOfEmitter e with
      | some l => liv d.regs g (EMIT.LIMIT.DUTY_MAX l)
      | none => 0
    let old := (4 * x.idx + e, liv d.regs g (EMIT.SETPT.ON e), duty)
    let d := d.onFm fun f => { f with emitOld := old :: f.emitOld.filter fun o => o.1 != old.1 }
    let d := d.setLiv g (EMIT.SETPT.ON e) 0
    let d := match loopOfEmitter e with
      | some l => d.setLiv g (EMIT.LIMIT.DUTY_MAX l) 0
      | none => d
    goes (armFor d p [g])
  | _ => applied d p .fin

/-- EMIT_SWAP_END: the host's values apply with ON and the loop restored; a laser must lock.
DEDUCED: log entry 95. -/
def emitEndPart (d : Dev) (p : Proc) : PartEnd :=
  let x := Line.ofUnit (p.arg % 2)
  let e := p.arg / 16 % 4
  let g := pgEmit x
  match p.part with
  | 0 =>
    let old := (d.fm.emitOld.find? fun o => o.1 == 4 * x.idx + e).getD (0, 0, 0)
    let d := d.onFm fun f => { f with emitOld := f.emitOld.filter fun o => o.1 != 4 * x.idx + e }
    let d := d.setLiv g (EMIT.SETPT.ON e) old.2.1
    let d := match loopOfEmitter e with
      | some l => if liv d.regs g (EMIT.LIMIT.DUTY_MAX l) = 0 then d.setLiv g (EMIT.LIMIT.DUTY_MAX l) old.2.2 else d
      | none => d
    goes (armFor d p [g])
  | 1 =>
    let t := d.clk.tick
    applied d { p with since := t } .next
  | _ =>
    match loopOfEmitter e with
    | some l => if laserLocked d x l then (d, p, .fin) else (d, p, .wait)
    | none => (d, p, .fin)

/-- RANK_MIGRATE: open until MIG_DONE. -/
def migratePart (d : Dev) (p : Proc) : PartEnd :=
  match p.part with
  | 0 => (d, p, .next)
  | _ => if d.migrating then (d, p, .wait) else (d, p, .fin)

-- ---- the wake script (R434) ----------------------------------------------------------------------------------------------------

/-- COUNT that a script entry names; 0 for an entry that is no WAIT_EVENT on an event COUNT. -/
def scriptCount (d : Dev) (i : Nat) : Nat :=
  let e := (Sparse.get (fun _ => (0 : BitVec 64)) d.aonSt.script i).toNat
  (busGet (e / 2 ^ 32 % 2 ^ 24) 4 d).2.2.toNat

/-- The script comes to entry i. -/
def startEntry (d : Dev) (i : Nat) : Dev :=
  let t := d.clk.tick
  let c := scriptCount d i
  (d.setAon AON.SCRIPT_RESULT.PLAYED i).onFm fun f => { f with entry := some (t, c) }

/-- The script plays: its entries are steps of their own. -/
def scriptPart (d : Dev) (p : Proc) : PartEnd :=
  match p.part with
  | 0 => (startEntry (d.setAon AON.SCRIPT_RESULT.RESULT 0) 0, p, .next)
  | _ =>
    if aonFld d AON.SCRIPT_LEN ≤ liv d.aon pgAon AON.SCRIPT_RESULT.PLAYED then
      (d.onFm fun f => { f with entry := none }, p, .fin)
    else (d, p, .wait)

-- ---- the engine ----------------------------------------------------------------------------------------------------------------

/-- The part at which a procedure stands. -/
def stepPart (k : PStep) (d : Dev) (p : Proc) : PartEnd :=
  match k with
  | .up12 => up12Part d p
  | .up23 => up23Part p.arg d p
  | .down32 => down32Part d p
  | .down21 => if p.part = 0 then (d, p, .next) else (down21 d, p, .fin)
  | .down10 => if p.part = 0 then (d, p, .next) else (d, p, .fin)
  | .across => acrossPart p.arg d p
  | .script => scriptPart d p
  | .lineOut n => lineOutPart n (Line.ofUnit p.arg) d p
  | .lineIn n => lineInPart n (Line.ofUnit p.arg) d p
  | .cal => calPart d p
  | .patchLoad => patchLoadPart d p
  | .patchSwap => patchSwapPart (if p.code = 0x0131 then 5 else 6) d p
  | .patchCommit => patchCommitPart d p
  | .reelRecord => reelRecordPart d p
  | .reelPlay n => reelPlayPart n d p
  | .emitBegin => emitBeginPart d p
  | .emitEnd => emitEndPart d p
  | .migrate => migratePart d p

/-- A step's parts, as far as they go. -/
def runParts (k : PStep) : Nat → Dev → Proc → PartEnd
  | 0, d, p => (d, p, .wait)
  | n + 1, d, p =>
    let r := stepPart k d p
    if r.2.2 = .next then runParts k n r.1 { r.2.1 with part := r.2.1.part + 1 } else r

/-- PROC_END (R382): the entry, the event, a failure's place in the trouble log. -/
def endProc (d : Dev) (i : Nat) (p : Proc) (ok : Bool) (arg : Nat) : Dev :=
  let d := d.onFm fun f => { f with procs := f.procs.eraseIdx i }
  let d := d.journal { link := p.link, kind := kindProcEnd, code := 0, result := if ok then 0 else 3,
                       arg := arg % 2 ^ 32 + 2 ^ 32 * p.seq }
  let d := d.event pgForeman 8
  let d := if ok then d else d.trouble pgForeman 0x85 sevWarning (arg % 2 ^ 8 + 2 ^ 8 * p.seq)
  showTransition d

/-- An open procedure begins the step it stands at. DEDUCED: log entry 91. -/
def beginStep (d : Dev) (i : Nat) (p : Proc) : Dev :=
  match p.plan with
  | [] => endProc d i p true 0
  | k :: _ =>
    let p := { p with begun := true, part := 0, since := d.clk.tick, waits := [] }
    let r := stepPart k d p
    match r.2.2 with
    | .next => showTransition (setProc r.1 i { r.2.1 with part := 1, ecc := [] })
    | .fail a => endProc r.1 i r.2.1 false a
    | .wait | .fin => showTransition (setProc r.1 i { r.2.1 with ecc := [] })

/-- Mode changes end with the MODE entry, in the cycle of their last step (R422, R389). A wake starts the time
from which RETURN counts (R435). DEDUCED: log entry 91. -/
def commitProc (d : Dev) (p : Proc) : Dev :=
  if p.code ≠ 0x0101 then d
  else
    let d := commitMode d p.link p.arg p.cause
    if p.cause = 1 then
      let t := d.clk.tick
      let n := [d.count (pgRaman .a) 4, d.count (pgRaman .b) 4]
      d.onFm fun f => { f with wakeAt := some t, profs := n }
    else d.onFm fun f => { f with wakeAt := none }

/-- A wake from Hibernate begins: rails 0 to 3 (R419, R433). DEDUCED: log entry 90. -/
def startWake (d : Dev) (source : Nat) : Dev :=
  let d := ((resetCause d 2).setAon AON.WAKE_RESULT.SOURCE source).event pgAon 4
  startRails (d.onAon fun a => { a with source := source, held := [] }) 0 3

/-- The rails go down after Down 1→0; a wake that arrived meanwhile is served (R433). -/
def sleep (d : Dev) : Dev :=
  let held := d.aonSt.held
  let d := (toHibernate d).onAon fun a => { a with held := [] }
  match held with
  | s :: _ => if d.aonSt.test then d else startWake d s
  | [] => d

/-- The end of a procedure whose steps are all complete: FAILED with REGION and the page where a saved record
was bad (R404), OK otherwise. -/
def closeProc (d : Dev) (i : Nat) (p : Proc) : Dev :=
  let d := if p.mark = 0 then endProc d i p true 0 else endProc d i p false (whyRegion + 2 ^ 8 * p.mark)
  if p.code = 0x0101 ∧ p.arg = 0 then sleep d else d

/-- A step is complete (R382): the PROC_STEP entry, then the next step or the end. -/
def stepDone (d : Dev) (i : Nat) (p : Proc) : Dev :=
  let rest := p.plan.drop 1
  let q := { p with step := p.step + 1, plan := rest, part := 0, waits := [], begun := false }
  let d := if rest.isEmpty then commitProc d p else d
  let d := d.journal { link := p.link, kind := kindProcStep, arg := q.step % 2 ^ 8 + 2 ^ 32 * p.seq }
  if rest.isEmpty then closeProc d i q else beginStep (setProc d i q) i q

/-- A COMMAND entry (R387): PAGE where ADDR is a register, RESULT, FLAGS bit 0 for a Sahfort command. -/
structure Entry where
  link   : Nat
  code   : Nat
  page   : Nat := 0
  result : Nat := 0
  seq    : Nat := 0
  count  : Nat := 0
  status : Nat := 0
  digest : Nat := 0
  sahf   : Bool := false
deriving DecidableEq, Repr

/-- The COMMAND entry committed; its SEQ is the journal's NEXT_SEQ before it. -/
def commandEntry (d : Dev) (e : Entry) : Dev :=
  d.journal { link := e.link, kind := kindCommand, code := e.code, page := e.page, result := e.result,
              flags := bit e.sahf, digest := e.digest,
              arg := e.seq % 2 ^ 32 + 2 ^ 32 * (e.count % 2 ^ 16) + 2 ^ 48 * e.status }

/-- A procedure is opened, and its first step begins. -/
def openProc (d : Dev) (p : Proc) : Dev :=
  let i := d.fm.procs.length
  beginStep (d.onFm fun f => { f with procs := f.procs ++ [p] }) i p

/-- Why MODE_SET to a mode fails (R382, R425). -/
def modeBar (d : Dev) (target : Nat) : Option Nat :=
  if conflict d 0x0101 target then some whyConflict
  else if target = 0 ∧ aonFld d AON.WAKE.EN_ALARM = 0 ∧ aonFld d AON.WAKE.EN_WAKE_IN = 0 then some whyState
  else if 1 < target ∧ d.pwr.hot then some whyState
  else none

/-- A MODE_SET that the Foreman runs itself, link code 6 (R432, R433, R435). DEDUCED: log entry 90. -/
def selfModeSet (d : Dev) (target cause : Nat) (plan : List PStep) : Dev :=
  let e : Entry := { link := linkCode .foreman, code := 0x0101 }
  match modeBar d target with
  | some _ => commandEntry d { e with result := 3, status := 5 }
  | none =>
    let seq := d.jr.nextSeq
    openProc (commandEntry d { e with result := 2 })
      { code := 0x0101, seq := seq, link := linkCode .foreman, arg := target, cause := cause, plan := plan }

/-- A wake in Watch (R432): ignored after a thermal shutdown. -/
def wakeFromWatch (d : Dev) (source : Nat) : Dev :=
  if d.pwr.noWake then d.event pgPwr 6
  else
    let d := (d.setAon AON.WAKE_RESULT.SOURCE source).event pgAon 4
    let target := aonFld d AON.WAKE.MODE
    selfModeSet d target 1 (modePlan d.pwr.mode target)

/-- Wake sources held through a mode change are judged when it has ended (R424). -/
def serveHeld (d : Dev) : Dev :=
  match d.aonSt.held with
  | [] => d
  | s :: rest =>
    if !d.domainOn 1 || inTransition d || !d.foremanRuns then d
    else if d.pwr.mode = 1 then wakeFromWatch (d.onAon fun a => { a with held := rest }) s
    else (d.onAon fun a => { a with held := [] }).events pgPwr 6 d.aonSt.held.length

/-- A procedure that waits on: nothing more is known of the lines it read. -/
def procWaits (d : Dev) (i : Nat) (p : Proc) : Dev := setProc d i { p with ecc := [] }

/-- PROC_STEP (R382): a procedure goes on as far as the conditions of its step hold. -/
def procStep (i : Nat) (faults : List (Nat × Ecc)) (d : Dev) : Dev :=
  match d.fm.procs[i]? with
  | none => d
  | some p =>
    if !d.foremanRuns then d
    else
      match p.plan with
      | [] => closeProc d i p
      | k :: _ =>
        let r := runParts k 16 d { p with ecc := faults }
        match r.2.2 with
        | .fin => serveHeld (stepDone r.1 i r.2.1)
        | .fail a => serveHeld (endProc r.1 i r.2.1 false a)
        | .wait | .next => procWaits r.1 i r.2.1

/-- The time limit of a step in core cycles, where one is stated (R408, R410, R413, R422). -/
def stepLimit (d : Dev) (p : Proc) : Option Nat :=
  match p.plan with
  | .up12 :: _ => if d.aonSt.goal.isSome then none else some 1312500
  | .up23 :: _ => some 3125000
  | .down32 :: _ =>
    some (max (liv d.regs (pgShot .a) SHOT.TCLEAR_MAX) (liv d.regs (pgShot .b) SHOT.TCLEAR_MAX) + 2500000)
  | .down21 :: _ => some 1250000
  | .down10 :: _ => some 625000
  | .patchLoad :: _ => some 62500000
  | .patchCommit :: _ => some 125000000
  | .emitEnd :: _ => if p.part = 2 then some 75000000000 else none
  | _ => none

/-- PROC_TIMEOUT (R382): the limit of a step passes, and the procedure ends FAILED with TIMEOUT.
DEDUCED: log entry 97. -/
def procTimeout (i : Nat) (d : Dev) : Dev :=
  match d.fm.procs[i]? with
  | none => d
  | some p =>
    match stepLimit d p with
    | none => d
    | some n =>
      if !d.foremanRuns then d
      else serveHeld (endProc (d.advanceTo (p.since + n)) i p false (whyTimeout (p.step + 1)))

/-- PROC_STEP (R382). -/
def execProcStep (n : ProcRun) (s : State) : Host.Outcome State Fault Refusal :=
  done s (procStep n.index n.faults s.dev)

/-- PROC_TIMEOUT (R382). -/
def execProcTimeout (i : Nat) (s : State) : Host.Outcome State Fault Refusal := done s (procTimeout i s.dev)

end Sys2Proof.Machine
end

