-- ==== Sys2Proof/Machine/Payload.lean ====
section
/-!
DEFINITION. Command payloads (R371, R382, R467): their fields, the codes implemented, the ranges of COUNT, the
largest reply of each; and the Foreman mailbox (R381).
-/
namespace Sys2Proof.Machine

/-- A command payload: CODE, COUNT, ADDR, data; the bytes it takes. -/
structure Req where
  code  : Nat
  count : Nat := 0
  addr  : Nat := 0
  data  : List Byte := []
  size  : Nat := 12
deriving DecidableEq, Repr

/-- The fields of a payload. -/
def Req.ofBytes (b : List Byte) : Req := ⟨numAt b 0 2, numAt b 2 2, numAt b 4 8, b.drop 12, b.length⟩

/-- The bytes that a DIGEST covers: the payload from byte 4 on (R387). -/
def Req.digested (r : Req) : List Byte := leBytes 8 r.addr ++ r.data

/-- The codes of the service commands (R382). -/
def serviceCodes : List Nat :=
  [0x0100, 0x0101, 0x0102, 0x0103, 0x0110, 0x0111, 0x0120, 0x0121, 0x0122, 0x0130, 0x0131, 0x0132, 0x0133, 0x0140,
   0x0141, 0x0142, 0x0150, 0x0151, 0x0160, 0x01F0]

/-- Whether a code is a service command's. PRESUMED: log entry 84. -/
def Req.service (r : Req) : Bool := serviceCodes.contains r.code

/-- Whether a code is implemented. -/
def Req.known (r : Req) : Bool := (1 ≤ r.code && r.code ≤ 5) || r.service

/-- Whether COUNT lies in the range of its CODE and the data agree with it. A CODE whose COUNT has no range
takes any; a payload shorter than its fixed fields fails. DEDUCED: log entry 80. -/
def Req.sized (r : Req) : Bool :=
  12 ≤ r.size &&
  match r.code with
  | 0x0001 => 1 ≤ r.count && r.count ≤ 256
  | 0x0002 => 1 ≤ r.count && r.count ≤ 256 && r.data.length == 4 * r.count
  | 0x0003 => 1 ≤ r.count && r.count ≤ 8192
  | 0x0004 => 1 ≤ r.count && r.count ≤ 8192 && r.data.length == r.count
  | 0x0005 => r.count ≤ 8192 && r.data.length == r.count
  | 0x0120 => 1 ≤ r.count && r.count ≤ 256
  | 0x0121 => 1 ≤ r.count && r.count ≤ 512
  | _ => true

/-- The bytes of the largest possible reply, judged on COUNT as requested (R367). -/
def Req.replyMax (r : Req) : Nat :=
  12 + match r.code with
  | 0x0001 => 4 * r.count
  | 0x0003 => r.count
  | 0x0005 => r.count
  | 0x0100 => 36
  | 0x0120 => 32 * r.count
  | 0x0121 => 16 * r.count
  | _ => 0

/-- The operand that ADDR gives a service command, its other bits left out (R382). -/
def Req.arg (r : Req) : Nat :=
  match r.code with
  | 0x0101 => r.addr % 8
  | 0x0102 => r.addr % 2
  | 0x0103 => r.addr % 2
  | 0x0110 => r.addr % 4096 + 2 ^ 16 * (r.addr / 2 ^ 16 % 2)
  | 0x0111 => r.addr % 4096
  | 0x0120 => r.addr % 2 ^ 32
  | 0x0121 => r.addr % 2 ^ 32
  | 0x0150 => r.addr % 2 + 16 * (r.addr / 16 % 4)
  | 0x0151 => r.addr % 2 + 16 * (r.addr / 16 % 4)
  | 0x0160 => r.addr % 8
  | _ => r.addr

/-- Reply STATUS of a payload by the checks that ask nothing but its own fields (R467, checks 7 and 8): 2
UNKNOWN, 3 LENGTH. DEDUCED: log entry 80. -/
def Req.bar (r : Req) (known : Bool) (limit : Nat) : Option Nat :=
  if !known then some 2 else if !r.sized || limit < r.replyMax then some 3 else none

-- ---- the mailbox (R381) -----------------------------------------------------------------------------------

/-- The payload that the mailbox window holds, as long as the GO write said. DEDUCED: log entry 81. -/
def mailboxReq (d : Dev) : Req :=
  Req.ofBytes ((wordBytes d.regs (pageBase pgForeman + 0xC00) 256).take (liv d.regs pgForeman FOREMAN.MBX_STATUS.BYTES))

/-- The reply replaces the command in the window; DONE sets. -/
def answerMailbox (d : Dev) (payload : List Byte) : Dev :=
  let d := { d with regs := putWords d.regs (pageBase pgForeman + 0xC00) (leWords payload) }
  let d := (d.setLiv pgForeman FOREMAN.MBX_STATUS.BUSY 0).setLiv pgForeman FOREMAN.MBX_STATUS.DONE 1
  let d := d.setLiv pgForeman FOREMAN.MBX_STATUS.BYTES payload.length
  d.setLiv pgForeman FOREMAN.MBX_STATUS.STATUS (numAt payload 2 2)

/-- A waiting mailbox command that no service command can be is answered by the running Foreman: UNKNOWN, or
LENGTH where it is out of range or its reply exceeds 1,024 bytes. DEDUCED: log entry 81. -/
def judgeMailbox (d : Dev) : Dev :=
  if !d.foremanRuns || liv d.regs pgForeman FOREMAN.MBX_STATUS.BUSY = 0 then d
  else
    let r := mailboxReq d
    match r.bar r.service 1024 with
    | some s => answerMailbox d (replyBytes r.code s 0 0 [])
    | none => d

/-- Whether the mailbox holds a command: its code, its operand and its COUNT where that counts. -/
def mailboxHolds (d : Dev) (r : Req) : Bool :=
  let m := mailboxReq d
  liv d.regs pgForeman FOREMAN.MBX_STATUS.BUSY == 1 && m.code == r.code && m.arg == r.arg &&
    (m.count == r.count || !(r.code == 0x0120 || r.code == 0x0121))

end Sys2Proof.Machine
end

