-- ==== Sys2Proof/Machine/Foreman.lean ====
section
/-!
DEFINITION. The Foreman beside its procedures (chapter 14): restarts (R384 to R386, R409), the error handler
(R396, R397), calibration by itself (R397, R398), the retention copy (R390), messages of the journal and the
trouble log (R391, R395).
-/
namespace Sys2Proof.Machine

-- ---- restarts (R384 to R386) ----------------------------------------------------------------------------

/-- Core cycles of 60 s. -/
def crashWindow : Nat := 37500000000

/-- What every restart does: the counts, the RESTART entry, the trouble entry, STATE BOOT. The working SRAM resets, so
handling stops and what the Foreman knew of faults and calibrations is lost; notifications wait in the queue. -/
def restartWith (d : Dev) (cause : Nat) : Dev :=
  let n := liv d.regs pgForeman FOREMAN.RESTARTS
  let d := (d.setLiv pgForeman FOREMAN.RESTARTS (n + 1)).setLiv pgForeman FOREMAN.LAST_CAUSE cause
  let d := d.setLiv pgForeman FOREMAN.STATE 0
  let d := d.setLiv pgForeman FOREMAN.MBX_STATUS.BUSY 0
  let d := { d with tr := { d.tr with handling := [] } }
  let d := d.onFm fun f => { f with faults := [], retries := [], calAt := none, calReq := [none, none] }
  let d := d.journal { link := linkHardware, kind := kindRestart, arg := cause }
  let d := d.trouble pgForeman 0x81 sevError cause
  resetCause d 4

/-- A crash, cause WATCHDOG or EXCEPTION; the third within 60 s under a patch bank falls back to ROM (R386).
DEDUCED: log entry 96. -/
def crash (cause : Nat) (d : Dev) : Dev :=
  if !d.domainOn 1 || d.aonSt.booting != 0 then d
  else
    let b := activeBank d
    let t := d.clk.tick
    let recent := t :: d.fm.crashes.filter fun u => t < u + crashWindow
    if b ≠ 0 ∧ 3 ≤ recent.length then
      let d := restartWith (d.onFm fun f => { f with crashes := [] }) 7
      let d := runBank (setBankBit d FOREMAN.BANK.NOT_BOOTABLE (b - 1) true) 0
      let d := d.trouble pgForeman 0x82 sevCritical b
      patchEntry d linkHardware (b - 1) 5 3
    else restartWith (d.onFm fun f => { f with crashes := if b = 0 then [] else recent }) cause

/-- FOREMAN_RESTART (R384). -/
def foremanRestart (d : Dev) : Dev := restartWith d 4

/-- Whether the boundary of a swap has come (R409): the round boundary of line A, of line B when A does not
launch, at once when neither does; the clock stands at it then. -/
def swapBoundary (d : Dev) : Option Dev :=
  let atRound (x : Line) : Option Dev :=
    match (d.line x).shot.nextEdge with
    | some t => if (d.line x).shot.nextSlot = 0 then some (d.advanceTo t) else none
    | none => none
  if launching d .a then atRound .a else if launching d .b then atRound .b else some d

/-- SWAP_RESTART (R409): the restart into the bank that PATCH_SWAP named, or into ROM alone. -/
def swapRestart (d : Dev) : Dev :=
  match d.fm.swap, swapBoundary d with
  | some cause, some d =>
    let p := d.fm.procs.find? fun p => p.code == 0x0131 || p.code == 0x0132
    let link := (p.map (·.link)).getD linkHardware
    let old := activeBank d
    let b := if cause = 5 then (p.map (·.arg2)).getD 0 + 1 else 0
    let d := restartWith (d.onFm fun f => { f with swap := none }) cause
    let d := runBank d b
    let d := patchEntry d link ((if b = 0 then old else b) - 1) (if cause = 5 then 2 else 3) 0
    d.event pgForeman 5
  | _, _ => d

-- ---- the error handler (R396, R397) ----------------------------------------------------------------------------

/-- The queue's head is taken into handling when nothing of its severity or above is handled (R396). -/
def takeNotification (d : Dev) : Dev :=
  match d.tr.queue with
  | [] => d
  | e :: rest =>
    let outranks : Bool := match d.tr.handling with
      | [] => true
      | h :: _ => decide (h.severity < e.severity)
    if outranks then { d with tr := { d.tr with queue := rest, handling := e :: d.tr.handling } } else d

/-- A LOST_ERRORS entry follows once the queue has room (R396). -/
def reportLost (d : Dev) : Dev :=
  if d.tr.lost = 0 ∨ 8 ≤ d.tr.queue.length then d
  else
    let n := d.tr.lost
    { d with tr := { d.tr with lost := 0 } }.trouble pgTrouble 0x80 sevNote n

/-- The pages whose CFG_FAULT the Foreman counts: those given that still show it, for the STATUS command (R397). -/
def countFaults (d : Dev) (pages : List Nat) : Dev :=
  let l := pages.filter fun p => d.pageOn p && d.status p 2
  (d.onFm fun f => { f with faults := l }).setLiv pgForeman FOREMAN.PROCS.CFG_FAULTS l.length

/-- AUTO_CAL. -/
def autoCal (d : Dev) : Bool := act d.regs pgForeman FOREMAN.CONTROL.AUTO_CAL == 1

/-- Whether the Foreman asks a page for a new calibration after CAL_FAILED, its pair 5 (R397). PFE has no such pair.
DEDUCED: log entry 95. -/
def recalibrates (pg : Page) : Bool := pg.block == .trim || pg.block == .raml || pg.block == .syn

/-- One new CAL_REQ to a page is due 600 s from now (R397). -/
def scheduleCal (d : Dev) (p : Nat) : Dev :=
  let t := d.clk.tick + 375000000000
  d.onFm fun f => { f with retries := f.retries ++ [(p, t)] }

/-- Whether a notification is CAL_FAILED of a page the Foreman recalibrates. -/
def isCalFailed (e : TEntry) : Bool :=
  e.code == 5 && match pageOf e.page with
    | some pg => recalibrates pg
    | none => false

/-- What the Foreman learns from the pages as it rebuilds (R385): the pages with CFG_FAULT, and with AUTO_CAL = 1 the
CAL_FAILED pairs whose COUNT differs from SEEN. DEDUCED: log entry 96. -/
def rebuild (d : Dev) : Dev :=
  let d := countFaults d (directory.map (·.num))
  if !autoCal d then d
  else
    (directory.filter fun pg => recalibrates pg && d.pageOn pg.num &&
      d.count pg.num 5 != (rd d.regs (countAddr pg.num 5 + 4)).toNat).foldl (fun d pg => scheduleCal d pg.num) d

/-- What the Foreman does about a notification (R397). -/
def handle (e : TEntry) (d : Dev) : Dev :=
  if e.code = 1 then
    countFaults d (e.page :: d.fm.faults.filter (· != e.page))
  else if isCalFailed e && autoCal d then
    scheduleCal d e.page
  else d

/-- NOTIFICATION (R396): the innermost notification is served, the next taken. -/
def notification (d : Dev) : Dev :=
  if !d.foremanRuns then d
  else
    let d := takeNotification d
    match d.tr.handling with
    | [] => d
    | e :: rest =>
      let d := handle e { d with tr := { d.tr with handling := rest } }
      reportLost (takeNotification d)

/-- RESTARTED (R385): the rebuild ends, and open procedures go on at the step after their last PROC_STEP.
DEDUCED: log entry 96. -/
def restarted (d : Dev) : Dev :=
  if !d.domainOn 1 || d.aonSt.booting != 0 || d.foremanRuns then d
  else
    let d := (rebuild (checkBank d)).setLiv pgForeman FOREMAN.STATE 2
    let d := d.journal { link := linkHardware, kind := kindRestarted,
                         arg := d.fm.procs.length + 2 ^ 8 * activeBank d }
    judgeMailbox (serveHeld (reportLost (takeNotification (d.event pgForeman 4))))

-- ---- calibration by the Foreman (R397, R398) ---------------------------------------------------------------------

/-- CAL_RETRY (R397): 600 s after the failure the page is asked once more. -/
def calRetry (d : Dev) : Dev :=
  match d.fm.retries with
  | [] => d
  | (p, t) :: rest =>
    if !d.foremanRuns then d
    else
      let d := (d.advanceTo t).onFm fun f => { f with retries := rest }
      if autoCal d && d.pageOn p then onPage p calReqOn d else d

/-- One line's part of CAL_ADVISED. -/
def adviseLine (d : Dev) (x : Line) : Dev :=
  let p := pgTrim x
  let t := d.clk.tick
  let soon : Bool := match d.fm.calReq.getD x.idx none with
    | some u => decide (t < u + 375000000000)
    | none => false
  if !d.pageOn p || !d.status p 10 || soon then d
  else
    let diff := livS d.regs p TRIM.DIE_TEMP - livS d.regs p TRIM.CAL_TEMP
    let d := onPage p calReqOn (d.onFm fun f => { f with calReq := f.calReq.set x.idx (some t) })
    d.trouble p 0x87 sevNote (x.idx + 2 ^ 16 * unsigned 16 diff)

/-- CAL_ADVISED (R398): one second after the last look. -/
def calAdvised (d : Dev) : Dev :=
  if !d.foremanRuns || !autoCal d then d
  else
    let d := match d.fm.calAt with
      | some t => d.advanceTo (t + 625000000)
      | none => d
    let t := d.clk.tick
    adviseLine (adviseLine (d.onFm fun f => { f with calAt := some t }) .a) .b

-- ---- journal and trouble log (R390, R391, R395) --------------------------------------------------------------------

/-- RETENTION_COPY (R390): the oldest entry not yet copied reaches the retention store.
DEDUCED: log entry 97. -/
def retentionCopy (d : Dev) : Dev :=
  match d.jr.uncopied with
  | [] => d
  | e :: rest => retain { d with jr := { d.jr with uncopied := rest } } [e]

/-- JOURNAL_FLUSH (R391): a message of up to 32 entries leaves when 32 have collected, or FLUSH_US after the
first of them. -/
def journalFlush (d : Dev) : Dev :=
  let l := d.jr.outbox
  if l.isEmpty || !d.domainOn 2 then d
  else
    let us := max (act d.regs pgJournal JOURNAL.FLUSH_US) 1
    let d := if 32 ≤ l.length then d else d.advanceTo (d.jr.outFrom + 625 * us)
    let t := d.clk.tick
    let d := { d with jr := { d.jr with outbox := l.drop 32, outFrom := t } }
    d.handOver (act d.regs pgSahf SAHF.LOGS.JOURNAL) 9 ((l.take 32).flatMap JEntry.bytes)

/-- TROUBLE_FLUSH (R395): the same with 64 entries; a CRITICAL entry does not wait. -/
def troubleFlush (d : Dev) : Dev :=
  let l := d.tr.outbox
  if l.isEmpty || !d.domainOn 2 then d
  else
    let us := max (act d.regs pgTrouble TROUBLE.FLUSH_US) 1
    let now : Bool := 64 ≤ l.length || l.any fun e => e.severity == sevCritical
    let d := if now then d else d.advanceTo (d.tr.outFrom + 625 * us)
    let t := d.clk.tick
    let d := { d with tr := { d.tr with outbox := l.drop 64, outFrom := t } }
    d.handOver (act d.regs pgSahf SAHF.LOGS.TROUBLE) 10 ((l.take 64).flatMap TEntry.bytes)

/-- WATCHDOG (R384). -/
def execWatchdog (s : State) : Host.Outcome State Fault Refusal := done s (crash 2 s.dev)

/-- EXCEPTION (R384). -/
def execException (s : State) : Host.Outcome State Fault Refusal := done s (crash 3 s.dev)

/-- RESTARTED (R385). -/
def execRestarted (s : State) : Host.Outcome State Fault Refusal := done s (restarted s.dev)

/-- SWAP_RESTART (R409). -/
def execSwapRestart (s : State) : Host.Outcome State Fault Refusal := done s (swapRestart s.dev)

/-- NOTIFICATION (R396). -/
def execNotification (s : State) : Host.Outcome State Fault Refusal := done s (notification s.dev)

/-- CAL_ADVISED (R398). -/
def execCalAdvised (s : State) : Host.Outcome State Fault Refusal := done s (calAdvised s.dev)

/-- CAL_RETRY (R397). -/
def execCalRetry (s : State) : Host.Outcome State Fault Refusal := done s (calRetry s.dev)

/-- RETENTION_COPY (R390). -/
def execRetentionCopy (s : State) : Host.Outcome State Fault Refusal := done s (retentionCopy s.dev)

/-- JOURNAL_FLUSH (R391). -/
def execJournalFlush (s : State) : Host.Outcome State Fault Refusal := done s (journalFlush s.dev)

/-- TROUBLE_FLUSH (R395). -/
def execTroubleFlush (s : State) : Host.Outcome State Fault Refusal := done s (troubleFlush s.dev)

end Sys2Proof.Machine
end

