-- ==== Sys2Proof/Machine/Wake.lean ====
section
/-!
DEFINITION. Boot, waking, the wake script, the return, resets, thermal shutdown and interlock hold
(chapter 15, R441).
-/
namespace Sys2Proof.Machine

-- ---- boot (R390, R430, R437) --------------------------------------------------------------------------

/-- The journal store as CTRL finds it at power-up: the retention store's entries, the next SEQ (R390). -/
def loadJournal (d : Dev) : Dev :=
  let l := d.jr.retained
  let next := match l with
    | e :: _ => (e.seq + 1) % 2 ^ 32
    | [] => 0
  let d := { d with jr := { retained := l, entries := l, nextSeq := next } }
  let d := d.setLiv pgJournal JOURNAL.NEXT_SEQ next
  let d := d.setLiv pgJournal JOURNAL.OLDEST_SEQ d.jr.oldest
  d.setLiv pgJournal JOURNAL.MIRROR_OLDEST ((l.getLast?.map (·.seq)).getD 0)

/-- POWER_ON (R387, R390): COLD when nothing was found in the retention store. -/
def powerOnEntry (d : Dev) : Dev :=
  let found := d.jr.retained.head?.map (·.seq)
  let d := d.setLiv pgJournal JOURNAL.POWER_SEQ d.jr.nextSeq
  let d := d.journal { link := linkHardware, kind := kindPowerOn, flags := if found.isNone then 128 else 0,
                       arg := found.getD 0 }
  if found.isNone then d.event pgJournal 5 else d

/-- The Foreman runs (R437). -/
def foremanStarts (d : Dev) : Dev :=
  (d.setLiv pgForeman FOREMAN.STATE 2).setLiv pgForeman FOREMAN.LAST_CAUSE 1

/-- The core clock starts: 180 µs of lock, the core tick at 0, device time from the AON clock.
DEDUCED: log entry 101. -/
def startCore (d : Dev) : Dev :=
  let d := d.advance 112500
  let time := aonClock d * 5120000000
  let d := (domainUp d 1).onLines fun l => { l with pf := { l.pf with offSince := some 0 } }
  { d with clk := { cyc := d.clk.cyc, tick := 0, time := time, coreOn := true } }

/-- What follows RUNNING in a wake from Hibernate (R433): MODE at once where Watch is all it asks for, else
the Foreman's procedure. DEDUCED: log entry 101. -/
def goOn (d : Dev) : Dev :=
  let reset : Bool := d.aonSt.source == 6
  let target := if reset then 1 else aonFld d AON.WAKE.MODE
  let script : Bool := !reset && aonFld d AON.WAKE.SCRIPT_EN == 1
  if (target = 1 ∧ !script) ∨ (modeBar d target).isSome then
    let d := commitMode d (linkCode .foreman) 1 (if reset then 5 else 1)
    let t := d.clk.tick
    if reset then d else d.onFm fun f => { f with wakeAt := some t }
  else selfModeSet d target 1 (modePlan 1 target ++ (if script then [.script] else []))

/-- BOOT after power-up (R437): lock, fuses and tables, the Foreman, PREC and reduced HOST. -/
def bootCold (d : Dev) : Dev :=
  let d := readyPages ((startCore d).advance 1500000) 1
  let d := foremanStarts (powerOnEntry (loadJournal (d.advance 250000)))
  let d := { d with pwr := { d.pwr with reduced := true } }
  let d := acquire (domainsUp (showRef d) [2, 9])
  goOn (d.onAon fun a => { a with booting := 0 })

/-- BOOT after a warm reset (R436): Standby where MEM stayed powered, Watch otherwise, cause RESET; the
procedures still open begin their step again (R385). -/
def bootWarm (d : Dev) : Dev :=
  let d := d.advance 1500000
  let d := (switchOrder.filter d.domainOn).foldl readyPages d
  let d := foremanStarts (rebuild (checkBank (powerOnEntry (d.advance 250000))))
  let d := acquire (showRef d)
  let d := if d.domainOn 4 then startDram d else d
  let d := { d with pwr := { d.pwr with mode := d.aonSt.before } }
  let d := commitMode (d.onAon fun a => { a with booting := 0 }) linkHardware (if d.domainOn 4 then 2 else 1) 5
  serveHeld (d.onFm fun f => { f with procs := f.procs.map fun p => { p with part := 0, waits := [] } })

/-- BOOT (R437). -/
def boot (d : Dev) : Dev :=
  if d.aonSt.booting = 1 then (if d.pins.refPresent then bootCold d else d)
  else if d.aonSt.booting = 2 then bootWarm d
  else d

-- ---- resets (R436, R446) -----------------------------------------------------------------------------------

/-- The registers that a warm reset keeps: of the journal, of the trouble log, of the patch banks.
DEDUCED: log entry 102. -/
def keptByReset (e : Nat × Word) : Bool :=
  (0x101900 ≤ e.1 && e.1 < 0x101980) || (0x102900 ≤ e.1 && e.1 < 0x102980) || e.1 == 0x10090C ||
    e.1 == 0x100914

/-- The pages of a domain that stays on reset (R436). -/
def resetDomain (d : Dev) (c : Nat) : Dev :=
  let kept := d.regs.filter keptByReset
  let m := d.mem
  let j := d.jr
  let t := d.tr
  let f := d.fm
  let p := d.pll
  let d := clearRegs (clearState d c) c
  match c with
  | 1 =>
    { d with regs := kept.foldl (fun r e => wr r e.1 e.2) d.regs, jr := j, tr := { t with handling := [] },
             fm := { banks := f.banks, digests := f.digests, procs := f.procs, crashes := f.crashes }, pll := p }
  | 4 => showDomain { d with mem := { cells := m.cells, poison := m.poison, initMap := m.initMap } } 0
  | _ => showDomain d c

/-- A warm reset (R436): ranks in self-refresh, the domains above the level it leads to off, all others
reset. DEDUCED: log entry 102. -/
def warmReset (d : Dev) : Dev :=
  if !d.domainOn 1 || d.aonSt.booting != 0 then d
  else
    let old := d.pwr.mode
    let memOn := d.domainOn 4
    let level := if memOn then 2 else 1
    let time := aonClock d * 5120000000
    let d := if memOn then (List.range 8).foldl enterSr d else d
    let d := hostReduced (linkDown d) (!memOn)
    let d := domainsDown d (switchOrder.filter fun c => !(modeDomains level).contains c)
    let d := (modeDomains level).foldl (fun d c => if d.domainOn c then resetDomain d c else d) d
    let d := if memOn then d else railsDown { d with pll := {} } 4
    let d := domainsUp d ((modeDomains level).filter fun c => !d.domainOn c)
    let d := { d with clk := { d.clk with time := time, freq := 0 }, pwr := { d.pwr with mode := level } }
    (resetCause d 3).onAon fun a => { a with booting := 2, before := old, goal := none, railAt := none }

/-- RESET_N (R436): low for two slow edges; in Hibernate the device comes up to Watch.
DEDUCED: log entry 103. -/
def resetN (d : Dev) : Dev :=
  if !d.aonSt.vaon || d.aonSt.test then d
  else
    let d := d.advanceSlow (d.slow + 2)
    if d.domainOn 1 then (warmReset d).setAon AON.WAKE_RESULT.SOURCE 6
    else if d.aonSt.goal.isSome || d.aonSt.booting != 0 then d
    else resetCause (startWake d 6) 3

/-- PWR.RESET written with its key (R436). -/
def pwrReset (key : Nat) (go : Bool) (d : Dev) : Dev := if go && key == 0x5753 then warmReset d else d

/-- What nothing in the device forgets: the levels at its pins, its fuses, the model's counter. -/
def unpowered (d : Dev) : Dev :=
  { pins := { d.pins with interlockFrom := 0 }, fuse := d.fuse, freeCtr := d.freeCtr }

/-- VAON_APPLIED (R446): everything is reset; after 64 slow edges AON is READY and runs a wake.
DEDUCED: log entry 103. -/
def vaonApplied (d : Dev) : Dev :=
  if bitOf (rd d.aon (pageBase pgAon + 0x010)).toNat 0 then d
  else
    let d := (unpowered d).advanceSlow 64
    let d := { d with aon := wr d.aon (pageBase pgAon + 0x010) 1 }
    resetCause (startWake d 5) 1

/-- VAON_REMOVED (R390): nothing is powered any more. -/
def vaonRemoved (d : Dev) : Dev :=
  { unpowered d with aonSt := { vaon := false }, pwr := { domains := 0 } }

/-- TEST_MODE (R441): high at a slow edge, every domain but AON is off, and the device stays in Hibernate. -/
def testMode (high : Bool) (d : Dev) : Dev :=
  if !d.aonSt.vaon then d
  else if high then
    toHibernate ((d.advanceSlow (d.slow + 1)).onAon fun a => { a with test := true, held := [] })
  else d.onAon fun a => { a with test := false }

-- ---- waking (R431 to R433) ------------------------------------------------------------------------------------

/-- A wake source that has come (R424, R431 to R433). -/
def wake (source : Nat) (d : Dev) : Dev :=
  if d.aonSt.test then d
  else if !d.domainOn 1 then
    if d.aonSt.goal.isSome || d.aonSt.booting != 0 then d.onAon fun a => { a with held := a.held ++ [source] }
    else startWake d source
  else if d.aonSt.booting != 0 || inTransition d || !d.foremanRuns then
    d.onAon fun a => { a with held := a.held ++ [source] }
  else if d.pwr.mode = 1 then wakeFromWatch d source
  else d

/-- The first slow edge at which the AON clock is at or past a time in 1/64 ns. -/
def toAonTime (d : Dev) (t : Nat) : Dev :=
  let now := aonClock d
  if t ≤ now then d
  else if d.domainOn 1 && d.clk.coreOn then
    let n := ceilDiv ((t - now) * 5120000000) (max (8 * (65536000000 + d.clk.freq)).toNat 1)
    d.advanceSlow (slowOf (slowStart d.slow + n) + 1)
  else d.advanceSlow (d.slow + ceilDiv (t - now) 1953125)

/-- WAKE_AT of the active configuration, in nanoseconds. -/
def wakeTime (d : Dev) : Nat := aonFld d AON.WAKE_AT_LO + 2 ^ 32 * aonFld d AON.WAKE_AT_HI

/-- ALARM_WAKE (R431): WAKE_AT moves on by WAKE_EVERY, or the alarm disarms. DEDUCED: log entry 24. -/
def alarmWake (d : Dev) : Dev :=
  if !d.aonSt.vaon || !d.aonSt.alarm || aonFld d AON.WAKE.EN_ALARM = 0 then d
  else
    let d := toAonTime d (wakeTime d * 64)
    let next := (wakeTime d + aonFld d AON.WAKE_EVERY * 10 ^ 9) % 2 ^ 64
    let d := if aonFld d AON.WAKE_EVERY = 0 then d.onAon fun a => { a with alarm := false }
      else (d.setAonBoth AON.WAKE_AT_LO (next % 2 ^ 32)).setAonBoth AON.WAKE_AT_HI (next / 2 ^ 32)
    wake 1 d

/-- WAKE_IN (R431): an edge of the polarity of WAKE_IN_POL, held for two slow edges. -/
def wakeIn (rising : Bool) (d : Dev) : Dev :=
  if !d.aonSt.vaon || aonFld d AON.WAKE.EN_WAKE_IN = 0 || rising != (aonFld d AON.WAKE.WAKE_IN_POL == 0) then d
  else wake 2 (d.advanceSlow (d.slow + 2))

/-- A wake source of Watch whose event has come (R432): PFE's OPEN or a result outside the window, HK's LIMIT. An event
in a mode change is judged as R424 says. -/
def watchWake (source en : Nat) (d : Dev) : Dev :=
  if !d.aonSt.edges.contains source then d
  else
    let d := d.onAon fun a => { a with edges := a.edges.filter (· != source) }
    if en = 1 ∧ (d.pwr.mode = 1 ∨ inTransition d) then wake source d else d

/-- PFE_WAKE (R432). DEDUCED: log entry 104. -/
def pfeWake (d : Dev) : Dev := watchWake 3 (aonFld d AON.WAKE.EN_PFE) d

/-- HK_WAKE (R432). -/
def hkWake (d : Dev) : Dev := watchWake 4 (aonFld d AON.WAKE.EN_HK) d

/-- SLOW_FALLBACK (R428). -/
def slowFallback (d : Dev) : Dev := if d.aonSt.vaon then d.setAon AON.WAKE_RESULT.SLOW_FALLBACK 1 else d

-- ---- the return (R435) --------------------------------------------------------------------------------------------

/-- Whether every RAMAN line enabled in the mode has released a profile since the wake. -/
def allProfiled (d : Dev) : Bool :=
  let l := [Line.a, Line.b].filter fun x => d.pageOn (pgRaman x) && enActive d.regs (pgRaman x)
  !l.isEmpty && l.all fun x => d.count (pgRaman x) 4 != d.fm.profs.getD x.idx 0

/-- RETURN (R435). -/
def returnHome (d : Dev) : Dev :=
  match d.fm.wakeAt with
  | none => d
  | some t =>
    let r := aonFld d AON.WAKE.RETURN
    if !d.foremanRuns || r = 0 || r = 3 then d
    else
      let d := if r = 2 && allProfiled d then d
        else d.advanceTo (t + aonFld d AON.RETURN_S * 625000000)
      selfModeSet (d.onFm fun f => { f with wakeAt := none }) 0 4 (modePlan d.pwr.mode 0)

-- ---- the wake script (R434) ------------------------------------------------------------------------------------------

/-- The open procedure that plays the script. -/
def scriptProc (d : Dev) : Option (Nat × Proc) :=
  match d.fm.procs.findIdx? fun p => p.plan.head? == some .script && p.begun with
  | some i => d.fm.procs[i]?.map fun p => (i, p)
  | none => none

/-- The mode a failed script settles in (R434): Standby, or Watch where the wake asked for no more. -/
def settleMode (d : Dev) (target i : Nat) (p : Proc) (why : Nat) : Dev :=
  let m := min target 2
  let d := domainsDown d (surplus d m)
  endProc (commitMode d p.link m 1) i p false why

/-- The script stops at a failed entry (R434): 1 BUS_ERROR, 2 TIMEOUT, 3 BAD_OP; the procedure's reason is
TIMEOUT for a timed-out wait and a free value for the others.
DESIGN CHOICE: log entry 94. DEDUCED: log entry 104. -/
def scriptFails (d : Dev) (code : Nat) : Dev :=
  match scriptProc d with
  | none => d
  | some (i, p) =>
    let d := (d.setAon AON.SCRIPT_RESULT.RESULT code).event pgAon 6
    let d := d.onFm fun f => { f with entry := none }
    if code = 2 then settleMode d p.arg i p (whyTimeout (p.step + 1))
    else settleMode d.tookFree p.arg i p (d.free.toNat % 2 ^ 8)

/-- The mailbox takes a command (R381): BUSY until it is answered; a GO while BUSY counts MBX_BUSY. -/
def mailboxGo (k : Link) (v : Word) (d : Dev) : Dev :=
  if !bitOf v.toNat 31 then d
  else if liv d.regs pgForeman FOREMAN.MBX_STATUS.BUSY = 1 then d.event pgForeman 7
  else
    let d := d.onFm fun f => { f with mbx := linkCode k }
    let d := (d.setLiv pgForeman FOREMAN.MBX_STATUS.BUSY 1).setLiv pgForeman FOREMAN.MBX_STATUS.DONE 0
    judgeMailbox (d.setLiv pgForeman FOREMAN.MBX_STATUS.BYTES (bitsOf v.toNat 10 0))

/-- The two command registers that act outside their page: PWR.RESET and FOREMAN.MBX_CMD. -/
def sysWrite (k : Link) (p : Nat) (v : Word) (d : Dev) : Dev :=
  if p = pgPwr then pwrReset (bitsOf v.toNat 31 16) (bitOf v.toNat 0) d
  else if p = pgForeman then mailboxGo k v d
  else d

/-- Entry i of the script. -/
def scriptEntry (d : Dev) (i : Nat) : Nat := (Sparse.get (fun _ => (0 : BitVec 64)) d.aonSt.script i).toNat

/-- The script's step: the entry in progress when it is of the operation, a bad operation failing the script;
`f` gives the device with the entry's failure code, 0 for none. -/
def scriptStep (op : Nat) (f : Nat → Nat → Dev → Dev × Nat) (d : Dev) : Dev :=
  match d.fm.entry, scriptProc d with
  | some (t, c), some _ =>
    let i := liv d.aon pgAon AON.SCRIPT_RESULT.PLAYED
    let e := scriptEntry d i
    if !d.foremanRuns || aonFld d AON.SCRIPT_LEN ≤ i then d
    else if 3 ≤ e / 2 ^ 56 then scriptFails d 3
    else if e / 2 ^ 56 ≠ op then d
    else
      let r := f t c d
      if r.2 = 0 then startEntry r.1 (i + 1) else scriptFails r.1 r.2
  | _, _ => d

/-- WRITE (R434). -/
def scriptWrite (d : Dev) : Dev :=
  scriptStep 0 (fun _ _ d =>
    let e := scriptEntry d (liv d.aon pgAon AON.SCRIPT_RESULT.PLAYED)
    let r := busWrite sysWrite .foreman (e / 2 ^ 32 % 2 ^ 24) 4 (Word.ofNat e) d
    (r.1, if r.2.isSome then 1 else 0)) d

/-- WAIT_EVENT (R434): COUNT has changed since the entry started, or the wait runs out after 1 s. -/
def scriptWaitEvent (d : Dev) : Dev :=
  scriptStep 1 (fun t c d =>
    let e := scriptEntry d (liv d.aon pgAon AON.SCRIPT_RESULT.PLAYED)
    let r := busRead .foreman (e / 2 ^ 32 % 2 ^ 24) 4 d
    if r.2.1.isSome then (r.1, 1)
    else if r.2.2.toNat ≠ c then (r.1, 0)
    else (r.1.advanceTo (t + 625000000), 2)) d

/-- DELAY (R434): microseconds. -/
def scriptDelay (d : Dev) : Dev :=
  scriptStep 2 (fun t _ d =>
    let e := scriptEntry d (liv d.aon pgAon AON.SCRIPT_RESULT.PLAYED)
    (d.advanceTo (t + 625 * (e % 2 ^ 32)), 0)) d

-- ---- thermal shutdown and interlock hold (R426, R427) -----------------------------------------------------------------

/-- Open procedures end FAILED with MODE, those on the patch banks apart. DEDUCED: log entry 105. -/
def failProcs (d : Dev) : Nat → Dev
  | 0 => d
  | n + 1 =>
    match d.fm.procs[n]? with
    | none => failProcs d n
    | some p => failProcs (if (holds p.code p.arg).contains 2 then d else endProc d n p false whyMode) n

/-- THERMAL_TRIP (R426): the cause THERMAL in both Canaries, the gates off 12 cycles later, the domains above
Watch and their rails off, MODE with cause THERMAL, the CRITICAL entry. DEDUCED: log entry 105. -/
def thermalTrip (d : Dev) : Dev :=
  if !d.aonSt.vaon || d.pwr.hot then d
  else
    let d := ({ d with pwr := { d.pwr with hot := true, noWake := true } }).event pgAon 7
    if !d.domainOn 1 then d
    else
      let d := gatesOff (raiseCause d [.a, .b] 14)
      let d := (d.setStatus pgPwr 9 true).event pgPwr 5
      let d := hostReduced (domainsDown d (surplus d 1)) true
      let d := railsDown { d with pll := {} } 4
      let d := failProcs d d.fm.procs.length
      let d := d.onFm fun f => { f with wakeAt := none }
      let d := commitMode d linkHardware 1 2
      resetCause (d.trouble pgPwr 5 sevCritical (14 + 2 ^ 8 * 3)) 6

/-- THERMAL_CLEAR (R426): the junction has fallen below 100 °C. -/
def thermalClear (d : Dev) : Dev :=
  let d := { d with pwr := { d.pwr with hot := false } }
  if d.domainOn 1 then d.setStatus pgPwr 9 false else d

/-- A page applied by PWR in hardware at once, with CTRL.EN = 0 (R427). -/
def hardOff (d : Dev) (g : Nat) : Dev :=
  if d.pageOn g then applyOne g 0 (armPage linkHardware 0 (setEnShadow d g false) g) else d

/-- A line quieted in hardware: steps 1 to 4 of LINE_OUT (R422, R427). -/
def hardQuiet (x : Line) (d : Dev) : Dev :=
  let d := stopForReplay (hardOff d (pgShot x)) x
  let d := quiet2 x (if (d.line x).shot.nextEdge.isNone then stopSlots d x d.clk.tick else d)
  let d := hardOff (hardOff d (pgCanary x)) (pgRaman x)
  let d := if d.pageOn (pgEmit x) then
      let d := (List.range 4).foldl (fun d e => d.setLiv (pgEmit x) (EMIT.SETPT.ON e) 0) d
      applyOne (pgEmit x) 0 (armPage linkHardware 0 d (pgEmit x))
    else d
  closeReel x (endReel ((sensePages x).foldl hardOff d) x 6)

/-- INTERLOCK_HOLD (R427): INTERLOCK_n low for ILK_HOLD seconds in a level-3 mode. -/
def interlockHold (d : Dev) : Dev :=
  let n := aonFld d AON.ILK_HOLD
  if n = 0 || d.pins.interlock || modeLevel d.pwr.mode != 3 || inTransition d || d.aonSt.booting != 0 then d
  else
    let d := d.advanceSlow (d.pins.interlockFrom + n * 32768)
    let d := d.event pgPwr 7
    let d := (pagesOf (surplus d 2 ++ [10])).foldl saveNum d
    let d := (linesIn d).foldl (fun d x => hardQuiet x d) d
    let d := domainsDown d (surplus d 2)
    commitMode (d.onFm fun f => { f with wakeAt := none }) linkHardware 2 3

/-- BOOT (R437). -/
def execBoot (s : State) : Host.Outcome State Fault Refusal := done s (boot s.dev)

/-- THERMAL_TRIP (R426). -/
def execThermalTrip (s : State) : Host.Outcome State Fault Refusal := done s (thermalTrip s.dev)

/-- THERMAL_CLEAR (R426). -/
def execThermalClear (s : State) : Host.Outcome State Fault Refusal := done s (thermalClear s.dev)

/-- INTERLOCK_HOLD (R427). -/
def execInterlockHold (s : State) : Host.Outcome State Fault Refusal := done s (interlockHold s.dev)

/-- SLOW_FALLBACK (R428). -/
def execSlowFallback (s : State) : Host.Outcome State Fault Refusal := done s (slowFallback s.dev)

/-- ALARM_WAKE (R431). -/
def execAlarmWake (s : State) : Host.Outcome State Fault Refusal := done s (alarmWake s.dev)

/-- WAKE_IN (R431). -/
def execWakeIn (rising : Bool) (s : State) : Host.Outcome State Fault Refusal := done s (wakeIn rising s.dev)

/-- PFE_WAKE (R432). -/
def execPfeWake (s : State) : Host.Outcome State Fault Refusal := done s (pfeWake s.dev)

/-- HK_WAKE (R432). -/
def execHkWake (s : State) : Host.Outcome State Fault Refusal := done s (hkWake s.dev)

/-- WRITE (R434). -/
def execScriptWrite (s : State) : Host.Outcome State Fault Refusal := done s (scriptWrite s.dev)

/-- WAIT_EVENT (R434). -/
def execScriptWaitEvent (s : State) : Host.Outcome State Fault Refusal := done s (scriptWaitEvent s.dev)

/-- DELAY (R434). -/
def execScriptDelay (s : State) : Host.Outcome State Fault Refusal := done s (scriptDelay s.dev)

/-- RETURN (R435). -/
def execReturnHome (s : State) : Host.Outcome State Fault Refusal := done s (returnHome s.dev)

/-- RESET_N (R436). -/
def execResetN (s : State) : Host.Outcome State Fault Refusal := done s (resetN s.dev)

/-- PWR_RESET (R436): PWR.RESET written with GO. -/
def execPwrReset (k : Link) (key : BitVec 16) (s : State) : Host.Outcome State Fault Refusal :=
  done s (s.dev.guarded k pgPwr 0x980 (pwrReset key.toNat true))

/-- VAON_APPLIED (R446). -/
def execVaonApplied (s : State) : Host.Outcome State Fault Refusal := done s (vaonApplied s.dev)

/-- TEST_MODE (R441). -/
def execTestMode (high : Bool) (s : State) : Host.Outcome State Fault Refusal := done s (testMode high s.dev)

/-- VAON_REMOVED (R390). -/
def execVaonRemoved (s : State) : Host.Outcome State Fault Refusal := done s (vaonRemoved s.dev)

end Sys2Proof.Machine
end

