-- ==== Sys2Proof/Machine/Commands.lean ====
section
/-!
DEFINITION. Register writes of the links, and the commands: Sahfort's own (R371), the service commands (R382,
R383), the checks before them (R467), replies and retries (R373), the mailbox (R381).
-/
namespace Sys2Proof.Machine

-- ---- bus errors of a request of many words (R43) ----------------------------------------------------------

/-- The failing words of one request: each counts BUS_ERROR, the last stays in DEV, and the trouble log takes one
entry, the first. -/
def busErrors (d : Dev) (link : Nat) (errs : List (Nat × BusErr)) : Dev :=
  match errs with
  | [] => d
  | (a, e) :: rest =>
    if !d.domainOn 1 then d
    else
      let d := d.busError a e link
      rest.foldl (fun d w =>
        let d := d.setLiv pgDev DEV.BUS_ERR_ADDR w.1
        let d := d.setLiv pgDev DEV.BUS_ERR_INFO.LINK link
        let d := d.setLiv pgDev DEV.BUS_ERR_INFO.CODE w.2.code
        d.event pgDev 4) d

/-- Words read one after the other: their values (0 where failing), the failing ones with their index.
DEDUCED: log entry 79. -/
def readWords : Nat → Nat → Nat → Dev → Dev × List Word × List (Nat × Nat × BusErr)
  | 0, _, _, d => (d, [], [])
  | n + 1, i, a, d =>
    let r := busGet (a + 4 * i) 4 d
    let t := readWords n (i + 1) a r.1
    match r.2.1 with
    | some e => (t.1, 0 :: t.2.1, (i, a + 4 * i, e) :: t.2.2)
    | none => (t.1, r.2.2 :: t.2.1, t.2.2)

/-- Words written one after the other; the failing ones with their index.
DEDUCED: log entry 77. DEDUCED: log entry 79. -/
def writeWords (k : Link) : List Word → Nat → Nat → Dev → Dev × List (Nat × Nat × BusErr)
  | [], _, _, d => (d, [])
  | v :: vs, i, a, d =>
    let r := busPut sysWrite k (a + 4 * i) 4 v d
    let t := writeWords k vs (i + 1) a r.1
    match r.2 with
    | some e => (t.1, (i, a + 4 * i, e) :: t.2)
    | none => t

/-- A read request of `n` words over a link: on PCI Express its answer is the data, or a Completer Abort for the
whole request when a word fails (R43). DEDUCED: log entry 79. -/
def readRequest (k : Link) (a n : Nat) (d : Dev) : Dev :=
  let t := readWords n 0 a d
  let d := busErrors t.1 (linkCode k) (t.2.2.map (·.2))
  if k = .pcie then
    bar2Reply d (match t.2.2 with | [] => 0 | e :: _ => 16 + e.2.2.code)
      (match t.2.2 with | [] => t.2.1.flatMap fun w => leBytes 4 w.toNat | _ :: _ => [])
  else d

/-- A write request over a link: of several words the valid ones are written, and the request has one log entry
(R43). -/
def writeRequest (k : Link) (a w : Nat) (v : Word) (more : List Word) (d : Dev) : Dev :=
  match more with
  | [] => (busWrite sysWrite k a w v d).1
  | _ :: _ =>
    let t := writeWords k (v :: more) 0 a d
    busErrors t.1 (linkCode k) (t.2.map (·.2))

-- ---- answers (R371) --------------------------------------------------------------------------------------------

/-- What a reply carries: STATUS, ARG, data. -/
structure Answer where
  status : Nat := 0
  arg    : Nat := 0
  data   : List Byte := []
deriving DecidableEq, Repr

/-- What a command finds in the world: the check code of the first DRAM line it reads. -/
structure Facts where
  ecc : Ecc := .clean
deriving DecidableEq, Repr

/-- The answer that failing words give: OK without one, else BUS_ERROR with the code and the index of the
first. -/
def wordsAnswer (errs : List (Nat × Nat × BusErr)) (data : List Byte) : Answer :=
  match errs with
  | [] => { data := data }
  | (i, _, e) :: _ => { status := 1, arg := e.code + 2 ^ 16 * i, data := data }

/-- The answer that a status of memory gives. -/
def memAnswer (st : MemStatus) : Answer :=
  match st with
  | .ok => {}
  | .poisoned => {}
  | .uninit => { status := 1, arg := BusErr.uninit.code }
  | .unmapped => { status := 1, arg := BusErr.unmapped.code }
  | .off => { status := 1, arg := BusErr.domainOff.code }

/-- The COMMAND entry of a request (R387, R388): FLAGS bit 0 for one that came over Sahfort. -/
def cmdEntry (v : Via) (r : Req) (page result status : Nat) : Entry :=
  { link := linkCode v.link, code := r.code, page := page, result := result,
    seq := if v.mailbox then 0 else v.seq.toNat, count := r.count, status := status,
    digest := (crc32c r.digested).toNat, sahf := !v.mailbox }

-- ---- register and memory commands (R371) ---------------------------------------------------------------------

/-- REG_READ. -/
def doRegRead (v : Via) (r : Req) (d : Dev) : Dev × Answer :=
  let t := readWords r.count 0 (r.addr % 2 ^ 24) d
  (busErrors t.1 (linkCode v.link) (t.2.2.map (·.2)),
   wordsAnswer t.2.2 (t.2.1.flatMap fun w => leBytes 4 w.toNat))

/-- REG_WRITE: its entry commits before what it causes (R389). DEDUCED: log entry 77. -/
def doRegWrite (v : Via) (r : Req) (d : Dev) : Dev × Answer :=
  let a := r.addr % 2 ^ 24
  let ans := wordsAnswer (writeWords v.link (leWords r.data) 0 a d).2 []
  let page := match placeOf a with
    | some (.page pg _) => pg.num
    | _ => 0
  let d := commandEntry d (cmdEntry v r page (if ans.status = 0 then 0 else 3) ans.status)
  let t := writeWords v.link (leWords r.data) 0 a d
  (busErrors t.1 (linkCode v.link) (t.2.map (·.2)), ans)

/-- MEM_READ: POISONED with the offset of the first bad line, the data as read. DEDUCED: log entry 78. -/
def doMemRead (r : Req) (f : Facts) (d : Dev) : Dev × Answer :=
  let t := d.memRead r.addr r.count f.ecc
  match t.2.1, t.2.2.1 with
  | .poisoned, some l => (t.1, { status := 8, arg := 64 * l - r.addr, data := t.2.2.2 })
  | .poisoned, none => (t.1, { status := 8, data := t.2.2.2 })
  | s, _ => (t.1, { memAnswer s with data := t.2.2.2 })

/-- MEM_WRITE: its entry commits before what it causes (R389). DEDUCED: log entry 78. -/
def doMemWrite (v : Via) (r : Req) (f : Facts) (d : Dev) : Dev × Answer :=
  let ans := memAnswer (d.memWrite r.addr r.data f.ecc).2
  let d := commandEntry d (cmdEntry v r 0 (if ans.status = 0 then 0 else 3) ans.status)
  ((d.memWrite r.addr r.data f.ecc).1, ans)

-- ---- service commands (R382) --------------------------------------------------------------------------------------

/-- Where the next read of a log starts, and how many of its entries follow (R382): positions modulo 2^32. -/
def logWindow (oldest next p : Nat) : Nat × Nat :=
  let kept := (next + 2 ^ 32 - oldest) % 2 ^ 32
  let at' := (p + 2 ^ 32 - oldest) % 2 ^ 32
  if at' < kept then (p, at')
  else if (p + 2 ^ 32 - next) % 2 ^ 32 < 2 ^ 31 then (p, kept)
  else (oldest, 0)

/-- JOURNAL_READ: up to COUNT entries of the store, from the position asked for. -/
def readJournal (d : Dev) (p n : Nat) : Answer :=
  let w := logWindow d.jr.oldest d.jr.nextSeq p
  { arg := w.1, data := ((d.jr.entries.reverse.drop w.2).take n).flatMap JEntry.bytes }

/-- TROUBLE_READ. -/
def readTrouble (d : Dev) (p n : Nat) : Answer :=
  let total := liv d.regs pgTrouble TROUBLE.TOTAL
  let w := logWindow ((total + 2 ^ 32 - d.tr.entries.length) % 2 ^ 32) total p
  { arg := w.1, data := ((d.tr.entries.reverse.drop w.2).take n).flatMap TEntry.bytes }

/-- The nine live registers that STATUS returns. -/
def statusData (d : Dev) : List Byte :=
  match pageOf pgForeman with
  | some pg => (List.range 9).flatMap fun i => leBytes 4 (pageWord d pg (0x900 + 4 * i)).toNat
  | none => []

/-- Whether a calibration of a page can be asked for: NO_CAL, or MODE while the page is off.
DEDUCED: log entry 83. -/
def calBar (d : Dev) (p : Nat) : Option Nat :=
  if !calibrates p then some whyNoCal else if !d.pageOn p then some whyMode else none

/-- Why a service command fails before it starts, beside a conflict. -/
def commandBar (d : Dev) (r : Req) : Option Nat :=
  let a := r.arg
  match r.code with
  | 0x0101 => modeBar d a
  | 0x0102 => if d.pwr.outs.getD a false then some whyState else if !saveReady d then some whyRegion else none
  | 0x0103 => if !d.pwr.outs.getD a false then some whyState else if !saveReady d then some whyRegion else none
  | 0x0110 => calBar d (a % 4096)
  | 0x0111 => calBar d a
  | 0x0130 => if d.domainOn 4 && d.usable (a, 128) then none else some whyRegion
  | 0x0131 => if (swapBank d).isNone then some whyState else none
  | 0x0133 => if activeBank d = 0 then some whyState else none
  | 0x0140 =>
    if !reelMode d.pwr.mode then some whyMode
    else if !(recEn d.regs .a || recEn d.regs .b) then some whyState
    else if (reelRange d.regs).2 == 0 || !d.usable (reelRange d.regs) then some whyRegion
    else none
  | 0x0142 =>
    if d.pwr.hot then some whyState
    else if !d.domainOn 4 || (reelRange d.regs).2 == 0 || !d.usable (reelRange d.regs) || !saveReady d then some whyRegion
    else if !reelPresent d then some whyState
    else none
  | 0x0150 =>
    if d.pins.interlock then some whyInterlock
    else if !d.domainOn 10 then some whyMode else none
  | 0x0151 =>
    if !d.domainOn 10 then some whyMode
    else if d.fm.emitOld.any fun o => o.1 == 4 * (a % 2) + a / 16 then none else some whyState
  | 0x0160 => if d.domainOn 4 then none else some whyMode
  | _ => none

/-- Why a service command fails before it starts. DEDUCED: log entry 83. -/
def serviceBar (d : Dev) (r : Req) : Option Nat :=
  if conflict d r.code r.arg then some whyConflict else commandBar d r

/-- The steps of a procedure; none for an instant command. -/
def servicePlan (d : Dev) (r : Req) : Option (List PStep) :=
  match r.code with
  | 0x0101 => some (modePlan d.pwr.mode r.arg)
  | 0x0102 => some ([1, 2, 3, 4, 5, 6].map .lineOut)
  | 0x0103 => some ((if d.pwr.mode = 3 ∨ d.pwr.mode = 4 ∨ d.pwr.mode = 5 then [1, 2, 3, 4, 5] else [1, 2, 3]).map .lineIn)
  | 0x0110 => some [.cal]
  | 0x0130 => some [.patchLoad]
  | 0x0131 => some [.patchSwap]
  | 0x0132 => some [.patchSwap]
  | 0x0133 => some [.patchCommit]
  | 0x0140 => some [.reelRecord]
  | 0x0142 => some ([1, 2, 3, 4, 5, 6, 7].map .reelPlay)
  | 0x0150 => some [.emitBegin]
  | 0x0151 => some [.emitEnd]
  | 0x0160 => some [.migrate]
  | _ => none

/-- What an instant command answers. -/
def instantAnswer (d : Dev) (r : Req) : Answer :=
  match r.code with
  | 0x0100 => { data := statusData d }
  | 0x0120 => readJournal d r.arg r.count
  | 0x0121 => readTrouble d r.arg r.count
  | _ => {}

/-- What an instant command does, once its entry has committed. -/
def instantEffect (v : Via) (r : Req) (d : Dev) : Dev :=
  match r.code with
  | 0x0111 => onPage r.arg calFactoryOn d
  | 0x0122 => d.journal { link := linkCode v.link, kind := kindMark, arg := r.addr }
  | 0x0141 => endReels d 1
  | _ => d

/-- What is done before a procedure opens: a MODE_SET of the host ends the hold on wakes after a thermal shutdown;
RANK_MIGRATE writes MIGRATE. -/
def beforeProc (r : Req) (d : Dev) : Dev :=
  match r.code with
  | 0x0101 => { d with pwr := { d.pwr with noWake := false } }
  | 0x0160 => migrate r.arg d
  | _ => d

/-- The reason that MEMX refused a migration, if it did (R414). -/
def memxRefused (r : Req) (d : Dev) : Option Nat :=
  if r.code = 0x0160 ∧ liv d.regs pgMemx MEMX.CMD_RESULT ≠ 0 then some (whyMemx (liv d.regs pgMemx MEMX.CMD_RESULT))
  else none

/-- A service command that fails: its entry, and FAILED with the reason (R383). -/
def serviceFails (v : Via) (r : Req) (why : Nat) (d : Dev) : Dev × Answer :=
  (commandEntry d (cmdEntry v r 0 3 5), { status := 5, arg := why })

/-- A service command executed. -/
def doService (v : Via) (r : Req) (d : Dev) : Dev × Answer :=
  match serviceBar d r with
  | some why => serviceFails v r why d
  | none =>
    match servicePlan d r with
    | none =>
      let ans := instantAnswer d r
      (instantEffect v r (commandEntry d (cmdEntry v r 0 0 0)), ans)
    | some plan =>
      let d := beforeProc r d
      match memxRefused r d with
      | some why => serviceFails v r why d
      | none =>
        let seq := d.jr.nextSeq
        let arg2 := if r.code = 0x0131 then (swapBank d).getD 0 else 0
        (openProc (commandEntry d (cmdEntry v r 0 2 0))
          { code := r.code, seq := seq, link := linkCode v.link, arg := r.arg, arg2 := arg2, plan := plan }, {})

/-- A command executed: its answer. -/
def execute (v : Via) (r : Req) (f : Facts) (d : Dev) : Dev × Answer :=
  match r.code with
  | 0x0001 => doRegRead v r d
  | 0x0002 => doRegWrite v r d
  | 0x0003 => doMemRead r f d
  | 0x0004 => doMemWrite v r f d
  | 0x0005 => (d, { data := r.data })
  | _ => doService v r d

/-- Whether a command is journalled, its reply kept. -/
def Req.journalled (r : Req) : Bool := !(r.code == 1 || r.code == 3 || r.code == 5)

/-- FOREMAN_RESTART begins once it is answered (R384). DEDUCED: log entry 82. -/
def afterReply (r : Req) (d : Dev) : Dev := if r.code = 0x01F0 then foremanRestart d else d

-- ---- Sahfort (R467) -----------------------------------------------------------------------------------------------------

/-- Whether SAHF accepts commands on a link (ACCEPT). -/
def accepts (d : Dev) : Link → Bool
  | .ring => act d.regs pgSahf SAHF.ACCEPT.RING == 1
  | .eth0 => act d.regs pgSahf SAHF.ACCEPT.ETH0 == 1
  | .eth1 => act d.regs pgSahf SAHF.ACCEPT.ETH1 == 1
  | .pcie | .spi | .legacy | .foreman | .dma | .strobe | .upd => false

/-- Whether a command can arrive on a Sahfort path now. -/
def arrives (d : Dev) (v : Via) : Bool :=
  sahfOn d &&
  match v.link with
  | .ring => pcieUp d && (d.ring 0).live
  | .eth0 => ethUp d 0 && familyOn d 0 v.ipv6
  | .eth1 => ethUp d 1 && familyOn d 1 v.ipv6
  | .pcie | .spi | .legacy | .foreman | .dma | .strobe | .upd => false

/-- The largest reply payload that a link takes (R367). -/
def replyLimit (d : Dev) (v : Via) : Nat :=
  let size (p : Nat) : Nat := ethFld d p ETH.PORT.MTU - (if v.ipv6 then 80 else 60)
  match v.link with
  | .eth0 => size 0
  | .eth1 => size 1
  | .ring | .pcie | .spi | .legacy | .foreman | .dma | .strobe | .upd => 2 ^ 24

/-- A command that passed every check: executed, answered, its reply kept. A write that resets the host pages
leaves no one to answer. DEDUCED: log entry 82. -/
def serveSahfort (v : Via) (r : Req) (f : Facts) (d : Dev) : Dev :=
  let jseq := if r.journalled then d.jr.nextSeq else 0
  let t := execute v r f d
  if !sahfOn t.1 then t.1
  else
  let payload := replyBytes r.code t.2.status t.2.arg jseq t.2.data
  let d := if r.journalled then keepReply t.1 v r.code payload else t.1
  afterReply r ((sendReply d v false payload).event pgSahf 4)

/-- The checks of R467 from the third on; `version` and `whole` (one fragment, LENGTH as received) are the
header's. -/
def sahfort (v : Via) (version : Nat) (whole : Bool) (r : Req) (f : Facts) (d : Dev) : Dev :=
  let refuse (s : Nat) (d : Dev) : Dev := sendReply d v false (replyBytes r.code s 0 0 [])
  if !accepts d v.link then refuse 7 d
  else if version ≠ 1 then refuse 6 d
  else
    match retryMatch d v r.code with
    | some e => (sendReply d v true e.reply).event pgSahf 6
    | none =>
      if !whole then refuse 3 d
      else
        match r.bar r.known (replyLimit d v) with
        | some s => refuse s d
        | none =>
          if r.service && !d.foremanRuns then (refuse 4 d).event pgSahf 10
          else serveSahfort v r f d

-- ---- commands as rows ------------------------------------------------------------------------------------------------------

/-- The mailbox's command executed and answered in its window; its link is the one that wrote GO. -/
def serveMailbox (v : Via) (r : Req) (d : Dev) : Dev :=
  if !d.foremanRuns || !r.service || !mailboxHolds d r || linkCode v.link != d.fm.mbx then d
  else
    let r := mailboxReq d
    let jseq := d.jr.nextSeq
    let t := doService v r d
    afterReply r (answerMailbox t.1 (replyBytes r.code t.2.status t.2.arg jseq t.2.data))

/-- A command that arrives: over Sahfort with a good header, or as what the mailbox holds. The SAHF page applies
at the packet's start. -/
def arrive (v : Via) (r : Req) (f : Facts) (d : Dev) : Dev :=
  if v.mailbox then serveMailbox v r d
  else if !arrives d v then d
  else
    let d := applyNow pgSahf d
    if arrives d v then sahfort v 1 true r f d else d

/-- A service command without operands. -/
def plain (code : Nat) : Req := { code := code }

/-- A service command with what ADDR holds. -/
def withAddr (code addr : Nat) : Req := { code := code, addr := addr }

/-- The number of an emitter. -/
def emitterNo : Emitter → Nat
  | .seed => 0
  | .soa => 1
  | .boost => 2
  | .raman => 3

/-- A command with data. -/
def withData (code count addr : Nat) (data : List Byte) : Req :=
  { code := code, count := count, addr := addr, data := data, size := 12 + data.length }

/-- REGISTER_WRITE (R22): a write of any register over a link. -/
def execRegisterWrite (k : Link) (a : Addr) (w : Nat) (v : WordsOut) (s : State) :
    Host.Outcome State Fault Refusal :=
  done s (writeRequest k a.toNat w v.first v.more s.dev)

/-- LOW_WORD_READ (R21): a read of any register over a link. -/
def execLowWordRead (k : Link) (a : WordsIn) (s : State) : Host.Outcome State Fault Refusal :=
  done s (readRequest k a.addr.toNat (a.more + 1) s.dev)

/-- DMA_BURST (R320). -/
def execDmaBurst (host : HostReply) (ecc : BurstEcc) (s : State) : Host.Outcome State Fault Refusal :=
  done s (dmaBurst sysWrite host ecc.read ecc.write s.dev)

/-- REG_READ (R371). -/
def execRegRead (v : Via) (a : Addr) (count : Nat) (s : State) : Host.Outcome State Fault Refusal :=
  done s (arrive v (withData 0x0001 count a.toNat []) {} s.dev)

/-- REG_WRITE (R371). -/
def execRegWrite (v : Via) (a : Addr) (words : List Word) (s : State) : Host.Outcome State Fault Refusal :=
  done s (arrive v (withData 0x0002 words.length a.toNat (words.flatMap fun w => leBytes 4 w.toNat)) {} s.dev)

/-- MEM_READ (R371). -/
def execMemRead (v : Via) (a count : Nat) (ecc : Ecc) (s : State) : Host.Outcome State Fault Refusal :=
  done s (arrive v (withData 0x0003 count a []) { ecc := ecc } s.dev)

/-- MEM_WRITE (R371). -/
def execMemWrite (v : Via) (a : Nat) (bytes : MemBytes) (s : State) : Host.Outcome State Fault Refusal :=
  done s (arrive v (withData 0x0004 bytes.bytes.length a bytes.bytes) { ecc := bytes.ecc } s.dev)

/-- ECHO (R371). -/
def execEcho (v : Via) (bytes : List Byte) (s : State) : Host.Outcome State Fault Refusal :=
  done s (arrive v (withData 0x0005 bytes.length 0 bytes) {} s.dev)

/-- STATUS (R382). -/
def execStatus (v : Via) (s : State) : Host.Outcome State Fault Refusal := done s (arrive v (plain 0x0100) {} s.dev)

/-- MODE_SET (R422). -/
def execModeSet (v : Via) (mode : BitVec 3) (s : State) : Host.Outcome State Fault Refusal :=
  done s (arrive v (withAddr 0x0101 mode.toNat) {} s.dev)

/-- LINE_OUT (R411). -/
def execLineOut (v : Via) (x : Line) (s : State) : Host.Outcome State Fault Refusal :=
  done s (arrive v (withAddr 0x0102 x.idx) {} s.dev)

/-- LINE_IN (R412). -/
def execLineIn (v : Via) (x : Line) (s : State) : Host.Outcome State Fault Refusal :=
  done s (arrive v (withAddr 0x0103 x.idx) {} s.dev)

/-- CAL_RUN (R415). -/
def execCalRun (v : Via) (p : PageNo) (now : Bool) (s : State) : Host.Outcome State Fault Refusal :=
  done s (arrive v (withAddr 0x0110 (p.toNat + 2 ^ 16 * bit now)) {} s.dev)

/-- CAL_FACTORY (R382). -/
def execCalFactory (v : Via) (p : PageNo) (s : State) : Host.Outcome State Fault Refusal :=
  done s (arrive v (withAddr 0x0111 p.toNat) {} s.dev)

/-- JOURNAL_READ (R382). -/
def execJournalRead (v : Via) (first : Word) (count : Nat) (s : State) : Host.Outcome State Fault Refusal :=
  done s (arrive v (withData 0x0120 count first.toNat []) {} s.dev)

/-- TROUBLE_READ (R382). -/
def execTroubleRead (v : Via) (first : Word) (count : Nat) (s : State) : Host.Outcome State Fault Refusal :=
  done s (arrive v (withData 0x0121 count first.toNat []) {} s.dev)

/-- JOURNAL_MARK (R387). -/
def execJournalMark (v : Via) (value : BitVec 64) (s : State) : Host.Outcome State Fault Refusal :=
  done s (arrive v (withAddr 0x0122 value.toNat) {} s.dev)

/-- PATCH_LOAD (R408). -/
def execPatchLoad (v : Via) (a count : Nat) (data : List Byte) (s : State) : Host.Outcome State Fault Refusal :=
  done s (arrive v (withData 0x0130 count a data) {} s.dev)

/-- PATCH_SWAP (R409). -/
def execPatchSwap (v : Via) (s : State) : Host.Outcome State Fault Refusal := done s (arrive v (plain 0x0131) {} s.dev)

/-- PATCH_REVERT (R409). -/
def execPatchRevert (v : Via) (s : State) : Host.Outcome State Fault Refusal :=
  done s (arrive v (plain 0x0132) {} s.dev)

/-- PATCH_COMMIT (R410). -/
def execPatchCommit (v : Via) (s : State) : Host.Outcome State Fault Refusal :=
  done s (arrive v (plain 0x0133) {} s.dev)

/-- REEL_RECORD (R399). -/
def execReelRecord (v : Via) (s : State) : Host.Outcome State Fault Refusal :=
  done s (arrive v (plain 0x0140) {} s.dev)

/-- REEL_STOP (R403). -/
def execReelStop (v : Via) (s : State) : Host.Outcome State Fault Refusal := done s (arrive v (plain 0x0141) {} s.dev)

/-- REEL_PLAY (R405). -/
def execReelPlay (v : Via) (s : State) : Host.Outcome State Fault Refusal := done s (arrive v (plain 0x0142) {} s.dev)

/-- EMIT_SWAP_BEGIN (R413). -/
def execEmitSwapBegin (v : Via) (x : Line) (e : Emitter) (s : State) : Host.Outcome State Fault Refusal :=
  done s (arrive v (withAddr 0x0150 (x.idx + 16 * emitterNo e)) {} s.dev)

/-- EMIT_SWAP_END (R413). -/
def execEmitSwapEnd (v : Via) (x : Line) (e : Emitter) (s : State) : Host.Outcome State Fault Refusal :=
  done s (arrive v (withAddr 0x0151 (x.idx + 16 * emitterNo e)) {} s.dev)

/-- RANK_MIGRATE (R414). -/
def execRankMigrate (v : Via) (p : Fin 8) (s : State) : Host.Outcome State Fault Refusal :=
  done s (arrive v (withAddr 0x0160 p.val) {} s.dev)

/-- FOREMAN_RESTART (R384). -/
def execForemanRestart (v : Via) (s : State) : Host.Outcome State Fault Refusal :=
  done s (arrive v (plain 0x01F0) {} s.dev)

end Sys2Proof.Machine
end

