-- ==== Sys2Proof/Machine/Jtag.lean ====
section
/-!
DEFINITION. Boundary scan (R458, R459): the instructions of the TAP. An instruction needs TRST_n high and the CTRL
domain on.
-/
namespace Sys2Proof.Machine

/-- The TAP changed, while CTRL powers it (R442). -/
def onTap (f : TapSt → TapSt) (d : Dev) : Dev := if d.domainOn 1 then { d with tap := f d.tap } else d

/-- An instruction in force, TRST_n high. DEDUCED: log entry 88. -/
def tapRun (ir : Nat) (d : Dev) : Dev := onTap (fun t => { t with reset := false, ir := ir }) d

/-- TAP_RESET (R459): TRST_n low; the IDCODE instruction is in force after it. -/
def tapReset (d : Dev) : Dev := onTap (fun t => { t with reset := true, ir := 1 }) d

/-- The IDCODE word: silicon version 1, part 0x7020, the manufacturer code, 1. DEDUCED: log entry 88. -/
def idcodeWord : Word := 0x17020001#32 ||| Word.ofNat (Config.fuseJtag.toNat * 2)

/-- IDCODE (R458). -/
def idcode (d : Dev) : Dev := onTap (fun t => { t with reset := false, ir := 1, idcode := idcodeWord }) d

/-- SAMPLE/PRELOAD (R458): the levels at the output balls are captured, the cells loaded. -/
def samplePreload (cells : List Bool) (d : Dev) : Dev :=
  let levels := (List.range 13).map fun i => (d.ball i).getD false
  onTap (fun t => { t with reset := false, ir := 2, cells := cells, sampled := levels }) d

/-- TAP_RESET (R459). -/
def execTapReset (s : State) : Host.Outcome State Fault Refusal := done s (tapReset s.dev)

/-- BYPASS (R458). -/
def execBypass (s : State) : Host.Outcome State Fault Refusal := done s (tapRun 0 s.dev)

/-- IDCODE (R458). -/
def execIdcode (s : State) : Host.Outcome State Fault Refusal := done s (idcode s.dev)

/-- SAMPLE/PRELOAD (R458). -/
def execSamplePreload (cells : List Bool) (s : State) : Host.Outcome State Fault Refusal :=
  done s (samplePreload cells s.dev)

/-- EXTEST (R459). -/
def execExtest (s : State) : Host.Outcome State Fault Refusal := done s (tapRun 3 s.dev)

/-- EXTEST_PULSE (R458). -/
def execExtestPulse (s : State) : Host.Outcome State Fault Refusal := done s (tapRun 4 s.dev)

/-- EXTEST_TRAIN (R458). -/
def execExtestTrain (s : State) : Host.Outcome State Fault Refusal := done s (tapRun 5 s.dev)

/-- HIGHZ (R458). -/
def execHighz (s : State) : Host.Outcome State Fault Refusal := done s (tapRun 6 s.dev)

/-- CLAMP (R458). -/
def execClamp (s : State) : Host.Outcome State Fault Refusal := done s (tapRun 7 s.dev)

end Sys2Proof.Machine
end

