-- ==== Sys2Proof/Machine/Links.lean ====
section
/-!
DEFINITION. What arrives over the links: Sahfort packets (R363, R467), command ring 0 (R346), Ethernet frames
(R348 to R352), the SPI slave (R374, R375), the NHR4010 port (R376, R377).
-/
namespace Sys2Proof.Machine

-- ---- packets ------------------------------------------------------------------------------------------------

/-- Whether MAGIC and CRC of a packet are good. -/
def packetGood (b : List Byte) : Bool :=
  32 ≤ b.length && numAt b 0 2 == 0x5348 &&
    numAt b 24 4 == (crc32c (b.take 24 ++ leBytes 4 0 ++ b.drop 28)).toNat

/-- A packet on a command path (R467). -/
def packetIn (v : Via) (b : List Byte) (d : Dev) : Dev :=
  let d := applyNow pgSahf d
  if !arrives d v then d
  else if !packetGood b then d.event pgSahf 5
  else if numAt b 3 1 ≠ 1 then d.event pgSahf 11
  else
    let r := Req.ofBytes (b.drop 32)
    let v := { v with seq := Word.ofNat (numAt b 8 4), crc := Word.ofNat (numAt b 24 4) }
    let whole := numAt b 30 2 ≤ 1 && numAt b 28 2 == 0 && numAt b 20 4 == b.length - 32
    sahfort v (numAt b 2 1) whole r {} d

-- ---- ring 0 (R346) ------------------------------------------------------------------------------------------------

/-- A command over the PCI Express ring. -/
def ringVia : Via := ⟨.ring, false, 0, 0, false, 0, 0⟩

/-- The entries of ring 0 from HEAD on, each with one packet; an entry not owned ends them.
DEDUCED: log entry 85. -/
def ring0Run : Nat → Dev → Dev
  | 0, d => d
  | n + 1, d =>
    match (d.ring 0).entries with
    | [] => d
    | e :: _ =>
      if !arrives d ringVia || !e.own then d
      else
        let size := 32 + numAt e.bytes 20 4
        let long : Bool := e.length < size
        let b := e.bytes.take size
        let bad : Bool := !packetGood b
        let st := d.ring 0
        let d := d.setRing 0 { st with total := (st.total + 1) % 2 ^ 32 }
        let d := ringStatus (closeEntry d 0 (long || bad) false (min size e.length)) 0
        ring0Run n (if long then d else packetIn ringVia b d)

/-- RING_TAIL (R346): the entries up to the new tail join the ring; ring 0 is read at once.
DEDUCED: log entry 85. -/
def ringTail (r tail : Nat) (entries : List HostEntry) (d : Dev) : Dev :=
  let old := liv d.regs pgSahf (SAHF.RING_TAIL r)
  let n := (tail + 2 ^ 16 - old) % ringSize d r
  let given := entries.take n
  let f := if (d.ring r).live then freeEntries (n - given.length) d else (d, [])
  let d := moveTail r tail (given ++ f.2) f.1
  if r = 0 then ring0Run (d.ring 0).entries.length d else d

-- ---- Ethernet (R348 to R351) -----------------------------------------------------------------------------------------

/-- The number in n bytes at an offset, big-endian. -/
def beAt (l : List Byte) (o n : Nat) : Nat := beNat (sliceOf l o n)

/-- A received packet is discarded without reply: RX_DISCARD. DEDUCED: log entry 67. -/
def rxDiscard (p : Nat) (d : Dev) : Dev := d.event (pgEth p) 5

/-- Where a received packet comes from and goes to. -/
structure IpHead where
  v6  : Bool
  src : Nat
  dst : Nat
  mac : Nat
deriving DecidableEq, Repr

/-- An IP packet goes back to the sender's MAC address. -/
def answerIp (d : Dev) (p : Nat) (h : IpHead) (src proto : Nat) (body : List Byte) : Dev :=
  let r := ipFrame d p h.mac h.v6 src h.src 0 proto body
  sendCtl r.1 p r.2

/-- An echo request: answered, at most 1,000 times in a second. -/
def echoReply (p : Nat) (h : IpHead) (rest : List Byte) (d : Dev) : Dev :=
  let e := d.port p
  let fresh : Bool := e.echoes == 0 || e.echoAt + secondTicks ≤ d.clk.tick
  let n := if fresh then 0 else e.echoes
  let t := d.clk.tick
  if 1000 ≤ n then rxDiscard p d
  else
    let d := d.onPort p fun e => { e with echoes := n + 1, echoAt := if fresh then t else e.echoAt }
    let type := if h.v6 then 129 else 0
    answerIp d p h h.dst (if h.v6 then 58 else 1) (icmpPacket h.v6 h.dst h.src type rest)

/-- A neighbour solicitation for an address of the port is answered; an unspecified sender by a multicast. -/
def solicited (p : Nat) (h : IpHead) (target : Nat) (d : Dev) : Dev :=
  if h.src = 0 then
    let all := 0xFF02 * 2 ^ 112 + 1
    advertise d p (mac6 all) all target 1
  else advertise (learn d p true h.src h.mac) p h.mac h.src target 3

/-- ICMP: echo requests; of ICMPv6 also neighbour solicitations and advertisements. -/
def icmpIn (p : Nat) (h : IpHead) (b : List Byte) (d : Dev) : Dev :=
  let type := beAt b 0 1
  let good : Bool := 8 ≤ b.length &&
    inetSum ((if h.v6 then pseudo true h.src h.dst 58 b.length else []) ++ b) == 0xFFFF
  let target := beAt b 8 16
  if !good || beAt b 1 1 ≠ 0 then rxDiscard p d
  else if type = (if h.v6 then 128 else 8) ∧ isOwn d p h.v6 h.dst then echoReply p h (b.drop 4) d
  else if h.v6 && type == 135 && isOwn d p true target then solicited p h target d
  else if h.v6 && type == 136 then
    learn d p true target (if beAt b 24 1 = 2 ∧ 32 ≤ b.length then beAt b 26 6 else h.mac)
  else rxDiscard p d

/-- Whether PTP event and general messages of a transport belong to a port (R358): 0 UDP/IPv4, 1 UDP/IPv6, 2
IEEE 802.3. What they do is a command of its own. -/
def ptpHere (d : Dev) (p transport : Nat) : Bool :=
  ptpOn d && ptpFld d PTP.PORT.PORT == p && ptpFld d PTP.PORT.TRANSPORT == transport

/-- The link of a port. -/
def portLink (p : Nat) : Link := if p = 0 then .eth0 else .eth1

/-- A UDP datagram: a Sahfort command on the port's UDP port. -/
def udpIn (p : Nat) (h : IpHead) (b : List Byte) (d : Dev) : Dev :=
  let n := beAt b 4 2
  let sum := beAt b 6 2
  let dg := b.take n
  let dport := beAt b 2 2
  let good : Bool := 8 ≤ n && n ≤ b.length &&
    (if sum = 0 then !h.v6 else inetSum (pseudo h.v6 h.src h.dst 17 n ++ dg) == 0xFFFF)
  let v : Via := ⟨portLink p, false, h.src, beAt b 0 2, h.v6, 0, 0⟩
  if !good then rxDiscard p d
  else if (dport = 319 ∨ dport = 320) ∧ ptpHere d p (bit h.v6) then d
  else if dport = act d.regs pgSahf SAHF.UDP_PORT ∧ isOwn d p h.v6 h.dst ∧ arrives d v then
    packetIn v (dg.drop 8) d
  else rxDiscard p d

/-- An IPv4 packet: no options, no fragment, its header checksum right. DEDUCED: log entry 67. -/
def ip4In (p mac : Nat) (b : List Byte) (d : Dev) : Dev :=
  let n := beAt b 2 2
  let h : IpHead := ⟨false, beAt b 12 4, beAt b 16 4, mac⟩
  let body := (b.take n).drop 20
  let proto := beAt b 9 1
  if !familyOn d p false ∨ b.length < 20 ∨ beAt b 0 1 ≠ 0x45 ∨ n < 20 ∨ b.length < n ∨
      ethFld d p ETH.PORT.MTU < n ∨ beAt b 6 2 % 2 ^ 14 ≠ 0 ∨ inetSum (b.take 20) ≠ 0xFFFF then rxDiscard p d
  else if proto = 1 then icmpIn p h body d
  else if proto = 17 then udpIn p h body d
  else rxDiscard p d

/-- An IPv6 packet: no extension headers. -/
def ip6In (p mac : Nat) (b : List Byte) (d : Dev) : Dev :=
  let n := beAt b 4 2
  let h : IpHead := ⟨true, beAt b 8 16, beAt b 24 16, mac⟩
  let body := (b.drop 40).take n
  let next := beAt b 6 1
  if !familyOn d p true ∨ b.length < 40 + n ∨ beAt b 0 1 / 16 ≠ 6 ∨ ethFld d p ETH.PORT.MTU < 40 + n then
    rxDiscard p d
  else if next = 58 then icmpIn p h body d
  else if next = 17 then udpIn p h body d
  else rxDiscard p d

/-- ARP: requests for the port's address are answered, answers learnt. -/
def arpIn (p : Nat) (b : List Byte) (d : Dev) : Dev :=
  let op := beAt b 6 2
  let smac := beAt b 8 6
  let sip := beAt b 14 4
  let good : Bool := 28 ≤ b.length && beAt b 0 2 == 1 && beAt b 2 2 == 0x0800 && familyOn d p false
  let ip := ethFld d p ETH.IPV4
  if !good then rxDiscard p d
  else if op = 1 ∧ beAt b 24 4 = ip then
    sendCtl (learn d p false sip smac) p (ethFrame d p smac 0x0806 (arpPacket 2 (portMac d p) ip smac sip))
  else if op = 2 then learn d p false sip smac
  else rxDiscard p d

/-- A frame behind its addresses and its tag, if any. -/
def frameIn (p mac type : Nat) (b : List Byte) (d : Dev) : Dev :=
  if type = 0x0806 then arpIn p b d
  else if type = 0x0800 then ip4In p mac b d
  else if type = 0x86DD then ip6In p mac b d
  else if type = 0x88F7 ∧ ptpHere d p 2 then d
  else rxDiscard p d

/-- Whether a destination MAC address concerns a port: its own, or a group. -/
def macConcerns (d : Dev) (p dst : Nat) : Bool := dst == portMac d p || dst / 2 ^ 40 % 2 == 1

/-- ETH_RX (R348 to R352): one received frame. -/
def ethRx (p : Nat) (b : List Byte) (fcsOk : Bool) (d : Dev) : Dev :=
  let d := if ethUp d p then applyNow (pgEth p) d else d
  let type := beAt b 12 2
  let vid := beAt b 14 2 % 4096
  let mac := beAt b 6 6
  if !ethUp d p then d
  else if !fcsOk then d.event (pgEth p) 7
  else if type = 0x8808 then d.event (pgEth p) 9
  else if !macConcerns d p (beAt b 0 6) then rxDiscard p d
  else if type = 0x8100 then
    if vid ≠ 0 ∧ vid ≠ ethFld d p ETH.VLAN.VID then rxDiscard p d else frameIn p mac (beAt b 16 2) (b.drop 18) d
  else frameIn p mac type (b.drop 14) d

-- ---- the SPI slave (R374, R375) ---------------------------------------------------------------------------------------

/-- The serial ports changed. -/
def Dev.onSerial (d : Dev) (f : SerialSt → SerialSt) : Dev := { d with ser := f d.ser }

/-- The status byte of a word (R44). DEDUCED: log entry 86. -/
def spiStatus : Option BusErr → Byte
  | none => 0
  | some e => BitVec.ofNat 8 (0x80 + e.code)

/-- Words of a READ frame: the bytes returned, a status byte and four data bytes each, 0 where failing. -/
def spiReads : Nat → Nat → Dev → Dev × List Byte
  | 0, _, d => (d, [])
  | n + 1, a, d =>
    let r := busRead .spi a 4 d
    let t := spiReads n (a + 4) r.1
    (t.1, spiStatus r.2.1 :: leBytes 4 (if r.2.1.isSome then 0 else r.2.2.toNat) ++ t.2)

/-- What a frame returns behind its op byte (R374): 0x0B reads words; 0x02 without data writes none; any other op byte
returns 0xFF, one byte for each that a word would take, and counts BAD_OP. -/
def spiOp (op : Byte) (count a : Nat) (d : Dev) : Dev × List Byte :=
  if op = 0x0B then spiReads count a d
  else if op = 0x02 then (d, [])
  else (d.event pgSpis 6, List.replicate (5 * count) 0xFF)

/-- Words of a WRITE frame: the status byte of each. -/
def spiWrites : List Word → Nat → Dev → Dev × List Byte
  | [], _, d => (d, [])
  | v :: vs, a, d =>
    let r := busWrite sysWrite .spi a 4 v d
    let t := spiWrites vs (a + 4) r.1
    (t.1, spiStatus r.2 :: t.2)

/-- A frame of the SPI slave: FRAME, and the bytes that it returned (without the pending bytes, whose number is a
matter of time). DEDUCED: log entry 86. -/
def spiFrame (f : Dev → Dev × List Byte) (d : Dev) : Dev :=
  if !d.pageOn pgSpis then d
  else
    let r := f ((applyNow pgSpis d).event pgSpis 4)
    r.1.onSerial fun s => { s with spi := r.2 }

/-- ABORTED_WORD (R375): a WRITE word cut short is not written. -/
def abortedWord (d : Dev) : Dev := if d.pageOn pgSpis then d.event pgSpis 5 else d

-- ---- the NHR4010 port (R376, R377) -----------------------------------------------------------------------------------------

/-- A translation entry: the register, SHIFT, WIDTH; none where it is unmapped. -/
def translation (d : Dev) (a : Nat) : Option (Nat × Nat × Nat) :=
  if 256 ≤ a then none
  else
    let e := liv d.regs pgLegacy (LEGACY.TRANSLATION a)
    if e = 0 then none else some (bitsOf e 31 10 * 4, bitsOf e 9 5, bitsOf e 4 0 + 1)

/-- A frame of the NHR4010 port: `f` gives the device and the result that the next frame returns. A frame that
starts within 2 µs of the last one's end counts LATE. DEDUCED: log entry 87. -/
def legacyFrame (f : Dev → Dev × Word) (d : Dev) : Dev :=
  if !d.pageOn pgLegacy then d
  else
    let d := applyNow pgLegacy d
    let t := d.clk.tick
    let late : Bool := match d.ser.legEnd with
      | some e => decide (t < e + 1250)
      | none => false
    if !enActive d.regs pgLegacy then d
    else if late then (d.event pgLegacy 6).onSerial fun s => { s with legEnd := some t }
    else
      let r := f (d.event pgLegacy 4)
      r.1.onSerial fun s => { s with legOut := s.legacy, legacy := r.2, legEnd := some t }

/-- The result word of a frame. -/
def legacyWord (read : Bool) (a data : Nat) : Word := Word.ofNat (2 ^ 31 * bit read + 2 ^ 16 * a + data % 2 ^ 16)

/-- A read frame (R377): the field, right-aligned. What an unmapped or failing read shows as data is open.
DEDUCED: log entry 87. -/
def legacyRead (a : Nat) (d : Dev) : Dev × Word :=
  match translation d a with
  | none => ((d.event pgLegacy 5).tookFree, legacyWord false a (d.free.toNat))
  | some (reg, shift, width) =>
    let r := busRead .legacy reg 4 d
    if r.2.1.isSome then (r.1.tookFree, legacyWord true a r.1.free.toNat)
    else (r.1, legacyWord true a (r.2.2.toNat / 2 ^ shift % 2 ^ width))

/-- A write frame (R377): the register is read, its field replaced, the result written back. -/
def legacyWrite (a v : Nat) (d : Dev) : Dev × Word :=
  match translation d a with
  | none => (d.event pgLegacy 5, legacyWord false a v)
  | some (reg, shift, width) =>
    let r := busRead .legacy reg 4 d
    if r.2.1.isSome then (r.1, legacyWord false a v)
    else
      let w := r.2.2.toNat
      let field := w / 2 ^ shift % 2 ^ width
      let new := w - field * 2 ^ shift + v % 2 ^ width * 2 ^ shift
      ((busWrite sysWrite .legacy reg 4 (Word.ofNat new) r.1).1, legacyWord false a v)

/-- RING_TAIL (R346). -/
def execRingTail (k : Link) (r : Fin 16) (tail : BitVec 16) (entries : List HostEntry) (s : State) :
    Host.Outcome State Fault Refusal :=
  done s (s.dev.guarded k pgSahf (0x980 + 4 * r.val) (ringTail r.val tail.toNat entries))

/-- ETH_RX (R349). -/
def execEthRx (p : Fin 2) (frame : List Byte) (fcsOk : Bool) (s : State) : Host.Outcome State Fault Refusal :=
  done s (ethRx p.val frame fcsOk s.dev)

/-- SPI_READ (R374). -/
def execSpiRead (a : SpiHead) (count : Nat) (s : State) : Host.Outcome State Fault Refusal :=
  done s (spiFrame (spiOp a.op count a.addr.toNat) s.dev)

/-- SPI_WRITE (R374). -/
def execSpiWrite (a : Addr) (words : List Word) (s : State) : Host.Outcome State Fault Refusal :=
  done s (spiFrame (spiWrites words a.toNat) s.dev)

/-- ABORTED_WORD (R375). -/
def execAbortedWord (s : State) : Host.Outcome State Fault Refusal := done s (abortedWord s.dev)

/-- LEGACY_READ (R377). -/
def execLegacyRead (a : BitVec 15) (s : State) : Host.Outcome State Fault Refusal :=
  done s (legacyFrame (legacyRead a.toNat) s.dev)

/-- LEGACY_WRITE (R377). -/
def execLegacyWrite (a : BitVec 15) (v : BitVec 16) (s : State) : Host.Outcome State Fault Refusal :=
  done s (legacyFrame (legacyWrite a.toNat v.toNat) s.dev)

end Sys2Proof.Machine
end

