-- ==== Sys2Proof/Machine/Dispatch.lean ====
section
/-!
DEFINITION. The one place where a command meets its meaning: one arm for every constructor of Instr.
-/
namespace Sys2Proof.Machine

/-- The effect of a command on everything but the queue.
DESIGN CHOICE: log entry 2. DESIGN CHOICE: log entry 111. -/
def exec (i : Instr) (s : State) : Host.Outcome State Fault Refusal :=
  match i with
  | .registerWrite k a w v => Sys2Proof.Machine.execRegisterWrite k a w v s
  | .lowWordRead k a => Sys2Proof.Machine.execLowWordRead k a s
  | .arm k p v => Sys2Proof.Machine.execArm k p v s
  | .applySet k tag => Sys2Proof.Machine.execApplySet k tag s
  | .strobe k groups => Sys2Proof.Machine.execStrobe k groups s
  | .updEdge => Sys2Proof.Machine.execUpdEdge s
  | .applyPage p delay => Sys2Proof.Machine.execApplyPage p delay s
  | .applyEntryCommit p => Sys2Proof.Machine.execApplyEntryCommit p s
  | .aonWrite k off v => Sys2Proof.Machine.execAonWrite k off v s
  | .aonWriteComplete => Sys2Proof.Machine.execAonWriteComplete s
  | .seenWrite k p n v => Sys2Proof.Machine.execSeenWrite k p n v s
  | .tallyCapture k v => Sys2Proof.Machine.execTallyCapture k v s
  | .paritySweep bad => Sys2Proof.Machine.execParitySweep bad s
  | .calReq k p => Sys2Proof.Machine.execCalReq k p s
  | .ctrlCalFactory k p => Sys2Proof.Machine.execCtrlCalFactory k p s
  | .slotLaunch x => Sys2Proof.Machine.execSlotLaunch x s
  | .holdEnd x => Sys2Proof.Machine.execHoldEnd x s
  | .ramanPulse x => Sys2Proof.Machine.execRamanPulse x s
  | .gateEnd x g => Sys2Proof.Machine.execGateEnd x g s
  | .trigInEdge rising => Sys2Proof.Machine.execTrigInEdge rising s
  | .shotPredict x => Sys2Proof.Machine.execShotPredict x s
  | .shotRecord x => Sys2Proof.Machine.execShotRecord x s
  | .deadAgeExpiry x => Sys2Proof.Machine.execDeadAgeExpiry x s
  | .deadTimeStart x => Sys2Proof.Machine.execDeadTimeStart x s
  | .laneCalPass x cores => Sys2Proof.Machine.execLaneCalPass x cores s
  | .dacCalPass x xi xq => Sys2Proof.Machine.execDacCalPass x xi xq s
  | .ramanCalPass x antiStokes stokes => Sys2Proof.Machine.execRamanCalPass x antiStokes stokes s
  | .thermistorSample x l code => Sys2Proof.Machine.execThermistorSample x l code s
  | .colourLoopRun x l => Sys2Proof.Machine.execColourLoopRun x l s
  | .lockFail x l => Sys2Proof.Machine.execLockFail x l s
  | .senseCheck x e mV => Sys2Proof.Machine.execSenseCheck x e mV s
  | .gatedSenseCheck x g mV => Sys2Proof.Machine.execGatedSenseCheck x g mV s
  | .monBackCrossing x cycle mV => Sys2Proof.Machine.execMonBackCrossing x cycle mV s
  | .witnessVerdict x steps => Sys2Proof.Machine.execWitnessVerdict x steps s
  | .monOutCrossing x mV => Sys2Proof.Machine.execMonOutCrossing x mV s
  | .gatesOff => Sys2Proof.Machine.execGatesOff s
  | .copyMismatch x second off v => Sys2Proof.Machine.execCopyMismatch x second off v s
  | .interlockFall => Sys2Proof.Machine.execInterlockFall s
  | .interlockRise => Sys2Proof.Machine.execInterlockRise s
  | .clockLoss => Sys2Proof.Machine.execClockLoss s
  | .clockReturn => Sys2Proof.Machine.execClockReturn s
  | .diagRequest x => Sys2Proof.Machine.execDiagRequest x s
  | .diagSample x g mV => Sys2Proof.Machine.execDiagSample x g mV s
  | .probeStart x => Sys2Proof.Machine.execProbeStart x s
  | .seedSettled x => Sys2Proof.Machine.execSeedSettled x s
  | .probePass x => Sys2Proof.Machine.execProbePass x s
  | .autoProbe x => Sys2Proof.Machine.execAutoProbe x s
  | .restart k x key => Sys2Proof.Machine.execRestart k x key s
  | .serviceOpen k x key noWitness seconds => Sys2Proof.Machine.execServiceOpen k x key noWitness seconds s
  | .serviceStop k x key => Sys2Proof.Machine.execServiceStop k x key s
  | .serviceEnd x => Sys2Proof.Machine.execServiceEnd x s
  | .slotWord x samples => Sys2Proof.Machine.execSlotWord x samples s
  | .coreStuck x core => Sys2Proof.Machine.execCoreStuck x core s
  | .lanePllLoss => Sys2Proof.Machine.execLanePllLoss s
  | .lanePllLock => Sys2Proof.Machine.execLanePllLock s
  | .trimTempRead x => Sys2Proof.Machine.execTrimTempRead x s
  | .chanBlock x t window => Sys2Proof.Machine.execChanBlock x t window s
  | .pointWord x seq ecc pfEcc => Sys2Proof.Machine.execPointWord x seq ecc pfEcc s
  | .oosSet k x => Sys2Proof.Machine.execOosSet k x s
  | .oosClear k x => Sys2Proof.Machine.execOosClear k x s
  | .oosApplied x => Sys2Proof.Machine.execOosApplied x s
  | .oosMapClear x => Sys2Proof.Machine.execOosMapClear x s
  | .frameRelease x => Sys2Proof.Machine.execFrameRelease x s
  | .freezeReq x => Sys2Proof.Machine.execFreezeReq x s
  | .hostFreezeSet k x slot => Sys2Proof.Machine.execHostFreezeSet k x slot s
  | .hostFreezeClear k x slot => Sys2Proof.Machine.execHostFreezeClear k x slot s
  | .zoneReduction x ecc => Sys2Proof.Machine.execZoneReduction x ecc s
  | .alarmEdge k => Sys2Proof.Machine.execAlarmEdge k s
  | .alarmPulseEnd k => Sys2Proof.Machine.execAlarmPulseEnd k s
  | .alarmClear k balls => Sys2Proof.Machine.execAlarmClear k balls s
  | .triggerRecord x => Sys2Proof.Machine.execTriggerRecord x s
  | .descWrite k n w v => Sys2Proof.Machine.execDescWrite k n w v s
  | .segmentCopy x c ecc => Sys2Proof.Machine.execSegmentCopy x c ecc s
  | .segmentEnd x c => Sys2Proof.Machine.execSegmentEnd x c s
  | .descRead x c => Sys2Proof.Machine.execDescRead x c s
  | .ramanTrace x antiStokes stokes darkAs darkS => Sys2Proof.Machine.execRamanTrace x antiStokes stokes darkAs darkS s
  | .readout x bad => Sys2Proof.Machine.execReadout x bad s
  | .readoutEnd x => Sys2Proof.Machine.execReadoutEnd x s
  | .pass2 x bad => Sys2Proof.Machine.execPass2 x bad s
  | .profileRelease x => Sys2Proof.Machine.execProfileRelease x s
  | .pfeConversion q overload => Sys2Proof.Machine.execPfeConversion q overload s
  | .pfeComplianceCheck ch pass => Sys2Proof.Machine.execPfeComplianceCheck ch pass s
  | .pfeCalVisit shorted divider => Sys2Proof.Machine.execPfeCalVisit shorted divider s
  | .hkPassStart => Sys2Proof.Machine.execHkPassStart s
  | .hkConversion code => Sys2Proof.Machine.execHkConversion code s
  | .urgent k input => Sys2Proof.Machine.execUrgent k input s
  | .telemetry => Sys2Proof.Machine.execTelemetry s
  | .tiuArm k u => Sys2Proof.Machine.execTiuArm k u s
  | .tiuStart k u => Sys2Proof.Machine.execTiuStart k u s
  | .tiuStop k u => Sys2Proof.Machine.execTiuStop k u s
  | .tiuCancel k u => Sys2Proof.Machine.execTiuCancel k u s
  | .tiuStartEdge u same => Sys2Proof.Machine.execTiuStartEdge u same s
  | .tiuStopEdge u => Sys2Proof.Machine.execTiuStopEdge u s
  | .tiuTimeout u => Sys2Proof.Machine.execTiuTimeout u s
  | .tiuResult u => Sys2Proof.Machine.execTiuResult u s
  | .memRequest port l wr => Sys2Proof.Machine.execMemRequest port l wr s
  | .miss unit => Sys2Proof.Machine.execMiss unit s
  | .memReadData unit ecc => Sys2Proof.Machine.execMemReadData unit ecc s
  | .refreshDue p => Sys2Proof.Machine.execRefreshDue p s
  | .mr4Poll p doubled hot code => Sys2Proof.Machine.execMr4Poll p doubled hot code s
  | .srEntry p => Sys2Proof.Machine.execSrEntry p s
  | .srExit p => Sys2Proof.Machine.execSrExit p s
  | .retrain k unit => Sys2Proof.Machine.execRetrain k unit s
  | .retrainDone unit trained eye => Sys2Proof.Machine.execRetrainDone unit trained eye s
  | .scrubRead unit ecc => Sys2Proof.Machine.execScrubRead unit ecc s
  | .fillCmd k => Sys2Proof.Machine.execFillCmd k s
  | .fillDone => Sys2Proof.Machine.execFillDone s
  | .initQuery k r => Sys2Proof.Machine.execInitQuery k r s
  | .migrate k p => Sys2Proof.Machine.execMigrate k p s
  | .migCopy ecc => Sys2Proof.Machine.execMigCopy ecc s
  | .migDone => Sys2Proof.Machine.execMigDone s
  | .sramScrub data check double => Sys2Proof.Machine.execSramScrub data check double s
  | .dmaStart k c => Sys2Proof.Machine.execDmaStart k c s
  | .dmaStop k c => Sys2Proof.Machine.execDmaStop k c s
  | .dmaRing k c => Sys2Proof.Machine.execDmaRing k c s
  | .dmaFetch c ecc => Sys2Proof.Machine.execDmaFetch c ecc s
  | .dmaBurst host ecc => Sys2Proof.Machine.execDmaBurst host ecc s
  | .dmaComplete c => Sys2Proof.Machine.execDmaComplete c s
  | .linkRead c ecc => Sys2Proof.Machine.execLinkRead c ecc s
  | .noresp c => Sys2Proof.Machine.execNoresp c s
  | .codecInput n bytes eom => Sys2Proof.Machine.execCodecInput n bytes eom s
  | .codecBlock n verified storedVerified => Sys2Proof.Machine.execCodecBlock n verified storedVerified s
  | .codecDecode n => Sys2Proof.Machine.execCodecDecode n s
  | .codecClose k n => Sys2Proof.Machine.execCodecClose k n s
  | .codecReset k n => Sys2Proof.Machine.execCodecReset k n s
  | .stallTimeout n => Sys2Proof.Machine.execStallTimeout n s
  | .contextSwitch n ecc => Sys2Proof.Machine.execContextSwitch n ecc s
  | .pcieFlr => Sys2Proof.Machine.execPcieFlr s
  | .linkDown => Sys2Proof.Machine.execLinkDown s
  | .bar2Access a len wr ecc => Sys2Proof.Machine.execBar2Access a len wr ecc s
  | .msixUnmask v => Sys2Proof.Machine.execMsixUnmask v s
  | .ringTail k r tail entries => Sys2Proof.Machine.execRingTail k r tail entries s
  | .ringWrite r => Sys2Proof.Machine.execRingWrite r s
  | .coalesceTimeout r => Sys2Proof.Machine.execCoalesceTimeout r s
  | .replyDropped => Sys2Proof.Machine.execReplyDropped s
  | .regRead v a count => Sys2Proof.Machine.execRegRead v a count s
  | .regWrite v a words => Sys2Proof.Machine.execRegWrite v a words s
  | .memRead v a count ecc => Sys2Proof.Machine.execMemRead v a count ecc s
  | .memWrite v a bytes => Sys2Proof.Machine.execMemWrite v a bytes s
  | .echo v bytes => Sys2Proof.Machine.execEcho v bytes s
  | .status v => Sys2Proof.Machine.execStatus v s
  | .modeSet v mode => Sys2Proof.Machine.execModeSet v mode s
  | .lineOut v x => Sys2Proof.Machine.execLineOut v x s
  | .lineIn v x => Sys2Proof.Machine.execLineIn v x s
  | .calRun v p now => Sys2Proof.Machine.execCalRun v p now s
  | .calFactory v p => Sys2Proof.Machine.execCalFactory v p s
  | .journalRead v first count => Sys2Proof.Machine.execJournalRead v first count s
  | .troubleRead v first count => Sys2Proof.Machine.execTroubleRead v first count s
  | .journalMark v value => Sys2Proof.Machine.execJournalMark v value s
  | .patchLoad v a count data => Sys2Proof.Machine.execPatchLoad v a count data s
  | .patchSwap v => Sys2Proof.Machine.execPatchSwap v s
  | .swapRestart => Sys2Proof.Machine.execSwapRestart s
  | .patchRevert v => Sys2Proof.Machine.execPatchRevert v s
  | .patchCommit v => Sys2Proof.Machine.execPatchCommit v s
  | .reelRecord v => Sys2Proof.Machine.execReelRecord v s
  | .reelStop v => Sys2Proof.Machine.execReelStop v s
  | .reelPlay v => Sys2Proof.Machine.execReelPlay v s
  | .emitSwapBegin v x e => Sys2Proof.Machine.execEmitSwapBegin v x e s
  | .emitSwapEnd v x e => Sys2Proof.Machine.execEmitSwapEnd v x e s
  | .rankMigrate v p => Sys2Proof.Machine.execRankMigrate v p s
  | .foremanRestart v => Sys2Proof.Machine.execForemanRestart v s
  | .procStep n => Sys2Proof.Machine.execProcStep n s
  | .streamMessage => Sys2Proof.Machine.execStreamMessage s
  | .packetTransmit p => Sys2Proof.Machine.execPacketTransmit p s
  | .ethRx p frame fcsOk => Sys2Proof.Machine.execEthRx p frame fcsOk s
  | .ethLinkUp p => Sys2Proof.Machine.execEthLinkUp p s
  | .ethLinkDown p => Sys2Proof.Machine.execEthLinkDown p s
  | .resolveRetry p => Sys2Proof.Machine.execResolveRetry p s
  | .unresolved unit => Sys2Proof.Machine.execUnresolved unit s
  | .cacheRefresh p => Sys2Proof.Machine.execCacheRefresh p s
  | .i2cPoll p diag => Sys2Proof.Machine.execI2cPoll p diag s
  | .xfer k v ack data => Sys2Proof.Machine.execXfer k v ack data s
  | .moduleChange p present => Sys2Proof.Machine.execModuleChange p present s
  | .ptpMessage m => Sys2Proof.Machine.execPtpMessage m s
  | .delayReq => Sys2Proof.Machine.execDelayReq s
  | .syncTimeout => Sys2Proof.Machine.execSyncTimeout s
  | .timeSet k => Sys2Proof.Machine.execTimeSet k s
  | .ppsInEdge rising => Sys2Proof.Machine.execPpsInEdge rising s
  | .ppsMissing => Sys2Proof.Machine.execPpsMissing s
  | .ppsOut => Sys2Proof.Machine.execPpsOut s
  | .ppsOutEnd => Sys2Proof.Machine.execPpsOutEnd s
  | .refLost => Sys2Proof.Machine.execRefLost s
  | .refReturn => Sys2Proof.Machine.execRefReturn s
  | .spiRead a count => Sys2Proof.Machine.execSpiRead a count s
  | .spiWrite a words => Sys2Proof.Machine.execSpiWrite a words s
  | .abortedWord => Sys2Proof.Machine.execAbortedWord s
  | .legacyRead a => Sys2Proof.Machine.execLegacyRead a s
  | .legacyWrite a v => Sys2Proof.Machine.execLegacyWrite a v s
  | .journalFlush => Sys2Proof.Machine.execJournalFlush s
  | .troubleFlush => Sys2Proof.Machine.execTroubleFlush s
  | .retentionCopy => Sys2Proof.Machine.execRetentionCopy s
  | .notification => Sys2Proof.Machine.execNotification s
  | .calAdvised => Sys2Proof.Machine.execCalAdvised s
  | .calRetry => Sys2Proof.Machine.execCalRetry s
  | .watchdog => Sys2Proof.Machine.execWatchdog s
  | .exception => Sys2Proof.Machine.execException s
  | .restarted => Sys2Proof.Machine.execRestarted s
  | .reelStart x => Sys2Proof.Machine.execReelStart x s
  | .reelShot x samples => Sys2Proof.Machine.execReelShot x samples s
  | .reelEnd x => Sys2Proof.Machine.execReelEnd x s
  | .reelFeed => Sys2Proof.Machine.execReelFeed s
  | .replayEnd => Sys2Proof.Machine.execReplayEnd s
  | .railStep k good => Sys2Proof.Machine.execRailStep k good s
  | .railFail => Sys2Proof.Machine.execRailFail s
  | .boot => Sys2Proof.Machine.execBoot s
  | .thermalTrip => Sys2Proof.Machine.execThermalTrip s
  | .thermalClear => Sys2Proof.Machine.execThermalClear s
  | .interlockHold => Sys2Proof.Machine.execInterlockHold s
  | .slowFallback => Sys2Proof.Machine.execSlowFallback s
  | .refclkTimeout => Sys2Proof.Machine.execRefclkTimeout s
  | .alarmWake => Sys2Proof.Machine.execAlarmWake s
  | .wakeIn rising => Sys2Proof.Machine.execWakeIn rising s
  | .pfeWake => Sys2Proof.Machine.execPfeWake s
  | .hkWake => Sys2Proof.Machine.execHkWake s
  | .scriptWrite => Sys2Proof.Machine.execScriptWrite s
  | .scriptWaitEvent => Sys2Proof.Machine.execScriptWaitEvent s
  | .scriptDelay => Sys2Proof.Machine.execScriptDelay s
  | .returnHome => Sys2Proof.Machine.execReturnHome s
  | .resetN => Sys2Proof.Machine.execResetN s
  | .pwrReset k key => Sys2Proof.Machine.execPwrReset k key s
  | .vaonApplied => Sys2Proof.Machine.execVaonApplied s
  | .testMode high => Sys2Proof.Machine.execTestMode high s
  | .tapReset => Sys2Proof.Machine.execTapReset s
  | .bypass => Sys2Proof.Machine.execBypass s
  | .idcode => Sys2Proof.Machine.execIdcode s
  | .samplePreload cells => Sys2Proof.Machine.execSamplePreload cells s
  | .extest => Sys2Proof.Machine.execExtest s
  | .extestPulse => Sys2Proof.Machine.execExtestPulse s
  | .extestTrain => Sys2Proof.Machine.execExtestTrain s
  | .highz => Sys2Proof.Machine.execHighz s
  | .clamp => Sys2Proof.Machine.execClamp s
  | .stuckCleared x core => Sys2Proof.Machine.execStuckCleared x core s
  | .pcieLinkUp width gen => Sys2Proof.Machine.execPcieLinkUp width gen s
  | .vaonRemoved => Sys2Proof.Machine.execVaonRemoved s
  | .powerGoodLoss k => Sys2Proof.Machine.execPowerGoodLoss k s
  | .procTimeout n => Sys2Proof.Machine.execProcTimeout n s

end Sys2Proof.Machine
end

