-- ==== Sys2Proof/Machine/Step.lean ====
section
/-!
DEFINITION. One step: the command at the front of the queue runs; with no command waiting, time
passes.
-/
namespace Sys2Proof.Machine

/-- One step of the block. An empty queue lets one core cycle pass.
DESIGN CHOICE: log entry 1. DESIGN CHOICE: log entry 2. -/
def step (s : State) : Host.Outcome State Fault Refusal :=
  match s.pending with
  | [] => execIdle s
  | c :: rest => exec c { s with pending := rest }

/-- The state with the command that a word spells at the front of its queue; no word spells one.
DESIGN CHOICE: log entry 4. -/
def State.withFetchWord (s : State) (nbits w : Nat) : State :=
  match decodeTableWord nbits w with
  | none => s
  | some c => { s with pending := c :: s.pending }

end Sys2Proof.Machine
end

