-- ==== Sys2Proof/Safety.lean ====
section
/-!
DEFINITION. What claims about safe runs are stated in: a step that answers a next state, and the
light interlock: no gate or enable ball of a line is high without a high INTERLOCK_n, the EMIT domain, and the
cell's permit or boundary scan behind it (R75, R86, R87, R459).
-/
namespace Sys2Proof.Machine

/-- The outcome is a next state. -/
def answers (o : Host.Outcome State Fault Refusal) : Prop := ∃ t, o = .next t

/-- A command answers the next state whose device is `d` with its outputs settled and whose queue is as it was. -/
def State.lands (s : State) (c : Instr) (d : Dev) : Prop := exec c s = .next { s with dev := settle d }

/-- A command on a Sahfort path that takes it passes every check of R467 and is no retry of one answered before (R373). -/
def Dev.serves (d : Dev) (v : Via) (r : Req) : Prop :=
  arrives d v = true ∧ accepts d v.link = true ∧ retryMatch d v r.code = none ∧
    r.bar r.known (replyLimit d v) = none ∧ (r.service = true → d.foremanRuns = true)

/-- What becomes of a command that comes over Sahfort, under the SAHF page that applies at its packet's start (R467): where
no link takes it nothing happens, the first check it fails answers it, a retry is answered with the reply that is kept,
and one that passes every check is served. -/
def State.takes (s : State) (c : Instr) (v : Via) (r : Req) (served : Dev → Dev) : Prop :=
  let d := applyNow pgSahf s.dev
  let refused (d : Dev) (status : Nat) : Dev := sendReply d v false (replyBytes r.code status 0 0 [])
  v.mailbox = false →
    (arrives s.dev v = false → s.lands c s.dev) ∧
    (arrives s.dev v = true →
      (arrives d v = false → s.lands c d) ∧
      (arrives d v = true →
        (accepts d v.link = false → s.lands c (refused d 7)) ∧
        (∀ e, accepts d v.link = true → retryMatch d v r.code = some e →
          s.lands c ((sendReply d v true e.reply).event pgSahf 6)) ∧
        (∀ status, accepts d v.link = true → retryMatch d v r.code = none →
          r.bar r.known (replyLimit d v) = some status → s.lands c (refused d status)) ∧
        (accepts d v.link = true → retryMatch d v r.code = none → r.bar r.known (replyLimit d v) = none →
          r.service = true → d.foremanRuns = false → s.lands c ((refused d 4).event pgSahf 10))) ∧
      (d.serves v r → s.lands c (served d)))

/-- What becomes of a service command of the mailbox (R381): the Foreman serves the command that the window holds, once, for
the link that wrote GO; any other changes nothing. -/
def State.boxed (s : State) (c : Instr) (v : Via) (r : Req) (served : Req → Dev → Dev) : Prop :=
  let d := s.dev
  let held : Prop := d.foremanRuns = true ∧ r.service = true ∧ mailboxHolds d r = true ∧ linkCode v.link = d.fm.mbx
  v.mailbox = true →
    (held → s.lands c (served (mailboxReq d) d)) ∧ (¬ held → s.lands c d)

/-- A service command over either path. -/
def State.serviced (s : State) (c : Instr) (v : Via) (r : Req) (served : Req → Dev → Dev) : Prop :=
  s.takes c v r (served r) ∧ s.boxed c v r served

/-- The reply of a command that leaves no journal entry has gone to its source, and the command is counted. -/
def Dev.replied (d : Dev) (v : Via) (code status arg : Nat) (data : List Byte) : Dev :=
  (sendReply d v false (replyBytes code status arg 0 data)).event pgSahf 4

/-- The same for a journalled command, whose reply carries its entry's SEQ and is kept (R373). -/
def Dev.repliedKept (d : Dev) (v : Via) (code status arg seq : Nat) (data : List Byte) : Dev :=
  let payload := replyBytes code status arg seq data
  (sendReply (keepReply d v code payload) v false payload).event pgSahf 4

/-- A command that leaves no entry is answered, where a reply can still go. -/
def Dev.answered (e : Dev) (v : Via) (code status arg : Nat) (data : List Byte) : Dev :=
  if sahfOn e then e.replied v code status arg data else e

/-- The same for a journalled one. -/
def Dev.answeredKept (e : Dev) (v : Via) (code status arg seq : Nat) (data : List Byte) : Dev :=
  if sahfOn e then e.repliedKept v code status arg seq data else e

/-- A service command is answered where it came from, and then has what follows its answer. -/
def Dev.closes (e : Dev) (v : Via) (code status arg seq : Nat) (data : List Byte) (after : Dev → Dev := id) : Dev :=
  if v.mailbox then after (answerMailbox e (replyBytes code status arg seq data))
  else if sahfOn e then after (e.repliedKept v code status arg seq data) else e

/-- The COMMAND entry of a service command has committed (R387, R388). -/
def Dev.entered (d : Dev) (v : Via) (r : Req) (result status : Nat) : Dev :=
  commandEntry d
    { link := linkCode v.link, code := r.code, result := result, seq := if v.mailbox then 0 else v.seq.toNat,
      count := r.count, status := status, digest := (crc32c r.digested).toNat, sahf := !v.mailbox }

/-- Some gate or enable ball of a line is high. -/
def Cells.lit (c : Cells) : Bool := c.gateSoa || c.gateRam || c.enSeed || c.enBoost

/-- A high gate or enable ball of a line needs INTERLOCK_n high and the EMIT domain on, and then either the
cell's permit with the core clock present, or boundary scan driving the ball (R459). -/
def Dev.lawful (d : Dev) (c : Cells) : Prop :=
  c.lit = true →
    d.pins.interlock = true ∧ d.domainOn 10 = true ∧
      ((c.permit = true ∧ d.clk.coreOn = true) ∨ d.scan.isSome = true)

/-- The emitter balls of both lines are lawful. -/
def State.lightSafe (s : State) : Prop := s.dev.lawful s.dev.lineA.cells ∧ s.dev.lawful s.dev.lineB.cells

end Sys2Proof.Machine
end

