-- ==== Sys2Proof/Certificates/Slice0/Obligations.lean ====
section
/-!
DEFINITION. The statements for the provers: one Prop for each obligation of OBLIGATIONS.json. `s.lands c d` says that
command c answers a next state whose device is d with its outputs settled, the queue as it was: such a statement is the
command's completion, its effect and its frame at once.
-/
open Sys2Proof Sys2Proof.Machine

/-- The command at the front of the queue runs on the state that holds the queue's rest. -/
def Obligations.StepRunsFrontCommand : Prop :=
  ∀ (c : Instr) (rest : List Instr) (s : State),
    step { s with pending := c :: rest } = exec c { s with pending := rest }

/-- With no command waiting, a core cycle passes; with the core clock off, a slow edge passes. The model's choice
(log entry 1). -/
def Obligations.EmptyQueueLetsTimePass : Prop :=
  ∀ s : State, s.pending = [] →
    let d := if s.dev.clk.coreOn then s.dev.advance 1 else s.dev.advanceSlow (s.dev.slow + 1)
    step s = .next { s with dev := settle d }

/-- No command changes the queue. Every command completes, with the device's outputs settled, on every state and
every operand, but for one: RAIL_STEP out of the order of the rails (R446) stops. Choices of the model it
rests on: log entries 2, 106. -/
def Obligations.CommandsCompleteAndKeepTheQueue : Prop :=
  (∀ (c : Instr) (s t : State), exec c s = .next t → t.pending = s.pending) ∧
  (∀ (c : Instr) (s : State),
     ((∀ k good, c = .railStep k good → s.dev.aonSt.goal = none ∨ k.val = s.dev.aonSt.rail) →
       ∃ d : Dev, exec c s = .next { s with dev := settle d }) ∧
     (∀ k good, c = .railStep k good → s.dev.aonSt.goal.isSome = true → k.val ≠ s.dev.aonSt.rail →
       exec c s = .fault .railOutOfOrder))

/-- After every step, whatever the state before it, a high gate or enable ball of a line has INTERLOCK_n high and
the EMIT domain on, and the cell's permit with the core clock, or boundary scan, behind it (R75, R86, R87,
R459); with INTERLOCK_n low or the EMIT domain off no such ball is high. Choices of the model it rests on: log
entry 88. -/
def Obligations.LightNeedsItsPermit : Prop :=
  ∀ s t : State, step s = .next t →
    t.lightSafe ∧
    (t.dev.pins.interlock = false ∨ t.dev.domainOn 10 = false →
      ∀ x : Line, (t.dev.line x).cells.lit = false)

/-- After every step the interrupt of each page of the directory is raised just while its domain is on and some
event with its IRQ_EN bit set has COUNT different from SEEN (R35), and each DMA channel's while it asks for
one (R323). Every state that a step leads to is settled already: only the messages of the interrupts that rose
could be sent again, and none has risen. Choices of the model it rests on: log entries 28, 29. -/
def Obligations.InterruptsFollowTheirEvents : Prop :=
  (∀ s t : State, step s = .next t →
     t.dev.irq = t.dev.irqLevels ∧ t.dev.dma.irq = (List.range 32).map t.dev.chanRaised ∧
     (∀ (i : Nat) (pg : Page), directory[i]? = some pg →
       (t.dev.irq[i]? = some true ↔
         t.dev.domainOn pg.domain = true ∧
           ∃ n < pg.nEvents, bitOf (rd t.dev.regs (pageBase pg.num + 0x014)).toNat n = true ∧
             rd t.dev.regs (countAddr pg.num n) ≠ rd t.dev.regs (countAddr pg.num n + 4)))) ∧
  (∀ s t : State, step s = .next t → settle t.dev = t.dev)

/-- The state right after VAON is applied: only AON is powered, the mode is Hibernate, no command waits, no line
is lit, no interrupt is raised, the register maps are in canonical form; AON and GAUGE hold the reset values
of their field tables (R438, R165). Choices of the model it rests on: log entries 6, 8. -/
def Obligations.ResetIsDark : Prop :=
  State.reset.pending = [] ∧ State.reset.lightSafe ∧ State.reset.dev.pwr.mode = 0 ∧
    (∀ k, State.reset.dev.domainOn k = decide (k = 0)) ∧
    State.reset.dev.irqLevels.all (fun b => !b) = true ∧
    (∀ x : Line, (State.reset.dev.line x).cells.lit = false) ∧
    RegMap.wf State.reset.dev.regs = true ∧ RegMap.wf State.reset.dev.aon = true ∧
    (liv State.reset.dev.aon pgAon AON.WAKE.MODE = 1 ∧ liv State.reset.dev.aon pgAon AON.RETURN_S = 3600 ∧
      liv State.reset.dev.aon pgAon AON.WAKE_EVERY = 0 ∧ liv State.reset.dev.aon pgAon AON.ILK_HOLD = 0 ∧
      ∀ k : Fin 6, liv State.reset.dev.aon pgAon (AON.RAIL.PG_USE k.val) = 1 ∧
        liv State.reset.dev.aon pgAon (AON.RAIL.GAP k.val) = 4 ∧ liv State.reset.dev.aon pgAon (AON.RAIL.WAIT k.val) = 328) ∧
    (∀ x : Line, act State.reset.dev.regs (pgGauge x) GAUGE.COUNT = 0 ∧
      act State.reset.dev.regs (pgGauge x) GAUGE.WAVELENGTH = 0x17A728 ∧
      act State.reset.dev.regs (pgGauge x) GAUGE.XI = 0xC7AE ∧
      act State.reset.dev.regs (pgGauge x) GAUGE.PHASE_INDEX = 0x171AA ∧
      act State.reset.dev.regs (pgGauge x) GAUGE.GAUGE_LEN = 31)

/-- What the settling of the outputs leaves as it was: all but the alarms' idle levels, the levels of the balls,
the interrupt levels, the messages sent, the two words of the pending-bit array and, where dropped trouble
entries wait for room that has returned (R395), the trouble log with the TROUBLE page. Choices of the model it
rests on: log entry 89. -/
def Obligations.SettlingOnlyMovesOutputs : Prop :=
  ∀ d : Dev,
    settle d =
      { settleBalls (settleAlarms d) with
        regs := (settle d).regs, tr := (settle d).tr, pcie := { d.pcie with sent := (settle d).pcie.sent },
        dma := { d.dma with irq := (settle d).dma.irq }, irq := (settle d).irq } ∧
    (∀ a, a / 0x1000 ≠ pgTrouble → a ≠ pageBase pgPcie + 0x9F8 → a ≠ pageBase pgPcie + 0x9FC →
      rd (settle d).regs a = rd d.regs a) ∧
    (d.tr.dropped = 0 ∨ 64 < d.troubleFill → (settle d).tr = d.tr ∧
      ∀ a, a ≠ pageBase pgPcie + 0x9F8 → a ≠ pageBase pgPcie + 0x9FC → rd (settle d).regs a = rd d.regs a) ∧
    (∃ new, (settle d).pcie.sent = new ++ d.pcie.sent)

/-- Event pairs (R34): COUNT has 32 bits and saturates; EVENT_SATURATED is logged when it does; events that find
it saturated are not counted; a counted event changes one word. SEEN (R34): a SEEN value above COUNT is stored
as COUNT; 0xFFFFFFFF written while COUNT is saturated sets both to 0; an event after the write leaves the pair
pending. A write to an AON pair stores so at its slow edge, and sends one more message where the interrupt
stays raised (R35). SEEN_WRITE (R34): SEEN becomes the smaller of the value written and COUNT; the value
0xFFFFFFFF written to a saturated pair sets both to 0. A write that leaves the page's interrupt raised sends
its message again (R35). Choices of the model it rests on: log entry 28. -/
def Obligations.EventPairsCountAndAcknowledge : Prop :=
  (∀ (d : Dev) (p n : Nat) (pg : Page), pageOf p = some pg → n < pg.nEvents →
     (d.domainOn pg.domain = false → d.event p n = d) ∧
     (d.domainOn pg.domain = true →
       (d.count p n < 0xFFFFFFFE → d.event p n = d.setHome (countAddr p n) (Word.ofNat (d.count p n + 1)) ∧
         (d.event p n).count p n = d.count p n + 1) ∧
       (d.count p n = 0xFFFFFFFE →
         d.event p n = (d.setHome (countAddr p n) (Word.ofNat 0xFFFFFFFF)).trouble p 0x7F sevNote n ∧
         (d.setHome (countAddr p n) (Word.ofNat 0xFFFFFFFF)).count p n = 0xFFFFFFFF) ∧
       (d.count p n = 0xFFFFFFFF → d.event p n = d)) ∧
     (∀ v, d.setHome (countAddr p n) v =
       if p = pgAon then { d with aon := wr d.aon (countAddr p n) v }
       else { d with regs := wr d.regs (countAddr p n) v })) ∧
  ((∀ c v : Nat, c ≤ 0xFFFFFFFF → v ≤ 0xFFFFFFFF →
     let r := seenAfter c v
     (c = 0xFFFFFFFF → v = 0xFFFFFFFF → r = (0, 0)) ∧
     (¬ (c = 0xFFFFFFFF ∧ v = 0xFFFFFFFF) → r.1 = c ∧ (c < v → r.2 = c) ∧ (v ≤ c → r.2 = v)) ∧
     (if r.1 = 0xFFFFFFFF then r.1 ≠ r.2 else r.1 + 1 ≠ r.2)) ∧
   (∀ (s : State) (n : Nat) (v : Word) (w : AonWrite) (rest : List AonWrite), n < 8 →
     s.dev.bus.aonQueue = w :: rest → w.link ≠ linkHardware → w.off = 0x044 + 8 * n → w.value = v →
     let d := s.dev.advanceSlow (min w.due (s.dev.slow + 1))
     let r := seenAfter (d.count pgAon n) v.toNat
     let e : Dev := { d with bus := { d.bus with aonQueue := rest },
                             aon := wr (wr d.aon (countAddr pgAon n) (Word.ofNat r.1)) (countAddr pgAon n + 4)
                               (Word.ofNat r.2) }
     let f := applyAon (if aonRaised d && aonRaised e then e.irqMessage 58 else e)
     s.lands .aonWriteComplete
       (setAonWord f 0x910 0xFFFFFFFF (Word.ofNat (liv f.aon pgAon AON.WRITE_ACK + 1))))) ∧
  (∀ (s : State) (k : Link) (p : PageNo) (n : Nat) (v : Word) (pg : Page),
     pageOf p.toNat = some pg → s.dev.domainOn pg.domain = true → n < pg.nEvents → p.toNat ≠ pgAon →
     let c := (rd s.dev.regs (countAddr p.toNat n)).toNat
     let put (c' n' : Nat) : Dev :=
       (s.dev.setWord (countAddr p.toNat n) (Word.ofNat c')).setWord (countAddr p.toNat n + 4) (Word.ofNat n')
     let t := if c = 0xFFFFFFFF ∧ v.toNat = 0xFFFFFFFF then put 0 0 else put c (min v.toNat c)
     (s.dev.irqRaised pg = false ∨ t.irqRaised pg = false → s.lands (.seenWrite k p n v) t) ∧
     (∀ e, entryOf p.toNat = some e → s.dev.irqRaised pg = true → t.irqRaised pg = true →
       s.lands (.seenWrite k p n v) (t.irqMessage e)))

/-- Reads (R21): a read has no effect but on the latched high words; the read of a low word latches the high word,
and the next read of the high word returns what was latched and forgets it; a read of another word leaves the
latched ones as they are. LOW_WORD_READ (R21): a read of the low word of a pair latches the high word, and
nothing else changes; a read of a low word that meets a bus error only records it (R42). On PCIe the read
completes with its bytes, and where any of its words fails the whole request completes with Completer Abort
and one log entry (R43). -/
def Obligations.ReadsLatchHighWords : Prop :=
  (∀ (d : Dev) (a w : Nat),
     (let r := busGet a w d
      r.1 = { d with bus := { d.bus with latch := r.1.bus.latch } }) ∧
     (∀ pg off, placeOf a = some (.page pg off) → busBar d a w = none → isLow pg off = true →
       let r := busGet a w d
       r.2 = (none, pageWord d pg off) ∧ busBar r.1 (a + 4) w = none ∧
       (isLow pg (off + 4) = false ∧
         ∀ e : Dev, e.bus.latch.find? (fun l => l.1 == a + 4) = some (a + 4, pageWord d pg (off + 4)) →
           busBar e (a + 4) w = none → (busGet (a + 4) w e).2 = (none, pageWord d pg (off + 4))) ∧
       r.1.bus.latch.find? (fun l => l.1 == a + 4) = some (a + 4, pageWord d pg (off + 4))) ∧
     (∀ b, b ≠ a → (∀ pg off, placeOf a = some (.page pg off) → isLow pg off = true → b ≠ a + 4) →
       (busGet a w d).1.bus.latch.find? (fun l => l.1 == b) = d.bus.latch.find? fun l => l.1 == b)) ∧
  (∀ (s : State) (k : Link) (a : Addr),
     let completes (d : Dev) (status : Nat) (data : List Byte) : Dev := if k = .pcie then bar2Reply d status data else d
     (∀ e, busBar s.dev a.toNat 4 = some e →
       s.lands (.lowWordRead k ⟨a, 0⟩) (completes (s.dev.busError a.toNat e (linkCode k)) (16 + e.code) [])) ∧
     (∀ pg off, placeOf a.toNat = some (.page pg off) → busBar s.dev a.toNat 4 = none → isLow pg off = true →
       s.lands (.lowWordRead k ⟨a, 0⟩)
         (completes
           { s.dev with bus := { s.dev.bus with latch :=
               (a.toNat + 4, pageWord s.dev pg (off + 4)) :: s.dev.bus.latch.filter fun e => e.1 != a.toNat + 4 } }
           0 (leBytes 4 (pageWord s.dev pg off).toNat))) ∧
     (∀ n,
       let t := readWords (n + 1) 0 a.toNat s.dev
       (t.2.2 = [] →
         s.lands (.lowWordRead k ⟨a, n⟩) (completes t.1 0 (t.2.1.flatMap fun w => leBytes 4 w.toNat))) ∧
       (∀ e rest, t.2.2 = e :: rest →
         s.lands (.lowWordRead k ⟨a, n⟩)
           (completes (busErrors t.1 (linkCode k) (t.2.2.map (·.2))) (16 + e.2.2.code) []))))

/-- The amplitude of a bin (R133): the exact integer square root of rr² + ri², at most 46,339. -/
def Obligations.AmplitudeIsTheRoot : Prop :=
  (∀ v : Nat, isqrt v * isqrt v ≤ v ∧ v < (isqrt v + 1) * (isqrt v + 1)) ∧
  ∀ (m : RegMap) (x : Line) (t pol b0 count : Nat) (cov : List Covered) (xi xq : List Int),
    ∀ b ∈ polBins m x t pol b0 count cov xi xq,
      ((b.amp : Int) * b.amp ≤ b.rr * b.rr + b.ri * b.ri ∧
        b.rr * b.rr + b.ri * b.ri < ((b.amp : Int) + 1) * ((b.amp : Int) + 1)) ∧
      b.amp ≤ 46339 ∧ -32767 ≤ b.rr ∧ b.rr ≤ 32767 ∧ -32767 ≤ b.ri ∧ b.ri ≤ 32767

/-- Service-only settings (R103, R258): outside Service mode RAML refuses MANUAL and any SEL other than BALLS, and
LANE any INPUT other than BALLS; LANE refuses a GAIN code above 12 and a statistics window that ends beyond
2^24; the refused page keeps the gains in force. -/
def Obligations.FrontEndRefusals : Prop :=
  ∀ (d : Dev) (m0 m : RegMap) (pg : Page) (x : Line),
    (pageOf (pgRaml x) = some pg → d.pwr.mode ≠ 7 →
      (act m (pgRaml x) RAML.MODE = 2 ∨ ∃ j < 2, act m (pgRaml x) (RAML.INPUT.SEL j) ≠ 0) →
      applyBar d m0 m pg ≠ none) ∧
    (pageOf (pgLane x) = some pg →
      ((∃ j < 4, 12 < act m (pgLane x) (LANE.GAIN.CODE j)) ∨
        (d.pwr.mode ≠ 7 ∧ ∃ j < 4, act m (pgLane x) (LANE.INPUT.SEL j) ≠ 0) ∨
        2 ^ 24 < act m (pgLane x) LANE.STAT_START + act m (pgLane x) LANE.STAT_LEN) →
      applyBar d m0 m pg ≠ none ∧
      ∀ j < 4, act (revertPage m0 pg m) (pgLane x) (LANE.GAIN.CODE j) = act m0 (pgLane x) (LANE.GAIN.CODE j))

/-- A journal entry (R387): SEQ is NEXT_SEQ, which increments and wraps at 2^32; its cycle is the next that no
entry before it took, one entry a cycle (R389); the newest 4,096 entries are kept; with CTRL off nothing is
committed; and only the journal and its registers, the log of a saturated pair apart, change. Choices of the
model it rests on: log entry 148. -/
def Obligations.JournalCommitsInOrder : Prop :=
  ∀ (d : Dev) (j : JSource),
    (d.domainOn 1 = false → d.journal j = d) ∧
    (d.domainOn 1 = true →
      (d.journal j).jr.nextSeq = (d.jr.nextSeq + 1) % 2 ^ 32 ∧
      (∃ e : JEntry, (d.journal j).jr.entries = (e :: d.jr.entries).take 4096 ∧ e.seq = d.jr.nextSeq ∧
        e.time = d.timeAt (max d.clk.tick d.jr.freeAt) ∧ (d.journal j).jr.freeAt = max d.clk.tick d.jr.freeAt + 1 ∧ e.link = j.link ∧ e.kind = j.kind ∧ e.code = j.code ∧ e.page = j.page ∧
        e.result = j.result ∧ e.digest = j.digest ∧ e.arg = j.arg % 2 ^ 64 ∧
        (d.journal j).jr.uncopied = d.jr.uncopied ++ [e] ∧ e.bytes.length = 32) ∧
      (d.saturates pgJournal 4 = false →
        d.journal j = { d with jr := (d.journal j).jr, regs := (d.journal j).regs } ∧
        ∀ a, a / 0x1000 ≠ pgJournal → rd (d.journal j).regs a = rd d.regs a))

/-- REGISTER_WRITE (R12, R22, R42): a write of a configuration word lands in the shadow, under the mask of the
implemented bits, and arms the page in AUTO mode; a write that meets a bus error changes nothing but its
record; a write of several words writes each valid word, discards each failing one and logs one entry (R43).
ARM (R22): the write of APPLY sets GROUP and MODE; with ARM = 1 a page that is not armed is armed, with the
link and the tick, and shows PENDING; a page that is armed already stays as it is. Choices of the model it
rests on: log entry 11. -/
def Obligations.RegisterWritesLandAndArm : Prop :=
  (∀ (s : State) (k : Link) (a : Addr) (w : Nat) (v : Word),
     (∀ e, busBar s.dev a.toNat w = some e →
       s.lands (.registerWrite k a w ⟨v, []⟩) (s.dev.busError a.toNat e (linkCode k))) ∧
     (∀ pg off, placeOf a.toNat = some (.page pg off) → busBar s.dev a.toNat w = none →
       pg.block ≠ .dev → pg.block ≠ .aon → 0x100 ≤ off → off < 0x500 →
       s.lands (.registerWrite k a w ⟨v, []⟩)
         (autoArm (linkCode k)
           (repairWord (s.dev.setWord a.toNat (v &&& Word.ofNat (wordMask pg.block.cfg off))) a.toNat) pg.num)) ∧
     (∀ v' rest,
       let t := writeWords k (v :: v' :: rest) 0 a.toNat s.dev
       (t.2 = [] → s.lands (.registerWrite k a w ⟨v, v' :: rest⟩) t.1) ∧
       s.lands (.registerWrite k a w ⟨v, v' :: rest⟩) (busErrors t.1 (linkCode k) (t.2.map (·.2))))) ∧
  (∀ (s : State) (k : Link) (p : PageNo) (v : Word) (pg : Page),
     pageOf p.toNat = some pg → pg.block ≠ .dev → s.dev.domainOn pg.domain = true →
     p.toNat ≠ pgAon → p.toNat ≠ pgDma → p.toNat ≠ pgCodec →
     let d := s.dev.setWord (pageBase p.toNat + 0x00C) (v &&& 0xF0)
     (bitOf v.toNat 0 = false ∨ (s.dev.armedAs p.toNat).isSome = true → s.lands (.arm k p v) d) ∧
     (bitOf v.toNat 0 = true → s.dev.armedAs p.toNat = none →
       s.lands (.arm k p v)
         (({ d with bus := { d.bus with armed := d.bus.armed ++ [(⟨p.toNat, linkCode k, 0, d.clk.tick⟩ : Armed)] } }).setPending
           p.toNat true)))

/-- APPLY_SET, STROBE and UPD_EDGE (R28, R30, R31): one journal entry, and then every listed page, or every page
in STROBE mode whose group is named, is armed with that entry's SEQ in the same cycle; an APPLY_SET that names
a page whose domain is off fails DOMAIN_OFF, else one that names no page of the directory RESERVED, and arms
nothing; UPD acts four core cycles after its edge, with UPD_CTRL.EN = 1 only. A rising edge of UPD is source
14 of an interval unit (R274). Choices of the model it rests on: log entry 27. -/
def Obligations.SetAndStrobeArmTogether : Prop :=
  ∀ (s : State) (k : Link) (tag : BitVec 16) (groups : BitVec 4), s.dev.domainOn 1 = true → k ≠ .upd →
    let d := s.dev
    let u := tiuEdge 14 true d
    let listed := (listedPages d.regs).dedup
    let grouped (d : Dev) (g : Nat) : List Nat := (directory.filter fun pg =>
      let m := if pg.num = pgAon then d.aon else d.regs
      pg.block != .dev && d.domainOn pg.domain && applyMode m pg.num == 2 &&
        bitOf g (applyGroupOf m pg.num)).map Page.num
    ((∀ p ∈ listed, (pageOf p).isSome = true ∧ d.pageOn p = true) →
      s.lands (.applySet k tag)
        (listed.foldl (armPage (linkCode k) d.jr.nextSeq)
          (d.journal { link := linkCode k, kind := kindApplySet, arg := tag.toNat + listed.length * 2 ^ 16 }))) ∧
    ((∃ p ∈ listed, (pageOf p).isSome = true ∧ d.pageOn p = false) →
      s.lands (.applySet k tag) (d.busError (pageBase pgDev + 0x140) .domainOff (linkCode k))) ∧
    ((∀ p ∈ listed, (pageOf p).isSome = true → d.pageOn p = true) → (∃ p ∈ listed, pageOf p = none) →
      s.lands (.applySet k tag) (d.busError (pageBase pgDev + 0x140) .reserved (linkCode k))) ∧
    (groups ≠ 0 →
      let e := d.journal { link := 8, kind := kindStrobe, arg := groups.toNat }
      s.lands (.strobe k groups) ((grouped e groups.toNat).foldl (armPage (linkCode k) d.jr.nextSeq) e)) ∧
    (u.domainOn 1 = true → liv u.regs pgDev DEV.UPD_CTRL.EN = 1 → liv u.regs pgDev DEV.UPD_CTRL.GROUPS ≠ 0 →
      let g := liv u.regs pgDev DEV.UPD_CTRL.GROUPS
      let e := (u.advance 4).journal { link := 9, kind := kindStrobe, arg := g }
      s.lands .updEdge ((grouped e g).foldl (armPage 9 u.jr.nextSeq) e)) ∧
    (groups = 0 → s.lands (.strobe k groups) d) ∧
    (liv u.regs pgDev DEV.UPD_CTRL.EN = 0 → s.lands .updEdge u)

/-- APPLY (R23, R24, R25) of an armed page: within 8 cycles of arming, where its block does not produce, an
accepted configuration goes whole from the shadow to the active copy, the page is no longer pending, and its
entry follows; a refused one leaves the active copy in force, shows its code and counts APPLY_REFUSED. Pages
of a line's round class armed in one cycle apply together; AON applies at a slow edge, DMA and CODEC by their
groups, an Ethernet port's page with code 4 once the frame on its wire has left. A page that is not armed, one
whose cycle lies beyond the 8, and one that waits for its block's boundary stay as they are.
APPLY_ENTRY_COMMIT (R25, R26): 260 cycles after the boundary the journal takes the entry of the oldest apply
of the page; an accepted apply counts APPLIED (event pair 0), a refused one does not. Choices of the model it
rests on: log entries 3, 16, 17, 19, 20, 23. -/
def Obligations.AppliesCopyTheWholeShadow : Prop :=
  (∀ (s : State) (p : PageNo) (delay : Nat) (pg : Page) (a : Armed), pageOf p.toNat = some pg →
     let d := s.dev.advanceTo (a.tick + delay)
     let m := showPlan (copyPage d.regs pg d.regs) pg
     let free := (s.dev.port pg.unit).free
     let onWire : Prop := pg.block = .eth ∧ producing s.dev pg = true ∧ s.dev.clk.tick < free
     let together := (roundPages pg.line).filter fun q =>
       (s.dev.armedAs q.num).any (fun b => b.tick == a.tick) && !producing s.dev q
     let shows (e : Dev) : Dev := if pg.block = .shot then e.putPlanResult pg.line (planCheck m pg.line) else e
     (s.dev.armedAs p.toNat = none → s.lands (.applyPage p delay) s.dev) ∧
     (s.dev.armedAs p.toNat = some a →
       (p.toNat = pgAon → s.lands (.applyPage p delay) (applyAon (s.dev.advanceSlow (s.dev.slow + 1)))) ∧
       (p.toNat ≠ pgAon → 8 < delay → s.lands (.applyPage p delay) s.dev) ∧
       (p.toNat = pgDma ∨ p.toNat = pgCodec → delay ≤ 8 → s.lands (.applyPage p delay) (applyIdleGroups p.toNat d)) ∧
       (p.toNat ∉ [pgAon, pgDma, pgCodec] → delay ≤ 8 →
         (onWire → s.lands (.applyPage p delay) (applyPages [pg] 4 (s.dev.advanceTo free))) ∧
         (¬ onWire → producing s.dev pg = true → s.lands (.applyPage p delay) s.dev) ∧
         (pg.boundary = 1 → producing s.dev pg = false → s.lands (.applyPage p delay) (applyPages together 0 d)) ∧
         (producing s.dev pg = false → (pg.boundary = 1 → together = [pg]) → s.dev.domainOn pg.domain = true →
           (applyBar d d.regs m pg = none →
             s.lands (.applyPage p delay) (acceptApply d.regs pg a 0 { d with regs := m })) ∧
           (∀ why, applyBar d d.regs m pg = some why →
             s.lands (.applyPage p delay)
               (shows (refuseApply pg a 0 why { d with regs := revertPage d.regs pg m }))))))) ∧
  (∀ (s : State) (p : PageNo) (r : Applied), p.toNat ≠ pgAon → s.dev.pageOn p.toNat = true →
     s.dev.bus.applied.find? (fun r => r.page == p.toNat) = some r →
     let d := s.dev.advanceTo (r.tick + 260)
     let e : JSource := { link := r.link, kind := kindApply, page := p.toNat, result := bit r.rejected,
                          digest := (cfgCheck d.regs p.toNat).toNat, arg := r.boundary + r.seq * 2 ^ 32 }
     let d' := { d with bus := { d.bus with applied := d.bus.applied.erase r } }
     let t := (d'.journal e).setWord (pageBase p.toNat + 0x034) (Word.ofNat d.jr.nextSeq)
     s.lands (.applyEntryCommit p) (if r.rejected then t else t.event p.toNat 0))

/-- AON_WRITE and AON_WRITE_COMPLETE (R32): a write waits in a queue of eight until a slow edge and is refused
AON_BUSY while the queue is full; the oldest write takes effect at the slow edge, and WRITE_ACK counts it; an
address AON does not have is a bus error (R42). TALLY_CAPTURE (R36, R37): the COUNT words of every powered
page in directory order, taken at one core tick, replace the image; TALLY shows that tick and SEQ advances.
PARITY_SWEEP (R38): a failing word of a page that shows no CFG_FAULT sets it, counts CFG_FAULT and logs the
page and offset, and one of a page that shows it already only stays bad; a sweep that finds nothing, and a
word of no powered page, change nothing. Choices of the model it rests on: log entries 15, 23, 24, 25. -/
def Obligations.QueuesTalliesAndSweeps : Prop :=
  (∀ (s : State) (k : Link) (off : BitVec 12) (v : Word),
     let bar := busBar s.dev (pageBase pgAon + off.toNat) 4
     (∀ e, bar = some e → s.lands (.aonWrite k off v) (s.dev.busError (pageBase pgAon + off.toNat) e (linkCode k))) ∧
     (bar = none → s.dev.bus.aonQueue.length < 8 →
       s.lands (.aonWrite k off v)
         { s.dev with bus := { s.dev.bus with aonQueue :=
             s.dev.bus.aonQueue ++ [(⟨off.toNat, v, linkCode k, s.dev.slow + 3⟩ : AonWrite)] } }) ∧
     (bar = none → 8 ≤ s.dev.bus.aonQueue.length →
       s.lands (.aonWrite k off v) (s.dev.busError (pageBase pgAon + off.toNat) .aonBusy (linkCode k))) ∧
     (s.dev.bus.aonQueue = [] → s.lands .aonWriteComplete s.dev) ∧
     (∀ w rest, s.dev.bus.aonQueue = w :: rest → w.link ≠ linkHardware → w.off = 0x014 →
       s.dev.armedAs pgAon = none →
       let d := s.dev.advanceSlow (min w.due (s.dev.slow + 1))
       let e := ({ d with bus := { d.bus with aonQueue := rest } } : Dev)
       let e := setAonWord e 0x014 0xFF w.value
       s.lands .aonWriteComplete (setAonWord e 0x910 0xFFFFFFFF (Word.ofNat (liv e.aon pgAon AON.WRITE_ACK + 1))))) ∧
  (∀ (s : State) (k : Link) (v : Word), s.dev.domainOn 1 = true →
     let kept := s.dev.regs.filter fun e => !(0xF00000 ≤ e.1 && e.1 < 0xF80000)
     let m := directory.zipIdx.foldl (fun m e => tallyImage s.dev e.2 e.1 m) kept
     let d := ({ s.dev with regs := m } : Dev).setPair pgTally 0x900 0x904 s.dev.clk.tick
     s.lands (.tallyCapture k v) (d.setLiv pgTally TALLY.SEQ (liv d.regs pgTally TALLY.SEQ + 1))) ∧
  (∀ (s : State) (a : Addr),
     let owners := directory.filter fun pg =>
       s.dev.domainOn pg.domain && pg.block != .dev && pg.block != .canary &&
         (shadowOf s.dev.regs pg a.toNat || activeOf s.dev.regs pg a.toNat)
     let bad := if s.dev.bus.parityBad.contains a.toNat then s.dev.bus.parityBad
       else a.toNat :: s.dev.bus.parityBad
     let d := { s.dev with bus := { s.dev.bus with parityBad := bad } }
     s.lands (.paritySweep []) s.dev ∧
     (owners = [] → s.lands (.paritySweep [a]) s.dev) ∧
     (∀ pg, owners = [pg] →
       (s.dev.statusHome pg.num 2 = true → s.lands (.paritySweep [a]) d) ∧
       (s.dev.statusHome pg.num 2 = false →
         s.lands (.paritySweep [a])
           ((d.setStatusHome pg.num 2 true).eventLog pg.num 1 sevError (a.toNat % 0x1000)))))

/-- CAL_REQ and CTRL_CAL_FACTORY (R60, R71, R114, R119, R230, R257): on a page with a calibration in dead time a
request that is not pending becomes pending and shows in STATUS, and one that is pending already is merged;
the factory command of a line that launches waits for its boundary, and on an idle line the boundary is at
once. On PFE a request waits for the visit or the calibration in progress, and starts one where neither is;
the factory command forgets its trims. A page that is off, or not there, gives a bus error. LANE_CAL_PASS,
DAC_CAL_PASS and RAMAN_CAL_PASS (R71, R106, R115, R118, R228, R230): a pass of 4,608 cycles of the dead time
adds its samples to the calibration that waits, a lane's DACs after its cores; a core gives code 0 while the
lane PLL is out of lock; a pass that does not fit in the dead time, with nothing pending, outside TRACK mode,
in Replay or with its page off, changes nothing. Choices of the model it rests on: log entries 3, 9. -/
def Obligations.CalibrationIsRequestedAndRun : Prop :=
  (∀ (s : State) (k : Link) (p : PageNo),
     let d := s.dev
     (∀ e, busBar d (pageBase p.toNat + 0x008) 4 = some e →
       s.lands (.calReq k p) (d.busError (pageBase p.toNat + 0x008) e (linkCode k)) ∧
       s.lands (.ctrlCalFactory k p) (d.busError (pageBase p.toNat + 0x008) e (linkCode k))) ∧
     (∀ pg c, pageOf p.toNat = some pg → d.domainOn pg.domain = true → calKindOf pg.block = some c →
       let f := d.onCal pg.line c fun r => { r with factory := true }
       let from' (raman : Bool) : Dev := if passesRun d pg.line raman then d else d.onLine pg.line fun l =>
         if raman then { l with rpassAt := max l.rpassAt d.clk.tick } else { l with passAt := max l.passAt d.clk.tick }
       ((calRun d pg.line c).pending = true → s.lands (.calReq k p) d) ∧
       ((calRun d pg.line c).pending = false →
         s.lands (.calReq k p)
           (((from' (c.which == 2)).onCal pg.line c fun r =>
             { r with pending := true, starve := 0, ran := false, whole := false }).setStatus
             (c.page pg.line) c.pendBit true)) ∧
       (launching d pg.line = true → s.lands (.ctrlCalFactory k p) f) ∧
       (launching d pg.line = false → s.lands (.ctrlCalFactory k p) (factoryBoundary f pg.line true))) ∧
     (∀ pg, pageOf p.toNat = some pg → pg.block = .pfe → d.domainOn pg.domain = true →
       (d.pfe.calEnd.isSome = true ∨ d.pfe.ch.isSome = true →
         s.lands (.calReq k p) (d.onPfe fun q => { q with calReq := true })) ∧
       (d.pfe.calEnd = none → d.pfe.ch = none →
         s.lands (.calReq k p)
           ((d.onPfe fun q => { q with calReq := false, calEnd := some (d.clk.tick + 4000000000) }).setStatus pgPfe 4
             true)) ∧
       s.lands (.ctrlCalFactory k p) ((d.onPfe fun q => { q with trims := [] }).setPair pgPfe 0x024 0x028 0))) ∧
  (∀ (s : State) (x : Line) (cores : List (List Int)) (a b : List Int),
     let d := s.dev
     let l := d.line x
     let lane : Bool := (calRun d x calLane).pending && trimMode d x trimKind == 0
     let may : Prop := passFits d x l.passAt = true ∧ d.pwr.mode ≠ 6
     let may' : Prop := passFits d x l.rpassAt = true ∧ d.pwr.mode ≠ 6
     let e := (d.advanceTo (l.passAt + 4608)).onLine x fun l' => { l' with passAt := l.passAt + 4608 }
     let f := ((d.advanceTo (l.rpassAt + 4608)).onLine x fun l' => { l' with rpassAt := l.rpassAt + 4608 }).event
       (pgRaml x) 4
     let codes := cores.zipIdx.map fun c =>
       c.1.zipIdx.map fun v => lockedCode e (l.passAt + 256 + (2 * v.2 + c.2 % 2) / 4) v.1
     let rcode (v : List Int) : List Int := v.zipIdx.map fun v => lockedCode f (l.rpassAt + 256 + 2 * v.2) v.1
     (lane = true → may → d.pageOn (pgTrim x) = true →
       s.lands (.laneCalPass x cores)
         (addPass (e.event (pgTrim x) 4) x calLane (codes.map List.sum) (codes.headD []).length
           (codes.zipIdx.map fun v => residueSums 16 (v.2 % 2) 2 v.1) (codes.headD []).length)) ∧
     (lane = false ∨ ¬ may ∨ d.pageOn (pgTrim x) = false → s.lands (.laneCalPass x cores) d) ∧
     (lane = false → (calRun d x calDac).pending = true → may → d.pageOn (pgSyn x) = true →
       s.lands (.dacCalPass x a b)
         (addPass e x calDac [a.sum, b.sum] a.length [residueSums 20 0 1 a, residueSums 20 0 1 b] a.length)) ∧
     (lane = true ∨ (calRun d x calDac).pending = false ∨ ¬ may ∨ d.pageOn (pgSyn x) = false →
       s.lands (.dacCalPass x a b) d) ∧
     ((calRun d x calRaman).pending = true → trimMode d x ramlKind = 0 → may' → d.pageOn (pgRaml x) = true →
       s.lands (.ramanCalPass x a b)
         (addPass f x calRaman [(rcode a).sum, (rcode b).sum] a.length [[(rcode a).sum], [(rcode b).sum]] a.length)) ∧
     ((calRun d x calRaman).pending = false ∨ trimMode d x ramlKind ≠ 0 ∨ ¬ may' ∨ d.pageOn (pgRaml x) = false →
       s.lands (.ramanCalPass x a b) d))

/-- R139 and R165: a calibration command to a CHAN, PHASE or GAUGE page changes nothing, so CAL_COUNT stays as it
is and no request is placed. Choices of the model it rests on: log entry 22. -/
def Obligations.PagesWithNothingToCalibrate : Prop :=
  ∀ (s : State) (k : Link) (p : PageNo) (pg : Page),
    pageOf p.toNat = some pg → pg.block = .chan ∨ pg.block = .phase ∨ pg.block = .gauge →
    s.dev.domainOn pg.domain = true →
    s.lands (.calReq k p) s.dev ∧ s.lands (.ctrlCalFactory k p) s.dev ∧
    (∀ w sys, (busPut sys k (pageBase p.toNat + 0x020) 4 w s.dev).1 = s.dev) ∧
    (∀ x, calPending s.dev x = true ↔
      (calRun s.dev x calLane).pending = true ∨ (calRun s.dev x calDac).pending = true ∨
        (calRun s.dev x calRaman).pending = true)

/-- R45: a bus error leaves no register, shadow or region changed and never arms a page: the access itself leaves
the device as it was; what the bus adds is the record of the error (R42). The record of a bus error (R42): it
touches the two DEV registers, the event pair and the trouble log, and nothing of the rest of the device; with
CTRL off there is no record. -/
def Obligations.BusErrorChangesNothing : Prop :=
  (∀ (k : Link) (a w : Nat) (v : Word) (d : Dev) (e : BusErr),
     ((busPut sysWrite k a w v d).2 = some e → (busPut sysWrite k a w v d).1 = d ∧
       busWrite sysWrite k a w v d = (d.busError a e (linkCode k), some e)) ∧
     ((busGet a w d).2.1 = some e → (busGet a w d).1 = d ∧ (busGet a w d).2.2 = 0 ∧
       (busRead k a w d).1 = d.busError a e (linkCode k))) ∧
  (∀ (d : Dev) (a link : Nat) (e : BusErr),
     let t := d.busError a e link
     (d.domainOn 1 = false → t = d) ∧
     ({ t with regs := d.regs, tr := d.tr } = d) ∧
     (∀ b, b ≠ pageBase pgDev + DEV.BUS_ERR_ADDR.off → b ≠ pageBase pgDev + DEV.BUS_ERR_INFO.LINK.off →
       b ≠ countAddr pgDev 4 → b / 4096 ≠ pgTrouble → rd t.regs b = rd d.regs b))

/-- SLOT_LAUNCH, HOLD_END and RAMAN_PULSE (R57, R62, R68, R274): the scheduled slot launches at its gate edge, a
held one at the end of its hold with the held cycles in its record, and the Raman gate of a slot that fires
Raman opens for WIDTH at the pulse's cycle, which is an edge for the interval units also where it does not;
without a launch path, and with nothing scheduled, nothing happens. What a slot launches (R57, R58, R59, R61,
R82, R93): nothing in a calibration round or a taken slot; light only with the Canary's PERMIT or in step 3 of
a probe; a slot that would have launched without it is DARK; with COH_EN = 0 no tones, with RAMAN_CTRL.EN = 0
no Raman pulse. Choices of the model it rests on: log entries 3, 32, 34, 138. -/
def Obligations.SlotsLaunchAtTheirEdges : Prop :=
  (∀ (s : State) (x : Line),
     let q := s.dev.seq x
     (q.nextEdge = none ∨ launchPath s.dev x = false ∨ q.holdTo.isSome = true → s.lands (.slotLaunch x) s.dev) ∧
     (q.nextEdge = none ∨ launchPath s.dev x = false ∨ q.holdTo = none → s.lands (.holdEnd x) s.dev) ∧
     (∀ t, q.nextEdge = some t → launchPath s.dev x = true → q.holdTo = none → q.nextSlot ≠ 0 →
       s.lands (.slotLaunch x) (slotAt (s.dev.advanceTo t) x q.nextSlot 0 false)) ∧
     (∀ t, q.nextEdge = some t → launchPath s.dev x = true → q.holdTo = none → q.nextSlot = 0 →
       s.lands (.slotLaunch x) (roundBoundary (s.dev.advanceTo t) x t false)) ∧
     (∀ stop b, q.holdTo = some stop → q.nextEdge = some b → launchPath s.dev x = true →
       s.lands (.holdEnd x)
         (slotAt ((((s.dev.advanceTo stop).onSeq x fun q => { q with holdTo := none })).setStatus (pgShot x) 10 false)
           x 0 (stop - b) false)) ∧
     (q.ramanDue = none ∨ (s.dev.line x).lane.spans = [] → s.lands (.ramanPulse x) s.dev) ∧
     (∀ t sp rest, q.ramanDue = some t → (s.dev.line x).lane.spans = sp :: rest →
       let w := shotFld sp.slot.cfg x SHOT.RAMAN_TIMING.WIDTH
       let d := tiuEdge (6 + x.idx) true ((s.dev.advanceTo t).onSeq x fun q => { q with ramanDue := none })
       let fires := bitOf sp.slot.shot.flags 1
       let e := if slotPermit d x then
           (d.onCells x fun c => { c with ramOn := true, ramFrom := t, ramOff := t + w }).onCan x fun c =>
             { c with drive := c.drive.set 3 (true, t) }
         else d
       (fires = false → s.lands (.ramanPulse x) d) ∧
       (fires = true →
         s.lands (.ramanPulse x)
           (e.onRaman x fun r =>
             { r with pulses := r.pulses ++ [{ shot := sp.slot.shot, start := t, time := e.timeNs, cfg := e.regs,
                                               probe := canState e x == 1,
                                               input := (List.range 2).any fun j =>
                                                 act e.regs (pgRaml x) (RAML.INPUT.SEL j) != 0 }],
                      fired := (t, w) :: r.fired.filter fun f => t ≤ f.1 + 2 ^ 25 })))) ∧
  (∀ (d : Dev) (x : Line) (g : Nat),
     let f := firing d x g
     ((d.seq x).calRound = true ∨ (d.seq x).taken = true → f = ⟨0, false, false⟩) ∧
     (f.tones ≠ 0 ∨ f.raman = true → slotPermit d x = true ∧ f.dark = false) ∧
     (f.dark = true → slotPermit d x = false ∧
       ((cohEn d.regs x = true ∧ groupMask d.regs x g ≠ 0) ∨ ramanEn d.regs x = true)) ∧
     (cohEn d.regs x = false → f.tones = 0) ∧ (ramanEn d.regs x = false → f.raman = false) ∧
     (f.tones ≠ 0 → f.tones = groupMask d.regs x g))

/-- TRIG_IN_EDGE (R65, R66, R67): an edge without a line in an external mode changes nothing but the interval
units that take it (R274); on a line in an external mode an edge of the selected polarity that comes too early
counts IGNORED, one with SHOT disabled counts DISABLED, and an accepted one launches its slot, or its round,
16 cycles later. Choices of the model it rests on: log entries 3, 138. -/
def Obligations.TriggerEdgesAreJudged : Prop :=
  ∀ (s : State) (rising : Bool) (x : Line),
    let d := tiuEdge 1 rising s.dev
    let now := s.dev.clk.tick
    let off (e : Dev) (y : Line) : Prop := e.domainOn 10 = false ∨ e.clk.coreOn = false ∨ e.pwr.mode = 6 ∨
      trigMode e.regs y = 0 ∨ (shotFld e.regs y SHOT.TRIG_CTRL.POLARITY == 0) ≠ rising
    let launches (y : Line) : Dev :=
      let e := (d.advanceTo (now + 16)).onSeq y fun q => { q with extWait := false, lastAccept := some now }
      let e := e.setStatus (pgShot y) 8 false
      if (d.seq y).nextSlot = 0 then roundBoundary e y (now + 16) true else slotAt e y (d.seq y).nextSlot 0 true
    let judged (y : Line) (e : Dev) : Prop :=
      (off d y → e = d) ∧
      (¬ off d y → enActive d.regs (pgShot y) = false → e = d.event (pgShot y) 5) ∧
      (¬ off d y → enActive d.regs (pgShot y) = true → edgeAccepted d y now = false → e = d.event (pgShot y) 4) ∧
      (¬ off d y → enActive d.regs (pgShot y) = true → edgeAccepted d y now = true → e = launches y)
    (off d .a → ∃ e, judged .b e ∧ s.lands (.trigInEdge rising) e) ∧
    (∀ e, judged .a e → off e .b → s.lands (.trigInEdge rising) e) ∧
    (edgeAccepted d x now = true → (d.seq x).extWait = true)

/-- SHOT_PREDICT (R72): the plan of the shadow, as if it had applied, shows in TCLEAR_MAX, PERIOD_PRED, SLOT_PRED
and the plan check registers; nothing of the active configuration changes. SHOT_RECORD (R73, R74): the oldest
slot's record leaves 300 cycles after its gate edge, in the order of the slots, and SHOT.SEQ shows it; with
SENSE off the record ends there. The dead time (R59, R60, R61): DEAD_AGE_EXPIRY forces the next round while a
request waits; DEAD_TIME_START opens the dead time of a calibration round for its passes, and serves a
diagnostic request only with 500 cycles left. Choices of the model it rests on: log entries 3, 31, 33. -/
def Obligations.ShotsArePredictedAndRecorded : Prop :=
  (∀ (s : State) (x : Line) (pg : Page), pageOf (pgShot x) = some pg →
     let m := copyPage s.dev.regs pg s.dev.regs
     (s.dev.domainOn 10 = false → s.lands (.shotPredict x) s.dev) ∧
     (s.dev.domainOn 10 = true →
       s.lands (.shotPredict x)
         ((((s.dev.setLiv (pgShot x) SHOT.TCLEAR_MAX (toneClearMax m x)).setLiv (pgShot x) SHOT.PERIOD_PRED
           (planPeriod m x)).setLiv (pgShot x) SHOT.SLOT_PRED (planSlot m x)).putPlanResult x (planCheck m x)))) ∧
  (∀ (s : State) (x : Line),
     ((s.dev.line x).slots = [] → s.lands (.shotRecord x) s.dev) ∧
     (∀ q rest, (s.dev.line x).slots = q :: rest →
       let d := ((s.dev.advanceTo (q.shot.tick + 300)).onLine x fun l => { l with slots := rest }).setLiv
         (pgShot x) SHOT.SEQ q.shot.seq
       (s.dev.domainOn 7 = false → s.lands (.shotRecord x) d) ∧
       (s.dev.domainOn 7 = true → s.lands (.shotRecord x) (passRecord d x q)))) ∧
  (∀ (s : State) (x : Line),
     let q := s.dev.seq x
     (s.dev.domainOn 10 = true → calPending s.dev x = true → q.inDead = false →
       s.lands (.deadAgeExpiry x)
         ((s.dev.advanceSlow (q.deadEnd + 327680)).onSeq x fun q => { q with calForced := true })) ∧
     (calPending s.dev x = false → s.lands (.deadAgeExpiry x) s.dev) ∧
     (q.deadFrom = none → s.lands (.deadTimeStart x) s.dev) ∧
     (∀ f, q.deadFrom = some f → q.calRound = true → q.inDead = false →
       let d := (s.dev.advanceTo f).onLine x fun l =>
         { l with shot := { l.shot with inDead := true }, passAt := f, rpassAt := f }
       ((s.dev.line x).can.diagReq = false ∨ q.taken = true ∨ q.deadTo < f + 500 → s.lands (.deadTimeStart x) d) ∧
       ((s.dev.line x).can.diagReq = true → q.taken = false → f + 500 ≤ q.deadTo →
         s.lands (.deadTimeStart x) (serveDiag d x f))))

/-- GATE_END, GATES_OFF, CLOCK_LOSS and INTERLOCK_RISE (R77, R85, R86, R87, R455): a gate closes at its scheduled
cycle; 12 cycles after its decision a dark line loses its permit and every output; the lost clock keeps all
else as it is; a rising interlock only starts its time and clears the status. With no gate open, no decision
due or no clock nothing happens. INTERLOCK_FALL, CLOCK_RETURN and COPY_MISMATCH (R83, R86, R87, R96): with
EMIT on and the clock present, the interlock's fall raises the cause INTERLOCK on both lines two cycles later,
and without them it only starts its time; the clock's return raises CLOCK_LOSS, and INTERLOCK after it where
the ball fell meanwhile; copies whose words or states differ raise COPY_MISMATCH in the next cycle, with
CFG_FAULT set, counted and logged once. Choices of the model it rests on: log entries 36, 112. -/
def Obligations.SafetyInputsTurnOutputsOff : Prop :=
  (∀ (s : State) (x : Line),
     let c := (s.dev.line x).cells
     (c.soaOn = true →
       s.lands (.gateEnd x .soa)
         (((s.dev.advanceTo c.soaOff).onCells x fun c => { c with soaOn := false }).onCan x fun k =>
           { k with drive := k.drive.set 1 (false, c.soaOff) })) ∧
     (c.ramOn = true →
       s.lands (.gateEnd x .raman)
         (((s.dev.advanceTo c.ramOff).onCells x fun c => { c with ramOn := false }).onCan x fun k =>
           { k with drive := k.drive.set 3 (false, c.ramOff) })) ∧
     (c.soaOn = false → s.lands (.gateEnd x .soa) s.dev) ∧ (c.ramOn = false → s.lands (.gateEnd x .raman) s.dev) ∧
     (∀ d' : Dev,
       let dark (d : Dev) (y : Line) (t : Nat) : Dev :=
         ((d.advanceTo (t + 12)).onCells y fun c =>
           { c with permit := false, soaOn := false, ramOn := false, seedOn := false, boostOn := false }).onCan y fun c =>
             undrive { c with cut := none, diagSlot := none } (t + 12)
       let after (d : Dev) (y : Line) (e : Dev) : Prop :=
         ((d.line y).can.cut = none → e = d) ∧ (∀ t, (d.line y).can.cut = some t → e = dark d y t)
       after s.dev .a d' → ∃ e, after d' .b e ∧ s.lands .gatesOff e) ∧
     (s.dev.clk.coreOn = false → s.lands .clockLoss s.dev) ∧
     (s.dev.clk.coreOn = true →
       s.lands .clockLoss { s.dev with clk := { s.dev.clk with coreOn := false, lost := true } }) ∧
     (s.dev.domainOn 10 = false →
       s.lands .interlockRise
         { s.dev with pins := { s.dev.pins with interlock := true, interlockFrom := s.dev.slow } }) ∧
     (s.dev.domainOn 10 = true →
       s.lands .interlockRise
         ((({ s.dev with pins := { s.dev.pins with interlock := true, interlockFrom := s.dev.slow } } : Dev).setStatus
           (pgCanary .a) 9 false).setStatus (pgCanary .b) 9 false))) ∧
  (∀ (s : State) (x : Line) (second : Bool) (off : BitVec 12) (v : Word),
     let opens (d : Dev) : Dev :=
       raiseCause (((d.setStatus (pgCanary .a) 9 true).setStatus (pgCanary .b) 9 true).advance 2) [.a, .b] 12
     let fallen := { s.dev with pins := { s.dev.pins with interlock := false, interlockFrom := s.dev.slow } }
     (s.dev.domainOn 10 = true → s.dev.clk.coreOn = true → s.lands .interlockFall (opens fallen)) ∧
     (s.dev.domainOn 10 = false ∨ s.dev.clk.coreOn = false → s.lands .interlockFall fallen) ∧
     (s.dev.clk.lost = false → s.lands .clockReturn s.dev) ∧
     (s.dev.clk.lost = true →
       let r := raiseCause { s.dev with clk := { s.dev.clk with coreOn := true, lost := false } } [.a, .b] 13
       (r.pins.interlock = true ∨ r.status (pgCanary .a) 9 = true ∨ r.domainOn 10 = false ∨ r.clk.coreOn = false →
         s.lands .clockReturn r) ∧
       (r.pins.interlock = false → r.status (pgCanary .a) 9 = false → r.domainOn 10 = true → r.clk.coreOn = true →
         s.lands .clockReturn (opens r))) ∧
     (s.dev.domainOn 10 = false → s.lands (.copyMismatch x second off v) s.dev) ∧
     (s.dev.domainOn 10 = true →
       let put (c : Copy) : Copy :=
         if off.toNat = 0x900 then { c with state := v.toNat }
         else { c with cfg := wr c.cfg (pageBase (pgCanary x) + off.toNat) v }
       let d := s.dev.onCan x fun c =>
         if second then { c with copy1 := put c.copy1 } else { c with copy0 := put c.copy0 }
       let m := (d.advance 1).setStatus (pgCanary x) 10 true
       ((d.line x).can.copy0 = (d.line x).can.copy1 → s.lands (.copyMismatch x second off v) d) ∧
       ((d.line x).can.copy0 ≠ (d.line x).can.copy1 →
         (m.status (pgCanary x) 2 = false →
           s.lands (.copyMismatch x second off v)
             (raiseCause ((m.setStatus (pgCanary x) 2 true).eventLog (pgCanary x) 1 sevError off.toNat) [x] 11)) ∧
         (m.status (pgCanary x) 2 = true → s.lands (.copyMismatch x second off v) (raiseCause m [x] 11)))))

/-- What a cause does to the lines (R83): an all-scope cause moves every line that is not LATCHED to LATCHED; a
cause of scope line moves its own line, from any state but LINE_OFF and LATCHED, to LINE_OFF, and the other
line stays unless the two are paired. Choices of the model it rests on: log entry 30. -/
def Obligations.CausesLatchTheLines : Prop :=
  ∀ (d : Dev) (x : Line) (code : Nat), d.domainOn 10 = true →
    (lineScope code = false →
      canState (raiseCause d [x] code) .a = 4 ∧ canState (raiseCause d [x] code) .b = 4) ∧
    (code = 1 ∨ code = 2 →
      canState (raiseCause d [x] code) x = (if canState d x = 4 then 4 else 3) ∧
      (paired d = false → canState (raiseCause d [x] code) x.other = canState d x.other) ∧
      (paired d = true →
        canState (raiseCause d [x] code) x.other = (if canState d x.other = 4 then 4 else 3))) ∧
    (∀ y z c', canState d y = 4 → canState (raiseCause d [z] c') y = 4)

/-- The colour loops (R79, R80, R81): a thermistor code in range joins the mean of the loop's next run and clears
the fault; a code out of range, the first time, sets THERM_FAULT, counts it, zeroes the drive and raises
THERMISTOR; LOCK_FAIL sets after 120 s without lock and not before; a run of a loop in fault, or of a hot
device, zeroes the drive; with EMIT off neither a sample nor a run does anything. The TEC controller (R80): a
run of a loop that is not in fault and holds no lock drives its TEC at u = (KP × e + (I >> 16)) >> 8 clamped
to ±DUTY_MAX, e the mean of the readings less the set point. Choices of the model it rests on: log entries 3,
123, 124. -/
def Obligations.ColourLoopsRun : Prop :=
  (∀ (s : State) (x : Line) (l : Laser) (code : BitVec 16),
     let p := pgEmit x
     let i := laserIdx l
     let bad : Prop := 65000 < code.toNat ∨ code.toNat < 500
     let on : Prop := s.dev.domainOn 10 = true
     (¬ on → s.lands (.thermistorSample x l code) s.dev ∧ s.lands (.colourLoopRun x l) s.dev) ∧
     (on → ¬ bad →
       s.lands (.thermistorSample x l code)
         ((s.dev.setStatus p (12 + i) false).onLoop x l fun r =>
           { r with count := r.count + 1,
                    sum := r.sum + thermTemp (act s.dev.regs p (EMIT.THERM_REF.R_REF i))
                      (act s.dev.regs p (EMIT.THERM.R0 i)) (act s.dev.regs p (EMIT.THERM.B i)) code.toNat })) ∧
     (on → bad → s.dev.status p (12 + i) = true → s.lands (.thermistorSample x l code) s.dev) ∧
     (on → bad → s.dev.status p (12 + i) = false →
       s.lands (.thermistorSample x l code)
         (raiseCause (((s.dev.setStatus p (12 + i) true).event p 5).setLiv p (EMIT.DUTY i) 0) [x] 10)) ∧
     (on →
       let d := s.dev.advanceTo (loopOf s.dev x l).nextRun
       s.dev.pwr.hot = true ∨ d.status p (12 + i) = true →
       s.lands (.colourLoopRun x l)
         ((d.onLoop x l fun r => { r with sum := 0, count := 0, nextRun := d.clk.tick + 312500 }).setLiv p
           (EMIT.DUTY i) 0)) ∧
     ((loopOf s.dev x l).enabled = none → s.lands (.lockFail x l) s.dev) ∧
     (∀ n, (loopOf s.dev x l).enabled = some n →
       let e := s.dev.advanceSlow (n + 120 * 32768)
       (laserLocked e x i = false → s.lands (.lockFail x l) (e.setStatus p (14 + i) true)) ∧
       (laserLocked e x i = true → s.lands (.lockFail x l) e))) ∧
  (∀ (s : State) (x : Line) (l : Laser),
     let p := pgEmit x
     let i := laserIdx l
     let r := loopOf s.dev x l
     let d := s.dev.advanceTo r.nextRun
     s.dev.domainOn 10 = true → s.dev.pwr.hot = false → d.status p (12 + i) = false → r.count ≠ 0 →
     act d.regs p (EMIT.TEC_COMP.COMP_SRC i) = 31 → d.status p (8 + i) = false → r.inRuns + 1 < 2000 →
     r.wasLocked = false →
     ∃ t, exec (.colourLoopRun x l) s = .next t ∧
       let e := roundHalfAway r.sum r.count - actS d.regs p (EMIT.TEC_SET.SET i)
       let dmax : Int := act d.regs p (EMIT.LIMIT.DUTY_MAX i)
       let u := asr ((act d.regs p (EMIT.LOOP.KP i) : Int) * e + asr r.integ 16) 8
       let w := (EMIT.DUTY i).width
       livS t.dev.regs p (EMIT.DUTY i) = signed w (unsigned w (clamp (-dmax) dmax u)) ∧
       (loopOf t.dev x l).nextRun = d.clk.tick + 312500 ∧ (loopOf t.dev x l).count = 0)

/-- The sense checks (R78, R85, R92): a reading in its window changes nothing; a driven steady emitter below
SNS_MIN raises SENSE_LOW's cause, above SNS_MAX the other; an emitter that is not driven and reads above
SNS_MIN is stuck on, once; a gated emitter is checked 120 cycles into a gate of at least 125, outside its
diagnostic pulse; a diagnostic pulse below its threshold raises DIAG_FAIL. Either copy's limits decide (R96),
and a cause follows the ball by 3 cycles. The checks of lit slots (R83, R85, R88, R89): light above OUT_MAX
raises OVERPOWER; light on a line dark for 10 ms raises STUCK_LIGHT; a witness count below WIT_COUNT fails the
oldest slot without a verdict, and every verdict shows its count; a crossing of REFL_MAX inside the window of
the newest slot fails it once, and outside it changes nothing; a crossing is an edge of the interval units'
comparators first (R274). Choices of the model it rests on: log entries 3, 35, 138. -/
def Obligations.SenseReadingsAndLitSlots : Prop :=
  (∀ (s : State) (x : Line) (mV : Nat),
     let p := pgCanary x
     let k := (s.dev.line x).can
     let cells := (s.dev.line x).cells
     let dr (i : Nat) := k.drive.getD i (false, 0)
     let copies : List RegMap := [k.copy0.cfg, k.copy1.cfg]
     let below (f : Fld) : Bool := copies.any fun m => mV < liv m p f
     let above (f : Fld) : Bool := copies.any fun m => liv m p f < mV
     let cause (d : Dev) (code : Nat) : Dev := raiseCause (d.advance 3) [x] code
     let fail (d : Dev) (code : Nat) : Dev := cause (d.setLiv p CANARY.VERDICT (liv d.regs p CANARY.VERDICT ||| 1)) code
     let window (d : Dev) (i : Nat) : Dev :=
       if below (CANARY.SENSE.SNS_MIN i) then fail d 5 else if above (CANARY.SENSE.SNS_MAX i) then fail d 6 else d
     (∀ e, s.dev.domainOn 10 = false ∨ s.dev.clk.tick < (dr (emitterIdx e)).2 + 32768 →
       s.lands (.senseCheck x e mV) s.dev) ∧
     (∀ e, s.dev.domainOn 10 = true → (dr (emitterIdx e)).2 + 32768 ≤ s.dev.clk.tick →
       ((dr (emitterIdx e)).1 = true →
         (e = .seed ∨ e = .boost → s.lands (.senseCheck x e mV) (window s.dev (emitterIdx e))) ∧
         (e = .soa ∨ e = .raman → s.lands (.senseCheck x e mV) s.dev)) ∧
       ((dr (emitterIdx e)).1 = false →
         let i := emitterIdx e
         let high := above (CANARY.SENSE.SNS_MIN i)
         let d := s.dev.onCan x fun c => { c with stuckOn := c.stuckOn.set i high }
         s.lands (.senseCheck x e mV) (if high = true ∧ k.stuckOn.getD i false = false then cause d 7 else d))) ∧
     (let d := (s.dev.advanceTo (cells.soaFrom + 120)).onCan x fun k => { k with needSoa := false }
      let skip : Prop := cells.soaOn = false ∨ inDiag s.dev x .soa = true ∨ cells.soaOff < cells.soaFrom + 125
      (skip → s.lands (.gatedSenseCheck x .soa mV) s.dev) ∧ (¬ skip → s.lands (.gatedSenseCheck x .soa mV) (window d 1))) ∧
     (let d := (s.dev.advanceTo (cells.ramFrom + 120)).onCan x fun k => { k with needRam := false }
      let skip : Prop := cells.ramOn = false ∨ inDiag s.dev x .raman = true ∨ cells.ramOff < cells.ramFrom + 125
      (skip → s.lands (.gatedSenseCheck x .raman mV) s.dev) ∧
      (¬ skip → s.lands (.gatedSenseCheck x .raman mV) (window d 3))) ∧
     (k.diagSlot = none → ∀ g, s.lands (.diagSample x g mV) s.dev) ∧
     (∀ t, k.diagSlot = some t →
       (k.diagSoa = false → s.lands (.diagSample x .soa mV) s.dev) ∧
       (k.diagRam = false → s.lands (.diagSample x .raman mV) s.dev) ∧
       (k.diagSoa = true →
         let d := s.dev.advanceTo (t + 120)
         s.lands (.diagSample x .soa mV) (if below CANARY.DIAG_SNS.DIAG_SNS_SOA then cause d 8 else d)) ∧
       (k.diagRam = true →
         let d := s.dev.advanceTo (t + 370)
         s.lands (.diagSample x .raman mV) (if below CANARY.DIAG_SNS.DIAG_SNS_RAM then cause d 8 else d)))) ∧
  (∀ (s : State) (x : Line) (cycle mV : Nat) (steps : List (Nat × Nat)),
     let p := pgCanary x
     let c := (s.dev.line x).can
     let copies (d : Dev) : List RegMap := [(d.line x).can.copy0.cfg, (d.line x).can.copy1.cfg]
     let stuck : Bool := !canLit s.dev x && c.darkFrom + 6250000 ≤ s.dev.clk.tick &&
       (copies s.dev).any fun m => liv m p CANARY.OUT.DARK_MAX < mV
     let d := s.dev.onCan x fun c => { c with stuckLight := stuck }
     let bright : Bool := (copies s.dev).any fun m => liv m p CANARY.OUT.OUT_MAX < mV
     let shows (d : Dev) (v : Nat) : Dev := d.setLiv p CANARY.VERDICT (liv d.regs p CANARY.VERDICT ||| v)
     (s.dev.domainOn 10 = false → s.lands (.monOutCrossing x mV) s.dev) ∧
     (s.dev.domainOn 10 = true →
       s.lands (.monOutCrossing x mV)
         (if bright then raiseCause (d.advance 3) [x] 3
          else if stuck then raiseCause (d.advance 3) [x] 4 else d)) ∧
     (c.lit.find? (fun l => !l.judged) = none → s.lands (.witnessVerdict x steps) s.dev) ∧
     (∀ l, c.lit.find? (fun l => !l.judged) = some l →
       let e := (s.dev.advanceTo (l.launch + witnessEnd x l c.copy0.cfg + 3)).onCan x
         (onLit l.launch fun l => { l with judged := true })
       let e := e.setLiv p CANARY.WIT_SEEN (witnessCount x l steps c.copy0.cfg)
       let few : Bool := (copies e).any fun m => witnessCount x l steps m < liv m p CANARY.WIT_COUNT
       let fails : Prop := canLit e x = true ∧ (e.line x).can.noWitness = false ∧ few = true
       (fails → s.lands (.witnessVerdict x steps) (slotFails (shows e 2) x l 1)) ∧
       (¬ fails → s.lands (.witnessVerdict x steps) e)) ∧
     (c.lit = [] → s.lands (.monBackCrossing x cycle mV) (tiuTap x mV s.dev.clk.tick s.dev)) ∧
     (∀ l, c.lit.getLast? = some l →
       let u := tiuTap x mV (l.launch + cycle) s.dev
       let crosses : Prop := ((copies u).any fun m => decide (liv m p CANARY.BLANK ≤ cycle) &&
           cycle ≤ liv m p CANARY.OBS_END && liv m p CANARY.BACK.REFL_MAX < mV) = true ∧
         (∀ t, l.next = some t → l.launch + cycle < t) ∧ l.reflFail = false
       let e := u.advanceTo (l.launch + cycle + 3)
       (¬ crosses → s.lands (.monBackCrossing x cycle mV) u) ∧
       (crosses → canLit e x = false → s.lands (.monBackCrossing x cycle mV) e) ∧
       (crosses → canLit e x = true →
         s.lands (.monBackCrossing x cycle mV)
           (slotFails (shows (e.onCan x (onLit l.launch fun l => { l with reflFail := true })) 4) x l 2))))

/-- Probes (R82, R91, R93, R94, R95, R97): a line in OFF with CANARY enabled enters PROBE in an emitting mode, or
in a service session; the booster rises SEED_SETTLE after the seed's lock; the probe passes to PERMIT after
RESTART_LEN; the automatic probe enters from LINE_OFF at its slow edge; RESTART that R94 refuses counts and
changes nothing else, an accepted one enters PROBE, or OFF where the line may not emit; a diagnostic request
takes the next slot. Choices of the model it rests on: log entries 3, 112, 122. -/
def Obligations.ProbesReachPermit : Prop :=
  ∀ (s : State) (k : Link) (x : Line) (key : BitVec 16),
    let c := (s.dev.line x).can
    let p := pgCanary x
    let may : Prop := emittingMode s.dev = true ∨ (s.dev.pwr.mode = 7 ∧ c.session.isSome = true)
    (s.dev.domainOn 10 = true → canState s.dev x = 0 → enActive s.dev.regs p = true → may →
      s.lands (.probeStart x) (enterProbe s.dev x)) ∧
    (s.dev.domainOn 10 = false ∨ canState s.dev x ≠ 0 ∨ enActive s.dev.regs p = false ∨ ¬ may →
      s.lands (.probeStart x) s.dev) ∧
    (c.settle = none ∨ canState s.dev x ≠ 1 ∨ c.step ≠ 1 ∨ laserLocked s.dev x 0 = false →
      s.lands (.seedSettled x) s.dev) ∧
    (∀ n, c.settle = some n → canState s.dev x = 1 → c.step = 1 → laserLocked s.dev x 0 = true →
      let d := s.dev.advanceSlow (n + canCfg s.dev x CANARY.SEED_SETTLE)
      let on := setptOn d x 2
      s.lands (.seedSettled x)
        ((d.onCells x fun c => { c with boostOn := on }).onCan x fun c =>
          { c with step := 3, stepEnd := d.slow + canCfg d x CANARY.RESTART_LEN, settle := none,
                   drive := if on then c.drive.set 2 (true, d.clk.tick) else c.drive })) ∧
    (canState s.dev x = 1 → c.step = 3 →
      s.lands (.probePass x)
        (((setCanState (s.dev.advanceSlow c.stepEnd) x 2).onCan x fun c => { c with step := 0 }).event p 10)) ∧
    (canState s.dev x ≠ 1 ∨ c.step ≠ 3 → s.lands (.probePass x) s.dev) ∧
    (∀ n, c.probeDue = some n → canState s.dev x = 3 → canCfg s.dev x CANARY.PROBES.AUTO = 1 →
      emittingMode s.dev = true → s.lands (.autoProbe x) (enterProbe (s.dev.advanceSlow n) x)) ∧
    (c.probeDue = none ∨ canState s.dev x ≠ 3 ∨ canCfg s.dev x CANARY.PROBES.AUTO ≠ 1 ∨ emittingMode s.dev = false →
      s.lands (.autoProbe x) s.dev) ∧
    (s.dev.domainOn 10 = false → s.lands (.restart k x key) (s.dev.busError (pageBase p + 0x980) .domainOff (linkCode k))) ∧
    (s.dev.domainOn 10 = true →
      (restartOk s.dev x key.toNat = false → s.lands (.restart k x key) (s.dev.event p 11)) ∧
      (restartOk s.dev x key.toNat = true → enActive s.dev.regs p = true → emittingMode s.dev = true →
        s.lands (.restart k x key) (enterProbe s.dev x)) ∧
      (restartOk s.dev x key.toNat = true → enActive s.dev.regs p = false ∨ emittingMode s.dev = false →
        s.lands (.restart k x key) (toOff s.dev x))) ∧
    (s.dev.domainOn 10 = true → 1024 ≤ liv s.dev.regs p CANARY.DIAG_AGE → c.diagReq = false →
      s.lands (.diagRequest x)
        ((s.dev.onCan x fun c => { c with diagReq := true }).onSeq x fun q =>
          { q with taken := !(trigMode s.dev.regs x == 0 && calDue s.dev x) })) ∧
    (s.dev.domainOn 10 = false ∨ liv s.dev.regs p CANARY.DIAG_AGE < 1024 ∨ c.diagReq = true →
      s.lands (.diagRequest x) s.dev)

/-- Service sessions (R97): SERVICE_OPEN with its key in Service mode, a high interlock, 1 to 60 s and a dark line
opens a session for its seconds and lets the line probe; anything else changes nothing; SERVICE_STOP with the
key and the end of the seconds end it with the cause SERVICE_END; with EMIT off both commands are bus errors.
Choices of the model it rests on: log entry 36. -/
def Obligations.ServiceSessionsOpenAndEnd : Prop :=
  ∀ (s : State) (k : Link) (x : Line) (key : BitVec 16) (nw : Bool) (sec : BitVec 6),
    let c := (s.dev.line x).can
    let on : Prop := s.dev.domainOn 10 = true
    let ok : Bool := key == 0x5356 && 1 ≤ sec.toNat && sec.toNat ≤ 60 && s.dev.pwr.mode == 7 && s.dev.pins.interlock &&
      (canState s.dev x == 0 || canState s.dev x == 3)
    let stopped (d : Dev) : Dev :=
      ((raiseCause d [x] 15).setStatus (pgCanary x) 11 false).onCan x fun c =>
        { c with session := none, noWitness := false }
    (¬ on →
      s.lands (.serviceOpen k x key nw sec) (s.dev.busError (pageBase (pgCanary x) + 0x984) .domainOff (linkCode k)) ∧
      s.lands (.serviceStop k x key) (s.dev.busError (pageBase (pgCanary x) + 0x984) .domainOff (linkCode k))) ∧
    (on → ok = false → s.lands (.serviceOpen k x key nw sec) s.dev) ∧
    (on → ok = true → enActive s.dev.regs (pgCanary x) = false →
      s.lands (.serviceOpen k x key nw sec)
        ((((toOff s.dev x).onCan x fun c =>
          { c with session := some (s.dev.slow + sec.toNat * 32768), noWitness := nw })).setStatus (pgCanary x) 11 true)) ∧
    (on → ok = true → enActive s.dev.regs (pgCanary x) = true →
      s.lands (.serviceOpen k x key nw sec)
        (enterProbe ((((toOff s.dev x).onCan x fun c =>
          { c with session := some (s.dev.slow + sec.toNat * 32768), noWitness := nw })).setStatus (pgCanary x) 11 true)
          x)) ∧
    (on → key.toNat ≠ 0x5356 ∨ s.dev.pwr.mode ≠ 7 ∨ c.session = none → s.lands (.serviceStop k x key) s.dev) ∧
    (on → key.toNat = 0x5356 → s.dev.pwr.mode = 7 → c.session.isSome = true →
      s.lands (.serviceStop k x key) (stopped s.dev)) ∧
    (c.session = none → s.lands (.serviceEnd x) s.dev) ∧
    (∀ n, c.session = some n → s.lands (.serviceEnd x) (stopped (s.dev.advanceSlow n)))

/-- Lanes (R101, R105, R106, R107, R112): the slot word of the oldest open slot shows 19 cycles after the slot,
its codes join the round's sums, and the round's last slot publishes them; in Replay and with no open slot
nothing happens; a stuck core of an enabled lane that digitises its balls sets the lane's status and counts
once; the PLL's loss and lock count and show on both powered LANE pages; a stale die temperature sets
TEMP_STALE and counts once. LANE_PLL_LOSS, LANE_PLL_LOCK and TRIM_TEMP_READ (R106, R112, R229): the loss
counts and clears PLL_LOCKED on each powered LANE page; the lock, with the reference and EMIT on, sets it
again, keeps the interval of the loss and starts the count of stuck samples anew; a first stale temperature
reading sets TEMP_STALE and counts, further ones change nothing, and with both pages off none does; a fresh
one joins the mean of eight, which shows as DIE_TEMP and sets the targets. Choices of the model it rests on:
log entries 3, 127. -/
def Obligations.LanesShowTheirSlots : Prop :=
  (∀ (s : State) (x : Line) (v : Lanes) (core : Fin 8),
     let j := core.val / 2
     let p := pgLane x
     let l := (s.dev.line x).lane
     (s.dev.pwr.mode = 6 ∨ oldestOpen l.spans = none → s.lands (.slotWord x v) s.dev) ∧
     (∀ sp, s.dev.pwr.mode ≠ 6 → oldestOpen l.spans = some sp →
       let stop := sp.stop.getD 0
       let d := s.dev.advanceTo (stop + 19)
       let lost := d.pll.lostIn sp.slot.shot.tick stop
       let codes := (List.range 4).map (slotCodes sp.slot x lost v)
       let ovr := (codes.zipIdx.map fun e => if e.1.any isOvr then 2 ^ e.2 else 0).sum
       let w := slotWordOf sp.slot x lost l.stuckSlot ovr
       let counted : Prop := sp.slot.shot.flags &&& 0x8C = 0
       let last : Prop := sp.slot.shot.group + 1 = act sp.slot.cfg (pgShot x) SHOT.ROUND_CTRL.N_GROUPS
       let sums := if sp.slot.shot.group = 0 then List.replicate 4 {} else l.acc
       let sums' := if counted then
           sums.zipIdx.map fun e => e.1.add (statWindow sp.slot.cfg x (codes.getD e.2 [])) else sums
       let e := ((d.onLane x fun l =>
           { l with spans := setWordOf l.spans sp.slot.shot.seq w, stuckSlot := l.stuck, acc := sums' }).setLiv p
             LANE.SLOT_WORD w).setLiv p LANE.SLOT_SEQ sp.slot.shot.seq
       let e := if ovr = 0 then e else e.event p 4
       (last → s.lands (.slotWord x v) (publishStats e x)) ∧ (¬ last → s.lands (.slotWord x v) e)) ∧
     (s.dev.pageOn p = true → s.dev.pll.locked = true → laneEnabled s.dev.regs x j = true →
       laneInput s.dev.regs x j % 2 = 0 →
       let d := (s.dev.onLane x fun l =>
         { l with stuck := l.stuck.set core.val true, stuckSlot := l.stuckSlot.set core.val true }).setStatus p (12 + j)
           true
       s.lands (.coreStuck x core) (if laneStuck l j then d else d.event p 5)) ∧
     (s.dev.pageOn p = false ∨ s.dev.pll.locked = false ∨ laneEnabled s.dev.regs x j = false ∨
         laneInput s.dev.regs x j % 2 ≠ 0 → s.lands (.coreStuck x core) s.dev) ∧
     (let d := s.dev.onLane x fun l => { l with stuck := l.stuck.set core.val false }
      (d.pageOn p = false → s.lands (.stuckCleared x core) d) ∧
      (d.pageOn p = true → s.lands (.stuckCleared x core) (d.setStatus p (12 + j) (laneStuck (d.line x).lane j))))) ∧
  (∀ (s : State) (x : Line),
     (s.dev.pll.locked = true →
       let d := { s.dev with pll := { s.dev.pll with locked := false, since := s.dev.clk.tick } }
       let lost (d : Dev) (y : Line) : Dev :=
         if d.pageOn (pgLane y) = true then (d.setStatus (pgLane y) 20 false).event (pgLane y) 6 else d
       s.lands .lanePllLoss (lost (lost d .a) .b)) ∧
     (s.dev.pll.locked = false → s.dev.pins.refPresent = true → s.dev.domainOn 10 = true →
       let d := { s.dev with pll :=
         { locked := true, since := s.dev.clk.tick,
           losses := ((s.dev.pll.since, s.dev.clk.tick) :: s.dev.pll.losses).take 64 } }
       let back (d : Dev) (y : Line) : Dev :=
         restartStuck (if d.pageOn (pgLane y) = true then d.setStatus (pgLane y) 20 true else d) y
       s.lands .lanePllLock (back (back d .a) .b)) ∧
     (s.dev.pll.locked = false → s.lands .lanePllLoss s.dev) ∧
     (s.dev.pll.locked = true ∨ s.dev.pins.refPresent = false ∨ s.dev.domainOn 10 = false →
       s.lands .lanePllLock s.dev) ∧
     (s.dev.pageOn (pgTrim x) = false → s.dev.pageOn (pgRaml x) = false → s.lands (.trimTempRead x) s.dev) ∧
     (let fresh (k : TrimKind) : Prop := ∃ c t, s.dev.hk.mirror.getD (1 + x.idx) none = some (c, t) ∧
         ∀ t0, (trimSt s.dev x k).lastTick = some t0 → t0 < t
      let stale (d : Dev) (p b e : Nat) : Dev :=
        if d.pageOn p = false ∨ d.status p b = true then d else (d.setStatus p b true).event p e
      (¬ fresh trimKind → ¬ fresh ramlKind →
        s.lands (.trimTempRead x) (stale (stale s.dev (pgTrim x) 9 6) (pgRaml x) 14 7))) ∧
     (∀ c t, s.dev.hk.mirror.getD (1 + x.idx) none = some (c, t) →
       let mean (k : TrimKind) : Int :=
         let temps := (hkDieTemp c :: (trimSt s.dev x k).temps).take 8
         (2 * temps.sum + (temps.length : Int)).fdiv (2 * (temps.length : Int))
       let took (k : TrimKind) (b : Nat) : Dev :=
         (s.dev.onTrim x k fun r =>
           { r with temps := (hkDieTemp c :: r.temps).take 8, lastTick := some t }).setStatus (k.page x) b false
       (s.dev.pageOn (pgTrim x) = true → s.dev.pageOn (pgRaml x) = false →
         (∀ t0, (trimSt s.dev x trimKind).lastTick = some t0 → t0 < t) →
         s.lands (.trimTempRead x)
           (showAdvised (computeTargets ((took trimKind 9).setLivS (pgTrim x) TRIM.DIE_TEMP (mean trimKind)) x trimKind)
             x trimKind)) ∧
       (s.dev.pageOn (pgTrim x) = false → s.dev.pageOn (pgRaml x) = true →
         (∀ t0, (trimSt s.dev x ramlKind).lastTick = some t0 → t0 < t) →
         s.lands (.trimTempRead x)
           (computeTargets ((took ramlKind 14).setLivS (pgRaml x) RAML.DIE_TEMP (mean ramlKind)) x ramlKind))))

/-- CHAN_BLOCK (R135, R136): with no unfinished trace of the tone nothing happens; a block appends its bins, up to
1,024, behind its header, holds the tone's kernel until they have left, and the last one ends its trace.
POINT_WORD (R155, R163): no word leaves before the shot's bins are there and the shots before it have passed
the point; a point beyond the capacity leaves its word NOT VALID for it, 40 cycles after its last bin, and the
shot's next point follows. The out-of-service map (R158): a command with SET or CLEAR replaces the pending one
and shows OOS_PEND until the next boundary, which OOS_APPLIED is on an idle line: its clipped range changes,
points back in service restart, and OOS_APPLIED counts; a write while PHASE is off is a bus error. Choices of
the model it rests on: log entries 14, 39, 129, 130, 146. -/
def Obligations.BinsPointsAndOutOfService : Prop :=
  (∀ (s : State) (x : Line) (t : Fin 8) (v : Lanes),
     (traceShot s.dev x t.val = none → s.lands (.chanBlock x t v) s.dev) ∧
     (∀ q r, traceShot s.dev x t.val = some q → q.traces.find? (fun r => r.tone == t.val) = some r →
       let m := q.slot.cfg
       let len := shotFld m x SHOT.LINE_LEN
       let b0 := 1024 * r.next
       let count := min 1024 (len - b0)
       let lk := kernelLen m x t.val
       let zo := act m (pgChan x) CHAN.ZERO
       let a : Int := 4 * (q.slot.shot.tick : Int) + 8 * (b0 : Int) + (zo : Int) - 128
       let n := 8 * (count + lk - 2) + 257
       let start := max (q.slot.shot.tick + (8 * (b0 + count + lk - 2) + zo + 128) / 4 + 2086) r.free
       let cov := coveredBy s.dev x a n
       let code (j : Nat) :=
         if s.dev.pwr.mode = 6 then replayCodes s.dev x j a n else windowCodes s.dev x a cov j ((laneOf v j).take n)
       let bins := (polBins m x t.val 0 b0 count cov (code 0) (code 1)).zip
         (polBins m x t.val 1 b0 count cov (code 2) (code 3))
       let passed (last : Bool) : Trace :=
         { r with next := r.next + 1, free := start + count, starts := r.starts ++ [start], last := last,
                  bins := r.bins ++ bins }
       let shown (d : Dev) (last : Bool) : Dev :=
         (showHead d x (blockHead x q.slot t r.next count len false)).onShot x q.slot.shot.seq fun p =>
           { p with traces := p.traces.map fun e => if e.tone = t.val then passed last else e }
       (b0 + count < len → s.lands (.chanBlock x t v) (shown (s.dev.reach start) false)) ∧
       (len ≤ b0 + count →
         s.lands (.chanBlock x t v)
           (traceDone (shown (s.dev.reach (start + count - 1)) true) x m q.slot.shot.seq (passed true))))) ∧
  (∀ (s : State) (x : Line) (seq : Word) (e1 e2 : SramEcc),
     (findShot s.dev x seq.toNat = none → s.lands (.pointWord x seq e1 e2) s.dev) ∧
     (∀ q, findShot s.dev x seq.toNat = some q →
       let before := (s.dev.line x).phase.shots.takeWhile fun r => r.slot.shot.seq != seq.toNat
       (q.gap = true ∨ pointCount q.slot.cfg x ≤ q.next ∨ binsReady q x q.next = false ∨
           waitsBehind before x q.next = true → s.lands (.pointWord x seq e1 e2) s.dev) ∧
       (q.gap = false → q.next < pointCount q.slot.cfg x → binsReady q x q.next = true →
         waitsBehind before x q.next = false →
         s.lands (.pointWord x seq e1 e2)
           (settleShots (pointWordOf (catchUp x q.next before (s.dev.reach (lastBinCycle q x q.next + 40))) x q q.next
             e1 e2) x)) ∧
       (q.gap = false → q.next < pointCount q.slot.cfg x → binsReady q x q.next = true → before = [] →
         capacityOf q.slot.cfg x ≤ q.next →
         let r : PtResult := { pt := {}, cause := 1 }
         let w := gaugeWord r (scaledValue q x r)
         let q' : PhaseShot := { q with next := q.next + 1, clipped := q.clipped + bit (scaledValue q x r).2 }
         let d := tapPhase (s.dev.reach (lastBinCycle q x q.next + 40)) x q.slot.shot.seq q.next
         let d := (pfPoint (sendWord d x q q.next w) x q q.next (classOf w) e2).onShot x q.slot.shot.seq fun _ => q'
         s.lands (.pointWord x seq e1 e2)
           (settleShots (if q.next + 1 = pointCount q.slot.cfg x then shotComplete d x q' else d) x)))) ∧
  (∀ (s : State) (k : Link) (x : Line),
     let p := pgPhase x
     let cmd (b : Bool) : Dev :=
       endReel ((s.dev.onPhase x fun q =>
         { q with oos := some (b, liv s.dev.regs p PHASE.OOS_FIRST, liv s.dev.regs p PHASE.OOS_COUNT) }).setStatus p 10
           true) x 3
     (s.dev.pageOn p = true → s.lands (.oosSet k x) (cmd true) ∧ s.lands (.oosClear k x) (cmd false)) ∧
     (s.dev.pageOn p = false →
       s.lands (.oosSet k x) (s.dev.busError (pageBase p + 0x988) .domainOff (linkCode k)) ∧
       s.lands (.oosClear k x) (s.dev.busError (pageBase p + 0x988) .domainOff (linkCode k))) ∧
     ((s.dev.line x).phase.oos = none ∨ launching s.dev x = true → s.lands (.oosApplied x) s.dev) ∧
     (∀ set first count, (s.dev.line x).phase.oos = some (set, first, count) → launching s.dev x = false →
       let epoch (d : Dev) : Nat := (liv d.regs (pgPhase x) PHASE.EPOCH + 65535) % 65536
       let point (d : Dev) (p : Nat) : Dev :=
         let e := setOosBit d x p set
         if oosBit d x p = true ∧ set = false then writePt e x p { readPt e x p with epoch := epoch e } else e
       let d := (oosRange s.dev.regs x first count).foldl point s.dev
       s.lands (.oosApplied x)
         ((showOos ((d.onPhase x fun q => { q with oos := none }).setStatus p 10 false) x).event p 7)) ∧
     ((s.dev.line x).phase.oosClear = false → s.lands (.oosMapClear x) s.dev) ∧
     ((s.dev.line x).phase.oosClear = true →
       let base := sramKey 264 (x.idx * 8192)
       let words := s.dev.sram.words.filter fun e => e.1 < base || base + 8192 ≤ e.1
       let d := { s.dev with sram := { s.dev.sram with words := words } }
       s.lands (.oosMapClear x) (showOos (d.onPhase x fun q => { q with oosClear := false }) x)))

/-- FRAME_RELEASE and freezes (R173, R174, R176, R185, R188): nothing is released without a ready frame, and a
frame cut short, of gap shots alone or held is dropped with its gap record and the next one looked at; a
trigger freeze takes the oldest request, from LAG_EFF frames on for TRIG_FRAMES frames, in its condition's
slot, and extends the same range that still runs; a host freeze takes its clipped range and frames from the
same lag, and its clear ends it. ZONE_REDUCTION and TRIGGER_RECORD (R201, R207, R208, R209): without a frame
to reduce nothing happens; a frame without enabled zones goes to its combinations; a reduction adds its record
at REL + 24 + floor(rank / 16), decides its conditions and shows the probed zone, and an upset accumulator is
cleared, counted and marks the record; at REL + 64 a frame leaves its place: its met conditions give a record,
their actions and their freeze requests, its released ones a record where they ask for it. Choices of the
model it rests on: log entries 40, 41, 42, 43. -/
def Obligations.FramesAndZones : Prop :=
  (∀ (s : State) (k : Link) (x : Line) (i : Fin 4),
     let p := pgPfilt x
     let pf := (s.dev.line x).pf
     ((s.dev.domainOn 7 = false ∨ pf.frames = []) → s.lands (.frameRelease x) s.dev) ∧
     (∀ f rest, s.dev.domainOn 7 = true → pf.frames = f :: rest →
       let busy : Bool := (s.dev.line x).phase.shots.any fun q =>
         q.frame == some f.seq && q.next < pointCount q.slot.cfg x
       let drop (d : Dev) (cause : Nat) (own : Bool) : Dev := releaseNext x rest (dropFrame d x f cause own)
       (f.abandon = true → busy = true → s.lands (.frameRelease x) s.dev) ∧
       (f.abandon = true → busy = false → s.lands (.frameRelease x) (drop s.dev f.endCause false)) ∧
       (f.abandon = false → f.ready = none → s.lands (.frameRelease x) s.dev) ∧
       (∀ t, f.abandon = false → f.ready = some t →
         (f.traced = false → s.lands (.frameRelease x) (drop (s.dev.advanceTo (t + 64)) 5 true)) ∧
         (f.traced = true → bitOf f.held 0 = true →
           s.lands (.frameRelease x) (drop (s.dev.advanceTo (t + 64)) 8 false)) ∧
         (f.traced = true → bitOf f.held 0 = false → s.lands (.frameRelease x) (releaseFrame s.dev x f t)))) ∧
     (pf.freezes = [] → s.lands (.freezeReq x) s.dev) ∧
     (∀ r rest, pf.freezes = r :: rest →
       let w (j : Nat) := freezeWord s.dev x r.cond j
       let start := seqAdd r.frame pf.lag
       let stop := seqAdd start (trigFrames s.dev.regs x)
       let d := s.dev.onPf x fun q => { q with freezes := rest }
       let takes (a b : Nat) : Prop :=
         s.lands (.freezeReq x) (showFrozen ((setFreeze d x r.cond [r.first, r.count, a, b]).event p 6) x)
       let extends' : Bool := freezeOpen d x r.cond r.frame && (w 0 == r.first && w 1 == r.count)
       (extends' = false → takes start stop) ∧
       (extends' = true → takes (freezeWord d x r.cond 2) (if seqLt (w 3) stop = true then stop else w 3))) ∧
     (s.dev.pageOn p = false →
       let e := s.dev.busError (pageBase p + 0x98C) .domainOff (linkCode k)
       s.lands (.hostFreezeSet k x i) e ∧ s.lands (.hostFreezeClear k x i) e) ∧
     (s.dev.pageOn p = true →
       let first := liv s.dev.regs p PFILT.HFRZ_FIRST
       let start := seqAdd pf.lastRel pf.lag
       s.lands (.hostFreezeSet k x i)
         (endReel (showFrozen (setFreeze s.dev x (64 + i.val)
           [first, min (liv s.dev.regs p PFILT.HFRZ_COUNT) (pointCount s.dev.regs x - first), start,
            seqAdd start (liv s.dev.regs p PFILT.HFRZ_FRAMES)]) x) x 3)) ∧
     (s.dev.pageOn p = true →
       let w (j : Nat) := freezeWord s.dev x (64 + i.val) j
       let ends (d : Dev) : Prop := s.lands (.hostFreezeClear k x i) (endReel (showFrozen d x) x 3)
       (seqLe pf.nextSeq (w 2) = true → ends (setFreeze s.dev x (64 + i.val) [w 0, w 1, pf.nextSeq, pf.nextSeq])) ∧
       (seqLe pf.nextSeq (w 2) = false → seqLt pf.nextSeq (w 3) = true →
         ends (setFreeze s.dev x (64 + i.val) [w 0, w 1, w 2, pf.nextSeq])) ∧
       (seqLe pf.nextSeq (w 2) = false → seqLt pf.nextSeq (w 3) = false → ends s.dev))) ∧
  (∀ (s : State) (x : Line) (ecc : SramEcc),
     let z := (s.dev.line x).zone
     (z.frames.find? (fun f => !f.combined) = none → s.lands (.zoneReduction x ecc) s.dev) ∧
     (∀ f, z.frames.find? (fun f => !f.combined) = some f → f.zones = [] →
       s.lands (.zoneReduction x ecc) (combine (tapConds s.dev x f) x f.frame.seq)) ∧
     (∀ f n rest, z.frames.find? (fun f => !f.combined) = some f → f.zones = n :: rest →
       let r := f.rel + 24 + f.rank / 16
       let c := ((tapConds s.dev x f).advanceTo r).sramCheck 281 (n * 16) 16 ecc
       let g := reduceZone f n c.2
       let words (d : Dev) : Dev := (leWords (g.bytes f.settling)).zipIdx.foldl
         (fun d e => d.setWord (pageBase (pgZone x) + 0x910 + 4 * e.2) e.1) d
       let d := if c.2 = true then
         (c.1.sramSet 281 (n * 16) 0).eventLog (pgZone x) 4 sevError (n + x.idx * 2 ^ 24) else c.1
       let d := d.onZFrame x f.frame.seq fun f =>
         { f with zones := rest, rank := f.rank + 1, recs := f.recs ++ [g] }
       let d := if trigRuns x f = true then decideZone d x f g r else d
       let d := if liv d.regs (pgZone x) ZONE.PROBE_ZONE = n then words d else d
       (rest = [] → s.lands (.zoneReduction x ecc) (combine d x f.frame.seq)) ∧
       (rest ≠ [] → s.lands (.zoneReduction x ecc) (showActive d x))) ∧
     (z.frames = [] → s.lands (.triggerRecord x) s.dev) ∧
     (∀ f rest, z.frames = f :: rest → f.combined = false → s.lands (.triggerRecord x) s.dev) ∧
     (∀ f rest, z.frames = f :: rest → f.combined = true →
       let m := f.frame.cfg
       let left := (s.dev.advanceTo (f.rel + 64)).onZone x fun z => { z with frames := rest }
       let seq (d : Dev) := (d.line x).zone.nextTrig
       let asks := (f.met.filter fun e => trigFld m (TRIG.W4.FREEZE e.1) == 1).map fun e =>
         (⟨e.1, f.frame.seq, (condPoints f e.1).1, (condPoints f e.1).2⟩ : FreezeReq)
       let c := actCapture left x f (seq left)
       let hit := sendRecord (((takeTrigSeq c.dev x).event (pgTrig x) 4).onPf x fun q =>
         { q with freezes := q.freezes ++ asks }) x f f.met (recordBytes' x f (seq left) 0 f.met c)
       let d := if f.met = [] then left else hit
       let rel := f.released.filter fun e => trigFld m (TRIG.W0.RELEASE_EVENT e.1) == 1
       (rel = [] → s.lands (.triggerRecord x) d) ∧
       (rel ≠ [] →
         s.lands (.triggerRecord x)
           (sendRecord ((takeTrigSeq d x).event (pgTrig x) 5) x f rel
             (recordBytes' x f (seq d) 1 rel { dev := d })))))

/-- The alarm balls (R210, R211): the oldest edge of a ball leaves in its cycle; a rise of a ball that is not held
asserts it, counts where the ball is enabled and was not asserted, and times a PULSE; a fall deasserts it, and
the end of a pulse a PULSE ball; ALARM_CLEAR deasserts the latched balls it names, but for one whose condition
meets in that cycle, and no other. Capture segments (R215 to R222): a write to an open descriptor is discarded
and counted; one that is not open takes W0 with STATE = 1 as ARMED; a copy waits for its frame, stores it
behind the others or, with no room, marks the segment TRUNCATED, and ends the segment ABORTED over a degraded
buffer or an upset context; a segment ends once its END frame is copied; the next descriptor counts as read.
Choices of the model it rests on: log entries 3, 42, 51, 145. -/
def Obligations.AlarmsAndSegments : Prop :=
  (∀ (s : State) (k : Link) (b : Fin 4) (balls : BitVec 4),
     let a := s.dev.alarm
     (a.edges.find? (fun e => e.ball == b.val) = none → s.lands (.alarmEdge b) s.dev) ∧
     (∀ e, a.edges.find? (fun e => e.ball == b.val) = some e →
       let d := s.dev.advanceTo e.tick
       let d := { d with alarm := { d.alarm with edges := d.alarm.edges.erase e } }
       (e.raise = false → s.lands (.alarmEdge b) (setAlarm d b.val false)) ∧
       (e.raise = true →
         let r := { d with alarm := { d.alarm with raised := d.alarm.raised.set b.val (some d.clk.tick) } }
         let u := if alarmHeld r b.val = true then r else setAlarm r b.val true
         let counts : Bool := alarmFld u (TRIG.ALARM_CFG.EN b.val) == 1 && u.domainOn 7 &&
           !d.alarm.on.getD b.val false
         let u := if counts then u.event (pgTrig .a) (7 + b.val) else u
         let stop := u.clk.tick + max (alarmFld u (TRIG.ALARM_CFG.WIDTH b.val)) 1
         (alarmMode u b.val ≠ 1 → s.lands (.alarmEdge b) u) ∧
         (alarmMode u b.val = 1 →
           s.lands (.alarmEdge b)
             { u with alarm := { u.alarm with stops := u.alarm.stops.set b.val (some stop) } }))) ∧
     (a.stops.getD b.val none = none → s.lands (.alarmPulseEnd b) s.dev) ∧
     (∀ t, a.stops.getD b.val none = some t →
       let d := s.dev.advanceTo t
       let d := { d with alarm := { d.alarm with stops := d.alarm.stops.set b.val none } }
       s.lands (.alarmPulseEnd b) (if alarmMode d b.val = 1 then setAlarm d b.val false else d)) ∧
     (s.dev.pageOn (pgTrig .a) = false →
       s.lands (.alarmClear k balls) (s.dev.busError (pageBase (pgTrig .a) + 0x980) .domainOff (linkCode k))) ∧
     (s.dev.pageOn (pgTrig .a) = true →
       let clears (d : Dev) (n : Nat) : Dev :=
         if bitOf balls.toNat n = true ∧ alarmMode d n = 2 ∧ meetsNow d n = false then setAlarm d n false else d
       s.lands (.alarmClear k balls) (clears (clears (clears (clears s.dev 0) 1) 2) 3))) ∧
  (∀ (s : State) (k : Link) (x : Line) (c : Fin 4) (n : BitVec 16) (w : Fin 8) (v : Word) (ecc : Ecc),
     (s.dev.domainOn 7 = false →
       s.lands (.descWrite k n w v) (s.dev.busError (descAddr n.toNat w.val) .domainOff (linkCode k))) ∧
     (s.dev.domainOn 7 = true → descFld s.dev.regs (CAPT.W0.STATE n.toNat) = 2 →
       s.lands (.descWrite k n w v) (s.dev.event (pgCapt (descLine s.dev n.toNat)) 8)) ∧
     (s.dev.domainOn 7 = true → descFld s.dev.regs (CAPT.W0.STATE n.toNat) ≠ 2 →
       s.lands (.descWrite k n 1 v) (s.dev.setDesc (CAPT.W1.ADDR n.toNat) v.toNat) ∧
       s.lands (.descWrite k n 2 v) (s.dev.setDesc (CAPT.W2.ALLOC n.toNat) v.toNat) ∧
       (2 < w.val → s.lands (.descWrite k n w v) s.dev) ∧
       (let d := (s.dev.setDesc (CAPT.W0.STREAM_EN n.toNat) (bitsOf v.toNat 29 29)).setDesc (CAPT.W0.STREAM n.toNat)
         (bitsOf v.toNat 15 0)
        s.lands (.descWrite k n 0 v)
         (if bitsOf v.toNat 31 30 = 1 then d.setDesc (CAPT.W0.STATE n.toNat) 1 else d))) ∧
     (segOf s.dev x c.val = none →
       s.lands (.segmentCopy x c ecc) s.dev ∧ s.lands (.segmentEnd x c) s.dev) ∧
     (∀ g, segOf s.dev x c.val = some g →
       let chk := s.dev.sramCheck 283 (16 * (4 * x.idx + c.val)) 16 .clean
       let e := s.dev
       let have' : Prop := ∃ f, (s.dev.line x).capt.newest = some f ∧ seqLe g.next f = true
       let due : Prop := have' ∧ seqLe g.next g.stop = true
       let copies (d : Dev) : Prop := s.lands (.segmentCopy x c ecc) d
       (chk.2 = true →
         copies (endSegment ((chk.1.sramSet 283 (16 * (4 * x.idx + c.val)) 0).eventLog (pgCapt x) 9 sevError
           (c.val + x.idx * 16777216)) x c.val (g.mark segAborted))) ∧
       (chk.2 = false → ¬ due → copies e) ∧
       (chk.2 = false → due → e.touchesDegraded g.addr (g.alloc * 64) = true →
         copies (endSegment e x c.val (g.mark segAborted))) ∧
       (chk.2 = false → due → e.touchesDegraded g.addr (g.alloc * 64) = false →
         let a := ringAddr e x g.next
         let gap := (e.line x).capt.gapped.contains g.next
         let n := if gap = true then 48 else 48 + 2 * (g.point + g.points)
         let r := e.memRead a n ecc
         let raw := r.2.2.2
         let body := if gap = true then raw else (raw.take 24 ++ leBytes 4 g.points ++ (raw.drop 28).take 20) ++
           padTo 8 ((raw.drop (48 + 2 * g.point)).take (2 * g.points))
         let g' := { g with next := seqAdd g.next 1 }
         let d := segMessage r.1 x g' (if gap = true then 1 else 0) body
         let keeps (d : Dev) (g : Seg) : Prop := copies (setSeg d x c.val (some g))
         (e.touchesDegraded a n = true → keeps e g') ∧
         (e.touchesDegraded a n = false → r.2.1 ≠ .ok → keeps r.1 g') ∧
         (e.touchesDegraded a n = false → r.2.1 = .ok →
           (bitOf g.flags segTruncated = true ∨ g.alloc * 64 < g.offset + body.length → keeps d (g'.mark segTruncated)) ∧
           (bitOf g.flags segTruncated = false → g.offset + body.length ≤ g.alloc * 64 →
             keeps (d.memWrite (g.addr + g.offset) body).1
               { g' with stored := g.stored + 1, offset := g.offset + body.length }))) ∧
       (seqLt g.stop g.next = true → s.lands (.segmentEnd x c) (endSegment s.dev x c.val g)) ∧
       (seqLt g.stop g.next = false → s.lands (.segmentEnd x c) s.dev)) ∧
     s.lands (.descRead x c) (s.dev.onCapt x fun q => { q with reading := q.reading.set c.val false }))

/-- Raman traces and profiles (R228, R231, R233, R237, R242, R243): a trace leaves its pulse 24 cycles after its
last sample; a pulse that is not counted advances its counter, a counted one joins its profile or begins one
under the configuration applied at that start; the readout of an ended profile waits for its cycle, stores its
values and lasts ceil(RLEN / 8) more; an aborted one stores none and is gone with it. PASS2 and
PROFILE_RELEASE (R238, R242, R244, R247): the second pass of a single-ended profile runs 64 cycles after its
readout, that of a pair on line A once both readouts are over; a released profile counts PROFILE, leaves the
list and, with STREAM_EN = 1, goes to its stream. Choices of the model it rests on: log entries 3, 26, 44. -/
def Obligations.RamanTracesAndProfiles : Prop :=
  (∀ (s : State) (x : Line) (a b da db : List Int) (bad : List Nat),
     let r := (s.dev.line x).raman
     let p := pgRaman x
     (r.pulses = [] → s.lands (.ramanTrace x a b da db) s.dev) ∧
     (∀ q rest, r.pulses = q :: rest →
       let d := s.dev.onRaman x fun r => { r with pulses := rest }
       let begins : Bool := (d.line x).raman.prof.isNone && mayBegin d q.cfg x q.start
       let next := if begins then startConfig (fun p d => applyOne p 3 d) d x else d
       let m := match (d.line x).raman.prof with
         | some o => o.cfg
         | none => ramanWords x next.regs q.cfg
       let span := traceSpan m x q.start
       let d := d.advanceTo (span.2 + 24)
       let next := next.advanceTo (span.2 + 24)
       let k := ramFld m x RAMAN.DARK_LEN
       let trace := takeCodes d (ramFld m x RAMAN.RLEN) fun i => q.start + 2 * (ramFld m x RAMAN.RZERO + i)
       let dark := takeCodes d k fun i => q.start - 2 * (k - i)
       let shown (d : Dev) : Dev := showLane (showLane d x 0 (trace a) (dark da)) x 1 (trace b) (dark db)
       let gives (d : Dev) : Prop := s.lands (.ramanTrace x a b da db) d
       let runs : Prop := enActive m p = true ∧ d.pageOn p = true ∧ d.pwr.mode ≠ 6
       (¬ runs → gives (shown d)) ∧
       (runs → ∀ f, skipOf d m x q = some f → gives (skipPulse (shown d) x f)) ∧
       (runs → skipOf d m x q = none →
         ((d.line x).raman.prof.isSome = true →
           gives (countPulse (shown d) x q (trace a) (trace b) (dark da) (dark db))) ∧
         ((d.line x).raman.prof.isSome = false → begins = true →
           gives (startProfile (shown next) m x q (trace a) (trace b) (dark da) (dark db))) ∧
         ((d.line x).raman.prof.isSome = false → begins = false → gives (shown d)))) ∧
     (r.ended.find? (fun q => !q.read) = none → s.lands (.readout x bad) s.dev) ∧
     (∀ q, r.ended.find? (fun q => !q.read) = some q →
       let o := readSamples x q bad (ramFld q.cfg x RAMAN.RLEN) 0 (s.dev.advanceTo q.readAt)
       let d := if q.abort.isSome then o.1 else
         (o.1.memWrite (workAddr q.cfg x 0) (o.2.2.flatMap (leBytes 4))).1
       s.lands (.readout x bad) (d.onEnded x q.seq fun p => { p with read := true, nonpos := o.2.1 })) ∧
     (r.ended.find? (fun q => q.read && !q.readEnd) = none → s.lands (.readoutEnd x) s.dev) ∧
     (∀ q, r.ended.find? (fun q => q.read && !q.readEnd) = some q →
       let d := s.dev.advanceTo (q.readAt + ceilDiv (ramFld q.cfg x RAMAN.RLEN) 8)
       (q.abort.isSome = true →
         s.lands (.readoutEnd x) (d.onRaman x fun r => { r with ended := r.ended.filter fun p => p.seq != q.seq })) ∧
       (q.abort = none →
         s.lands (.readoutEnd x) (d.onEnded x q.seq fun p => { p with readEnd := true, ready := d.clk.tick })))) ∧
  (∀ (s : State) (x : Line) (bad : List Nat),
     let ended := (s.dev.line x).raman.ended
     let next := ended.find? fun q => q.readEnd && q.frame.isNone
     (next = none → s.lands (.pass2 x bad) s.dev) ∧
     (∀ q, next = some q → q.double = false →
       s.lands (.pass2 x bad) (pass2Of (s.dev.advanceTo (q.ready + 64)) x q none bad)) ∧
     (∀ q, x = .b → next = some q → q.double = true → s.lands (.pass2 x bad) s.dev) ∧
     (∀ q o, x = .a → next = some q → q.double = true →
       (s.dev.line .b).raman.ended.find? (fun o => o.readEnd && o.seq == q.seq) = some o →
       s.lands (.pass2 x bad) (pass2Of (s.dev.advanceTo (max q.ready o.ready + 64)) .a q (some o) bad)) ∧
     (ended = [] → s.lands (.profileRelease x) s.dev) ∧
     (∀ q rest, ended = q :: rest → q.frame = none → s.lands (.profileRelease x) s.dev) ∧
     (x = .a → (s.dev.line .b).raman.ended.find? (fun o => o.readEnd && some o.seq == next.map (·.seq)) = none →
       (∀ q, next = some q → q.double = true) → s.lands (.pass2 x bad) s.dev) ∧
     (∀ q rest bytes t, ended = q :: rest → q.frame = some (bytes, t) →
       let gone (d : Dev) (y : Line) : Dev :=
         d.onRaman y fun r => { r with ended := r.ended.filter fun p => p.seq != q.seq }
       let d := gone (s.dev.advanceTo (t + 64)) x
       let d := (if q.double = true then gone d .b else d).event (pgRaman x) 4
       s.lands (.profileRelease x)
         (if ramFld q.cfg x RAMAN.OUT.STREAM_EN = 1 then d.handOver (ramFld q.cfg x RAMAN.OUT.STREAM) 0x08 bytes
          else d)))

/-- The platinum front end (R251, R252, R254, R256, R257): a conversion of the visited channel gives its code and
the channel goes on; the second failing check in a row sets OPEN, marks the conversion and counts; the second
passing one clears it and settles four conversions; a calibration visit ends at its cycle with new trims and
CAL_DONE, and the front end goes on; with nothing visited nothing happens, and an armed page applies where the
conversion ends. The housekeeping converter (R265, R268, R272): no pass starts with HK off or during one; a
pass begins at once or when its period has passed; a conversion ends two cycles after its stop and the next
begins; an urgent request beyond the queue of four, or of an input above 23, counts and changes nothing else,
and another breaks into a pass; with TELEM.EN = 0 no telemetry leaves, and with a halted Foreman only its time
passes. Choices of the model it rests on: log entries 19, 46, 47, 48. -/
def Obligations.PlatinumAndHousekeeping : Prop :=
  (∀ (s : State) (q : Int) (ov pass : Bool) (ch : Fin 4) (sh dv : List (List Int)),
     let f := s.dev.pfe
     let converts (d : Dev) : Prop := s.lands (.pfeConversion q ov) (applyNow pgPfe d)
     let checks (d : Dev) : Prop := s.lands (.pfeComplianceCheck ch pass) d
     let visits (d : Dev) : Prop := s.lands (.pfeCalVisit sh dv) (applyNow pgPfe d)
     (f.ch = none ∨ f.calEnd.isSome = true → converts s.dev) ∧
     (∀ k, f.ch = some k → f.calEnd = none →
       let d := s.dev.advanceTo f.endAt
       converts (pfeGoOn (pfeCode d k q ov) k d.clk.tick)) ∧
     (f.ch ≠ some ch.val → checks s.dev) ∧
     (f.ch = some ch.val →
       let c := f.comply.getD ch.val (0, 0)
       let c := if pass then (c.1 + 1, 0) else (0, c.2 + 1)
       let shut := s.dev.status pgPfe (8 + ch.val)
       let d := s.dev.onPfe fun p => { p with comply := p.comply.set ch.val c }
       (shut = false → 2 ≤ c.2 →
         checks ((((d.onPfe fun p => { p with openNow := true }).setStatus pgPfe (8 + ch.val) true).event pgPfe
           6).wakeEdge 3)) ∧
       (shut = true → 2 ≤ c.1 →
         checks ((d.onPfe fun p => { p with settle := 4, small := 0 }).setStatus pgPfe (8 + ch.val) false)) ∧
       (¬ (shut = false ∧ 2 ≤ c.2) → ¬ (shut = true ∧ 2 ≤ c.1) → checks d)) ∧
     (f.calEnd = none → visits s.dev) ∧
     (∀ t, f.calEnd = some t →
       let d := (s.dev.advanceTo t).onPfe fun p =>
         { p with calEnd := none, trims := (List.range 8).map fun g => some (calFound sh dv g) }
       let d := calDoneOn (d.setStatus pgPfe 4 false) pgPfe
       let again (d : Dev) : Prop := visits (if d.pfe.calReq = true then pfeCalStart d d.clk.tick else d)
       (∀ k, d.pfe.ch = some k → again (pfeMove d k d.clk.tick)) ∧
       (d.pfe.ch = none → ∀ k, (pfeChans d.regs).head? = some k → again (pfeVisit d k d.clk.tick)) ∧
       (d.pfe.ch = none → pfeChans d.regs = [] → again d))) ∧
  (∀ (s : State) (k : Link) (code : BitVec 12) (i : BitVec 5),
     let h := s.dev.hk
     (s.dev.pageOn pgHk = false ∨ h.slot.isSome = true → s.lands .hkPassStart s.dev) ∧
     (s.dev.pageOn pgHk = true → h.slot = none →
       let d := match h.passAt with
         | none => s.dev
         | some t => s.dev.advanceTo (max (h.passEnd + 1) (hkDue s.dev t))
       let d := hkNewPass d
       (d.hk.conv.isSome = true → s.lands .hkPassStart d) ∧
       (d.hk.conv.isSome = false → s.lands .hkPassStart (hkBegin applyNow d))) ∧
     (h.conv = none → s.lands (.hkConversion code) s.dev) ∧
     (∀ c, h.conv = some c →
       let d := (s.dev.advanceTo (c.stop + 1)).onHk fun h => { h with conv := none }
       let more : Bool := decide (c.slot + 1 < hkFld d.regs HK.SEQ_CTRL.LEN)
       let ends := hkPassOver (d.onHk fun h =>
         { h with shield := false, slot := if more then some (c.slot + 1) else none,
                  passEnd := if more then h.passEnd else c.stop })
       let d := (hkBegin applyNow (if c.urgent = true then d else ends)).advanceTo (c.stop + 2)
       (c.held = true → s.lands (.hkConversion code) d) ∧
       (c.held = false → s.lands (.hkConversion code) (hkDeliver d c code.toNat))) ∧
     (s.dev.pageOn pgHk = false →
       s.lands (.urgent k i) (s.dev.busError (pageBase pgHk + 0x980) .domainOff (linkCode k))) ∧
     (s.dev.pageOn pgHk = true → 23 < i.toNat ∨ 4 ≤ h.queue.length →
       s.lands (.urgent k i) (s.dev.event pgHk 7)) ∧
     (s.dev.pageOn pgHk = true → i.toNat ≤ 23 → h.queue.length < 4 →
       let d := showHk (s.dev.onHk fun h => { h with queue := h.queue ++ [i.toNat] })
       (d.hk.conv = none → s.lands (.urgent k i) (hkBegin applyNow (d.advance 3))) ∧
       (∀ c, d.hk.conv = some c →
         let breaks : Bool := !c.urgent && !d.hk.shield && d.clk.tick + 2 ≤ c.stop
         (breaks = true → s.lands (.urgent k i) (hkBegin applyNow (((d.advance 2).event pgHk 6).advance 1))) ∧
         (breaks = false → s.lands (.urgent k i) d))) ∧
     (s.dev.pageOn pgHk = false → s.lands .telemetry s.dev) ∧
     (hkFld s.dev.regs HK.TELEM.EN = 0 → s.lands .telemetry s.dev) ∧
     (s.dev.pageOn pgHk = true → hkFld s.dev.regs HK.TELEM.EN = 1 →
       let d := (s.dev.advanceTo (h.telAt + hkFld s.dev.regs HK.TELEM.PERIOD * 625000))
       let d := d.onHk fun h => { h with telAt := d.clk.tick }
       (d.foremanRuns = false → s.lands .telemetry d) ∧
       (d.foremanRuns = true →
         s.lands .telemetry
           ((({ d with freeCtr := d.freeCtr + 24 } : Dev).handOver (hkFld d.regs HK.TELEM.STREAM) 0x0B
             (leBytes 4 24 ++ leBytes 4 0 ++ (List.range 24).flatMap (telRecord d))).onHk fun h =>
               { h with tel := List.replicate 24 (0, 0, 0) }))))

/-- The interval units (R274, R275, R277): ARM arms an idle unit in an armed mode and no other; a start edge of an
armed unit starts the measurement, one before the arming or during a measurement of another source is ignored
and counted; a stop at or after HOLDOFF and within TIMEOUT ends it with the elapsed cycles, an earlier one is
ignored, a later one ends it with TIMEOUT, and one without a start counts; an edge of one source both starts
and stops; the command's edges act where the source is COMMAND; the timeout ends it with TIMEOUT cycles;
CANCEL drops everything. TIU_RESULT (R277): two cycles after its end a measurement shows its count, the core
tick and device time of its start and its flags, with OVERRUN where the last result was not acknowledged,
RESULT counts, and a unit in CONTINUOUS mode that does not measure is armed again from the next cycle. Choices
of the model it rests on: log entries 3, 49, 138. -/
def Obligations.IntervalUnitsMeasure : Prop :=
  (∀ (s : State) (k : Link) (u : Fin 2),
     let t := s.dev.tiu u.val
     let p := pgTiu u.val
     let now := s.dev.clk.tick
     let lim := tiuFld t.cfg u.val TIU.TIMEOUT
     let hold := tiuFld t.cfg u.val TIU.HOLDOFF
     let one : Bool := oneSource t.cfg u.val
     let mode := tiuFld s.dev.regs u.val TIU.MODE
     let cmds : List Instr := [.tiuArm k u, .tiuStart k u, .tiuStop k u, .tiuCancel k u]
     let stops (c : Instr) : Prop := ∀ b n, t.start = some (b, n) →
       (lim ≠ 0 → lim < now - b → s.lands c (tiuEnd (s.dev.event p 5) u.val (b + lim) lim true false)) ∧
       (lim = 0 ∨ now - b ≤ lim →
         (now - b < hold → s.lands c s.dev) ∧
         (hold ≤ now - b → s.lands c (tiuEnd s.dev u.val now (now - b) false (now == b))))
     let begins (c : Instr) : Prop := ∀ a, t.start = none → t.armed = some a →
       (now < a → s.lands c (s.dev.event p 7)) ∧
       (a ≤ now → s.lands c (setTiu s.dev u.val { t with start := some (now, s.dev.timeNs) }))
     let starts (c : Instr) : Prop :=
       begins c ∧ (one = true → stops c) ∧ (one = false → t.start.isSome = true → s.lands c (s.dev.event p 7)) ∧
       (t.start = none → t.armed = none →
         (t.result.isSome = true ∧ mode = 2 → s.lands c (s.dev.event p 7)) ∧
         (t.result = none ∨ mode ≠ 2 → s.lands c s.dev))
     let ends (c : Instr) : Prop :=
       stops c ∧ (one = true → begins c) ∧ (t.start = none → t.armed = none → s.lands c s.dev) ∧
       (∀ a, one = false → t.start = none → t.armed = some a →
         (now < a → s.lands c s.dev) ∧ (a ≤ now → s.lands c (s.dev.event p 6)))
     (s.dev.pageOn p = false → ∀ c ∈ cmds,
       s.lands c (s.dev.busError (pageBase p + 0x980) .domainOff (linkCode k))) ∧
     (s.dev.pageOn p = true →
       (tiuIdle t = true → mode = 1 ∨ mode = 2 → s.lands (.tiuArm k u) (armFrom s.dev u.val now)) ∧
       (tiuIdle t = false ∨ mode = 0 ∨ mode = 3 → s.lands (.tiuArm k u) s.dev) ∧
       (tiuFld t.cfg u.val TIU.SOURCES.START_SRC = 15 → starts (.tiuStart k u)) ∧
       (tiuFld t.cfg u.val TIU.SOURCES.START_SRC ≠ 15 → s.lands (.tiuStart k u) s.dev) ∧
       (tiuFld t.cfg u.val TIU.SOURCES.STOP_SRC = 15 → ends (.tiuStop k u)) ∧
       (tiuFld t.cfg u.val TIU.SOURCES.STOP_SRC ≠ 15 → s.lands (.tiuStop k u) s.dev) ∧
       s.lands (.tiuCancel k u) (setTiu s.dev u.val { t with armed := none, start := none, result := none })) ∧
     starts (.tiuStartEdge u false) ∧ ends (.tiuStopEdge u) ∧
     (t.start = none → s.lands (.tiuTimeout u) s.dev) ∧
     (∀ b n, t.start = some (b, n) →
       let n := if lim = 0 then 281474976710655 else lim
       s.lands (.tiuTimeout u) (tiuEnd ((s.dev.advanceTo (b + n)).event p 5) u.val (b + n) n true false))) ∧
  (∀ (s : State) (u : Fin 2),
     let t := s.dev.tiu u.val
     let p := pgTiu u.val
     (t.result = none → s.lands (.tiuResult u) s.dev) ∧
     (∀ stop count timeout same, t.result = some (stop, count, timeout, same) →
       let d := s.dev.advanceTo (stop + 2)
       let ovr : Bool := rd d.regs (countAddr p 4) != rd d.regs (countAddr p 4 + 4)
       let d := (d.setLiv p TIU.COUNT_LO (count % 4294967296)).setLiv p TIU.COUNT_HI (count / 4294967296)
       let d := (d.setPair p 0x908 0x90C t.resStart.1).setPair p 0x910 0x914 t.resStart.2
       let d := d.setLiv p TIU.FLAGS (bit ovr * 8 + bit same * 4 + bit timeout * 2 + 1)
       let d := (if ovr then d.event p 8 else d).event p 4
       let d := setTiu d u.val { d.tiu u.val with result := none }
       let again : Prop := (d.tiu u.val).start = none ∧ tiuFld d.regs u.val TIU.MODE = 2
       (again → s.lands (.tiuResult u) (armFrom d u.val (d.clk.tick + 1))) ∧
       (¬ again → s.lands (.tiuResult u) d)))

/-- R276: a start and a stop of different sources in one core cycle, with HOLDOFF = 0, end the measurement with
COUNT = 0 and SAME_CYCLE; with HOLDOFF above 0 the stop is ignored; the edge of one source that starts a
measurement never stops it; and in CONTINUOUS mode the edge that stops one starts the next. -/
def Obligations.EdgesInOneCycle : Prop :=
  ∀ (s : State) (u : Fin 2) (a : Nat),
    let t := s.dev.tiu u.val
    let now := s.dev.clk.tick
    let started := setTiu s.dev u.val { t with start := some (now, s.dev.timeNs) }
    let oneSrc : Prop := tiuFld t.cfg u.val TIU.SOURCES.START_SRC = tiuFld t.cfg u.val TIU.SOURCES.STOP_SRC
    (t.start = none → t.armed = some a → a ≤ now →
      (¬ oneSrc → tiuFld t.cfg u.val TIU.HOLDOFF = 0 →
        s.lands (.tiuStartEdge u true) (tiuEnd started u.val now 0 false true)) ∧
      (¬ oneSrc → 0 < tiuFld t.cfg u.val TIU.HOLDOFF →
        s.lands (.tiuStartEdge u true) started) ∧
      (oneSrc → ∀ same, s.lands (.tiuStartEdge u same) started)) ∧
    (∀ b n, t.start = some (b, n) → oneSource t.cfg u.val = true → tiuFld t.cfg u.val TIU.MODE = 2 →
      tiuFld s.dev.regs u.val TIU.MODE = 2 → oneSource s.dev.regs u.val = true →
      tiuFld t.cfg u.val TIU.TIMEOUT = 0 ∨ now - b ≤ tiuFld t.cfg u.val TIU.TIMEOUT →
      tiuFld t.cfg u.val TIU.HOLDOFF ≤ now - b →
      ∃ o, exec (.tiuStartEdge u true) s = .next o ∧
        (o.dev.tiu u.val).result = some (now, now - b, false, now == b) ∧
        ((o.dev.tiu u.val).start.map Prod.fst) = some now)

/-- MEM_REQUEST, MISS and MEM_READ_DATA (R288, R289, R298, R300, R306): with MEM off nothing is answered; a line
that is not mapped is UNMAPPED, one of a sub-channel that is off is answered so, a read of an uninitialised
region UNINIT with its count; a request within the queue's 64 joins it, and a read of a line with a whole
write waiting is answered from that write; a request that waits beyond its port's target counts once; the next
request in the arbiter's order is served. Refresh and self-refresh (R290, R291, R292): a rank that is not
refreshed is left alone; a refresh falls due every 1,218 cycles, 609 while doubled, and with requests for the
rank waiting it is owed, up to 8, or 4 while doubled; a poll of the DRAM's temperature comes every 32,768
cycles and logs a rank that turns hot; an idle rank enters self-refresh SR_IDLE + 10 cycles later and counts.
Choices of the model it rests on: log entries 3, 51, 52, 53, 141. -/
def Obligations.MemoryRequestsAndRefresh : Prop :=
  (∀ (s : State) (port : Fin 8) (u : Fin 4) (l : Nat) (w : Option (List (Option Byte))) (ecc : Ecc),
     let d := s.dev
     let f := d.fillStep
     let bytes := w.map fun b => (List.range 64).map fun i => b.getD i none
     let whole : Bool := match bytes with
       | none => false
       | some b => b.all Option.isSome
     let gives (d : Dev) : Prop := s.lands (.memRequest port l w) d
     (d.domainOn 4 = false → gives d) ∧
     (d.domainOn 4 = true → f.physLine l = none → gives (f.answer port.val l 3 [])) ∧
     (∀ p q, d.domainOn 4 = true → f.physLine l = some (p, q) →
       (f.subUp p = false → gives (f.answer port.val l 4 [])) ∧
       (f.subUp p = true → whole = false → f.initialised (l / 16384) = false →
         gives ((f.event pgMemx 7).answer port.val l 2 [])) ∧
       (f.subUp p = true → whole = true ∨ f.initialised (l / 16384) = true →
         let queue := f.memQueue (p / 2)
         let newest := (queue.filter fun r => r.line == l && r.bytes.isSome).getLast?
         let room : Prop := (queue.filter fun r => reqRank f r == p).length < 64
         let e := if srEntering f p = true then
           (f.event (pgDdr (p / 2)) 5).onMem fun m => { m with idleFrom := m.idleFrom.set p f.clk.tick } else f
         let joins : Prop := gives (e.setQueue (p / 2)
           (queue ++ [{ port := port.val, line := l, tick := e.clk.tick, bytes := bytes }]))
         (¬ room → gives f) ∧
         (room → w.isSome = true ∨ newest = none → joins) ∧
         (∀ r b, room → w = none → newest = some r → r.bytes = some b →
           (b.all Option.isSome = true → gives (e.answer port.val l 0 (b.map fun v => v.getD 0))) ∧
           (b.all Option.isSome = false → joins)))) ∧
     (nextMiss d (d.memQueue u.val) = none → s.lands (.miss u) d) ∧
     (∀ r, nextMiss d (d.memQueue u.val) = some r →
       let e := d.advanceTo (missAt d r)
       s.lands (.miss u)
         ((e.setQueue u.val ((d.memQueue u.val).map fun y => if y = r then { y with missed := true } else y)).event
           pgMemx (13 + r.port))) ∧
     (nextReq d u.val = none ∨ (d.mem.retrain.getD u.val none).isSome = true → s.lands (.memReadData u ecc) d) ∧
     (∀ r, (d.mem.retrain.getD u.val none) = none → nextReq d u.val = some r →
       let p := reqRank d r
       let e := (d.fillStep.advanceTo (d.mem.busy.getD p 0)).setQueue u.val ((d.memQueue u.val).erase r)
       s.lands (.memReadData u ecc) (payRefresh (serveReq (openRow e (reqRow d r)) r ecc) p))) ∧
  (∀ (s : State) (p : Fin 8) (wide hot : Bool) (code : BitVec 3),
     let d := s.dev
     let g := pgDdr (p.val / 2)
     let n := act d.regs g DDR.SR_IDLE
     let busy (d : Dev) : Bool := (d.memQueue (p.val / 2)).any fun r => reqRank d r == p.val
     (refreshed d p.val = false →
       s.lands (.refreshDue p) d ∧ s.lands (.srEntry p) d) ∧
     (polled d p.val = false → s.lands (.mr4Poll p wide hot code) d) ∧
     (refreshed d p.val = true →
       (let e := d.advanceTo (d.mem.refAt.getD p.val 0 + (if doubled d p.val then 609 else 1218))
        let e := e.onMem fun m => { m with refAt := m.refAt.set p.val e.clk.tick }
        let owed := liv e.regs g (DDR.REF_OWED.RANK (p.val % 2))
        let most := if doubled e p.val then 4 else 8
        (busy e = true → owed < most →
          s.lands (.refreshDue p) (e.setLiv g (DDR.REF_OWED.RANK (p.val % 2)) (owed + 1))) ∧
        (busy e = true → most ≤ owed → s.lands (.refreshDue p) (e.issueRefreshes p.val 0 1)) ∧
        (busy e = false →
          s.lands (.refreshDue p)
           ((e.setLiv g (DDR.REF_OWED.RANK (p.val % 2)) 0).issueRefreshes p.val 0 (owed + 1)))) ∧
       (n = 0 ∨ busy d = true → s.lands (.srEntry p) d) ∧
       (n ≠ 0 → busy d = false →
         let owed := liv d.regs g (DDR.REF_OWED.RANK (p.val % 2))
         s.lands (.srEntry p)
           ((enterSr (d.advanceTo (d.mem.idleFrom.getD p.val 0 + n + 10 + owed * refreshCycles d)) p.val).event g 4))) ∧
     (polled d p.val = true →
       let e := d.advanceTo (d.mem.mr4At.getD p.val 0 + 32768)
       let e := e.onMem fun m => { m with mr4At := m.mr4At.set p.val e.clk.tick }
       let e := (e.setLiv g (DDR.DRAM_TEMP.RANK (p.val % 2)) code.toNat)
       let owed := liv e.regs g (DDR.REF_OWED.RANK (p.val % 2))
       let pulls : Prop := (wide && !doubled e p.val) = true ∧ 4 < owed
       let f := e.setStatus g (10 + p.val % 2) wide
       let ends (f : Dev) : Prop := s.lands (.mr4Poll p wide hot code)
         (if hot = true ∧ f.status g (12 + p.val % 2) = false then
           (f.setStatus g (12 + p.val % 2) hot).eventWarn g 7 else f.setStatus g (12 + p.val % 2) hot)
       (¬ pulls → ends f) ∧
       (pulls → ends (((f.setLiv g (DDR.REF_OWED.RANK (p.val % 2)) 4).event g 6).issueRefreshes p.val 10 (owed - 4)))))

/-- A whole line written to DRAM reads back as written and is not poisoned, and every other line reads as before
(R297, R298). Choices of the model it rests on: log entry 50. -/
def Obligations.LinesReadBackTheirWrites : Prop :=
  ∀ (d : Dev) (line p l : Nat) (bytes : List Byte),
    d.physLine line = some (p, l) → d.domainOn 4 = true → d.subUp p = true → bytes.length = 64 →
    let w := d.writeLine line (bytes.map some)
    w.2 = .ok ∧ w.1.lineData p l = bytes ∧ w.1.isPoisoned p l = false ∧
    (∀ p' l', lineKey p' l' ≠ lineKey p l →
      w.1.lineData p' l' = d.lineData p' l' ∧ w.1.isPoisoned p' l' = d.isPoisoned p' l')

/-- SR_EXIT, RETRAIN and RETRAIN_DONE (R291, R293): a rank in self-refresh leaves it 24 cycles after it entered
and its exit time; a retraining is refused BUSY while the sub-channel is in use, retrains or migrates, and
BAD_ARGUMENT without fitted ranks; its end shows the eye and the result, and a failure is counted and logged.
FILL, FILL_DONE, INIT_QUERY and SCRUB_READ (R299, R301, R302): a fill beyond the capacity is BAD_ARGUMENT, one
over a buffer in use or a running fill FILL_BUSY, an accepted one shows its regions left; its end marks the
rest of them initialised and counts; a query shows a region's state; the scrubber leaves a sub-channel that is
off, in training or not trained, and else reads its next initialised line behind the older requests of its
row, and at the end of a pass counts it. MIGRATE, MIG_COPY, MIG_DONE and SRAM_SCRUB (R305, R308, R310): a
migration of a rank that is not mapped is BAD_ARGUMENT, during another MIG_BUSY, without a spare NO_SPARE; a
copy moves one line and the pointer, and nothing happens without a migration or before its last line; its end
maps the spare in the source's place, marks the source FAILED and saves the map; the scrub reads a word of
every powered bank each 64 cycles, and nothing while it is off. Choices of the model it rests on: log entries
3, 50, 51, 52, 53, 140, 141, 149. -/
def Obligations.RetrainingFillsAndMigration : Prop :=
  (∀ (s : State) (k : Link) (p : Fin 8) (u : Fin 4) (good : Bool) (eye : BitVec 16),
     let d := s.dev
     let g := pgDdr u.val
     let fit : Bool := act d.regs g DDR.CONFIG.RANK_FIT != 0 ||
       (d.status g 1 && liv d.regs g DDR.CONFIG.RANK_FIT != 0)
     let used : Bool := (ringsAndWork d.regs ++ segRanges d .a ++ segRanges d .b).any (rangeOnSub d u.val)
     let ap (v : Nat) : Dev → Dev := applyNow (pgDdr v)
     (d.mem.srFrom.getD p.val none = none →
       (d.mem.woken.contains (p.val / 2) = false → s.lands (.srExit p) d) ∧
       (d.mem.woken.contains (p.val / 2) = true →
         s.lands (.srExit p) (ap (p.val / 2) (d.onMem fun m => { m with woken := m.woken.filter (· != p.val / 2) })))) ∧
     (∀ t, d.mem.srFrom.getD p.val none = some t →
       let waits : Prop := d.rankState p.val = 6 ∨ (d.mem.retrain.getD (p.val / 2) none).isSome = true
       let e := ap (p.val / 2) (d.advanceTo (t + 24))
       (waits → s.lands (.srExit p) d) ∧
       (¬ waits → s.lands (.srExit p) (leaveSr (e.advance (exitCycles e)) p.val))) ∧
     (d.pageOn pgMemx = false →
       s.lands (.retrain k u) (d.busError (pageBase pgMemx + 0x990) .domainOff (linkCode k))) ∧
     (d.pageOn pgMemx = true → fit = false → s.lands (.retrain k u) (d.cmdResult 5)) ∧
     (d.pageOn pgMemx = true → fit = true →
       (used = true ∨ d.migrating = true ∨ (d.mem.retrain.getD u.val none).isSome = true →
         s.lands (.retrain k u) (d.cmdResult 4)) ∧
       (used = false → d.migrating = false → d.mem.retrain.getD u.val none = none →
         let e := enterSr (enterSr (d.cmdResult 0) (2 * u.val)) (2 * u.val + 1)
         s.lands (.retrain k u) (startTraining (ap u.val e) u.val))) ∧
     (d.mem.retrain.getD u.val none = none → s.lands (.retrainDone u good eye) d) ∧
     (∀ t, d.mem.retrain.getD u.val none = some t →
       let e := (d.advanceTo t).onMem fun m => { m with retrain := m.retrain.set u.val none }
       let e := (e.setLiv g DDR.TRAIN.EYE eye.toNat).setLiv g DDR.TRAIN.TRAINED (bit good)
       let e := e.setStatus g 9 good
       let wakes (d : Dev) (q : Nat) : Dev := if d.rankState q = 6 then d else leaveSr d q
       (good = true → s.lands (.retrainDone u good eye) (wakes (wakes e (2 * u.val)) (2 * u.val + 1))) ∧
       (good = false →
         let f := e.eventLog g 8 sevError (2 * u.val * 68719476736)
         s.lands (.retrainDone u good eye)
           ((f.memQueue u.val).foldl (fun d r => d.answer r.port r.line 4 []) (f.setQueue u.val []))))) ∧
  (∀ (s : State) (k : Link) (r : BitVec 16) (u : Fin 4) (ecc : Ecc),
     let d := s.dev
     let on : Prop := d.pageOn pgMemx = true
     let first := liv d.regs pgMemx MEMX.FILL_FIRST
     let n := liv d.regs pgMemx MEMX.FILL_COUNT
     let meets : Bool := (ringsAndWork d.regs).any (Range.meets (first * 1048576, n * 1048576))
     (¬ on →
       s.lands (.fillCmd k) (d.busError (pageBase pgMemx + 0x988) .domainOff (linkCode k)) ∧
       s.lands (.initQuery k r) (d.busError (pageBase pgMemx + 0x938) .domainOff (linkCode k))) ∧
     (on → d.capacity < first + n → s.lands (.fillCmd k) (d.cmdResult 5)) ∧
     (on → first + n ≤ d.capacity → d.mem.fill.isSome = true ∨ meets = true → s.lands (.fillCmd k) (d.cmdResult 1)) ∧
     (on → first + n ≤ d.capacity → d.mem.fill = none → meets = false →
       s.lands (.fillCmd k)
         (((((d.cmdResult 0).onMem fun m => { m with fill := some (first, n) })).setLiv pgMemx MEMX.FILL_LEFT n).setStatus
           pgMemx 10 true)) ∧
     (d.mem.fill = none → s.lands .fillDone d) ∧
     (∀ a c, d.mem.fill = some (a, c) →
       let e := (d.fillRegions a c).onMem fun m => { m with fill := none }
       s.lands .fillDone (((e.setLiv pgMemx MEMX.FILL_LEFT 0).setStatus pgMemx 10 false).event pgMemx 9)) ∧
     (on → s.lands (.initQuery k r) (showQuery d.fillStep r.toNat)) ∧
     (d.domainOn 4 = false ∨ d.status (pgDdr u.val) 9 = false ∨ (d.mem.retrain.getD u.val none).isSome = true →
       s.lands (.scrubRead u ecc) d) ∧
     (d.domainOn 4 = true → d.status (pgDdr u.val) 9 = true → d.mem.retrain.getD u.val none = none →
       let e := d.fillStep
       let fast : Prop := act e.regs pgMemx MEMX.SCRUB.SCRUB_EN = 1 ∧ topUrgency e u.val = 0
       let slow := e.advanceTo (e.mem.scrubAt.getD u.val 0 + 1250)
       let quick := e.advanceTo
         (e.mem.scrubAt.getD u.val 0 + min (act e.regs pgMemx MEMX.SCRUB.SCRUB_INTERVAL) 1250)
       let reads (e : Dev) (o : Nat) : Dev :=
         let p := 2 * u.val + o / e.rankLines
         let l := o % e.rankLines
         let e := e.onMem fun m =>
           { m with scrub := m.scrub.set u.val (o + 1), scrubAt := m.scrubAt.set u.val e.clk.tick }
         let row := (bankOf e p l, rowOf e l)
         let e := openRow (e.serveOlder u.val fun r => reqRow e r == row) row
         (e.codeLine ((e.lineOf p l).getD 0) p l ecc).1
       let goes (e : Dev) : Prop :=
         let n := 2 * e.rankLines / 16384 + 1
         (∀ o, scrubNext e u.val n (e.mem.scrub.getD u.val 0) = some o → s.lands (.scrubRead u ecc) (reads e o)) ∧
         (scrubNext e u.val n (e.mem.scrub.getD u.val 0) = none →
           let f := if e.mem.scrub.getD u.val 0 = 0 then e else scrubPass e u.val
           (scrubNext f u.val n 0 = none → s.lands (.scrubRead u ecc) f) ∧
           (∀ o, scrubNext f u.val n 0 = some o → s.lands (.scrubRead u ecc) (reads f o)))
       (fast → goes quick) ∧ (¬ fast → goes slow))) ∧
  (∀ (s : State) (k : Link) (p : Fin 8) (ecc : Ecc) (data check double : List (Fin 288)),
     let d := s.dev
     let faults : List (Fin 288 × SramEcc) :=
       (double ++ data.filter check.contains).map (fun b => (b, .double)) ++ (data ++ check).map (fun b => (b, .single))
     let on : Prop := d.pageOn pgMemx = true
     let mapped : Bool := (List.range d.inMap).any fun j => d.mapSlot j == p.val
     let src := liv d.regs pgMemx MEMX.MIG_STATE.SOURCE
     let dst := liv d.regs pgMemx MEMX.MIG_STATE.TARGET
     (¬ on → s.lands (.migrate k p) (d.busError (pageBase pgMemx + 0x98C) .domainOff (linkCode k))) ∧
     (on → mapped = false → s.lands (.migrate k p) (d.cmdResult 5)) ∧
     (on → mapped = true → d.migrating = true → s.lands (.migrate k p) (d.cmdResult 2)) ∧
     (on → mapped = true → d.migrating = false → d.spare = none → s.lands (.migrate k p) (d.cmdResult 3)) ∧
     (∀ t, on → mapped = true → d.migrating = false → d.spare = some t →
       s.lands (.migrate k p) ((d.cmdResult 0).startMigration p.val t)) ∧
     (d.migrating = false → s.lands (.migCopy ecc) d ∧ s.lands .migDone d) ∧
     (d.migrating = true →
       let f := d.fillStep
       let e := f.advanceTo (f.mem.migAt + copyEvery f src dst)
       let e := e.onMem fun m => { m with migAt := e.clk.tick }
       let l := migNext e src (e.rankLines / 16384 + 1) (liv e.regs pgMemx MEMX.MIG_PTR)
       let line := (e.regionOf src l).getD 0 * 16384 + l % 16384
       let r := ((e.awaitRank dst).reachLine line).codeLine line src l ecc
       (e.rankLines ≤ l → s.lands (.migCopy ecc) (e.setLiv pgMemx MEMX.MIG_PTR l)) ∧
       (l < e.rankLines → r.1.migrating = false → s.lands (.migCopy ecc) r.1) ∧
       (l < e.rankLines → r.1.migrating = true →
         s.lands (.migCopy ecc)
           ((((r.1.putLine dst l (r.1.lineData src l)).setPoison dst l r.2)).setLiv pgMemx MEMX.MIG_PTR (l + 1)))) ∧
     (d.migrating = true →
       let l := migNext d src (d.rankLines / 16384 + 1) (liv d.regs pgMemx MEMX.MIG_PTR)
       (l < d.rankLines → s.lands .migDone d) ∧
       (d.rankLines ≤ l →
         let e := (List.range 8).foldl (fun d j =>
           if d.mapSlot j = src then d.setLiv pgMemx (MEMX.MAP.SLOT j) dst else d) d
         let e := ((e.setLiv pgMemx MEMX.MIG_STATE.RUNNING 0).setRankState src 6).setRankState dst 1
         let e := e.onMem fun m =>
           { m with failing := m.failing.filter (· != src), srFrom := m.srFrom.set src (some e.clk.tick) }
         let e := e.showSpare.event pgMemx 11
         let e := e.queueAon 0x918 (rd e.regs (pageBase pgMemx + 0x928))
         let cfg := (List.range 4).foldl (fun v s => putBits v (8 * s + 3) (8 * s + 2) 0) (dramCfgOf e.regs)
         s.lands .migDone (e.queueAon 0x144 (Word.ofNat cfg)))) ∧
     (d.pageOn pgSram = false ∨ act d.regs pgSram SRAM.SCRUB.EN = 0 ∨ banksOn d = 0 →
       s.lands (.sramScrub data check double) d) ∧
     (d.pageOn pgSram = true → act d.regs pgSram SRAM.SCRUB.EN ≠ 0 → banksOn d ≠ 0 →
       let e := d.advanceTo (d.sram.sweptAt + 64)
       let w := e.sram.swept
       let banks := (List.range 288).filter fun b =>
         bankOn e b && (e.sram.bad.contains (sramKey b w) || faults.any fun f => f.1.val == b)
       let e := banks.foldl (scrubWord w faults)
         { e with sram := { e.sram with swept := (w + 1) % 65536, sweptAt := e.clk.tick } }
       (w + 1 < 65536 → s.lands (.sramScrub data check double) e) ∧
       (65536 ≤ w + 1 → s.lands (.sramScrub data check double) (e.setLiv pgSram SRAM.PASSES (liv e.regs pgSram SRAM.PASSES + 1)))))

/-- DMA doorbells and the chain (R314, R318, R319, R321, R324): START of a channel that is not running fetches at
HEAD, and of a running one changes nothing; STOP halts a running channel with STOPPED and idles a halted one;
RING follows the link of a waiting channel or is held for it; with MEM off each is a bus error; the chain
limit halts with LIMIT, a parity fault with CFG_FAULT; a completed descriptor writes its status, counts where
IRQ asks, and its link is read. DMA bursts, links and NORESP (R315, R316, R319, R324): with no channel waiting
no burst is granted; a granted burst moves at most 256 bytes of its channel's descriptor; a link with an even
word fetches the next descriptor, one to itself halts with LOOP, an odd one waits unless a doorbell is held; a
host transfer without an answer halts with HOST_ERROR after 4,096 cycles. Choices of the model it rests on:
log entries 51, 55, 56, 57, 118. -/
def Obligations.DmaChannelsRun : Prop :=
  (∀ (s : State) (k : Link) (c : Fin 32) (ecc : Ecc),
     let d := s.dev
     let st := dmaState d c.val
     let bells : List Instr := [.dmaStart k c, .dmaStop k c, .dmaRing k c]
     (d.pageOn pgDma = false → ∀ i ∈ bells,
       s.lands i (d.busError (pageBase pgDma + (0xC00 + 4 * c.val)) .domainOff (linkCode k))) ∧
     (d.pageOn pgDma = true →
     (st = 1 ∨ st = 2 → s.lands (.dmaStart k c) d) ∧
     (st = 0 ∨ st = 3 →
       let e := (d.onChan c.val fun _ => { fetch := some (act d.regs pgDma (DMA.HEAD c.val) * 32) })
       s.lands (.dmaStart k c)
         (setDmaState ((e.setLiv pgDma (DMA.FETCHED c.val) 0).setLiv pgDma (DMA.STATE.DB_PENDING c.val) 0) c.val 1)) ∧
     (st = 1 → s.lands (.dmaStop k c) (dmaHalt d c.val 9 true) ∧
       s.lands (.dmaRing k c) (d.setLiv pgDma (DMA.STATE.DB_PENDING c.val) 1)) ∧
     (st = 2 → s.lands (.dmaStop k c) (dmaHalt d c.val 9 false) ∧ s.lands (.dmaRing k c) (issueLink d c.val)) ∧
     (st = 3 → s.lands (.dmaStop k c) (setDmaState d c.val 0) ∧ s.lands (.dmaRing k c) d) ∧
     (st = 0 → s.lands (.dmaStop k c) d ∧ s.lands (.dmaRing k c) d)) ∧
     ((d.chan c.val).fetch = none → s.lands (.dmaFetch c ecc) d) ∧
     (∀ a, (d.chan c.val).fetch = some a →
       let d := applyChan c.val d
       let e := d.setLiv pgDma (DMA.CUR_DESC c.val) (a / 32)
       let limit := act d.regs pgDma DMA.CHAIN_LIMIT
       let n := liv d.regs pgDma (DMA.FETCHED c.val)
       let upset : Prop := e.status pgDma 2 = true
       (upset → s.lands (.dmaFetch c ecc) (dmaHalt e c.val 8 false)) ∧
       (¬ upset → limit ≠ 0 → n = limit → s.lands (.dmaFetch c ecc) (dmaHalt e c.val 1 false)) ∧
       (¬ upset → limit = 0 ∨ n ≠ limit →
         let r := e.memRead a 32 ecc
         (r.2.1 ≠ .ok → s.lands (.dmaFetch c ecc) (fetchHalt r.1 c.val r.2.1)) ∧
         (r.2.1 = .ok →
           let b := r.2.2.2
           let lw := fieldAt b 16 4
           let g : DmaDesc :=
             ⟨a, fieldAt b 0 8, fieldAt b 8 8, if lw % 2 ^ 24 = 0 then 2 ^ 24 else lw % 2 ^ 24, fieldAt b 20 4⟩
           let f := ((r.1.setLiv pgDma (DMA.FETCHED c.val) (n + 1)).setLiv pgDma (DMA.MOVED c.val) 0).onChan c.val
             fun _ => { desc := some g }
           s.lands (.dmaFetch c ecc) (if descOk f g lw then f else dmaHalt f c.val 3 true)))) ∧
     ((d.chan c.val).done = none ∨ (d.chan c.val).desc = none → s.lands (.dmaComplete c) d) ∧
     (∀ code g, (d.chan c.val).done = some code → (d.chan c.val).desc = some g →
       let e := writeStatus d c.val true code
       let e := (if bitOf g.ctrl 20 then compCount e c.val else e).onChan c.val fun h => { h with done := none }
       (e.status pgDma 2 = false → s.lands (.dmaComplete c) (issueLink e c.val)) ∧
       (e.status pgDma 2 = true → s.lands (.dmaComplete c) (dmaHalt e c.val 8 true)))) ∧
  (∀ (s : State) (c : Fin 32) (host : HostReply) (ecc out : Ecc),
     let d := s.dev
     let waits := (List.range 32).filter (burstWaits d)
     (grantLevel d waits = none → s.lands (.dmaBurst host ⟨ecc, out⟩) d) ∧
     (∀ level c' g, grantLevel d waits = some level → grantAt d waits level = some c' →
       ((noteGrant d waits level c').chan c').desc = some g →
       s.lands (.dmaBurst host ⟨ecc, out⟩) (burstOf sysWrite c' g host ecc out (noteGrant d waits level c'))) ∧
     ((d.chan c.val).link = false ∨ (d.chan c.val).desc = none → s.lands (.linkRead c ecc) d) ∧
     (∀ g, (d.chan c.val).link = true → (d.chan c.val).desc = some g →
       let r := d.memRead (g.addr + 24) 4 ecc
       let w := leNat r.2.2.2
       (r.2.1 ≠ .ok → s.lands (.linkRead c ecc) (fetchHalt r.1 c.val r.2.1)) ∧
       (r.2.1 = .ok → w % 2 = 0 → w / 2 * 32 ≠ g.addr → s.lands (.linkRead c ecc) (fetchNext r.1 c.val (w / 2 * 32))) ∧
       (r.2.1 = .ok → w % 2 = 0 → w / 2 * 32 = g.addr → s.lands (.linkRead c ecc) (dmaHalt r.1 c.val 1 true)) ∧
       (r.2.1 = .ok → w % 2 = 1 → liv r.1.regs pgDma (DMA.STATE.DB_PENDING c.val) = 0 →
         s.lands (.linkRead c ecc) (setDmaState (r.1.onChan c.val fun h => { h with link := false }) c.val 2)) ∧
       (r.2.1 = .ok → w % 2 = 1 → liv r.1.regs pgDma (DMA.STATE.DB_PENDING c.val) = 1 →
         s.lands (.linkRead c ecc) (issueLink r.1 c.val))) ∧
     ((d.chan c.val).desc = none → s.lands (.noresp c) d) ∧
     (∀ g, (d.chan c.val).desc = some g →
       let waits : Prop := dmaState d c.val = 1 ∧ (d.chan c.val).done = none ∧ (g.srcSpace = 1 ∨ g.dstSpace = 1)
       (waits → s.lands (.noresp c) (dmaHalt (d.advance 4096) c.val 2 true)) ∧ (¬ waits → s.lands (.noresp c) d)))

/-- The codec (R328, R329, R331, R332, R335): input to a context that takes none halts the channels that feed it,
a full one leaves it, and a context that takes it consumes it; a block verified in one form joins the output
in that form, one that fails in both puts the context in ERROR with VERIFY and its position; a decompressing
context decodes its input, an error stops it at the element; a configuration fault ends the stream at its
boundary, and without one an armed context applies there. CLOSE, RESET, the stall timeout and the context
switch (R331, R333, R334): CLOSE of a closed context or one in ERROR changes nothing, of an open compressing
one ends its stream, of a decompressing one shuts it after what its input holds, in ERROR with TRUNCATED where
a frame is left open; RESET halts its channels and closes it without a trailer; a context stalled beyond STALL
is held, once; an idle engine takes the context that asks. Choices of the model it rests on: log entries 3,
58, 59, 60, 61, 142. -/
def Obligations.CodecContextsRun : Prop :=
  (∀ (s : State) (n : Fin 16) (bytes : List Byte) (eom ok ok' : Bool),
     let d := s.dev
     let c := d.ctx n.val
     (takesInput d n.val = false → s.lands (.codecInput n bytes eom) (haltFeeders d n.val)) ∧
     (takesInput d n.val = true → codecState d n.val = 3 → s.lands (.codecInput n bytes eom) d) ∧
     (takesInput d n.val = true → codecState d n.val ≠ 3 →
       s.lands (.codecInput n bytes eom) (feedCtx d n.val bytes eom)) ∧
     (c.isOpen = false ∨ codecState d n.val = 4 ∨ c.saved = true →
       s.lands (.codecBlock n ok ok') d ∧ s.lands (.codecDecode n) d) ∧
     (decompresses d.regs n.val = true → s.lands (.codecBlock n ok ok') d) ∧
     (decompresses d.regs n.val = false → s.lands (.codecDecode n) d) ∧
     (mayUse d n.val = false ∨ nextBlock d.regs n.val c = none → s.lands (.codecBlock n ok ok') d) ∧
     (mayUse d n.val = false → s.lands (.codecDecode n) d) ∧
     (∀ data ends, decompresses d.regs n.val = false → c.isOpen = true → codecState d n.val ≠ 4 → c.saved = false →
       mayUse d n.val = true → nextBlock d.regs n.val c = some (data, ends) →
       let e := takeEngine d n.val
       let e := if ok then e else e.eventLog pgCodec 4 sevError (n.val + 8 * 2 ^ 4 + c.used % 2 ^ 28 * 2 ^ 12)
       (ok = true ∨ ok' = true →
         let o := showCtx (e.setCtx n.val { putBlock e.regs n.val (!ok) c data ends with stall := none }) n.val
         (o.status pgCodec 2 = false → s.lands (.codecBlock n ok ok') (applyCtx n.val o)) ∧
         (o.status pgCodec 2 = true → s.lands (.codecBlock n ok ok') (closeStream o n.val))) ∧
       (ok = false → ok' = false →
         let f := (e.setLiv pgCodec (CODEC.STATE n.val) 4).setLiv pgCodec (CODEC.ERR.CODE n.val) 8
         let f := f.setPair pgCodec (CODEC.ERR_POS_LO n.val).off (CODEC.ERR_POS_HI n.val).off (c.used % 2 ^ 48)
         s.lands (.codecBlock n ok ok') (haltDrains (f.setStatus pgCodec (8 + n.val) true) n.val))) ∧
     (decompresses d.regs n.val = true → c.isOpen = true → codecState d n.val ≠ 4 → c.saved = false →
       mayUse d n.val = true →
       let e := takeEngine d n.val
       let r := decodeCtx e.regs n.val c
       let f := e.setCtx n.val { r.1 with stall := none }
       (∀ code, r.2 = some code →
         s.lands (.codecDecode n) (ctxError f n.val code r.1.used r.1.bitPos 5)) ∧
       (r.2 = none → 2 ≤ r.1.phase → s.lands (.codecDecode n) (showCtx f n.val)) ∧
       (r.2 = none → r.1.phase ≤ 1 →
         (f.status pgCodec 2 = true → s.lands (.codecDecode n) (ctxError f n.val 9 r.1.used r.1.bitPos 6)) ∧
         (f.status pgCodec 2 = false → s.lands (.codecDecode n) (applyCtx n.val (showCtx f n.val)))))) ∧
  (∀ (s : State) (k : Link) (n : Fin 16) (ecc : Ecc),
     let d := s.dev
     let c := d.ctx n.val
     (d.pageOn pgCodec = false →
       let e := d.busError (pageBase pgCodec + (0xB00 + 4 * n.val)) .domainOff (linkCode k)
       s.lands (.codecClose k n) e ∧ s.lands (.codecReset k n) e) ∧
     (d.pageOn pgCodec = true → c.isOpen = false ∨ codecState d n.val = 4 → s.lands (.codecClose k n) d) ∧
     (d.pageOn pgCodec = true → c.isOpen = true → codecState d n.val ≠ 4 →
       (decompresses d.regs n.val = false → s.lands (.codecClose k n) (closeStream d n.val)) ∧
       (decompresses d.regs n.val = true →
         let r := decodeRest d.regs n.val (c.input.length + 1) c
         let e := d.setCtx n.val r.1
         (∀ code, r.2 = some code → s.lands (.codecClose k n) (ctxError e n.val code r.1.used r.1.bitPos 5)) ∧
         (r.2 = none → r.1.phase = 0 → r.1.input = [] → s.lands (.codecClose k n) (shutCtx e n.val)) ∧
         (r.2 = none → r.1.phase ≠ 0 ∨ r.1.input ≠ [] →
           s.lands (.codecClose k n) (ctxError e n.val 7 r.1.used r.1.bitPos 5)))) ∧
     (d.pageOn pgCodec = true →
       let e := (haltCtx d n.val).setCtx n.val {}
       let e := e.onCodec fun q =>
         { q with comp := if q.comp = some n.val then none else q.comp,
                  decomp := if q.decomp = some n.val then none else q.decomp }
       s.lands (.codecReset k n)
         ((e.setLiv pgCodec (CODEC.STATE n.val) 0).setStatus pgCodec (8 + n.val) false)) ∧
     (c.stall = none ∨ c.held = true → s.lands (.stallTimeout n) d) ∧
     (∀ t, c.stall = some t → c.held = false →
       let e := d.advanceTo (t + codecFld d.regs CODEC.SWITCH.STALL + 1)
       let onInput := c.output.isEmpty
       let e := if onInput then (e.event pgCodec 8).setLiv pgCodec (CODEC.STATE n.val) 2 else e
       let mid := !decompresses e.regs n.val && e.codec.comp == some n.val && (!onInput || !c.input.isEmpty)
       s.lands (.stallTimeout n) ((if mid then e.event pgCodec 9 else e).setCtx n.val { c with held := true })) ∧
     (engineOf d n.val = none → s.lands (.contextSwitch n ecc) (takeEngine d n.val)) ∧
     (∀ o, engineOf d n.val = some o →
       let goes : Prop := o ≠ n.val ∧ mayLeave d o = true ∧ nextReady d o = some n.val
       (goes → s.lands (.contextSwitch n ecc) (switchTo n.val o ecc d)) ∧
       (¬ goes → s.lands (.contextSwitch n ecc) d)))

/-- PCI Express (R341, R342, R343): FLR and the link's loss reset the vectors' masks and the rings and leave the
rest of the configuration; BAR2 answers only with the link up, beyond the capacity UNMAPPED and with MEM off
DOMAIN_OFF, and else moves the bytes it enables; unmasking a vector sends a message that pends, unmasking the
function each; the link comes up with its width and speed under the page applied there, and with power reduced
or the page off not at all. Rings (R344 to R347): RING_TAIL shows the tail and gives a live ring its new
entries, those not given with free content, and runs what ring 0 holds; ring 1 takes the oldest reply once its
buffers have room, and without a reply or with the link down nothing is written; any other ring takes its
streams in turn; a coalesced message leaves COALESCE_US after its first packet; a reply that finds no room, or
no link, for 10 ms is dropped and counted. Choices of the model it rests on: log entries 3, 29, 62, 64, 69,
70, 85, 114. -/
def Obligations.PcieAndRings : Prop :=
  (∀ (s : State) (a len : Nat) (w : Option (List (Option Byte))) (ecc : Ecc) (v : Option (Fin 64))
       (width gen : BitVec 4),
     let d := s.dev
     (pcieUp d = false →
       s.lands .pcieFlr d ∧ s.lands .linkDown d ∧ s.lands (.bar2Access a len w ecc) d) ∧
     (pcieUp d = true →
       s.lands .pcieFlr { flr d with aon := AON.RESET_CAUSE.put (flr d).aon (pageBase pgAon) 7 } ∧
       s.lands .linkDown
         (flr ((((d.setLiv pgPcie PCIE.LINK.UP 0).setLiv pgPcie PCIE.LINK.WIDTH 0).setLiv pgPcie PCIE.LINK.GEN 0).event
           pgPcie 4)) ∧
       (let n := match w with
         | some l => l.length
         | none => len
        (dramSize d < a + n → s.lands (.bar2Access a len w ecc) (bar2Error d a .unmapped)) ∧
        (a + n ≤ dramSize d → d.domainOn 4 = false → s.lands (.bar2Access a len w ecc) (bar2Error d a .domainOff)) ∧
        (a + n ≤ dramSize d → d.domainOn 4 = true →
         (w = none →
           let r := d.memRead a len ecc
           s.lands (.bar2Access a len w ecc) (bar2End r.1 a r.2.1 r.2.2.2)) ∧
         (∀ l, w = some l →
           let r := d.writeLines (lineOpt a l) (linesOf a l.length) ecc .ok
           s.lands (.bar2Access a len w ecc) (bar2End r.1 a r.2 []))))) ∧
     (d.domainOn 2 = false → s.lands (.msixUnmask v) d) ∧
     (d.domainOn 2 = true →
       (∀ n, v = some n →
         s.lands (.msixUnmask v) (sendPending (d.setLiv pgPcie (PCIE.MSIX.MASK n.val) 0) n.val)) ∧
       (v = none →
         s.lands (.msixUnmask v)
           ((List.range 64).foldl sendPending { d with pcie := { d.pcie with funcMask := false } }))) ∧
     (d.pageOn pgPcie = false ∨ d.pwr.reduced = true → s.lands (.pcieLinkUp width gen) d) ∧
     (d.pageOn pgPcie = true → d.pwr.reduced = false →
       let e := applyNow pgPcie d
       let e := (e.setLiv pgPcie PCIE.LINK.UP 1).setLiv pgPcie PCIE.LINK.WIDTH width.toNat
       s.lands (.pcieLinkUp width gen)
         (e.setLiv pgPcie PCIE.LINK.GEN (min gen.toNat (act e.regs pgPcie PCIE.MAX_GEN + 1))))) ∧
  (∀ (s : State) (k : Link) (r : Fin 16) (tail : BitVec 16) (entries : List HostEntry),
     let d := s.dev
     (d.pageOn pgSahf = false →
       s.lands (.ringTail k r tail entries) (d.busError (pageBase pgSahf + (0x980 + 4 * r.val)) .domainOff (linkCode k))) ∧
     (d.pageOn pgSahf = true →
       let n := (tail.toNat + 65536 - liv d.regs pgSahf (SAHF.RING_TAIL r.val)) % ringSize d r.val
       let given := entries.take n
       let f := if (d.ring r.val).live = true then freeEntries (n - given.length) d else (d, [])
       let e := moveTail r.val tail.toNat (given ++ f.2) f.1
       (r ≠ 0 → s.lands (.ringTail k r tail entries) e) ∧
       (r = 0 → s.lands (.ringTail k r tail entries) (ring0Run (e.ring 0).entries.length e))) ∧
     (sahfOn d = false ∨ pcieUp d = false ∨ r = 0 → s.lands (.ringWrite r) d) ∧
     (sahfOn d = true → pcieUp d = true →
       let e := applyNow pgSahf d
       (r ≠ 0 → r ≠ 1 →
         s.lands (.ringWrite r) (ringStream applyCtx r.val (rotation (e.sahf.ringRot.getD r.val 63)) e)) ∧
       (e.sahf.replies = [] → s.lands (.ringWrite 1) e) ∧
       (∀ pkt t rest, e.sahf.replies = (pkt, t) :: rest →
         (ringFits (e.ring 1) pkt.length = true →
           s.lands (.ringWrite 1) (putRing (e.onSahf fun q => { q with replies := rest }) 1 pkt)) ∧
         (ringFits (e.ring 1) pkt.length = false → s.lands (.ringWrite 1) e))) ∧
     (∀ pkt t rest, d.sahf.replies = (pkt, t) :: rest →
       let waits : Prop := ringFits (d.ring 1) pkt.length = true ∧ pcieUp d = true
       (waits → s.lands .replyDropped d) ∧
       (¬ waits →
         s.lands .replyDropped
           (((d.advanceTo (t + 6250000)).onSahf fun q => { q with replies := rest }).event pgSahf 9))) ∧
     (d.sahf.replies = [] → s.lands .replyDropped d) ∧
     (act d.regs pgSahf (SAHF.RING.COALESCE_US r.val) = 0 ∨ pcieUp d = false → s.lands (.coalesceTimeout r) d) ∧
     ((d.ring r.val).since = 0 → s.lands (.coalesceTimeout r) d) ∧
     ((d.ring r.val).since ≠ 0 → act d.regs pgSahf (SAHF.RING.COALESCE_US r.val) ≠ 0 → pcieUp d = true →
       s.lands (.coalesceTimeout r)
         (ringMessage (d.advanceTo ((d.ring r.val).first + act d.regs pgSahf (SAHF.RING.COALESCE_US r.val) * 625)) r.val)))

/-- REG_READ, REG_WRITE, MEM_READ, MEM_WRITE, ECHO (R371, R373, R389, R467): a served REG_READ answers its words,
a REG_WRITE and a MEM_WRITE commit their entry before what they write, a MEM_READ answers what the memory
holds, an ECHO its bytes; a command that fails a check, or comes where no link takes it, does nothing else,
and the mailbox takes none of them. Choices of the model it rests on: log entries 77, 78, 79, 80. -/
def Obligations.RegisterCommandsAnswer : Prop :=
  ∀ (s : State) (v : Via) (a : Addr) (ma n : Nat) (ws : List Word) (bytes : List Byte) (ecc : Ecc),
    let wb := ws.flatMap fun w => leBytes 4 w.toNat
    let entry (d : Dev) (code page : Nat) (ans : Answer) (count addr : Nat) (data : List Byte) : Dev :=
      commandEntry d
        { link := linkCode v.link, code := code, page := page, result := if ans.status = 0 then 0 else 3,
          seq := if v.mailbox then 0 else v.seq.toNat, count := count, status := ans.status,
          digest := (crc32c (leBytes 8 addr ++ data)).toNat, sahf := !v.mailbox }
    (v.mailbox = true →
      s.lands (.regRead v a n) s.dev ∧ s.lands (.regWrite v a ws) s.dev ∧ s.lands (.memRead v ma n ecc) s.dev ∧
      s.lands (.memWrite v ma ⟨bytes, ecc⟩) s.dev ∧ s.lands (.echo v bytes) s.dev) ∧
    (s.takes (.regRead v a n) v (withData 1 n a.toNat []) fun d =>
      let t := readWords n 0 (a.toNat % 16777216) d
      let e := busErrors t.1 (linkCode v.link) (t.2.2.map (·.2))
      let ans := wordsAnswer t.2.2 (t.2.1.flatMap fun w => leBytes 4 w.toNat)
      e.answered v 1 ans.status ans.arg ans.data) ∧
    (s.takes (.regWrite v a ws) v (withData 2 ws.length a.toNat wb) fun d =>
      let at' := a.toNat % 16777216
      let ans := wordsAnswer (writeWords v.link (leWords wb) 0 at' d).2 []
      let page := match placeOf at' with
        | some (.page pg _) => pg.num
        | _ => 0
      let t := writeWords v.link (leWords wb) 0 at' (entry d 2 page ans ws.length a.toNat wb)
      (busErrors t.1 (linkCode v.link) (t.2.map (·.2))).answeredKept v 2 ans.status ans.arg d.jr.nextSeq []) ∧
    (s.takes (.memRead v ma n ecc) v (withData 3 n ma []) fun d =>
      let t := d.memRead ma n ecc
      let ans := memAnswer t.2.1
      match t.2.1, t.2.2.1 with
      | .poisoned, some l => t.1.answered v 3 8 (64 * l - ma) t.2.2.2
      | .poisoned, none => t.1.answered v 3 8 0 t.2.2.2
      | _, _ => t.1.answered v 3 ans.status ans.arg t.2.2.2) ∧
    (s.takes (.memWrite v ma ⟨bytes, ecc⟩) v (withData 4 bytes.length ma bytes) fun d =>
      let ans := memAnswer (d.memWrite ma bytes ecc).2
      let e := entry d 4 0 ans bytes.length ma bytes
      (e.memWrite ma bytes ecc).1.answeredKept v 4 ans.status ans.arg d.jr.nextSeq []) ∧
    (s.takes (.echo v bytes) v (withData 5 bytes.length 0 bytes) fun d => d.answered v 5 0 0 bytes)

/-- STATUS, JOURNAL_READ, TROUBLE_READ, JOURNAL_MARK, CAL_FACTORY, REEL_STOP, FOREMAN_RESTART (R382, R384, R403):
a served one commits its entry, has its effect and is answered, over Sahfort or in the mailbox's window; one
in conflict or barred commits its entry and fails with the reason. Choices of the model it rests on: log
entries 81, 82, 83. -/
def Obligations.ServiceCommandsAnswerAtOnce : Prop :=
  ∀ (s : State) (v : Via) (first : Word) (n : Nat) (mark : BitVec 64) (p : PageNo),
    let direct (c : Instr) (r : Req) (effect : Req → Dev → Dev) (answer : Req → Dev → Answer)
        (after : Dev → Dev) : Prop :=
      s.serviced c v r fun r d =>
        match serviceBar d r with
        | some why => (d.entered v r 3 5).closes v r.code 5 why d.jr.nextSeq [] after
        | none =>
          (effect r (d.entered v r 0 0)).closes v r.code 0 (answer r d).arg d.jr.nextSeq (answer r d).data after
    let nothing (_ : Req) (d : Dev) : Dev := d
    let empty (_ : Req) (_ : Dev) : Answer := {}
    direct (.status v) (plain 0x0100) nothing (fun _ d => { data := statusData d }) id ∧
    direct (.journalRead v first n) (withData 0x0120 n first.toNat []) nothing (fun r d => readJournal d r.arg r.count)
      id ∧
    direct (.troubleRead v first n) (withData 0x0121 n first.toNat []) nothing (fun r d => readTrouble d r.arg r.count)
      id ∧
    direct (.journalMark v mark) (withAddr 0x0122 mark.toNat)
      (fun r e => e.journal { link := linkCode v.link, kind := kindMark, arg := r.addr }) empty id ∧
    direct (.calFactory v p) (withAddr 0x0111 p.toNat) (fun r => onPage r.arg calFactoryOn) empty id ∧
    direct (.reelStop v) (plain 0x0141) (fun _ e => endReels e 1) empty id ∧
    direct (.foremanRestart v) (plain 0x01F0) nothing empty fun e => restartWith e 4

/-- The commands that open a procedure (R382, R383, R408 to R415): MODE_SET, LINE_OUT, LINE_IN, CAL_RUN,
PATCH_LOAD, PATCH_SWAP, PATCH_REVERT, PATCH_COMMIT, REEL_RECORD, REEL_PLAY, EMIT_SWAP_BEGIN, EMIT_SWAP_END: a
served one that nothing bars commits its entry, opens its procedure of the steps of its table, and answers OK;
one that is barred commits its entry and fails with its reason. RANK_MIGRATE (R414): a served one that nothing
bars writes MIGRATE; what MEMX refuses fails with its reason, and what it takes opens the procedure. Choices
of the model it rests on: log entries 83, 84, 90. -/
def Obligations.ServiceCommandsOpenProcedures : Prop :=
  (∀ (s : State) (v : Via) (m : BitVec 3) (x : Line) (p : PageNo) (now : Bool) (a n : Nat) (bytes : List Byte) (em : Emitter),
     let opens (c : Instr) (r : Req) (pre : Dev → Dev) (arg2 : Dev → Nat) (plan : Req → Dev → List PStep) : Prop :=
       s.serviced c v r fun r d =>
         match serviceBar d r with
         | some why => (d.entered v r 3 5).closes v r.code 5 why d.jr.nextSeq []
         | none =>
           let e := pre d
           let q := openProc (e.entered v r 2 0)
             { code := r.code, seq := e.jr.nextSeq, link := linkCode v.link, arg := r.arg, arg2 := arg2 e,
               plan := plan r d }
           q.closes v r.code 0 0 d.jr.nextSeq []
     let wakes (d : Dev) : Dev := { d with pwr := { d.pwr with noWake := false } }
     let of (l : List PStep) (_ : Req) (_ : Dev) : List PStep := l
     opens (.modeSet v m) (withAddr 0x0101 m.toNat) wakes (fun _ => 0) (fun r d => modePlan d.pwr.mode r.arg) ∧
     opens (.lineOut v x) (withAddr 0x0102 x.idx) id (fun _ => 0) (of ([1, 2, 3, 4, 5, 6].map .lineOut)) ∧
     opens (.lineIn v x) (withAddr 0x0103 x.idx) id (fun _ => 0)
       (fun _ d => (if d.pwr.mode = 3 ∨ d.pwr.mode = 4 ∨ d.pwr.mode = 5 then [1, 2, 3, 4, 5] else [1, 2, 3]).map
         .lineIn) ∧
     opens (.calRun v p now) (withAddr 0x0110 (p.toNat + 65536 * bit now)) id (fun _ => 0) (of [.cal]) ∧
     opens (.patchLoad v a n bytes) (withData 0x0130 n a bytes) id (fun _ => 0) (of [.patchLoad]) ∧
     opens (.patchSwap v) (plain 0x0131) id (fun d => (swapBank d).getD 0) (of [.patchSwap]) ∧
     opens (.patchRevert v) (plain 0x0132) id (fun _ => 0) (of [.patchSwap]) ∧
     opens (.patchCommit v) (plain 0x0133) id (fun _ => 0) (of [.patchCommit]) ∧
     opens (.reelRecord v) (plain 0x0140) id (fun _ => 0) (of [.reelRecord]) ∧
     opens (.reelPlay v) (plain 0x0142) id (fun _ => 0) (of ([1, 2, 3, 4, 5, 6, 7].map .reelPlay)) ∧
     opens (.emitSwapBegin v x em) (withAddr 0x0150 (x.idx + 16 * emitterNo em)) id (fun _ => 0) (of [.emitBegin]) ∧
     opens (.emitSwapEnd v x em) (withAddr 0x0151 (x.idx + 16 * emitterNo em)) id (fun _ => 0) (of [.emitEnd])) ∧
  (∀ (s : State) (v : Via) (p : Fin 8),
     s.serviced (.rankMigrate v p) v (withAddr 0x0160 p.val) fun r d =>
       match serviceBar d r with
       | some why => (d.entered v r 3 5).closes v r.code 5 why d.jr.nextSeq []
       | none =>
         let e := migrate r.arg d
         let said := liv e.regs pgMemx MEMX.CMD_RESULT
         let q := openProc (e.entered v r 2 0)
           { code := r.code, seq := e.jr.nextSeq, link := linkCode v.link, arg := r.arg, arg2 := 0, plan := [.migrate] }
         if said = 0 then q.closes v r.code 0 0 d.jr.nextSeq []
         else (e.entered v r 3 5).closes v r.code 5 (whyMemx said) d.jr.nextSeq [])

/-- The Foreman's procedures (R382, R383): PROC_STEP of a procedure that is not open, or while the Foreman does
not run, changes nothing; else the parts of its step run, and the step ends, fails or waits; PROC_TIMEOUT
fails a procedure at the limit of its step. Restarts of the Foreman (R384 to R386, R409): a watchdog expiry
restarts with cause 2, an exception with cause 3, but the third crash of a patch bank within 60 s falls back
to ROM; RESTARTED rebuilds what it watches and runs it again; the swap restart waits for its round boundary,
then runs its bank, or the ROM. Choices of the model it rests on: log entries 3, 81, 91, 95, 96, 97, 103. -/
def Obligations.ProceduresStepAndTimeOut : Prop :=
  (∀ (s : State) (i : Nat) (faults : List (Nat × Ecc)),
     let d := s.dev
     (d.fm.procs[i]? = none ∨ d.foremanRuns = false →
       s.lands (.procStep ⟨i, faults⟩) d ∧ s.lands (.procTimeout i) d) ∧
     (∀ p, d.fm.procs[i]? = some p → d.foremanRuns = true →
       (p.plan = [] → s.lands (.procStep ⟨i, faults⟩) (closeProc d i p)) ∧
       (∀ k rest, p.plan = k :: rest →
         let r := runParts k 16 d { p with ecc := faults }
         (r.2.2 = .fin → s.lands (.procStep ⟨i, faults⟩) (serveHeld (stepDone r.1 i r.2.1))) ∧
         (∀ why, r.2.2 = .fail why → s.lands (.procStep ⟨i, faults⟩) (serveHeld (endProc r.1 i r.2.1 false why))) ∧
         (r.2.2 = .wait ∨ r.2.2 = .next → s.lands (.procStep ⟨i, faults⟩) (procWaits r.1 i r.2.1))) ∧
       (stepLimit d p = none → s.lands (.procTimeout i) d) ∧
       (∀ n, stepLimit d p = some n →
         s.lands (.procTimeout i) (serveHeld (endProc (d.advanceTo (p.since + n)) i p false (whyTimeout (p.step + 1))))))) ∧
  (∀ (s : State),
     let d := s.dev
     let recent := d.clk.tick :: d.fm.crashes.filter fun u => d.clk.tick < u + 37500000000
     let falls := d.onFm fun f => { f with crashes := [] }
     let fallback : Dev :=
       let e := restartWith falls 7
       let e := runBank (setBankBit e FOREMAN.BANK.NOT_BOOTABLE (activeBank d - 1) true) 0
       patchEntry (e.trouble pgForeman 0x82 sevCritical (activeBank d)) linkHardware (activeBank d - 1) 5 3
     (d.domainOn 1 = false ∨ d.aonSt.booting ≠ 0 →
       s.lands .watchdog d ∧ s.lands .exception d ∧ s.lands .restarted d) ∧
     (d.domainOn 1 = true → d.aonSt.booting = 0 →
       (activeBank d = 0 →
         s.lands .watchdog (restartWith falls 2) ∧ s.lands .exception (restartWith falls 3)) ∧
       (activeBank d ≠ 0 → recent.length < 3 →
         s.lands .watchdog (restartWith (d.onFm fun f => { f with crashes := recent }) 2) ∧
         s.lands .exception (restartWith (d.onFm fun f => { f with crashes := recent }) 3)) ∧
       (activeBank d ≠ 0 → 3 ≤ recent.length → s.lands .watchdog fallback ∧ s.lands .exception fallback) ∧
       (d.foremanRuns = true → s.lands .restarted d) ∧
       (d.foremanRuns = false →
         let e := (rebuild (checkBank d)).setLiv pgForeman FOREMAN.STATE 2
         let e := e.journal { link := linkHardware, kind := kindRestarted,
                              arg := e.fm.procs.length + 2 ^ 8 * activeBank e }
         s.lands .restarted (judgeMailbox (serveHeld (reportLost (takeNotification (e.event pgForeman 4))))))) ∧
     (d.fm.swap = none ∨ swapBoundary d = none → s.lands .swapRestart d) ∧
     (∀ cause e, d.fm.swap = some cause → swapBoundary d = some e →
       let p := e.fm.procs.find? fun p => p.code == 0x0131 || p.code == 0x0132
       let link := (p.map (·.link)).getD linkHardware
       let f := restartWith (e.onFm fun f => { f with swap := none }) cause
       (cause = 5 →
         let b := (p.map (·.arg2)).getD 0
         s.lands .swapRestart ((patchEntry (runBank f (b + 1)) link b 2 0).event pgForeman 5)) ∧
       (cause ≠ 5 →
         s.lands .swapRestart ((patchEntry (runBank f 0) link (activeBank e - 1) 3 0).event pgForeman 5))))

/-- STREAM_MESSAGE (R365, R369): the oldest message handed over takes the first entry that selects it, is queued
there where its destination takes messages and the queue has room, a port's neighbour asked for, and is
dropped with its cause otherwise; without an entry or with SAHF off it is dropped and counted. PACKET_TRANSMIT
(R353): a port that is down sends nothing; else, once the wire is free, a PTP event message goes first, then a
reply whose neighbour is known, then an answer, then a packet of the streams in rotation. Choices of the model
it rests on: log entries 3, 62, 64, 65, 68. -/
def Obligations.StreamMessagesAreQueuedOrDropped : Prop :=
  (∀ (s : State),
     (s.dev.inbox = [] → s.lands .streamMessage s.dev) ∧
     (∀ m rest, s.dev.inbox = m :: rest →
       let d := { s.dev with inbox := rest }
       (sahfOn d = false ∨ matchEntry d m.stream = none → s.lands .streamMessage (d.event pgSahf 7)) ∧
       (∀ n, sahfOn d = true → matchEntry d m.stream = some n →
         let dest := streamFld d (SAHF.STREAM.DEST n)
         let q : QMsg := ⟨m, d.clk.tick, dest, streamFld d (SAHF.STREAM.TARGET n),
           if streamFld d (SAHF.STREAM.COMPRESS n) = 1 then some (streamFld d (SAHF.STREAM.CTX n)) else none⟩
         let room (d : Dev) := max (streamFld d (SAHF.STREAM.QUEUE_MAX n)) 1
         (∀ c, destBar d q = some c → s.lands .streamMessage (dropMsg d n q c)) ∧
         (destBar d q = none →
           let e := dropGone d n
           let st := e.stream n
           let f := e.setStream n { st with queue := st.queue ++ [q] }
           (room e ≤ st.queue.length → s.lands .streamMessage (dropMsg e n q 1)) ∧
           (st.queue.length < room e → 2 ≤ dest → s.lands .streamMessage f) ∧
           (st.queue.length < room e → dest < 2 →
             s.lands .streamMessage (resolve f dest (destV6 f dest q.target) (destAddr f dest q.target))))))) ∧
  (∀ (s : State) (p : Fin 2),
     (ethUp s.dev p.val = false → s.lands (.packetTransmit p) s.dev) ∧
     (ethUp s.dev p.val = true →
       let d := applyNow (pgEth p.val) (s.dev.advanceTo (s.dev.port p.val).free)
       (ethUp d p.val = false → s.lands (.packetTransmit p) d) ∧
       (ethUp d p.val = true →
       (∀ f rest, (d.port p.val).ptp = f :: rest →
         s.lands (.packetTransmit p)
           (stampEgress (sendFrame (d.onPort p.val fun e => { e with ptp := rest }) p.val f))) ∧
       (∀ r mac rest, (d.port p.val).ptp = [] → takeReply d p.val (d.port p.val).replies = some (r, mac, rest) →
         let f := sahfDatagram (d.onPort p.val fun e => { e with replies := rest }) p.val mac r.ipv6 r.addr r.port 0 r.pkt
         s.lands (.packetTransmit p) (sendFrame f.1 p.val f.2)) ∧
       (∀ f rest, (d.port p.val).ptp = [] → takeReply d p.val (d.port p.val).replies = none →
         (d.port p.val).ctl = f :: rest →
         s.lands (.packetTransmit p) (sendFrame (d.onPort p.val fun e => { e with ctl := rest }) p.val f)) ∧
       ((d.port p.val).ptp = [] → takeReply d p.val (d.port p.val).replies = none → (d.port p.val).ctl = [] →
         (sahfOn d = false → s.lands (.packetTransmit p) d) ∧
         (sahfOn d = true →
           s.lands (.packetTransmit p)
             (sendStream applyCtx p.val (rotation (d.port p.val).rot) (applyNow pgSahf d)))))))

/-- ETH_RX (R348 to R351): a frame with a bad FCS counts FCS_ERR, a PAUSE frame is counted, one for another MAC
address or another VLAN is discarded; ARP, IPv4 and IPv6, tagged with the port's VLAN or untagged, go on to
their protocols, a PTP frame of a port of PTP to PTP, any other type is discarded; the page applies at the
frame's start. Choices of the model it rests on: log entry 67. -/
def Obligations.FramesArriveAtTheirProtocol : Prop :=
  ∀ (s : State) (p : Fin 2) (b : List Byte) (ok : Bool),
    let n := p.val
    let d := applyNow (pgEth n) s.dev
    let type := beAt b 12 2
    let vid := beAt b 14 2 % 4096
    let mac := beAt b 6 6
    let gives (d : Dev) : Prop := s.lands (.ethRx p b ok) d
    let goesOn (type : Nat) (b : List Byte) : Prop :=
      (type = 0x0806 → gives (arpIn n b d)) ∧ (type = 0x0800 → gives (ip4In n mac b d)) ∧
      (type = 0x86DD → gives (ip6In n mac b d)) ∧
      (type = 0x88F7 → (ptpHere d n 2 = true → gives d) ∧ (ptpHere d n 2 = false → gives (rxDiscard n d))) ∧
      (type ≠ 0x0806 → type ≠ 0x0800 → type ≠ 0x86DD → type ≠ 0x88F7 → gives (rxDiscard n d))
    (ethUp s.dev n = false → gives s.dev) ∧
    (ethUp s.dev n = true →
      (ethUp d n = false → gives d) ∧
      (ethUp d n = true →
        (ok = false → gives (d.event (pgEth n) 7)) ∧
        (ok = true → type = 0x8808 → gives (d.event (pgEth n) 9)) ∧
        (ok = true → type ≠ 0x8808 → macConcerns d n (beAt b 0 6) = false → gives (rxDiscard n d)) ∧
        (ok = true → macConcerns d n (beAt b 0 6) = true →
          (type ≠ 0x8100 → type ≠ 0x8808 → goesOn type (b.drop 14)) ∧
          (type = 0x8100 → vid ≠ 0 → vid ≠ ethFld d n ETH.VLAN.VID → gives (rxDiscard n d)) ∧
          (type = 0x8100 → vid = 0 ∨ vid = ethFld d n ETH.VLAN.VID → goesOn (beAt b 16 2) (b.drop 18)))))

/-- ETH_LINK_UP, ETH_LINK_DOWN (R348, R351, R369): the link comes up only with EN = 1, announcing its addresses; a
link that goes down counts, drops its frames, and drops the messages for it with cause LINK_DOWN. Neighbours
(R351, R369): without a neighbour asked for, RESOLVE_RETRY changes nothing, else it asks again for those due
and drops the replies that waited a second; UNRESOLVED drops the oldest message of an entry whose neighbour
stays unknown one second, with cause 2, and stops asking once nothing waits for it; CACHE_REFRESH asks again
for every neighbour of the cache. Choices of the model it rests on: log entries 3, 64, 66. -/
def Obligations.PortsComeUpAndGoDown : Prop :=
  (∀ (s : State) (p : Fin 2),
     let d := s.dev
     let n := p.val
     (d.pageOn (pgEth n) = false ∨ enActive d.regs (pgEth n) = false ∨ ethUp d n = true → s.lands (.ethLinkUp p) d) ∧
     (d.pageOn (pgEth n) = true → enActive d.regs (pgEth n) = true → ethUp d n = false →
       let e := (d.setLiv (pgEth n) ETH.LINK.UP 1).setLiv (pgEth n) ETH.LINK.FEC_LOCK
         (bit (ethFld d n ETH.PORT.RSFEC == 1 && ethFld d n ETH.PORT.SPEED == 1))
       let e := e.onPort n fun q => { q with free := d.clk.tick, fresh := d.clk.tick }
       let ip := ethFld e n ETH.IPV4
       let g := sendCtl e n (ethFrame e n 0xFFFFFFFFFFFF 0x0806 (arpPacket 1 (portMac e n) ip 0 ip))
       let e := if familyOn e n false = true then g else e
       (familyOn e n true = false → s.lands (.ethLinkUp p) e) ∧
       (familyOn e n true = true →
         let all := 0xFF02 * 2 ^ 112 + 1
         s.lands (.ethLinkUp p) (advertise e n (mac6 all) all (portIp6 e n) 1))) ∧
     (ethUp d n = false → s.lands (.ethLinkDown p) d) ∧
     (ethUp d n = true →
       let e := ((d.setLiv (pgEth n) ETH.LINK.UP 0).setLiv (pgEth n) ETH.LINK.FEC_LOCK 0).event (pgEth n) 4
       let q := e.port n
       let f := e.events (pgEth n) 6 (q.ptp.length + q.replies.length + q.ctl.length)
       s.lands (.ethLinkDown p)
         (dropDest (f.onPort n fun q => { q with ptp := [], replies := [], ctl := [], wants := [] })
           (fun m => m.dest == n) 3))) ∧
  (∀ (s : State) (p : Fin 2) (n : Fin 64),
     let d := s.dev
     ((d.port p.val).wants = [] ∨ ethUp d p.val = false → s.lands (.resolveRetry p) d) ∧
     (∀ w ws, (d.port p.val).wants = w :: ws → ethUp d p.val = true →
       let e := d.advanceTo (ws.foldl (fun t v => min t v.2.2) w.2.2 + retryTicks)
       let due (v : Bool × Nat × Nat) : Bool := v.2.2 + retryTicks ≤ e.clk.tick
       let f := ((e.port p.val).wants.filter due).foldl (fun f v => askFor f p.val v.1 v.2.1) e
       let f := f.onPort p.val fun q =>
         { q with wants := q.wants.map fun v => if due v then (v.1, v.2.1, e.clk.tick) else v }
       let late (r : EthReply) : Bool := r.tick + secondTicks ≤ e.clk.tick && (macFor e p.val r.ipv6 r.addr).isNone
       s.lands (.resolveRetry p)
         ((f.onPort p.val fun q => { q with replies := q.replies.filter fun r => !late r }).events (pgEth p.val) 8
           ((f.port p.val).replies.filter late).length)) ∧
     ((d.stream n.val).queue = [] → s.lands (.unresolved n) d) ∧
     (∀ q rest, (d.stream n.val).queue = q :: rest →
       (2 ≤ q.dest → s.lands (.unresolved n) d) ∧
       (q.dest < 2 → (macFor d q.dest (destV6 d q.dest q.target) (destAddr d q.dest q.target)).isSome = true →
         s.lands (.unresolved n) d) ∧
       (q.dest < 2 → (macFor d q.dest (destV6 d q.dest q.target) (destAddr d q.dest q.target)) = none →
         let e := d.advanceTo (q.tick + secondTicks)
         let e := dropMsg (e.setStream n.val { e.stream n.val with queue := rest }) n.val q 2
         let v6 := destV6 d q.dest q.target
         let a := destAddr d q.dest q.target
         let hop := nextHop e q.dest v6 a
         let waits : Bool := (List.range 64).any (fun i => (e.stream i).queue.any fun w =>
             w.dest == q.dest && nextHop e q.dest (destV6 e q.dest w.target) (destAddr e q.dest w.target) == hop) ||
           (e.port q.dest).replies.any fun r => nextHop e q.dest r.ipv6 r.addr == hop
         (waits = true → s.lands (.unresolved n) e) ∧
         (waits = false →
           s.lands (.unresolved n)
             (e.onPort q.dest fun o => { o with wants := o.wants.filter fun w => !(w.1 == v6 && some w.2.1 == hop) })))) ∧
     (ethUp d p.val = false → s.lands (.cacheRefresh p) d) ∧
     (ethUp d p.val = true →
       let e := d.advanceTo ((d.port p.val).fresh + 37500000000)
       let e := (e.port p.val).cache.foldl (fun f m => askFor f p.val m.ipv6 m.addr) e
       s.lands (.cacheRefresh p) (e.onPort p.val fun q => { q with fresh := e.clk.tick })))

/-- The SFP28 cages (R354): a poll reads a present module's diagnostics into the page, once a second; a write of
XFER with GO sets DONE and NACK, the data of a read, and counts a NACK; a change of MOD_ABS shows and counts.
Choices of the model it rests on: log entries 3, 75, 76, 143. -/
def Obligations.CagesArePolledAndWritten : Prop :=
  ∀ (s : State) (k : Link) (p : Fin 2) (diag : Option SfpReading) (v : Word) (ack : Bool) (data : Byte) (present : Bool),
    let d := s.dev
    (d.pageOn pgI2cm = false ∨ enActive d.regs pgI2cm = false ∨ act d.regs pgI2cm I2CM.CONTROL.POLL_EN = 0 →
      s.lands (.i2cPoll p diag) d) ∧
    (d.pageOn pgI2cm = true → enActive d.regs pgI2cm = true → act d.regs pgI2cm I2CM.CONTROL.POLL_EN ≠ 0 →
      let e := applyNow pgI2cm (d.advanceTo (d.ser.pollAt.getD p.val 0 + secondTicks))
      let e := { e with ser := { e.ser with pollAt := e.ser.pollAt.set p.val e.clk.tick } }
      (liv e.regs pgI2cm (I2CM.CAGE.PRESENT p.val) = 0 → s.lands (.i2cPoll p diag) e) ∧
      (liv e.regs pgI2cm (I2CM.CAGE.PRESENT p.val) ≠ 0 →
        s.lands (.i2cPoll p diag) (showCage e p.val (diag.getD ⟨false, 0, 0, 0, 0, 0⟩)))) ∧
    (d.pageOn pgI2cm = true →
      (bitOf v.toNat 31 = false → s.lands (.xfer k v ack data) d) ∧
      (bitOf v.toNat 31 = true →
        let e := (applyNow pgI2cm d).setLiv pgI2cm I2CM.XFER_RESULT.DONE 1
        let e := e.setLiv pgI2cm I2CM.XFER_RESULT.NACK (bit !ack)
        (ack = false → s.lands (.xfer k v ack data) (e.event pgI2cm 4)) ∧
        (ack = true → bitOf v.toNat 25 = true → s.lands (.xfer k v ack data) e) ∧
        (ack = true → bitOf v.toNat 25 = false →
          s.lands (.xfer k v ack data) (e.setLiv pgI2cm I2CM.XFER_RESULT.DATA data.toNat)))) ∧
    (d.pageOn pgI2cm = false → s.lands (.xfer k v ack data)
      (d.busError (pageBase pgI2cm + 0x980) .domainOff (linkCode k)) ∧ s.lands (.moduleChange p present) d) ∧
    (d.pageOn pgI2cm = true →
      (liv d.regs pgI2cm (I2CM.CAGE.PRESENT p.val) = bit present → s.lands (.moduleChange p present) d) ∧
      (liv d.regs pgI2cm (I2CM.CAGE.PRESENT p.val) ≠ bit present →
        s.lands (.moduleChange p present)
          ((d.setLiv pgI2cm (I2CM.CAGE.PRESENT p.val) (bit present)).event pgI2cm 5)))

/-- PTP messages (R358 to R360). A message not for the block changes nothing but what an armed page brings. An
Announce joins the foreign masters; the best of them is shown, and the servo acquires where the master
changes. From the master alone: a one-step Sync and a matching Follow_Up give a measurement, a matching
Delay_Resp the mean path. DELAY_REQ sends one interval after the last; after three intervals without a Sync
the servo holds over. Choices of the model it rests on: log entries 3, 71, 72, 73, 74, 143. -/
def Obligations.PtpMessagesMoveTheServo : Prop :=
  ∀ (s : State) (o : PtpFrom) (a : Announce) (seq : BitVec 16) (t1 t2 t4 corr : Int) (two : Bool) (m : PtpMsg),
    let d := applyNow pgPtp s.dev
    let concerns : Prop := ptpTakes d = true ∧ ptpFld d PTP.PORT.PORT = o.port.val ∧
      ptpFld d PTP.PORT.TRANSPORT = o.transport.val ∧ ptpFld d PTP.PORT.DOMAIN = o.domain.toNat ∧ ethUp d o.port.val = true
    let l := noteAnnounce d.ptp.foreign d.clk.tick o.source a
    let e := d.onPtp fun p => { p with foreign := l }
    let shown (e : Dev) (f : Foreign) : Dev :=
      ((e.setPair pgPtp 0x924 0x928 (f.source.toNat / 2 ^ 16)).setLiv pgPtp PTP.UTC_OFFSET f.ann.utcOffset.toNat).onPtp
        fun p => { p with master := some f.source, logInt := f.ann.logInterval }
    let fresh (e : Dev) (f : Foreign) : Dev :=
      (acquire (shown e f)).onPtp fun p =>
        { p with syncAt := e.clk.tick, lastM := none, twoStep := none, dreq := none, path := none }
    (¬ concerns → s.lands (.ptpMessage ⟨o, m⟩) d) ∧
    (concerns →
      (255 ≤ a.steps.toNat ∨ o.source.toNat / 2 ^ 16 = clockIdentity d o.port.val →
        s.lands (.ptpMessage ⟨o, (.announce a)⟩) d) ∧
      (a.steps.toNat < 255 → o.source.toNat / 2 ^ 16 ≠ clockIdentity d o.port.val →
        (bestMaster l d.clk.tick = none → s.lands (.ptpMessage ⟨o, (.announce a)⟩) e) ∧
        (∀ f, bestMaster l d.clk.tick = some f →
          (d.ptp.master = some f.source → s.lands (.ptpMessage ⟨o, (.announce a)⟩) (shown e f)) ∧
          (d.ptp.master = none → s.lands (.ptpMessage ⟨o, (.announce a)⟩) (fresh e f)) ∧
          (∀ x, d.ptp.master = some x → x ≠ f.source →
            s.lands (.ptpMessage ⟨o, (.announce a)⟩) (fresh (e.event pgPtp 6) f)))) ∧
      (d.ptp.master ≠ some o.source →
        s.lands (.ptpMessage ⟨o, (.sync seq two t1 corr t2)⟩) d ∧ s.lands (.ptpMessage ⟨o, (.followUp seq t1 corr)⟩) d ∧
        s.lands (.ptpMessage ⟨o, (.delayResp seq t4 corr)⟩) d) ∧
      (d.ptp.master = some o.source →
        (let e := d.onPtp fun p => { p with syncAt := d.clk.tick }
         (setNow d = true → s.lands (.ptpMessage ⟨o, (.sync seq two t1 corr t2)⟩) e) ∧
         (setNow d = false →
           s.lands (.ptpMessage ⟨o, (.sync seq true t1 corr t2)⟩)
             (e.onPtp fun p => { p with twoStep := some (seq.toNat, t2, corr) }) ∧
           s.lands (.ptpMessage ⟨o, (.sync seq false t1 corr t2)⟩)
             (measure (e.onPtp fun p => { p with lastM := some (t1, t2, corr), twoStep := none })))) ∧
        (∀ c, d.ptp.twoStep = some (seq.toNat, t2, c) →
          s.lands (.ptpMessage ⟨o, (.followUp seq t1 corr)⟩)
            (measure (d.onPtp fun p => { p with lastM := some (t1, t2, corr + c), twoStep := none }))) ∧
        ((∀ u c, d.ptp.twoStep ≠ some (seq.toNat, u, c)) → s.lands (.ptpMessage ⟨o, (.followUp seq t1 corr)⟩) d) ∧
        (∀ t3 x, d.ptp.dreq = some (seq.toNat, some t3) → d.ptp.lastM = some x →
          let path := (syncDelta d x + ((t4 - t3 - corr) * 1000 - (ptpFld d PTP.LATENCY.TX_PS : Int))).fdiv 2
          s.lands (.ptpMessage ⟨o, (.delayResp seq t4 corr)⟩)
            (measure (showSigned (d.onPtp fun p => { p with dreq := none, path := some path }) PTP.MEAN_PATH
              (path.fdiv 1000)))) ∧
        ((∀ t3, d.ptp.dreq ≠ some (seq.toNat, some t3)) ∨ d.ptp.lastM = none →
          s.lands (.ptpMessage ⟨o, (.delayResp seq t4 corr)⟩) d))) ∧
    (let d := s.dev
     (ptpTakes d = false ∨ d.ptp.master = none → s.lands .delayReq d ∧ s.lands .syncTimeout d) ∧
     (ptpTakes d = true → d.ptp.master.isSome = true →
      let e := applyNow pgPtp (d.advanceTo (d.ptp.dreqAt + logTicks (-(signed 8 (ptpFld d PTP.LOG_DELAY_REQ)))))
      let p := ptpFld e PTP.PORT.PORT
      let f := e.onPtp fun q => { q with dreqAt := e.clk.tick }
      (ethUp f p = false ∨ ptpTakes f = false → s.lands .delayReq f) ∧
      (ethUp f p = true → ptpTakes f = true →
        let g := ptpFrame f p (delayReqBytes f p f.ptp.dseq)
        let h := g.1.onPtp fun q => { q with dreq := some (f.ptp.dseq, none), dseq := (f.ptp.dseq + 1) % 65536 }
        s.lands .delayReq (h.onPort p fun q => { q with ptp := q.ptp ++ [g.2] })) ∧
      (ptpState d = 0 ∨ ptpState d = 3 → s.lands .syncTimeout d) ∧
      (ptpState d ≠ 0 → ptpState d ≠ 3 →
        s.lands .syncTimeout
          ((setPtpState (d.advanceTo (d.ptp.syncAt + 3 * logTicks d.ptp.logInt)) 3).event pgPtp 8))))

/-- TIME_SET, PPS, REFCLK_IN (R356, R357, R361, R362). SET steps device time, and a servo with a master acquires;
a servo step of that cycle is discarded for it. An active edge of PPS_IN is measured against the nearest whole
second, the first steps and the next slew where PPS steers; 1.1 s without one is counted once. PPS_OUT rises
at the whole second and falls WIDTH cycles later. Each edge of the two balls reaches the TIU. REFCLK_IN is
lost and returns once each. Choices of the model it rests on: log entries 3, 71, 73, 75, 138. -/
def Obligations.DeviceTimeFollowsItsSource : Prop :=
  ∀ (s : State) (k : Link) (rising : Bool),
    let d := s.dev
    let t := d.pair pgPtp 0x980 0x984
    let follows (e : Dev) : Dev := if ptpTakes e && e.ptp.master.isSome then acquire e else e
    let inForce (e : Dev) : Dev :=
      e.onPtp fun p => { p with setAt := some e.clk.tick, stepAt := none, twoStep := none, lastM := none, dreq := none }
    (d.pageOn pgPtp = false → s.lands (.timeSet k) (d.busError (pageBase pgPtp + 0x988) .domainOff (linkCode k))) ∧
    (d.pageOn pgPtp = true →
      (d.ptp.stepAt = none ∨ (∃ u n, d.ptp.stepAt = some (u, n) ∧ u ≠ d.clk.tick) →
        s.lands (.timeSet k) (inForce (follows (stepTime d ((t * nsUnits : Nat) : Int))))) ∧
      (∀ n, d.ptp.stepAt = some (d.clk.tick, n) →
        let e := inForce (follows (restamp { d with clk := { d.clk with time := t * nsUnits } } n t))
        (e.ptp.ppsAt = some d.clk.tick → s.lands (.timeSet k) (e.onPtp fun p => { p with ppsAt := none })) ∧
        (e.ptp.ppsAt ≠ some d.clk.tick → s.lands (.timeSet k) e))) ∧
    (let d := tiuEdge 2 rising d
     let u := d.timeNs
     let whole := (u + 500000000) / 1000000000 * 1000000000
     let e := (d.setLivS pgPtp PTP.PPS_IN_ERR ((u : Int) - (whole : Int))).onPtp
       fun p => { p with ppsAt := some d.clk.tick, ppsGone := false }
     (ptpOn d = false ∨ ptpFld d PTP.PPS_IN.EN = 0 ∨ (rising = true ↔ ptpFld d PTP.PPS_IN.POL = 1) →
       s.lands (.ppsInEdge rising) d) ∧
     (ptpOn d = true → ptpFld d PTP.PPS_IN.EN ≠ 0 → ¬ (rising = true ↔ ptpFld d PTP.PPS_IN.POL = 1) →
       (ppsSteers d = true → d.ptp.ppsAt = none → setNow d = true → s.lands (.ppsInEdge rising) d) ∧
       (ppsSteers d = false ∨ d.ptp.ppsAt ≠ none ∨ setNow d = false →
         (ppsSteers e = false → s.lands (.ppsInEdge rising) e) ∧
         (ppsSteers e = true → d.ptp.ppsAt = none →
           s.lands (.ppsInEdge rising) (servoStep e ((whole * nsUnits : Nat) : Int))) ∧
         (ppsSteers e = true → d.ptp.ppsAt ≠ none →
           s.lands (.ppsInEdge rising) (slew e (((u : Int) - (whole : Int)) * 1000)))))) ∧
    (ptpOn d = false ∨ ptpFld d PTP.PPS_IN.EN = 0 ∨ d.ptp.ppsAt = none ∨ d.ptp.ppsGone = true →
      s.lands .ppsMissing d) ∧
    (∀ u, d.ptp.ppsAt = some u → d.ptp.ppsGone = false → ptpOn d = true → ptpFld d PTP.PPS_IN.EN ≠ 0 →
      s.lands .ppsMissing
        (((d.advanceTo (u + 687500000)).onPtp fun p => { p with ppsGone := true }).event pgPtp 7)) ∧
    (ptpOn d = false ∨ ptpFld d PTP.PPS_OUT.EN = 0 ∨ d.clk.coreOn = false → s.lands .ppsOut d) ∧
    (ptpOn d = true → ptpFld d PTP.PPS_OUT.EN ≠ 0 → d.clk.coreOn = true →
      let sec : Int := ((1000000000 * nsUnits : Nat) : Int)
      let now : Int := (d.clk.time : Int) - signed 32 (ptpFld d PTP.PPS_OFFSET) * (nsUnits : Int)
      let gap := ((now.fdiv sec + 1) * sec - now).toNat
      let e := d.advance (ceilDiv gap (8 * (65536000000 + d.clk.freq)).toNat)
      let f := if e.ptp.ppsOut then e else tiuEdge 3 true e
      (e.clk.tick < e.ptp.quiet → s.lands .ppsOut e) ∧
      (e.ptp.quiet ≤ e.clk.tick →
        s.lands .ppsOut
          (f.onPtp fun p => { p with ppsOut := true, outEnd := f.clk.tick + ptpFld f PTP.PPS_OUT.WIDTH }))) ∧
    (d.ptp.ppsOut = false → s.lands .ppsOutEnd d) ∧
    (d.ptp.ppsOut = true →
      s.lands .ppsOutEnd (tiuEdge 3 false ((d.advanceTo d.ptp.outEnd).onPtp fun p => { p with ppsOut := false }))) ∧
    (d.pins.refPresent = false ∨ d.clk.coreOn = false → s.lands .refLost d) ∧
    (d.pins.refPresent = true → s.lands .refReturn d) ∧
    (d.pins.refPresent = true → d.clk.coreOn = true →
      let e := d.advance 625
      s.lands .refLost (lanePllLoss (showRef { e with pins := { e.pins with refPresent := false } }))) ∧
    (d.pins.refPresent = false →
      let e := d.advance 281250
      let f := showRef { e with pins := { e.pins with refPresent := true } }
      (f.domainOn 10 = false → s.lands .refReturn f) ∧
      (f.domainOn 10 = true → s.lands .refReturn (lanePllLock f)))

/-- SPI_READ, SPI_WRITE, ABORTED_WORD (R374, R375). A frame of op 0x0B counts and reads its words one after the
other, each with its status byte (0 and the word, or 0x80 OR the code and zeros) at an address 4 higher; a
WRITE frame (op 0x02) writes its words alike. Any other op counts BAD_OP and answers 0xFF throughout. An
aborted word counts. With the host pages off nothing happens. LEGACY_READ, LEGACY_WRITE (R376, R377). A frame
that starts within 2 µs of the last one's end counts LATE and does nothing else. A frame whose address has no
translation counts UNMAPPED: a write changes nothing, a read's data is open. A translated read returns its
field, a translated write puts its low bits into the register it reads; where that register cannot be read
(the bus error logged) the write ends and the read's data is open. The answer goes out with the next frame.
Choices of the model it rests on: log entries 38, 86, 87. -/
def Obligations.SerialPortsReadAndWrite : Prop :=
  (∀ (s : State) (op : Byte) (a : Addr) (n : Nat) (ws : List Word),
     let d := applyNow pgSpis s.dev
     let e := d.event pgSpis 4
     (s.dev.pageOn pgSpis = false →
       s.lands (.spiRead ⟨op, a⟩ n) s.dev ∧ s.lands (.spiWrite a ws) s.dev ∧ s.lands .abortedWord s.dev) ∧
     (s.dev.pageOn pgSpis = true →
       (op ≠ 0x0B → op ≠ 0x02 → s.lands (.spiRead ⟨op, a⟩ n)
         ((e.event pgSpis 6).onSerial fun q => { q with spi := List.replicate (5 * n) 0xFF })) ∧
       s.lands (.spiRead ⟨0x02, a⟩ n) (e.onSerial fun q => { q with spi := [] }) ∧
       (let r := spiReads n a.toNat e
        s.lands (.spiRead ⟨0x0B, a⟩ n) (r.1.onSerial fun q => { q with spi := r.2 })) ∧
       (let w := spiWrites ws a.toNat e
        s.lands (.spiWrite a ws) (w.1.onSerial fun q => { q with spi := w.2 })) ∧
       s.lands .abortedWord (s.dev.event pgSpis 5)) ∧
     (∀ (x : Nat) (f : Dev) (v : Word) (vs : List Word),
       spiReads 0 x f = (f, []) ∧ spiWrites [] x f = (f, []) ∧
       (let r := busRead .spi x 4 f
        let rest := spiReads n (x + 4) r.1
        (r.2.1 = none → spiReads (n + 1) x f = (rest.1, 0x00 :: leBytes 4 r.2.2.toNat ++ rest.2)) ∧
        (∀ c, r.2.1 = some c →
          spiReads (n + 1) x f = (rest.1, BitVec.ofNat 8 (0x80 + c.code) :: leBytes 4 0 ++ rest.2))) ∧
       (let w := busWrite sysWrite .spi x 4 v f
        let rest := spiWrites vs (x + 4) w.1
        (w.2 = none → spiWrites (v :: vs) x f = (rest.1, 0x00 :: rest.2)) ∧
        (∀ c, w.2 = some c → spiWrites (v :: vs) x f = (rest.1, BitVec.ofNat 8 (0x80 + c.code) :: rest.2))))) ∧
  (∀ (s : State) (a : BitVec 15) (v : BitVec 16),
     let d := applyNow pgLegacy s.dev
     let t := d.clk.tick
     (s.dev.pageOn pgLegacy = false → s.lands (.legacyRead a) s.dev ∧ s.lands (.legacyWrite a v) s.dev) ∧
     (s.dev.pageOn pgLegacy = true →
       (enActive d.regs pgLegacy = false → s.lands (.legacyRead a) d ∧ s.lands (.legacyWrite a v) d) ∧
       (enActive d.regs pgLegacy = true →
         (∀ u, d.ser.legEnd = some u → t < u + 1250 →
           let e := (d.event pgLegacy 6).onSerial fun q => { q with legEnd := some t }
           s.lands (.legacyRead a) e ∧ s.lands (.legacyWrite a v) e) ∧
         (d.ser.legEnd = none ∨ (∃ u, d.ser.legEnd = some u ∧ u + 1250 ≤ t) →
           let e := d.event pgLegacy 4
           let gives (f : Dev) (w : Word) : Dev :=
             f.onSerial fun q => { q with legOut := q.legacy, legacy := w, legEnd := some t }
           (translation e a.toNat = none →
             s.lands (.legacyWrite a v) (gives (e.event pgLegacy 5) (legacyWord false a.toNat v.toNat)) ∧
             s.lands (.legacyRead a)
               (gives (e.event pgLegacy 5).tookFree (legacyWord false a.toNat e.free.toNat))) ∧
           (∀ reg shift width, translation e a.toNat = some (reg, shift, width) →
             let r := busRead .legacy reg 4 e
             (r.2.1.isSome = true →
               s.lands (.legacyRead a) (gives r.1.tookFree (legacyWord true a.toNat r.1.free.toNat)) ∧
               s.lands (.legacyWrite a v) (gives r.1 (legacyWord false a.toNat v.toNat))) ∧
             (r.2.1 = none →
               s.lands (.legacyRead a)
                 (gives r.1 (legacyWord true a.toNat (r.2.2.toNat / 2 ^ shift % 2 ^ width))) ∧
               (let w := r.2.2.toNat
                let new := w - w / 2 ^ shift % 2 ^ width * 2 ^ shift + v.toNat % 2 ^ width * 2 ^ shift
                s.lands (.legacyWrite a v)
                 (gives (busWrite sysWrite .legacy reg 4 (Word.ofNat new) r.1).1 (legacyWord false a.toNat v.toNat)))))))))

/-- JOURNAL_FLUSH, TROUBLE_FLUSH (R391, R395): nothing waiting, or the host pages off, changes nothing; a full
message leaves at once, a shorter one once FLUSH_US has passed, with up to 32 journal or 64 trouble entries.
RETENTION_COPY, NOTIFICATION, CAL_ADVISED, CAL_RETRY (R390, R396 to R398): the oldest entry not yet copied is
written to the ring in DRAM; the Foreman serves the innermost notification and takes the next; with AUTO_CAL
it asks for the calibrations advised, one look a second, and repeats a failed one when its time has come.
Choices of the model it rests on: log entries 96, 97. -/
def Obligations.LogsFlushAndAreServed : Prop :=
  (∀ (s : State),
     let d := s.dev
     let jus := 625 * max (act d.regs pgJournal JOURNAL.FLUSH_US) 1
     let tus := 625 * max (act d.regs pgTrouble TROUBLE.FLUSH_US) 1
     let sendJ (e : Dev) : Dev :=
       let f := { e with jr := { e.jr with outbox := d.jr.outbox.drop 32, outFrom := e.clk.tick } }
       f.handOver (act f.regs pgSahf SAHF.LOGS.JOURNAL) 9 ((d.jr.outbox.take 32).flatMap JEntry.bytes)
     let sendT (e : Dev) : Dev :=
       let f := { e with tr := { e.tr with outbox := d.tr.outbox.drop 64, outFrom := e.clk.tick } }
       f.handOver (act f.regs pgSahf SAHF.LOGS.TROUBLE) 10 ((d.tr.outbox.take 64).flatMap TEntry.bytes)
     (d.jr.outbox = [] ∨ d.domainOn 2 = false → s.lands .journalFlush d) ∧
     (d.jr.outbox ≠ [] → d.domainOn 2 = true →
       (32 ≤ d.jr.outbox.length → s.lands .journalFlush (sendJ d)) ∧
       (d.jr.outbox.length < 32 → s.lands .journalFlush (sendJ (d.advanceTo (d.jr.outFrom + jus))))) ∧
     (d.tr.outbox = [] ∨ d.domainOn 2 = false → s.lands .troubleFlush d) ∧
     (d.tr.outbox ≠ [] → d.domainOn 2 = true →
       (64 ≤ d.tr.outbox.length ∨ (∃ e ∈ d.tr.outbox, e.severity = sevCritical) → s.lands .troubleFlush (sendT d)) ∧
       (d.tr.outbox.length < 64 → (∀ e ∈ d.tr.outbox, e.severity ≠ sevCritical) →
         s.lands .troubleFlush (sendT (d.advanceTo (d.tr.outFrom + tus)))))) ∧
  (∀ (s : State),
     let d := s.dev
     (d.jr.uncopied = [] → s.lands .retentionCopy d) ∧
     (∀ e rest, d.jr.uncopied = e :: rest →
       s.lands .retentionCopy (retain { d with jr := { d.jr with uncopied := rest } } [e])) ∧
     (d.foremanRuns = false → s.lands .notification d ∧ s.lands .calAdvised d ∧ s.lands .calRetry d) ∧
     (d.foremanRuns = true →
       let n := takeNotification d
       (n.tr.handling = [] → s.lands .notification n) ∧
       (∀ e rest, n.tr.handling = e :: rest →
         s.lands .notification (reportLost (takeNotification (handle e { n with tr := { n.tr with handling := rest } }))))) ∧
     (act d.regs pgForeman FOREMAN.CONTROL.AUTO_CAL ≠ 1 → s.lands .calAdvised d) ∧
     (d.foremanRuns = true → act d.regs pgForeman FOREMAN.CONTROL.AUTO_CAL = 1 →
       (d.fm.calAt = none →
         s.lands .calAdvised (adviseLine (adviseLine (d.onFm fun f => { f with calAt := some d.clk.tick }) .a) .b)) ∧
       (∀ t, d.fm.calAt = some t →
         let e := d.advanceTo (t + 625000000)
         s.lands .calAdvised (adviseLine (adviseLine (e.onFm fun f => { f with calAt := some e.clk.tick }) .a) .b))) ∧
     (d.fm.retries = [] → s.lands .calRetry d) ∧
     (∀ p t rest, d.fm.retries = (p, t) :: rest → d.foremanRuns = true →
       let e := (d.advanceTo t).onFm fun f => { f with retries := rest }
       (autoCal e = true → e.pageOn p = true → s.lands .calRetry (onPage p calReqOn e)) ∧
       (autoCal e = false ∨ e.pageOn p = false → s.lands .calRetry e)))

/-- Recording (R400 to R402): an armed line with its first boundary starts, with the lead entry if there is one; a
recorded shot appends its samples after its window has closed; a reel that has no room ends at once, one whose
memory port is more than 1 MiB behind counts OVERRUN; the end appends the tails and shows its cause. Replay
(R405, R406): outside a playing reel, or with less than an entry left, REEL_FEED changes nothing. It takes the
next entry to its line at the device tick that entry stands for, with its samples where their CRC holds; an
entry that cannot be read ends the feed. REPLAY_END closes both lines once the entries are through. Choices of
the model it rests on: log entries 3, 107, 108, 110. -/
def Obligations.ReelsRecordAndReplay : Prop :=
  (∀ (s : State) (x : Line) (samples : Lanes) (behind : Nat),
     let d := s.dev
     let l := d.reel.line x
     (d.domainOn 7 = false ∨ l.armed = false ∨ l.first = none ∨ l.stop.isSome = true → s.lands (.reelStart x) d) ∧
     (d.domainOn 7 = true → l.armed = true → l.first.isSome = true → l.stop = none →
       let e := if (d.reel.line x.other).running then d
         else { d with reel := { d.reel with shotOff := shotOffset d, ptr := 0 } }
       let e := (e.onReel x fun l => { l with armed := false, running := true }).setLiv (pgReel x) REEL.STATE 2
       (leadSpan e x = none → s.lands (.reelStart x) (showUsed e)) ∧
       (∀ sp, leadSpan e x = some sp →
         s.lands (.reelStart x) (appendEntry e x (entryBytes sp.slot.shot (spanWord e x sp) 2 [])))) ∧
     ((d.line x).lane.spans.find? (fun sp => sp.slot.shot.seq == l.nextSeq) = none → s.lands (.reelShot x samples) d) ∧
     (∀ sp, (d.line x).lane.spans.find? (fun sp => sp.slot.shot.seq == l.nextSeq) = some sp →
       (sp.word = none ∨ l.running = false ∨ l.stop.isSome = true ∨ d.domainOn 7 = false →
         s.lands (.reelShot x samples) d) ∧
       (∀ w, sp.word = some w → l.running = true → l.stop = none → d.domainOn 7 = true →
         (reelRoom d x = false → s.lands (.reelShot x samples) (endReel d x 2)) ∧
         (reelRoom d x = true →
           let e := d.advanceTo ((sp.slot.shot.tick : Int) + winStart l.cfg x + (winCycles l.cfg x : Int)).toNat
           let full := hasSamples x sp.slot
           let e := appendEntry e x (entryBytes sp.slot.shot w (bit full) (if full then windowOf e x sp.slot samples else []))
           let e := e.onReel x fun l => { l with shots := l.shots + bit full, nextSeq := seqAdd l.nextSeq 1 }
           s.lands (.reelShot x samples) (e.setLiv (pgReel x) REEL.SHOTS (e.reel.line x).shots)))) ∧
     (let late : Prop := l.running = true ∧ l.stop = none ∧ d.domainOn 7 = true ∧ 2 ^ 20 < behind
      (¬ late → s.lands (.reelEnd ⟨x, behind⟩) (closeReel x d)) ∧
      (late → s.lands (.reelEnd ⟨x, behind⟩) (closeReel x ((endReel d x 4).event (pgReel x) 5)))) ∧
     (∀ f : Dev,
       let l := f.reel.line x
       (l.stop = none ∨ l.active = false ∨ f.domainOn 7 = false → closeReel x f = f) ∧
       (∀ c, l.stop = some c → l.active = true → f.domainOn 7 = true →
         (l.running = true → tailReady f x = false → closeReel x f = f) ∧
         (l.running = true → tailReady f x = true →
           let e := (tailSpans f x).foldl (fun e sp => appendEntry e x (entryBytes sp.slot.shot (spanWord e x sp) 4 [])) f
           let e := (e.setLiv (pgReel x) REEL.END_CAUSE c).event (pgReel x) 4
           let e := (e.onReel x fun l => { l with running := false, ended := true }).setLiv (pgReel x) REEL.STATE 3
           closeReel x f = if (e.reel.line x.other).active then e else finishReel e) ∧
         (l.running = false →
           let e := dropLine ((f.setLiv (pgReel x) REEL.END_CAUSE c).event (pgReel x) 4) x
           closeReel x f = if (e.reel.line x.other).active then e else finishReel e)))) ∧
  (∀ s : State,
     let d := s.dev
     let read (e : Dev) (o n : Nat) : Dev × Bool × List Byte :=
       let r := e.memReadWith (reelBase e + o) n d.reel.faults
       (r.1, r.2.1 == .ok, r.2.2.2)
     (d.reel.playing = false ∨ d.reel.left < 64 ∨ d.pwr.mode ≠ 6 → s.lands .reelFeed d) ∧
     (d.reel.playing = true → 64 ≤ d.reel.left → d.pwr.mode = 6 →
       let e := read d d.reel.next 64
       (e.2.1 = false →
         s.lands .reelFeed { e.1 with reel := { e.1.reel with left := 0, bad := true } }) ∧
       (e.2.1 = true →
         let h := e.2.2
         let r := ShotRec.ofBytes h
         let kind := numAt h 36 1
         let size := 64 + (if bitOf kind 0 then ceilDiv (numAt h 40 4) 64 * 64 else 0)
         let f := feedTime e.1 r.tick
         let b := read f (f.reel.next + 64) (numAt h 40 4)
         let feed (f : Dev) (w : Option (List Byte)) : Dev :=
           let g := feedShot f (Line.ofUnit r.line) r (numAt h 32 4) kind w
           { g with reel := { g.reel with next := g.reel.next + size, left := g.reel.left - size } }
         (bitOf kind 0 = false → s.lands .reelFeed (feed f none)) ∧
         (bitOf kind 0 = true →
           (b.2.1 = true → (crc32c b.2.2).toNat = numAt h 44 4 → s.lands .reelFeed (feed b.1 (some b.2.2))) ∧
           (b.2.1 = false ∨ (crc32c b.2.2).toNat ≠ numAt h 44 4 → s.lands .reelFeed (feed b.1 none))))) ∧
     (d.reel.playing = false ∨ 64 ≤ d.reel.left → s.lands .replayEnd d) ∧
     (d.reel.playing = true → d.reel.left < 64 →
       let e := closeReplay (closeReplay d .a) .b
       s.lands .replayEnd { e with reel := { e.reel with playing := false } }))

/-- The rails (R419, R446): the rail that comes up is asserted at the next slow edge, if it is not yet, and is
good once PWR_GOOD is seen within its wait, or its wait is over where PWR_GOOD is not used; a rail that fails
takes the device to Hibernate and is named; a power-good that goes later switches off the domains that the
rail feeds (CTRL's: Hibernate) and is named. Choices of the model it rests on: log entries 3, 99, 100, 106. -/
def Obligations.RailsComeUpInOrder : Prop :=
  ∀ (s : State) (k : Fin 6) (good : Bool),
    let d := s.dev
    (d.aonSt.goal = none → s.lands (.railStep k good) d ∧ s.lands .railFail d) ∧
    (d.aonSt.railAt = none → s.lands .railFail d) ∧
    (∀ last, d.aonSt.goal = some last → k.val = d.aonSt.rail →
      let e := if d.aonSt.railAt.isSome then d else assertRail (d.advanceSlow (d.slow + 1)) k.val
      let t := e.aonSt.railAt.getD e.slow
      let limit := t + aonFld e (AON.RAIL.WAIT k.val)
      (aonFld e (AON.RAIL.PG_USE k.val) = 0 →
        s.lands (.railStep k good) (railDone (e.advanceSlow limit) k.val last)) ∧
      (aonFld e (AON.RAIL.PG_USE k.val) ≠ 0 → max e.slow (t + 1) ≤ limit →
        s.lands (.railStep k true) (railDone (e.advanceSlow (t + 1)) k.val last)) ∧
      (aonFld e (AON.RAIL.PG_USE k.val) ≠ 0 → limit < max e.slow (t + 1) → s.lands (.railStep k true) e) ∧
      (aonFld e (AON.RAIL.PG_USE k.val) ≠ 0 → s.lands (.railStep k false) e)) ∧
    (∀ last t, d.aonSt.goal = some last → d.aonSt.railAt = some t →
      (aonFld d (AON.RAIL.PG_USE d.aonSt.rail) = 0 → s.lands .railFail d) ∧
      (aonFld d (AON.RAIL.PG_USE d.aonSt.rail) ≠ 0 →
        s.lands .railFail
          (((toHibernate (d.advanceSlow (t + aonFld d (AON.RAIL.WAIT d.aonSt.rail)))).setAon AON.WAKE_RESULT.RAIL_FAIL
            (d.aonSt.rail + 1)).event pgAon 5))) ∧
    (d.aonSt.rails.getD k.val false = false ∨ d.aonSt.goal.isSome = true ∨ aonFld d (AON.RAIL.PG_USE k.val) ≠ 1 →
      s.lands (.powerGoodLoss k) d) ∧
    (d.aonSt.rails.getD k.val false = true → d.aonSt.goal = none → aonFld d (AON.RAIL.PG_USE k.val) = 1 →
      let named (e : Dev) : Dev := (e.setAon AON.WAKE_RESULT.RAIL_FAIL (k.val + 1)).event pgAon 5
      ((domainRails 1).contains k.val = true → s.lands (.powerGoodLoss k) (named (toHibernate d))) ∧
      ((domainRails 1).contains k.val = false →
        s.lands (.powerGoodLoss k)
          (named (domainsDown d (switchOrder.filter fun c => (domainRails c).contains k.val)))))

/-- Boot and resets (R436, R437, R441, R446, R390): BOOT ends a cold start once REFCLK_IN is there, and a warm
one; REFCLK_IN missing for one second falls back to Hibernate with code 15; RESET_n and PWR.RESET with its key
reset the core; V_AON applied starts the device, removed leaves nothing powered; TEST_MODE switches every
domain off; a slow clock gone over is shown. Choices of the model it rests on: log entries 3, 98, 100, 101,
102, 103. -/
def Obligations.ResetsAndBoot : Prop :=
  ∀ (s : State) (k : Link) (key : BitVec 16),
    let d := s.dev
    (d.aonSt.booting = 0 → s.lands .boot d) ∧
    (d.aonSt.booting = 1 → d.pins.refPresent = true → s.lands .boot (bootCold d)) ∧
    (d.aonSt.booting = 1 → d.pins.refPresent = false → s.lands .boot d) ∧
    (d.aonSt.booting = 2 → s.lands .boot (bootWarm d)) ∧
    (2 < d.aonSt.booting → s.lands .boot d) ∧
    (d.aonSt.goal ≠ some 3 → d.aonSt.booting ≠ 1 → s.lands .refclkTimeout d) ∧
    (d.aonSt.goal = some 3 ∨ d.aonSt.booting = 1 →
      let e := toHibernate (d.advanceSlow (d.aonSt.upAt + 32768))
      s.lands .refclkTimeout
        (({ e with pins := { e.pins with refPresent := false } }.setAon AON.WAKE_RESULT.RAIL_FAIL 15).event pgAon 5)) ∧
    (d.aonSt.vaon = false ∨ d.aonSt.test = true → s.lands .resetN d) ∧
    (d.aonSt.vaon = true → d.aonSt.test = false →
      let e := d.advanceSlow (d.slow + 2)
      (e.domainOn 1 = true → s.lands .resetN ((warmReset e).setAon AON.WAKE_RESULT.SOURCE 6)) ∧
      (e.domainOn 1 = false → e.aonSt.goal = none → e.aonSt.booting = 0 →
        s.lands .resetN (resetCause (startWake e 6) 3)) ∧
      (e.domainOn 1 = false → e.aonSt.goal.isSome = true ∨ e.aonSt.booting ≠ 0 → s.lands .resetN e)) ∧
    (d.pageOn pgPwr = false → s.lands (.pwrReset k key) (d.busError (pageBase pgPwr + 0x980) .domainOff (linkCode k))) ∧
    (d.pageOn pgPwr = true →
      (key = 0x5753 → s.lands (.pwrReset k key) (warmReset d)) ∧ (key ≠ 0x5753 → s.lands (.pwrReset k key) d)) ∧
    (bitOf (rd d.aon (pageBase pgAon + 0x010)).toNat 0 = true → s.lands .vaonApplied d) ∧
    (bitOf (rd d.aon (pageBase pgAon + 0x010)).toNat 0 = false →
      let e := (unpowered d).advanceSlow 64
      let e := { e with aon := wr e.aon (pageBase pgAon + 0x010) 1 }
      s.lands .vaonApplied (resetCause (startWake e 5) 1)) ∧
    s.lands .vaonRemoved { unpowered d with aonSt := { vaon := false }, pwr := { domains := 0 } } ∧
    (d.aonSt.vaon = false → s.lands (.testMode true) d ∧ s.lands (.testMode false) d ∧ s.lands .slowFallback d) ∧
    (d.aonSt.vaon = true →
      s.lands (.testMode true)
        (toHibernate ((d.advanceSlow (d.slow + 1)).onAon fun a => { a with test := true, held := [] })) ∧
      s.lands (.testMode false) (d.onAon fun a => { a with test := false }) ∧
      s.lands .slowFallback (d.setAon AON.WAKE_RESULT.SLOW_FALLBACK 1))

/-- The thermal shutdown and the interlock hold (R426, R429): a trip with CTRL on puts the gates off, raises cause
14, quiets and switches every domain above Watch off and holds wakes; clearing the trip ends the hot state; an
interlock low for ILK_HOLD seconds takes a running device to Standby. Choices of the model it rests on: log
entries 98, 105. -/
def Obligations.TripsAndHoldsQuietTheDevice : Prop :=
  ∀ (s : State),
    let d := s.dev
    (d.aonSt.vaon = false ∨ d.pwr.hot = true → s.lands .thermalTrip d) ∧
    (d.aonSt.vaon = true → d.pwr.hot = false →
      let e := { d with pwr := { d.pwr with hot := true, noWake := true } }.event pgAon 7
      (e.domainOn 1 = false → s.lands .thermalTrip e) ∧
      (e.domainOn 1 = true →
        let e := ((gatesOff (raiseCause e [.a, .b] 14)).setStatus pgPwr 9 true).event pgPwr 5
        let e := hostReduced (domainsDown e (surplus e 1)) true
        let e := railsDown { e with pll := {} } 4
        let e := (failProcs e e.fm.procs.length).onFm fun f => { f with wakeAt := none }
        let e := commitMode e linkHardware 1 2
        s.lands .thermalTrip (resetCause (e.trouble pgPwr 5 sevCritical (14 + 2 ^ 8 * 3)) 6))) ∧
    (d.domainOn 1 = true →
      s.lands .thermalClear ({ d with pwr := { d.pwr with hot := false } }.setStatus pgPwr 9 false)) ∧
    (d.domainOn 1 = false → s.lands .thermalClear { d with pwr := { d.pwr with hot := false } }) ∧
    (aonFld d AON.ILK_HOLD = 0 ∨ d.pins.interlock = true ∨ modeLevel d.pwr.mode ≠ 3 ∨ inTransition d = true ∨
        d.aonSt.booting ≠ 0 → s.lands .interlockHold d) ∧
    (aonFld d AON.ILK_HOLD ≠ 0 → d.pins.interlock = false → modeLevel d.pwr.mode = 3 → inTransition d = false →
      d.aonSt.booting = 0 →
      let e := (d.advanceSlow (d.pins.interlockFrom + aonFld d AON.ILK_HOLD * 32768)).event pgPwr 7
      let e := (pagesOf (surplus e 2 ++ [10])).foldl saveNum e
      let e := (linesIn e).foldl (fun e x => hardQuiet x e) e
      let e := domainsDown e (surplus e 2)
      s.lands .interlockHold (commitMode (e.onFm fun f => { f with wakeAt := none }) linkHardware 2 3))

/-- Wake sources (R431 to R435): each acts only while it is enabled; the alarm at its time, once or every
WAKE_EVERY seconds; WAKE_IN two slow edges after the edge that its polarity names; a PFE or HK limit edge only
in Watch or while the mode changes; RETURN takes the device home, at once where it waits for the profiles and
they are all there, else RETURN_S seconds after the wake. A wake starts a device that is down, waits while
rails come up or a mode changes, and takes a device in Watch on. The wake script (R434): an entry is played by
the command of its operation and by no other; WRITE writes the register over link 6, WAIT_EVENT waits for
COUNT to change, DELAY waits out its microseconds; each ends with the next entry, and a bus error or a wait
that runs out fails the script. Choices of the model it rests on: log entries 3, 90, 94, 97, 103, 104. -/
def Obligations.WakesAndScripts : Prop :=
  (∀ (s : State) (rising : Bool) (source : Nat),
     let d := s.dev
     (d.aonSt.vaon = false ∨ d.aonSt.alarm = false ∨ aonFld d AON.WAKE.EN_ALARM = 0 → s.lands .alarmWake d) ∧
     (d.aonSt.vaon = true → d.aonSt.alarm = true → aonFld d AON.WAKE.EN_ALARM ≠ 0 →
       let e := toAonTime d (wakeTime d * 64)
       (aonFld e AON.WAKE_EVERY = 0 →
         s.lands .alarmWake (wake 1 (e.onAon fun a => { a with alarm := false }))) ∧
       (aonFld e AON.WAKE_EVERY ≠ 0 →
         let next := (wakeTime e + aonFld e AON.WAKE_EVERY * 10 ^ 9) % 2 ^ 64
         s.lands .alarmWake
           (wake 1 ((e.setAonBoth AON.WAKE_AT_LO (next % 2 ^ 32)).setAonBoth AON.WAKE_AT_HI (next / 2 ^ 32))))) ∧
     (d.aonSt.vaon = false ∨ aonFld d AON.WAKE.EN_WAKE_IN = 0 ∨ ¬ (rising = true ↔ aonFld d AON.WAKE.WAKE_IN_POL = 0) →
       s.lands (.wakeIn rising) d) ∧
     (d.aonSt.vaon = true → aonFld d AON.WAKE.EN_WAKE_IN ≠ 0 → (rising = true ↔ aonFld d AON.WAKE.WAKE_IN_POL = 0) →
       s.lands (.wakeIn rising) (wake 2 (d.advanceSlow (d.slow + 2)))) ∧
     (let seen (n : Nat) : Dev := d.onAon fun a => { a with edges := a.edges.filter (· != n) }
      let watches (n : Nat) : Prop := (seen n).pwr.mode = 1 ∨ inTransition (seen n) = true
      (d.aonSt.edges.contains 3 = false → s.lands .pfeWake d) ∧ (d.aonSt.edges.contains 4 = false → s.lands .hkWake d) ∧
      (d.aonSt.edges.contains 3 = true →
        (aonFld d AON.WAKE.EN_PFE = 1 → watches 3 → s.lands .pfeWake (wake 3 (seen 3))) ∧
        (aonFld d AON.WAKE.EN_PFE ≠ 1 ∨ ¬ watches 3 → s.lands .pfeWake (seen 3))) ∧
      (d.aonSt.edges.contains 4 = true →
        (aonFld d AON.WAKE.EN_HK = 1 → watches 4 → s.lands .hkWake (wake 4 (seen 4))) ∧
        (aonFld d AON.WAKE.EN_HK ≠ 1 ∨ ¬ watches 4 → s.lands .hkWake (seen 4)))) ∧
     (d.fm.wakeAt = none ∨ d.foremanRuns = false ∨ aonFld d AON.WAKE.RETURN = 0 ∨ aonFld d AON.WAKE.RETURN = 3 →
       s.lands .returnHome d) ∧
     (∀ t, d.fm.wakeAt = some t → d.foremanRuns = true → aonFld d AON.WAKE.RETURN ≠ 0 → aonFld d AON.WAKE.RETURN ≠ 3 →
       let home (e : Dev) : Dev := selfModeSet (e.onFm fun f => { f with wakeAt := none }) 0 4 (modePlan e.pwr.mode 0)
       (aonFld d AON.WAKE.RETURN = 2 → allProfiled d = true → s.lands .returnHome (home d)) ∧
       (aonFld d AON.WAKE.RETURN ≠ 2 ∨ allProfiled d = false →
         s.lands .returnHome (home (d.advanceTo (t + aonFld d AON.RETURN_S * 625000000))))) ∧
     (let held := d.onAon fun a => { a with held := a.held ++ [source] }
      (d.aonSt.test = true → wake source d = d) ∧
      (d.aonSt.test = false → d.domainOn 1 = false →
        (d.aonSt.goal.isSome = true ∨ d.aonSt.booting ≠ 0 → wake source d = held) ∧
        (d.aonSt.goal = none → d.aonSt.booting = 0 → wake source d = startWake d source)) ∧
      (d.aonSt.test = false → d.domainOn 1 = true →
        (d.aonSt.booting ≠ 0 ∨ inTransition d = true ∨ d.foremanRuns = false → wake source d = held) ∧
        (d.aonSt.booting = 0 → inTransition d = false → d.foremanRuns = true →
          (d.pwr.mode = 1 → wake source d = wakeFromWatch d source) ∧ (d.pwr.mode ≠ 1 → wake source d = d))))) ∧
  (∀ (s : State),
     let d := s.dev
     let i := liv d.aon pgAon AON.SCRIPT_RESULT.PLAYED
     let e := scriptEntry d i
     (d.fm.entry = none ∨ scriptProc d = none ∨ d.foremanRuns = false ∨ aonFld d AON.SCRIPT_LEN ≤ i →
       s.lands .scriptWrite d ∧ s.lands .scriptWaitEvent d ∧ s.lands .scriptDelay d) ∧
     (∀ t c p, d.fm.entry = some (t, c) → scriptProc d = some p → d.foremanRuns = true → i < aonFld d AON.SCRIPT_LEN →
       (3 ≤ e / 2 ^ 56 →
         s.lands .scriptWrite (scriptFails d 3) ∧ s.lands .scriptWaitEvent (scriptFails d 3) ∧
         s.lands .scriptDelay (scriptFails d 3)) ∧
       (e / 2 ^ 56 = 0 →
         s.lands .scriptWaitEvent d ∧ s.lands .scriptDelay d ∧
         (let r := busWrite sysWrite .foreman (e / 2 ^ 32 % 2 ^ 24) 4 (Word.ofNat e) d
          (r.2 = none → s.lands .scriptWrite (startEntry r.1 (i + 1))) ∧
          (r.2.isSome = true → s.lands .scriptWrite (scriptFails r.1 1)))) ∧
       (e / 2 ^ 56 = 1 →
         s.lands .scriptWrite d ∧ s.lands .scriptDelay d ∧
         (let r := busRead .foreman (e / 2 ^ 32 % 2 ^ 24) 4 d
          (r.2.1.isSome = true → s.lands .scriptWaitEvent (scriptFails r.1 1)) ∧
          (r.2.1 = none → r.2.2.toNat ≠ c → s.lands .scriptWaitEvent (startEntry r.1 (i + 1))) ∧
          (r.2.1 = none → r.2.2.toNat = c →
            s.lands .scriptWaitEvent (scriptFails (r.1.advanceTo (t + 625000000)) 2)))) ∧
       (e / 2 ^ 56 = 2 →
         s.lands .scriptWrite d ∧ s.lands .scriptWaitEvent d ∧
         s.lands .scriptDelay (startEntry (d.advanceTo (t + 625 * (e % 2 ^ 32))) (i + 1)))))

/-- The TAP (R442, R458, R459): with the CTRL domain on, each instruction is in force, TRST_n high; TAP_RESET puts
the TAP in reset with IDCODE in force; IDCODE shows the word, SAMPLE/PRELOAD captures the output balls and
loads the cells; with CTRL off nothing changes. Choices of the model it rests on: log entry 88. -/
def Obligations.TapInstructionsAreInForce : Prop :=
  ∀ (s : State) (cells : List Bool),
    let d := s.dev
    (d.domainOn 1 = false →
      s.lands .tapReset d ∧ s.lands .bypass d ∧ s.lands .idcode d ∧ s.lands (.samplePreload cells) d ∧
      s.lands .extest d ∧ s.lands .extestPulse d ∧ s.lands .extestTrain d ∧ s.lands .highz d ∧ s.lands .clamp d) ∧
    (d.domainOn 1 = true →
      let runs (ir : Nat) : Dev := { d with tap := { d.tap with reset := false, ir := ir } }
      s.lands .tapReset { d with tap := { d.tap with reset := true, ir := 1 } } ∧
      s.lands .bypass (runs 0) ∧ s.lands .extest (runs 3) ∧ s.lands .extestPulse (runs 4) ∧
      s.lands .extestTrain (runs 5) ∧ s.lands .highz (runs 6) ∧ s.lands .clamp (runs 7) ∧
      s.lands .idcode
        (let word := 0x17020001 ||| Word.ofNat (Config.fuseJtag.toNat * 2)
         { d with tap := { d.tap with reset := false, ir := 1, idcode := word } }) ∧
      s.lands (.samplePreload cells)
        (let levels := (List.range 13).map fun i => (d.ball i).getD false
         { d with tap := { d.tap with reset := false, ir := 2, cells := cells, sampled := levels } }))
end

