-- ==== Sys2Proof/Laws/Apply.lean ====
section
/-!
SUPPORT. A boundary of a page that is not armed applies nothing (R24).
-/
namespace Sys2Proof.Machine

/-- With none of its pages armed a boundary changes nothing. -/
theorem applyPages_none {d : Dev} {pages : List Page} (b : Nat) (h : ∀ pg ∈ pages, d.armedAs pg.num = none) :
    applyPages pages b d = d := by
  have hf : pages.filter (fun pg => (d.armedAs pg.num).isSome && d.domainOn pg.domain) = [] := by
    rw [List.filter_eq_nil_iff]
    intro pg hp
    simp [h pg hp]
  unfold applyPages
  rw [hf]
  rfl

/-- A page that is not armed applies nothing. -/
theorem applyOne_none {d : Dev} {p : Nat} (b : Nat) (h : d.armedAs p = none) : applyOne p b d = d := by
  unfold applyOne
  cases hp : pageOf p with
  | none => rfl
  | some pg =>
    have hn : pg.num = p := by
      have := List.find?_some (show directory.find? (fun e => e.num == p) = some pg from hp)
      simpa using this
    refine applyPages_none b ?_
    intro q hq
    rw [List.mem_singleton.mp hq, hn]
    exact h

/-- A page that is not armed applies nothing at its own boundary. -/
theorem applyNow_none {d : Dev} {p : Nat} (h : d.armedAs p = none) : applyNow p d = d := applyOne_none _ h

/-- A group of a page that is not armed applies nothing. -/
theorem applyGroup_none {d : Dev} {p : Nat} (g b : Nat) (h : d.armedAs p = none) : applyGroup p g b d = d := by
  unfold applyGroup
  rw [h]
  rfl

/-- A DMA channel of a page that is not armed applies nothing. -/
theorem applyChan_none {d : Dev} (c : Nat) (h : d.armedAs pgDma = none) : applyChan c d = d := applyGroup_none c 6 h

/-- A codec context of a page that is not armed applies nothing. -/
theorem applyCtx_none {d : Dev} (n : Nat) (h : d.armedAs pgCodec = none) : applyCtx n d = d := applyGroup_none n 7 h

end Sys2Proof.Machine
end

