-- ==== Sys2Proof/Laws/Sparse.lean ====
section
/-!
SUPPORT. What the sparse maps do: reading after writing, and the canonical form that every write keeps.
-/
namespace Sys2Proof.Machine

theorem Sparse.get_nil {α : Type} {dflt : Nat → α} (k : Nat) : Sparse.get dflt [] k = dflt k := rfl

theorem Sparse.get_cons {α : Type} {dflt : Nat → α} (j : Nat) (w : α) (r : List (Nat × α)) (k : Nat) :
    Sparse.get dflt ((j, w) :: r) k = if j = k then w else Sparse.get dflt r k := rfl

variable {α : Type} [DecidableEq α] {dflt : Nat → α}

omit [DecidableEq α] in
/-- Entries of other keys do not change what a key reads as. -/
theorem Sparse.get_filter {m : List (Nat × α)} {k a : Nat} (h : a ≠ k) :
    Sparse.get dflt (m.filter fun e => e.1 != k) a = Sparse.get dflt m a := by
  induction m with
  | nil => rfl
  | cons e r ih =>
    obtain ⟨j, w⟩ := e
    by_cases hj : j = k
    · subst hj
      simp only [List.filter_cons, bne_self_eq_false, Sparse.get_cons, if_neg h.symm]
      exact ih
    · simp only [List.filter_cons, bne_iff_ne.mpr hj, if_true, Sparse.get_cons, ih]

omit [DecidableEq α] in
/-- A key without an entry reads as the default. -/
theorem Sparse.get_filter_same {m : List (Nat × α)} {k : Nat} :
    Sparse.get dflt (m.filter fun e => e.1 != k) k = dflt k := by
  induction m with
  | nil => rfl
  | cons e r ih =>
    obtain ⟨j, w⟩ := e
    by_cases hj : j = k
    · subst hj
      simp only [List.filter_cons, bne_self_eq_false]
      exact ih
    · simp only [List.filter_cons, bne_iff_ne.mpr hj, if_true, Sparse.get_cons, if_neg hj, ih]

/-- A written key reads as what was written. -/
theorem Sparse.get_set_same (m : List (Nat × α)) (k : Nat) (v : α) :
    Sparse.get dflt (Sparse.set dflt m k v) k = v := by
  induction m with
  | nil => by_cases h : v = dflt k <;> simp [Sparse.set, h, Sparse.get_cons, Sparse.get_nil]
  | cons e r ih =>
    obtain ⟨j, w⟩ := e
    by_cases hj : j < k
    · simp only [Sparse.set, hj, if_true, Sparse.get_cons, if_neg (Nat.ne_of_lt hj), ih]
    · simp only [Sparse.set, hj, if_false]
      split
      · rw [Sparse.get_filter_same]; exact Eq.symm ‹_›
      · rw [Sparse.get_cons, if_pos rfl]

/-- Every other key reads as before. -/
theorem Sparse.get_set_other {m : List (Nat × α)} {k a : Nat} (v : α) (h : a ≠ k) :
    Sparse.get dflt (Sparse.set dflt m k v) a = Sparse.get dflt m a := by
  induction m with
  | nil => by_cases hv : v = dflt k <;> simp [Sparse.set, hv, Sparse.get_cons, Sparse.get_nil, h.symm]
  | cons e r ih =>
    obtain ⟨j, w⟩ := e
    by_cases hj : j < k
    · simp only [Sparse.set, hj, if_true, Sparse.get_cons, ih]
    · simp only [Sparse.set, hj, if_false]
      split
      · exact Sparse.get_filter h
      · rw [Sparse.get_cons, if_neg h.symm]; exact Sparse.get_filter h

/-- A bound may be lowered. -/
theorem Sparse.wfFrom_weaken {m : List (Nat × α)} {l : Nat} (lo : Option Nat) (hl : ∀ i, lo = some i → i ≤ l)
    (h : Sparse.wfFrom dflt (some l) m = true) : Sparse.wfFrom dflt lo m = true := by
  cases m with
  | nil => rfl
  | cons e r =>
    obtain ⟨j, w⟩ := e
    simp only [Sparse.wfFrom, Bool.and_eq_true, decide_eq_true_eq] at h ⊢
    refine ⟨⟨?_, h.1.2⟩, h.2⟩
    cases lo with
    | none => rfl
    | some i =>
      have := hl i rfl
      simp only [decide_eq_true_eq]
      omega

/-- What remains of a canonical map after entries are taken out is canonical. -/
theorem Sparse.filter_wfFrom {m : List (Nat × α)} (p : Nat × α → Bool) :
    ∀ {lo : Option Nat}, Sparse.wfFrom dflt lo m = true → Sparse.wfFrom dflt lo (m.filter p) = true := by
  induction m with
  | nil => intro lo h; exact h
  | cons e r ih =>
    obtain ⟨j, w⟩ := e
    intro lo h
    simp only [Sparse.wfFrom, Bool.and_eq_true] at h
    have hr := ih h.2
    by_cases hp : p (j, w) = true
    · simp only [List.filter_cons, hp, if_true, Sparse.wfFrom, Bool.and_eq_true]
      exact ⟨h.1, hr⟩
    · simp only [List.filter_cons, hp]
      refine Sparse.wfFrom_weaken lo ?_ hr
      intro i hi
      subst hi
      have := h.1.1
      simp only [decide_eq_true_eq] at this
      omega

/-- Without its lowest key a map in canonical form stands above that key. -/
theorem Sparse.filter_above {j k : Nat} {w : α} {r : List (Nat × α)} {lo : Option Nat} (hk : ¬ j < k)
    (h : Sparse.wfFrom dflt lo ((j, w) :: r) = true) :
    Sparse.wfFrom dflt (some k) (((j, w) :: r).filter fun e => e.1 != k) = true := by
  simp only [Sparse.wfFrom, Bool.and_eq_true] at h
  by_cases he : j = k
  · subst he
    simp only [List.filter_cons, bne_self_eq_false]
    exact Sparse.filter_wfFrom _ h.2
  · refine Sparse.filter_wfFrom _ ?_
    simp only [Sparse.wfFrom, Bool.and_eq_true, decide_eq_true_eq]
    exact ⟨⟨by omega, by simpa using h.1.2⟩, h.2⟩

/-- A write keeps the canonical form, and its keys above a bound that the written key is above. -/
theorem Sparse.set_wfFrom {m : List (Nat × α)} {k : Nat} (v : α) :
    ∀ {lo : Option Nat}, (∀ l, lo = some l → l < k) → Sparse.wfFrom dflt lo m = true →
      Sparse.wfFrom dflt lo (Sparse.set dflt m k v) = true := by
  induction m with
  | nil =>
    intro lo hl _
    by_cases hv : v = dflt k
    · simp [Sparse.set, hv, Sparse.wfFrom]
    · cases lo with
      | none => simp [Sparse.set, hv, Sparse.wfFrom]
      | some l => simp [Sparse.set, hv, Sparse.wfFrom, hl l rfl]
  | cons e r ih =>
    obtain ⟨j, w⟩ := e
    intro lo hl h
    by_cases hj : j < k
    · simp only [Sparse.wfFrom, Bool.and_eq_true] at h
      simp only [Sparse.set, hj, if_true, Sparse.wfFrom, Bool.and_eq_true]
      refine ⟨h.1, ih ?_ h.2⟩
      intro l hl'
      cases hl'
      exact hj
    · have ha := Sparse.filter_above hj h
      simp only [Sparse.set, hj, if_false]
      split
      · exact Sparse.filter_wfFrom _ h
      · have hv : v ≠ dflt k := ‹_›
        simp only [Sparse.wfFrom, Bool.and_eq_true]
        refine ⟨⟨?_, by simpa using hv⟩, ha⟩
        cases lo with
        | none => rfl
        | some l => simpa using hl l rfl

/-- A write keeps the canonical form. -/
theorem Sparse.set_wf {m : List (Nat × α)} (h : Sparse.wf dflt m = true) (k : Nat) (v : α) :
    Sparse.wf dflt (Sparse.set dflt m k v) = true :=
  Sparse.set_wfFrom v (by intro l h; cases h) h

/-- Writes of consecutive keys keep the canonical form. -/
theorem Sparse.setList_wf {m : List (Nat × α)} (h : Sparse.wf dflt m = true) (k : Nat) (vs : List α) :
    Sparse.wf dflt (Sparse.setList dflt m k vs) = true := by
  induction vs generalizing m k with
  | nil => exact h
  | cons v vs ih => exact ih (Sparse.set_wf h k v) (k + 1)

/-- What remains of a canonical map after entries are taken out is canonical. -/
theorem Sparse.filter_wf {m : List (Nat × α)} (h : Sparse.wf dflt m = true) (p : Nat × α → Bool) :
    Sparse.wf dflt (m.filter p) = true := Sparse.filter_wfFrom p h

-- ---- the register space --------------------------------------------------------------------------------

/-- A written word reads as what was written. -/
@[simp] theorem rd_wr_same (m : RegMap) (a : Nat) (v : Word) : rd (wr m a v) a = v :=
  Sparse.get_set_same m a v

/-- Every other word reads as before. -/
theorem rd_wr_other {m : RegMap} {a b : Nat} (v : Word) (h : b ≠ a) : rd (wr m a v) b = rd m b :=
  Sparse.get_set_other v h

/-- A write of a word keeps the canonical form. -/
@[simp] theorem wr_wf {m : RegMap} (h : m.wf = true) (a : Nat) (v : Word) : (wr m a v).wf = true :=
  Sparse.set_wf h a v

/-- A write of a field keeps the canonical form. -/
@[simp] theorem Fld.put_wf {m : RegMap} (h : m.wf = true) (f : Fld) (base v : Nat) : (f.put m base v).wf = true :=
  Sparse.set_wf h _ _

/-- A write of a field leaves every other word as it was. -/
theorem Fld.rd_put_other {m : RegMap} (f : Fld) {base b : Nat} (v : Nat) (h : b ≠ base + f.off) :
    rd (f.put m base v) b = rd m b := Sparse.get_set_other _ h

/-- Writes one after the other keep the canonical form. -/
theorem foldl_wr_wf {β : Type} (g : RegMap → β → RegMap) (hg : ∀ m b, m.wf = true → (g m b).wf = true) (l : List β) :
    ∀ {m : RegMap}, m.wf = true → (l.foldl g m).wf = true := by
  induction l with
  | nil => intro m h; exact h
  | cons b t ih => intro m h; exact ih (hg m b h)

/-- The refreshed copy of the AON page is canonical where the register space was. -/
theorem refreshAon_wf {m : RegMap} (h : m.wf = true) (aon : RegMap) : (refreshAon m aon).wf = true :=
  foldl_wr_wf (fun m (e : Nat × Word) => wr m e.1 e.2) (fun _ e h => wr_wf h e.1 e.2) aon (Sparse.filter_wf h _)

end Sys2Proof.Machine
end

