-- ==== Sys2Proof/Laws/State.lean ====
section
/-!
SUPPORT. One lemma per field of the device per update of it, each true by unfolding: no proof need unfold a record
update.
-/
namespace Sys2Proof.Machine

-- Dev.onFm

@[simp] theorem Dev.onFm_fm (d : Dev) (f : FmSt → FmSt) : (d.onFm f).fm = f d.fm := rfl
@[simp] theorem Dev.onFm_clk (d : Dev) (f : FmSt → FmSt) : (d.onFm f).clk = d.clk := rfl
@[simp] theorem Dev.onFm_regs (d : Dev) (f : FmSt → FmSt) : (d.onFm f).regs = d.regs := rfl
@[simp] theorem Dev.onFm_aon (d : Dev) (f : FmSt → FmSt) : (d.onFm f).aon = d.aon := rfl
@[simp] theorem Dev.onFm_bus (d : Dev) (f : FmSt → FmSt) : (d.onFm f).bus = d.bus := rfl
@[simp] theorem Dev.onFm_jr (d : Dev) (f : FmSt → FmSt) : (d.onFm f).jr = d.jr := rfl
@[simp] theorem Dev.onFm_tr (d : Dev) (f : FmSt → FmSt) : (d.onFm f).tr = d.tr := rfl
@[simp] theorem Dev.onFm_lineA (d : Dev) (f : FmSt → FmSt) : (d.onFm f).lineA = d.lineA := rfl
@[simp] theorem Dev.onFm_lineB (d : Dev) (f : FmSt → FmSt) : (d.onFm f).lineB = d.lineB := rfl
@[simp] theorem Dev.onFm_pins (d : Dev) (f : FmSt → FmSt) : (d.onFm f).pins = d.pins := rfl
@[simp] theorem Dev.onFm_pcie (d : Dev) (f : FmSt → FmSt) : (d.onFm f).pcie = d.pcie := rfl
@[simp] theorem Dev.onFm_hk (d : Dev) (f : FmSt → FmSt) : (d.onFm f).hk = d.hk := rfl
@[simp] theorem Dev.onFm_pfe (d : Dev) (f : FmSt → FmSt) : (d.onFm f).pfe = d.pfe := rfl
@[simp] theorem Dev.onFm_tiu0 (d : Dev) (f : FmSt → FmSt) : (d.onFm f).tiu0 = d.tiu0 := rfl
@[simp] theorem Dev.onFm_tiu1 (d : Dev) (f : FmSt → FmSt) : (d.onFm f).tiu1 = d.tiu1 := rfl
@[simp] theorem Dev.onFm_pll (d : Dev) (f : FmSt → FmSt) : (d.onFm f).pll = d.pll := rfl
@[simp] theorem Dev.onFm_sram (d : Dev) (f : FmSt → FmSt) : (d.onFm f).sram = d.sram := rfl
@[simp] theorem Dev.onFm_mem (d : Dev) (f : FmSt → FmSt) : (d.onFm f).mem = d.mem := rfl
@[simp] theorem Dev.onFm_dma (d : Dev) (f : FmSt → FmSt) : (d.onFm f).dma = d.dma := rfl
@[simp] theorem Dev.onFm_codec (d : Dev) (f : FmSt → FmSt) : (d.onFm f).codec = d.codec := rfl
@[simp] theorem Dev.onFm_alarm (d : Dev) (f : FmSt → FmSt) : (d.onFm f).alarm = d.alarm := rfl
@[simp] theorem Dev.onFm_inbox (d : Dev) (f : FmSt → FmSt) : (d.onFm f).inbox = d.inbox := rfl
@[simp] theorem Dev.onFm_sahf (d : Dev) (f : FmSt → FmSt) : (d.onFm f).sahf = d.sahf := rfl
@[simp] theorem Dev.onFm_eth0 (d : Dev) (f : FmSt → FmSt) : (d.onFm f).eth0 = d.eth0 := rfl
@[simp] theorem Dev.onFm_eth1 (d : Dev) (f : FmSt → FmSt) : (d.onFm f).eth1 = d.eth1 := rfl
@[simp] theorem Dev.onFm_ptp (d : Dev) (f : FmSt → FmSt) : (d.onFm f).ptp = d.ptp := rfl
@[simp] theorem Dev.onFm_ser (d : Dev) (f : FmSt → FmSt) : (d.onFm f).ser = d.ser := rfl
@[simp] theorem Dev.onFm_pwr (d : Dev) (f : FmSt → FmSt) : (d.onFm f).pwr = d.pwr := rfl
@[simp] theorem Dev.onFm_aonSt (d : Dev) (f : FmSt → FmSt) : (d.onFm f).aonSt = d.aonSt := rfl
@[simp] theorem Dev.onFm_reel (d : Dev) (f : FmSt → FmSt) : (d.onFm f).reel = d.reel := rfl
@[simp] theorem Dev.onFm_tap (d : Dev) (f : FmSt → FmSt) : (d.onFm f).tap = d.tap := rfl
@[simp] theorem Dev.onFm_irq (d : Dev) (f : FmSt → FmSt) : (d.onFm f).irq = d.irq := rfl
@[simp] theorem Dev.onFm_fuse (d : Dev) (f : FmSt → FmSt) : (d.onFm f).fuse = d.fuse := rfl
@[simp] theorem Dev.onFm_freeCtr (d : Dev) (f : FmSt → FmSt) : (d.onFm f).freeCtr = d.freeCtr := rfl
@[simp] theorem Dev.onFm_domainOn (d : Dev) (f : FmSt → FmSt) (c : Nat) : (d.onFm f).domainOn c = d.domainOn c := rfl
@[simp] theorem Dev.onFm_line (d : Dev) (f : FmSt → FmSt) (x : Line) : (d.onFm f).line x = d.line x := rfl
@[simp] theorem Dev.onFm_pageOn (d : Dev) (f : FmSt → FmSt) (p : Nat) : (d.onFm f).pageOn p = d.pageOn p := rfl

-- Dev.onPtp

@[simp] theorem Dev.onPtp_ptp (d : Dev) (f : PtpSt → PtpSt) : (d.onPtp f).ptp = f d.ptp := rfl
@[simp] theorem Dev.onPtp_clk (d : Dev) (f : PtpSt → PtpSt) : (d.onPtp f).clk = d.clk := rfl
@[simp] theorem Dev.onPtp_regs (d : Dev) (f : PtpSt → PtpSt) : (d.onPtp f).regs = d.regs := rfl
@[simp] theorem Dev.onPtp_aon (d : Dev) (f : PtpSt → PtpSt) : (d.onPtp f).aon = d.aon := rfl
@[simp] theorem Dev.onPtp_bus (d : Dev) (f : PtpSt → PtpSt) : (d.onPtp f).bus = d.bus := rfl
@[simp] theorem Dev.onPtp_jr (d : Dev) (f : PtpSt → PtpSt) : (d.onPtp f).jr = d.jr := rfl
@[simp] theorem Dev.onPtp_tr (d : Dev) (f : PtpSt → PtpSt) : (d.onPtp f).tr = d.tr := rfl
@[simp] theorem Dev.onPtp_lineA (d : Dev) (f : PtpSt → PtpSt) : (d.onPtp f).lineA = d.lineA := rfl
@[simp] theorem Dev.onPtp_lineB (d : Dev) (f : PtpSt → PtpSt) : (d.onPtp f).lineB = d.lineB := rfl
@[simp] theorem Dev.onPtp_pins (d : Dev) (f : PtpSt → PtpSt) : (d.onPtp f).pins = d.pins := rfl
@[simp] theorem Dev.onPtp_pcie (d : Dev) (f : PtpSt → PtpSt) : (d.onPtp f).pcie = d.pcie := rfl
@[simp] theorem Dev.onPtp_hk (d : Dev) (f : PtpSt → PtpSt) : (d.onPtp f).hk = d.hk := rfl
@[simp] theorem Dev.onPtp_pfe (d : Dev) (f : PtpSt → PtpSt) : (d.onPtp f).pfe = d.pfe := rfl
@[simp] theorem Dev.onPtp_tiu0 (d : Dev) (f : PtpSt → PtpSt) : (d.onPtp f).tiu0 = d.tiu0 := rfl
@[simp] theorem Dev.onPtp_tiu1 (d : Dev) (f : PtpSt → PtpSt) : (d.onPtp f).tiu1 = d.tiu1 := rfl
@[simp] theorem Dev.onPtp_pll (d : Dev) (f : PtpSt → PtpSt) : (d.onPtp f).pll = d.pll := rfl
@[simp] theorem Dev.onPtp_sram (d : Dev) (f : PtpSt → PtpSt) : (d.onPtp f).sram = d.sram := rfl
@[simp] theorem Dev.onPtp_mem (d : Dev) (f : PtpSt → PtpSt) : (d.onPtp f).mem = d.mem := rfl
@[simp] theorem Dev.onPtp_dma (d : Dev) (f : PtpSt → PtpSt) : (d.onPtp f).dma = d.dma := rfl
@[simp] theorem Dev.onPtp_codec (d : Dev) (f : PtpSt → PtpSt) : (d.onPtp f).codec = d.codec := rfl
@[simp] theorem Dev.onPtp_alarm (d : Dev) (f : PtpSt → PtpSt) : (d.onPtp f).alarm = d.alarm := rfl
@[simp] theorem Dev.onPtp_inbox (d : Dev) (f : PtpSt → PtpSt) : (d.onPtp f).inbox = d.inbox := rfl
@[simp] theorem Dev.onPtp_sahf (d : Dev) (f : PtpSt → PtpSt) : (d.onPtp f).sahf = d.sahf := rfl
@[simp] theorem Dev.onPtp_eth0 (d : Dev) (f : PtpSt → PtpSt) : (d.onPtp f).eth0 = d.eth0 := rfl
@[simp] theorem Dev.onPtp_eth1 (d : Dev) (f : PtpSt → PtpSt) : (d.onPtp f).eth1 = d.eth1 := rfl
@[simp] theorem Dev.onPtp_ser (d : Dev) (f : PtpSt → PtpSt) : (d.onPtp f).ser = d.ser := rfl
@[simp] theorem Dev.onPtp_pwr (d : Dev) (f : PtpSt → PtpSt) : (d.onPtp f).pwr = d.pwr := rfl
@[simp] theorem Dev.onPtp_aonSt (d : Dev) (f : PtpSt → PtpSt) : (d.onPtp f).aonSt = d.aonSt := rfl
@[simp] theorem Dev.onPtp_fm (d : Dev) (f : PtpSt → PtpSt) : (d.onPtp f).fm = d.fm := rfl
@[simp] theorem Dev.onPtp_reel (d : Dev) (f : PtpSt → PtpSt) : (d.onPtp f).reel = d.reel := rfl
@[simp] theorem Dev.onPtp_tap (d : Dev) (f : PtpSt → PtpSt) : (d.onPtp f).tap = d.tap := rfl
@[simp] theorem Dev.onPtp_irq (d : Dev) (f : PtpSt → PtpSt) : (d.onPtp f).irq = d.irq := rfl
@[simp] theorem Dev.onPtp_fuse (d : Dev) (f : PtpSt → PtpSt) : (d.onPtp f).fuse = d.fuse := rfl
@[simp] theorem Dev.onPtp_freeCtr (d : Dev) (f : PtpSt → PtpSt) : (d.onPtp f).freeCtr = d.freeCtr := rfl
@[simp] theorem Dev.onPtp_domainOn (d : Dev) (f : PtpSt → PtpSt) (c : Nat) : (d.onPtp f).domainOn c = d.domainOn c := rfl
@[simp] theorem Dev.onPtp_line (d : Dev) (f : PtpSt → PtpSt) (x : Line) : (d.onPtp f).line x = d.line x := rfl
@[simp] theorem Dev.onPtp_pageOn (d : Dev) (f : PtpSt → PtpSt) (p : Nat) : (d.onPtp f).pageOn p = d.pageOn p := rfl

-- Dev.onAon

@[simp] theorem Dev.onAon_aonSt (d : Dev) (f : AonSt → AonSt) : (d.onAon f).aonSt = f d.aonSt := rfl
@[simp] theorem Dev.onAon_clk (d : Dev) (f : AonSt → AonSt) : (d.onAon f).clk = d.clk := rfl
@[simp] theorem Dev.onAon_regs (d : Dev) (f : AonSt → AonSt) : (d.onAon f).regs = d.regs := rfl
@[simp] theorem Dev.onAon_aon (d : Dev) (f : AonSt → AonSt) : (d.onAon f).aon = d.aon := rfl
@[simp] theorem Dev.onAon_bus (d : Dev) (f : AonSt → AonSt) : (d.onAon f).bus = d.bus := rfl
@[simp] theorem Dev.onAon_jr (d : Dev) (f : AonSt → AonSt) : (d.onAon f).jr = d.jr := rfl
@[simp] theorem Dev.onAon_tr (d : Dev) (f : AonSt → AonSt) : (d.onAon f).tr = d.tr := rfl
@[simp] theorem Dev.onAon_lineA (d : Dev) (f : AonSt → AonSt) : (d.onAon f).lineA = d.lineA := rfl
@[simp] theorem Dev.onAon_lineB (d : Dev) (f : AonSt → AonSt) : (d.onAon f).lineB = d.lineB := rfl
@[simp] theorem Dev.onAon_pins (d : Dev) (f : AonSt → AonSt) : (d.onAon f).pins = d.pins := rfl
@[simp] theorem Dev.onAon_pcie (d : Dev) (f : AonSt → AonSt) : (d.onAon f).pcie = d.pcie := rfl
@[simp] theorem Dev.onAon_hk (d : Dev) (f : AonSt → AonSt) : (d.onAon f).hk = d.hk := rfl
@[simp] theorem Dev.onAon_pfe (d : Dev) (f : AonSt → AonSt) : (d.onAon f).pfe = d.pfe := rfl
@[simp] theorem Dev.onAon_tiu0 (d : Dev) (f : AonSt → AonSt) : (d.onAon f).tiu0 = d.tiu0 := rfl
@[simp] theorem Dev.onAon_tiu1 (d : Dev) (f : AonSt → AonSt) : (d.onAon f).tiu1 = d.tiu1 := rfl
@[simp] theorem Dev.onAon_pll (d : Dev) (f : AonSt → AonSt) : (d.onAon f).pll = d.pll := rfl
@[simp] theorem Dev.onAon_sram (d : Dev) (f : AonSt → AonSt) : (d.onAon f).sram = d.sram := rfl
@[simp] theorem Dev.onAon_mem (d : Dev) (f : AonSt → AonSt) : (d.onAon f).mem = d.mem := rfl
@[simp] theorem Dev.onAon_dma (d : Dev) (f : AonSt → AonSt) : (d.onAon f).dma = d.dma := rfl
@[simp] theorem Dev.onAon_codec (d : Dev) (f : AonSt → AonSt) : (d.onAon f).codec = d.codec := rfl
@[simp] theorem Dev.onAon_alarm (d : Dev) (f : AonSt → AonSt) : (d.onAon f).alarm = d.alarm := rfl
@[simp] theorem Dev.onAon_inbox (d : Dev) (f : AonSt → AonSt) : (d.onAon f).inbox = d.inbox := rfl
@[simp] theorem Dev.onAon_sahf (d : Dev) (f : AonSt → AonSt) : (d.onAon f).sahf = d.sahf := rfl
@[simp] theorem Dev.onAon_eth0 (d : Dev) (f : AonSt → AonSt) : (d.onAon f).eth0 = d.eth0 := rfl
@[simp] theorem Dev.onAon_eth1 (d : Dev) (f : AonSt → AonSt) : (d.onAon f).eth1 = d.eth1 := rfl
@[simp] theorem Dev.onAon_ptp (d : Dev) (f : AonSt → AonSt) : (d.onAon f).ptp = d.ptp := rfl
@[simp] theorem Dev.onAon_ser (d : Dev) (f : AonSt → AonSt) : (d.onAon f).ser = d.ser := rfl
@[simp] theorem Dev.onAon_pwr (d : Dev) (f : AonSt → AonSt) : (d.onAon f).pwr = d.pwr := rfl
@[simp] theorem Dev.onAon_fm (d : Dev) (f : AonSt → AonSt) : (d.onAon f).fm = d.fm := rfl
@[simp] theorem Dev.onAon_reel (d : Dev) (f : AonSt → AonSt) : (d.onAon f).reel = d.reel := rfl
@[simp] theorem Dev.onAon_tap (d : Dev) (f : AonSt → AonSt) : (d.onAon f).tap = d.tap := rfl
@[simp] theorem Dev.onAon_irq (d : Dev) (f : AonSt → AonSt) : (d.onAon f).irq = d.irq := rfl
@[simp] theorem Dev.onAon_fuse (d : Dev) (f : AonSt → AonSt) : (d.onAon f).fuse = d.fuse := rfl
@[simp] theorem Dev.onAon_freeCtr (d : Dev) (f : AonSt → AonSt) : (d.onAon f).freeCtr = d.freeCtr := rfl
@[simp] theorem Dev.onAon_domainOn (d : Dev) (f : AonSt → AonSt) (c : Nat) : (d.onAon f).domainOn c = d.domainOn c := rfl
@[simp] theorem Dev.onAon_line (d : Dev) (f : AonSt → AonSt) (x : Line) : (d.onAon f).line x = d.line x := rfl
@[simp] theorem Dev.onAon_pageOn (d : Dev) (f : AonSt → AonSt) (p : Nat) : (d.onAon f).pageOn p = d.pageOn p := rfl

-- Dev.onSahf

@[simp] theorem Dev.onSahf_sahf (d : Dev) (f : SahfSt → SahfSt) : (d.onSahf f).sahf = f d.sahf := rfl
@[simp] theorem Dev.onSahf_clk (d : Dev) (f : SahfSt → SahfSt) : (d.onSahf f).clk = d.clk := rfl
@[simp] theorem Dev.onSahf_regs (d : Dev) (f : SahfSt → SahfSt) : (d.onSahf f).regs = d.regs := rfl
@[simp] theorem Dev.onSahf_aon (d : Dev) (f : SahfSt → SahfSt) : (d.onSahf f).aon = d.aon := rfl
@[simp] theorem Dev.onSahf_bus (d : Dev) (f : SahfSt → SahfSt) : (d.onSahf f).bus = d.bus := rfl
@[simp] theorem Dev.onSahf_jr (d : Dev) (f : SahfSt → SahfSt) : (d.onSahf f).jr = d.jr := rfl
@[simp] theorem Dev.onSahf_tr (d : Dev) (f : SahfSt → SahfSt) : (d.onSahf f).tr = d.tr := rfl
@[simp] theorem Dev.onSahf_lineA (d : Dev) (f : SahfSt → SahfSt) : (d.onSahf f).lineA = d.lineA := rfl
@[simp] theorem Dev.onSahf_lineB (d : Dev) (f : SahfSt → SahfSt) : (d.onSahf f).lineB = d.lineB := rfl
@[simp] theorem Dev.onSahf_pins (d : Dev) (f : SahfSt → SahfSt) : (d.onSahf f).pins = d.pins := rfl
@[simp] theorem Dev.onSahf_pcie (d : Dev) (f : SahfSt → SahfSt) : (d.onSahf f).pcie = d.pcie := rfl
@[simp] theorem Dev.onSahf_hk (d : Dev) (f : SahfSt → SahfSt) : (d.onSahf f).hk = d.hk := rfl
@[simp] theorem Dev.onSahf_pfe (d : Dev) (f : SahfSt → SahfSt) : (d.onSahf f).pfe = d.pfe := rfl
@[simp] theorem Dev.onSahf_tiu0 (d : Dev) (f : SahfSt → SahfSt) : (d.onSahf f).tiu0 = d.tiu0 := rfl
@[simp] theorem Dev.onSahf_tiu1 (d : Dev) (f : SahfSt → SahfSt) : (d.onSahf f).tiu1 = d.tiu1 := rfl
@[simp] theorem Dev.onSahf_pll (d : Dev) (f : SahfSt → SahfSt) : (d.onSahf f).pll = d.pll := rfl
@[simp] theorem Dev.onSahf_sram (d : Dev) (f : SahfSt → SahfSt) : (d.onSahf f).sram = d.sram := rfl
@[simp] theorem Dev.onSahf_mem (d : Dev) (f : SahfSt → SahfSt) : (d.onSahf f).mem = d.mem := rfl
@[simp] theorem Dev.onSahf_dma (d : Dev) (f : SahfSt → SahfSt) : (d.onSahf f).dma = d.dma := rfl
@[simp] theorem Dev.onSahf_codec (d : Dev) (f : SahfSt → SahfSt) : (d.onSahf f).codec = d.codec := rfl
@[simp] theorem Dev.onSahf_alarm (d : Dev) (f : SahfSt → SahfSt) : (d.onSahf f).alarm = d.alarm := rfl
@[simp] theorem Dev.onSahf_inbox (d : Dev) (f : SahfSt → SahfSt) : (d.onSahf f).inbox = d.inbox := rfl
@[simp] theorem Dev.onSahf_eth0 (d : Dev) (f : SahfSt → SahfSt) : (d.onSahf f).eth0 = d.eth0 := rfl
@[simp] theorem Dev.onSahf_eth1 (d : Dev) (f : SahfSt → SahfSt) : (d.onSahf f).eth1 = d.eth1 := rfl
@[simp] theorem Dev.onSahf_ptp (d : Dev) (f : SahfSt → SahfSt) : (d.onSahf f).ptp = d.ptp := rfl
@[simp] theorem Dev.onSahf_ser (d : Dev) (f : SahfSt → SahfSt) : (d.onSahf f).ser = d.ser := rfl
@[simp] theorem Dev.onSahf_pwr (d : Dev) (f : SahfSt → SahfSt) : (d.onSahf f).pwr = d.pwr := rfl
@[simp] theorem Dev.onSahf_aonSt (d : Dev) (f : SahfSt → SahfSt) : (d.onSahf f).aonSt = d.aonSt := rfl
@[simp] theorem Dev.onSahf_fm (d : Dev) (f : SahfSt → SahfSt) : (d.onSahf f).fm = d.fm := rfl
@[simp] theorem Dev.onSahf_reel (d : Dev) (f : SahfSt → SahfSt) : (d.onSahf f).reel = d.reel := rfl
@[simp] theorem Dev.onSahf_tap (d : Dev) (f : SahfSt → SahfSt) : (d.onSahf f).tap = d.tap := rfl
@[simp] theorem Dev.onSahf_irq (d : Dev) (f : SahfSt → SahfSt) : (d.onSahf f).irq = d.irq := rfl
@[simp] theorem Dev.onSahf_fuse (d : Dev) (f : SahfSt → SahfSt) : (d.onSahf f).fuse = d.fuse := rfl
@[simp] theorem Dev.onSahf_freeCtr (d : Dev) (f : SahfSt → SahfSt) : (d.onSahf f).freeCtr = d.freeCtr := rfl
@[simp] theorem Dev.onSahf_domainOn (d : Dev) (f : SahfSt → SahfSt) (c : Nat) : (d.onSahf f).domainOn c = d.domainOn c := rfl
@[simp] theorem Dev.onSahf_line (d : Dev) (f : SahfSt → SahfSt) (x : Line) : (d.onSahf f).line x = d.line x := rfl
@[simp] theorem Dev.onSahf_pageOn (d : Dev) (f : SahfSt → SahfSt) (p : Nat) : (d.onSahf f).pageOn p = d.pageOn p := rfl

-- Dev.onSerial

@[simp] theorem Dev.onSerial_ser (d : Dev) (f : SerialSt → SerialSt) : (d.onSerial f).ser = f d.ser := rfl
@[simp] theorem Dev.onSerial_clk (d : Dev) (f : SerialSt → SerialSt) : (d.onSerial f).clk = d.clk := rfl
@[simp] theorem Dev.onSerial_regs (d : Dev) (f : SerialSt → SerialSt) : (d.onSerial f).regs = d.regs := rfl
@[simp] theorem Dev.onSerial_aon (d : Dev) (f : SerialSt → SerialSt) : (d.onSerial f).aon = d.aon := rfl
@[simp] theorem Dev.onSerial_bus (d : Dev) (f : SerialSt → SerialSt) : (d.onSerial f).bus = d.bus := rfl
@[simp] theorem Dev.onSerial_jr (d : Dev) (f : SerialSt → SerialSt) : (d.onSerial f).jr = d.jr := rfl
@[simp] theorem Dev.onSerial_tr (d : Dev) (f : SerialSt → SerialSt) : (d.onSerial f).tr = d.tr := rfl
@[simp] theorem Dev.onSerial_lineA (d : Dev) (f : SerialSt → SerialSt) : (d.onSerial f).lineA = d.lineA := rfl
@[simp] theorem Dev.onSerial_lineB (d : Dev) (f : SerialSt → SerialSt) : (d.onSerial f).lineB = d.lineB := rfl
@[simp] theorem Dev.onSerial_pins (d : Dev) (f : SerialSt → SerialSt) : (d.onSerial f).pins = d.pins := rfl
@[simp] theorem Dev.onSerial_pcie (d : Dev) (f : SerialSt → SerialSt) : (d.onSerial f).pcie = d.pcie := rfl
@[simp] theorem Dev.onSerial_hk (d : Dev) (f : SerialSt → SerialSt) : (d.onSerial f).hk = d.hk := rfl
@[simp] theorem Dev.onSerial_pfe (d : Dev) (f : SerialSt → SerialSt) : (d.onSerial f).pfe = d.pfe := rfl
@[simp] theorem Dev.onSerial_tiu0 (d : Dev) (f : SerialSt → SerialSt) : (d.onSerial f).tiu0 = d.tiu0 := rfl
@[simp] theorem Dev.onSerial_tiu1 (d : Dev) (f : SerialSt → SerialSt) : (d.onSerial f).tiu1 = d.tiu1 := rfl
@[simp] theorem Dev.onSerial_pll (d : Dev) (f : SerialSt → SerialSt) : (d.onSerial f).pll = d.pll := rfl
@[simp] theorem Dev.onSerial_sram (d : Dev) (f : SerialSt → SerialSt) : (d.onSerial f).sram = d.sram := rfl
@[simp] theorem Dev.onSerial_mem (d : Dev) (f : SerialSt → SerialSt) : (d.onSerial f).mem = d.mem := rfl
@[simp] theorem Dev.onSerial_dma (d : Dev) (f : SerialSt → SerialSt) : (d.onSerial f).dma = d.dma := rfl
@[simp] theorem Dev.onSerial_codec (d : Dev) (f : SerialSt → SerialSt) : (d.onSerial f).codec = d.codec := rfl
@[simp] theorem Dev.onSerial_alarm (d : Dev) (f : SerialSt → SerialSt) : (d.onSerial f).alarm = d.alarm := rfl
@[simp] theorem Dev.onSerial_inbox (d : Dev) (f : SerialSt → SerialSt) : (d.onSerial f).inbox = d.inbox := rfl
@[simp] theorem Dev.onSerial_sahf (d : Dev) (f : SerialSt → SerialSt) : (d.onSerial f).sahf = d.sahf := rfl
@[simp] theorem Dev.onSerial_eth0 (d : Dev) (f : SerialSt → SerialSt) : (d.onSerial f).eth0 = d.eth0 := rfl
@[simp] theorem Dev.onSerial_eth1 (d : Dev) (f : SerialSt → SerialSt) : (d.onSerial f).eth1 = d.eth1 := rfl
@[simp] theorem Dev.onSerial_ptp (d : Dev) (f : SerialSt → SerialSt) : (d.onSerial f).ptp = d.ptp := rfl
@[simp] theorem Dev.onSerial_pwr (d : Dev) (f : SerialSt → SerialSt) : (d.onSerial f).pwr = d.pwr := rfl
@[simp] theorem Dev.onSerial_aonSt (d : Dev) (f : SerialSt → SerialSt) : (d.onSerial f).aonSt = d.aonSt := rfl
@[simp] theorem Dev.onSerial_fm (d : Dev) (f : SerialSt → SerialSt) : (d.onSerial f).fm = d.fm := rfl
@[simp] theorem Dev.onSerial_reel (d : Dev) (f : SerialSt → SerialSt) : (d.onSerial f).reel = d.reel := rfl
@[simp] theorem Dev.onSerial_tap (d : Dev) (f : SerialSt → SerialSt) : (d.onSerial f).tap = d.tap := rfl
@[simp] theorem Dev.onSerial_irq (d : Dev) (f : SerialSt → SerialSt) : (d.onSerial f).irq = d.irq := rfl
@[simp] theorem Dev.onSerial_fuse (d : Dev) (f : SerialSt → SerialSt) : (d.onSerial f).fuse = d.fuse := rfl
@[simp] theorem Dev.onSerial_freeCtr (d : Dev) (f : SerialSt → SerialSt) : (d.onSerial f).freeCtr = d.freeCtr := rfl
@[simp] theorem Dev.onSerial_domainOn (d : Dev) (f : SerialSt → SerialSt) (c : Nat) : (d.onSerial f).domainOn c = d.domainOn c := rfl
@[simp] theorem Dev.onSerial_line (d : Dev) (f : SerialSt → SerialSt) (x : Line) : (d.onSerial f).line x = d.line x := rfl
@[simp] theorem Dev.onSerial_pageOn (d : Dev) (f : SerialSt → SerialSt) (p : Nat) : (d.onSerial f).pageOn p = d.pageOn p := rfl

-- Dev.onCodec

@[simp] theorem Dev.onCodec_codec (d : Dev) (f : CodecSt → CodecSt) : (d.onCodec f).codec = f d.codec := rfl
@[simp] theorem Dev.onCodec_clk (d : Dev) (f : CodecSt → CodecSt) : (d.onCodec f).clk = d.clk := rfl
@[simp] theorem Dev.onCodec_regs (d : Dev) (f : CodecSt → CodecSt) : (d.onCodec f).regs = d.regs := rfl
@[simp] theorem Dev.onCodec_aon (d : Dev) (f : CodecSt → CodecSt) : (d.onCodec f).aon = d.aon := rfl
@[simp] theorem Dev.onCodec_bus (d : Dev) (f : CodecSt → CodecSt) : (d.onCodec f).bus = d.bus := rfl
@[simp] theorem Dev.onCodec_jr (d : Dev) (f : CodecSt → CodecSt) : (d.onCodec f).jr = d.jr := rfl
@[simp] theorem Dev.onCodec_tr (d : Dev) (f : CodecSt → CodecSt) : (d.onCodec f).tr = d.tr := rfl
@[simp] theorem Dev.onCodec_lineA (d : Dev) (f : CodecSt → CodecSt) : (d.onCodec f).lineA = d.lineA := rfl
@[simp] theorem Dev.onCodec_lineB (d : Dev) (f : CodecSt → CodecSt) : (d.onCodec f).lineB = d.lineB := rfl
@[simp] theorem Dev.onCodec_pins (d : Dev) (f : CodecSt → CodecSt) : (d.onCodec f).pins = d.pins := rfl
@[simp] theorem Dev.onCodec_pcie (d : Dev) (f : CodecSt → CodecSt) : (d.onCodec f).pcie = d.pcie := rfl
@[simp] theorem Dev.onCodec_hk (d : Dev) (f : CodecSt → CodecSt) : (d.onCodec f).hk = d.hk := rfl
@[simp] theorem Dev.onCodec_pfe (d : Dev) (f : CodecSt → CodecSt) : (d.onCodec f).pfe = d.pfe := rfl
@[simp] theorem Dev.onCodec_tiu0 (d : Dev) (f : CodecSt → CodecSt) : (d.onCodec f).tiu0 = d.tiu0 := rfl
@[simp] theorem Dev.onCodec_tiu1 (d : Dev) (f : CodecSt → CodecSt) : (d.onCodec f).tiu1 = d.tiu1 := rfl
@[simp] theorem Dev.onCodec_pll (d : Dev) (f : CodecSt → CodecSt) : (d.onCodec f).pll = d.pll := rfl
@[simp] theorem Dev.onCodec_sram (d : Dev) (f : CodecSt → CodecSt) : (d.onCodec f).sram = d.sram := rfl
@[simp] theorem Dev.onCodec_mem (d : Dev) (f : CodecSt → CodecSt) : (d.onCodec f).mem = d.mem := rfl
@[simp] theorem Dev.onCodec_dma (d : Dev) (f : CodecSt → CodecSt) : (d.onCodec f).dma = d.dma := rfl
@[simp] theorem Dev.onCodec_alarm (d : Dev) (f : CodecSt → CodecSt) : (d.onCodec f).alarm = d.alarm := rfl
@[simp] theorem Dev.onCodec_inbox (d : Dev) (f : CodecSt → CodecSt) : (d.onCodec f).inbox = d.inbox := rfl
@[simp] theorem Dev.onCodec_sahf (d : Dev) (f : CodecSt → CodecSt) : (d.onCodec f).sahf = d.sahf := rfl
@[simp] theorem Dev.onCodec_eth0 (d : Dev) (f : CodecSt → CodecSt) : (d.onCodec f).eth0 = d.eth0 := rfl
@[simp] theorem Dev.onCodec_eth1 (d : Dev) (f : CodecSt → CodecSt) : (d.onCodec f).eth1 = d.eth1 := rfl
@[simp] theorem Dev.onCodec_ptp (d : Dev) (f : CodecSt → CodecSt) : (d.onCodec f).ptp = d.ptp := rfl
@[simp] theorem Dev.onCodec_ser (d : Dev) (f : CodecSt → CodecSt) : (d.onCodec f).ser = d.ser := rfl
@[simp] theorem Dev.onCodec_pwr (d : Dev) (f : CodecSt → CodecSt) : (d.onCodec f).pwr = d.pwr := rfl
@[simp] theorem Dev.onCodec_aonSt (d : Dev) (f : CodecSt → CodecSt) : (d.onCodec f).aonSt = d.aonSt := rfl
@[simp] theorem Dev.onCodec_fm (d : Dev) (f : CodecSt → CodecSt) : (d.onCodec f).fm = d.fm := rfl
@[simp] theorem Dev.onCodec_reel (d : Dev) (f : CodecSt → CodecSt) : (d.onCodec f).reel = d.reel := rfl
@[simp] theorem Dev.onCodec_tap (d : Dev) (f : CodecSt → CodecSt) : (d.onCodec f).tap = d.tap := rfl
@[simp] theorem Dev.onCodec_irq (d : Dev) (f : CodecSt → CodecSt) : (d.onCodec f).irq = d.irq := rfl
@[simp] theorem Dev.onCodec_fuse (d : Dev) (f : CodecSt → CodecSt) : (d.onCodec f).fuse = d.fuse := rfl
@[simp] theorem Dev.onCodec_freeCtr (d : Dev) (f : CodecSt → CodecSt) : (d.onCodec f).freeCtr = d.freeCtr := rfl
@[simp] theorem Dev.onCodec_domainOn (d : Dev) (f : CodecSt → CodecSt) (c : Nat) : (d.onCodec f).domainOn c = d.domainOn c := rfl
@[simp] theorem Dev.onCodec_line (d : Dev) (f : CodecSt → CodecSt) (x : Line) : (d.onCodec f).line x = d.line x := rfl
@[simp] theorem Dev.onCodec_pageOn (d : Dev) (f : CodecSt → CodecSt) (p : Nat) : (d.onCodec f).pageOn p = d.pageOn p := rfl

-- Dev.onPfe

@[simp] theorem Dev.onPfe_pfe (d : Dev) (f : PfeSt → PfeSt) : (d.onPfe f).pfe = f d.pfe := rfl
@[simp] theorem Dev.onPfe_clk (d : Dev) (f : PfeSt → PfeSt) : (d.onPfe f).clk = d.clk := rfl
@[simp] theorem Dev.onPfe_regs (d : Dev) (f : PfeSt → PfeSt) : (d.onPfe f).regs = d.regs := rfl
@[simp] theorem Dev.onPfe_aon (d : Dev) (f : PfeSt → PfeSt) : (d.onPfe f).aon = d.aon := rfl
@[simp] theorem Dev.onPfe_bus (d : Dev) (f : PfeSt → PfeSt) : (d.onPfe f).bus = d.bus := rfl
@[simp] theorem Dev.onPfe_jr (d : Dev) (f : PfeSt → PfeSt) : (d.onPfe f).jr = d.jr := rfl
@[simp] theorem Dev.onPfe_tr (d : Dev) (f : PfeSt → PfeSt) : (d.onPfe f).tr = d.tr := rfl
@[simp] theorem Dev.onPfe_lineA (d : Dev) (f : PfeSt → PfeSt) : (d.onPfe f).lineA = d.lineA := rfl
@[simp] theorem Dev.onPfe_lineB (d : Dev) (f : PfeSt → PfeSt) : (d.onPfe f).lineB = d.lineB := rfl
@[simp] theorem Dev.onPfe_pins (d : Dev) (f : PfeSt → PfeSt) : (d.onPfe f).pins = d.pins := rfl
@[simp] theorem Dev.onPfe_pcie (d : Dev) (f : PfeSt → PfeSt) : (d.onPfe f).pcie = d.pcie := rfl
@[simp] theorem Dev.onPfe_hk (d : Dev) (f : PfeSt → PfeSt) : (d.onPfe f).hk = d.hk := rfl
@[simp] theorem Dev.onPfe_tiu0 (d : Dev) (f : PfeSt → PfeSt) : (d.onPfe f).tiu0 = d.tiu0 := rfl
@[simp] theorem Dev.onPfe_tiu1 (d : Dev) (f : PfeSt → PfeSt) : (d.onPfe f).tiu1 = d.tiu1 := rfl
@[simp] theorem Dev.onPfe_pll (d : Dev) (f : PfeSt → PfeSt) : (d.onPfe f).pll = d.pll := rfl
@[simp] theorem Dev.onPfe_sram (d : Dev) (f : PfeSt → PfeSt) : (d.onPfe f).sram = d.sram := rfl
@[simp] theorem Dev.onPfe_mem (d : Dev) (f : PfeSt → PfeSt) : (d.onPfe f).mem = d.mem := rfl
@[simp] theorem Dev.onPfe_dma (d : Dev) (f : PfeSt → PfeSt) : (d.onPfe f).dma = d.dma := rfl
@[simp] theorem Dev.onPfe_codec (d : Dev) (f : PfeSt → PfeSt) : (d.onPfe f).codec = d.codec := rfl
@[simp] theorem Dev.onPfe_alarm (d : Dev) (f : PfeSt → PfeSt) : (d.onPfe f).alarm = d.alarm := rfl
@[simp] theorem Dev.onPfe_inbox (d : Dev) (f : PfeSt → PfeSt) : (d.onPfe f).inbox = d.inbox := rfl
@[simp] theorem Dev.onPfe_sahf (d : Dev) (f : PfeSt → PfeSt) : (d.onPfe f).sahf = d.sahf := rfl
@[simp] theorem Dev.onPfe_eth0 (d : Dev) (f : PfeSt → PfeSt) : (d.onPfe f).eth0 = d.eth0 := rfl
@[simp] theorem Dev.onPfe_eth1 (d : Dev) (f : PfeSt → PfeSt) : (d.onPfe f).eth1 = d.eth1 := rfl
@[simp] theorem Dev.onPfe_ptp (d : Dev) (f : PfeSt → PfeSt) : (d.onPfe f).ptp = d.ptp := rfl
@[simp] theorem Dev.onPfe_ser (d : Dev) (f : PfeSt → PfeSt) : (d.onPfe f).ser = d.ser := rfl
@[simp] theorem Dev.onPfe_pwr (d : Dev) (f : PfeSt → PfeSt) : (d.onPfe f).pwr = d.pwr := rfl
@[simp] theorem Dev.onPfe_aonSt (d : Dev) (f : PfeSt → PfeSt) : (d.onPfe f).aonSt = d.aonSt := rfl
@[simp] theorem Dev.onPfe_fm (d : Dev) (f : PfeSt → PfeSt) : (d.onPfe f).fm = d.fm := rfl
@[simp] theorem Dev.onPfe_reel (d : Dev) (f : PfeSt → PfeSt) : (d.onPfe f).reel = d.reel := rfl
@[simp] theorem Dev.onPfe_tap (d : Dev) (f : PfeSt → PfeSt) : (d.onPfe f).tap = d.tap := rfl
@[simp] theorem Dev.onPfe_irq (d : Dev) (f : PfeSt → PfeSt) : (d.onPfe f).irq = d.irq := rfl
@[simp] theorem Dev.onPfe_fuse (d : Dev) (f : PfeSt → PfeSt) : (d.onPfe f).fuse = d.fuse := rfl
@[simp] theorem Dev.onPfe_freeCtr (d : Dev) (f : PfeSt → PfeSt) : (d.onPfe f).freeCtr = d.freeCtr := rfl
@[simp] theorem Dev.onPfe_domainOn (d : Dev) (f : PfeSt → PfeSt) (c : Nat) : (d.onPfe f).domainOn c = d.domainOn c := rfl
@[simp] theorem Dev.onPfe_line (d : Dev) (f : PfeSt → PfeSt) (x : Line) : (d.onPfe f).line x = d.line x := rfl
@[simp] theorem Dev.onPfe_pageOn (d : Dev) (f : PfeSt → PfeSt) (p : Nat) : (d.onPfe f).pageOn p = d.pageOn p := rfl

-- Dev.onMem

@[simp] theorem Dev.onMem_mem (d : Dev) (f : MemSt → MemSt) : (d.onMem f).mem = f d.mem := rfl
@[simp] theorem Dev.onMem_clk (d : Dev) (f : MemSt → MemSt) : (d.onMem f).clk = d.clk := rfl
@[simp] theorem Dev.onMem_regs (d : Dev) (f : MemSt → MemSt) : (d.onMem f).regs = d.regs := rfl
@[simp] theorem Dev.onMem_aon (d : Dev) (f : MemSt → MemSt) : (d.onMem f).aon = d.aon := rfl
@[simp] theorem Dev.onMem_bus (d : Dev) (f : MemSt → MemSt) : (d.onMem f).bus = d.bus := rfl
@[simp] theorem Dev.onMem_jr (d : Dev) (f : MemSt → MemSt) : (d.onMem f).jr = d.jr := rfl
@[simp] theorem Dev.onMem_tr (d : Dev) (f : MemSt → MemSt) : (d.onMem f).tr = d.tr := rfl
@[simp] theorem Dev.onMem_lineA (d : Dev) (f : MemSt → MemSt) : (d.onMem f).lineA = d.lineA := rfl
@[simp] theorem Dev.onMem_lineB (d : Dev) (f : MemSt → MemSt) : (d.onMem f).lineB = d.lineB := rfl
@[simp] theorem Dev.onMem_pins (d : Dev) (f : MemSt → MemSt) : (d.onMem f).pins = d.pins := rfl
@[simp] theorem Dev.onMem_pcie (d : Dev) (f : MemSt → MemSt) : (d.onMem f).pcie = d.pcie := rfl
@[simp] theorem Dev.onMem_hk (d : Dev) (f : MemSt → MemSt) : (d.onMem f).hk = d.hk := rfl
@[simp] theorem Dev.onMem_pfe (d : Dev) (f : MemSt → MemSt) : (d.onMem f).pfe = d.pfe := rfl
@[simp] theorem Dev.onMem_tiu0 (d : Dev) (f : MemSt → MemSt) : (d.onMem f).tiu0 = d.tiu0 := rfl
@[simp] theorem Dev.onMem_tiu1 (d : Dev) (f : MemSt → MemSt) : (d.onMem f).tiu1 = d.tiu1 := rfl
@[simp] theorem Dev.onMem_pll (d : Dev) (f : MemSt → MemSt) : (d.onMem f).pll = d.pll := rfl
@[simp] theorem Dev.onMem_sram (d : Dev) (f : MemSt → MemSt) : (d.onMem f).sram = d.sram := rfl
@[simp] theorem Dev.onMem_dma (d : Dev) (f : MemSt → MemSt) : (d.onMem f).dma = d.dma := rfl
@[simp] theorem Dev.onMem_codec (d : Dev) (f : MemSt → MemSt) : (d.onMem f).codec = d.codec := rfl
@[simp] theorem Dev.onMem_alarm (d : Dev) (f : MemSt → MemSt) : (d.onMem f).alarm = d.alarm := rfl
@[simp] theorem Dev.onMem_inbox (d : Dev) (f : MemSt → MemSt) : (d.onMem f).inbox = d.inbox := rfl
@[simp] theorem Dev.onMem_sahf (d : Dev) (f : MemSt → MemSt) : (d.onMem f).sahf = d.sahf := rfl
@[simp] theorem Dev.onMem_eth0 (d : Dev) (f : MemSt → MemSt) : (d.onMem f).eth0 = d.eth0 := rfl
@[simp] theorem Dev.onMem_eth1 (d : Dev) (f : MemSt → MemSt) : (d.onMem f).eth1 = d.eth1 := rfl
@[simp] theorem Dev.onMem_ptp (d : Dev) (f : MemSt → MemSt) : (d.onMem f).ptp = d.ptp := rfl
@[simp] theorem Dev.onMem_ser (d : Dev) (f : MemSt → MemSt) : (d.onMem f).ser = d.ser := rfl
@[simp] theorem Dev.onMem_pwr (d : Dev) (f : MemSt → MemSt) : (d.onMem f).pwr = d.pwr := rfl
@[simp] theorem Dev.onMem_aonSt (d : Dev) (f : MemSt → MemSt) : (d.onMem f).aonSt = d.aonSt := rfl
@[simp] theorem Dev.onMem_fm (d : Dev) (f : MemSt → MemSt) : (d.onMem f).fm = d.fm := rfl
@[simp] theorem Dev.onMem_reel (d : Dev) (f : MemSt → MemSt) : (d.onMem f).reel = d.reel := rfl
@[simp] theorem Dev.onMem_tap (d : Dev) (f : MemSt → MemSt) : (d.onMem f).tap = d.tap := rfl
@[simp] theorem Dev.onMem_irq (d : Dev) (f : MemSt → MemSt) : (d.onMem f).irq = d.irq := rfl
@[simp] theorem Dev.onMem_fuse (d : Dev) (f : MemSt → MemSt) : (d.onMem f).fuse = d.fuse := rfl
@[simp] theorem Dev.onMem_freeCtr (d : Dev) (f : MemSt → MemSt) : (d.onMem f).freeCtr = d.freeCtr := rfl
@[simp] theorem Dev.onMem_domainOn (d : Dev) (f : MemSt → MemSt) (c : Nat) : (d.onMem f).domainOn c = d.domainOn c := rfl
@[simp] theorem Dev.onMem_line (d : Dev) (f : MemSt → MemSt) (x : Line) : (d.onMem f).line x = d.line x := rfl
@[simp] theorem Dev.onMem_pageOn (d : Dev) (f : MemSt → MemSt) (p : Nat) : (d.onMem f).pageOn p = d.pageOn p := rfl

-- Dev.onHk

@[simp] theorem Dev.onHk_hk (d : Dev) (f : Hk → Hk) : (d.onHk f).hk = f d.hk := rfl
@[simp] theorem Dev.onHk_clk (d : Dev) (f : Hk → Hk) : (d.onHk f).clk = d.clk := rfl
@[simp] theorem Dev.onHk_regs (d : Dev) (f : Hk → Hk) : (d.onHk f).regs = d.regs := rfl
@[simp] theorem Dev.onHk_aon (d : Dev) (f : Hk → Hk) : (d.onHk f).aon = d.aon := rfl
@[simp] theorem Dev.onHk_bus (d : Dev) (f : Hk → Hk) : (d.onHk f).bus = d.bus := rfl
@[simp] theorem Dev.onHk_jr (d : Dev) (f : Hk → Hk) : (d.onHk f).jr = d.jr := rfl
@[simp] theorem Dev.onHk_tr (d : Dev) (f : Hk → Hk) : (d.onHk f).tr = d.tr := rfl
@[simp] theorem Dev.onHk_lineA (d : Dev) (f : Hk → Hk) : (d.onHk f).lineA = d.lineA := rfl
@[simp] theorem Dev.onHk_lineB (d : Dev) (f : Hk → Hk) : (d.onHk f).lineB = d.lineB := rfl
@[simp] theorem Dev.onHk_pins (d : Dev) (f : Hk → Hk) : (d.onHk f).pins = d.pins := rfl
@[simp] theorem Dev.onHk_pcie (d : Dev) (f : Hk → Hk) : (d.onHk f).pcie = d.pcie := rfl
@[simp] theorem Dev.onHk_pfe (d : Dev) (f : Hk → Hk) : (d.onHk f).pfe = d.pfe := rfl
@[simp] theorem Dev.onHk_tiu0 (d : Dev) (f : Hk → Hk) : (d.onHk f).tiu0 = d.tiu0 := rfl
@[simp] theorem Dev.onHk_tiu1 (d : Dev) (f : Hk → Hk) : (d.onHk f).tiu1 = d.tiu1 := rfl
@[simp] theorem Dev.onHk_pll (d : Dev) (f : Hk → Hk) : (d.onHk f).pll = d.pll := rfl
@[simp] theorem Dev.onHk_sram (d : Dev) (f : Hk → Hk) : (d.onHk f).sram = d.sram := rfl
@[simp] theorem Dev.onHk_mem (d : Dev) (f : Hk → Hk) : (d.onHk f).mem = d.mem := rfl
@[simp] theorem Dev.onHk_dma (d : Dev) (f : Hk → Hk) : (d.onHk f).dma = d.dma := rfl
@[simp] theorem Dev.onHk_codec (d : Dev) (f : Hk → Hk) : (d.onHk f).codec = d.codec := rfl
@[simp] theorem Dev.onHk_alarm (d : Dev) (f : Hk → Hk) : (d.onHk f).alarm = d.alarm := rfl
@[simp] theorem Dev.onHk_inbox (d : Dev) (f : Hk → Hk) : (d.onHk f).inbox = d.inbox := rfl
@[simp] theorem Dev.onHk_sahf (d : Dev) (f : Hk → Hk) : (d.onHk f).sahf = d.sahf := rfl
@[simp] theorem Dev.onHk_eth0 (d : Dev) (f : Hk → Hk) : (d.onHk f).eth0 = d.eth0 := rfl
@[simp] theorem Dev.onHk_eth1 (d : Dev) (f : Hk → Hk) : (d.onHk f).eth1 = d.eth1 := rfl
@[simp] theorem Dev.onHk_ptp (d : Dev) (f : Hk → Hk) : (d.onHk f).ptp = d.ptp := rfl
@[simp] theorem Dev.onHk_ser (d : Dev) (f : Hk → Hk) : (d.onHk f).ser = d.ser := rfl
@[simp] theorem Dev.onHk_pwr (d : Dev) (f : Hk → Hk) : (d.onHk f).pwr = d.pwr := rfl
@[simp] theorem Dev.onHk_aonSt (d : Dev) (f : Hk → Hk) : (d.onHk f).aonSt = d.aonSt := rfl
@[simp] theorem Dev.onHk_fm (d : Dev) (f : Hk → Hk) : (d.onHk f).fm = d.fm := rfl
@[simp] theorem Dev.onHk_reel (d : Dev) (f : Hk → Hk) : (d.onHk f).reel = d.reel := rfl
@[simp] theorem Dev.onHk_tap (d : Dev) (f : Hk → Hk) : (d.onHk f).tap = d.tap := rfl
@[simp] theorem Dev.onHk_irq (d : Dev) (f : Hk → Hk) : (d.onHk f).irq = d.irq := rfl
@[simp] theorem Dev.onHk_fuse (d : Dev) (f : Hk → Hk) : (d.onHk f).fuse = d.fuse := rfl
@[simp] theorem Dev.onHk_freeCtr (d : Dev) (f : Hk → Hk) : (d.onHk f).freeCtr = d.freeCtr := rfl
@[simp] theorem Dev.onHk_domainOn (d : Dev) (f : Hk → Hk) (c : Nat) : (d.onHk f).domainOn c = d.domainOn c := rfl
@[simp] theorem Dev.onHk_line (d : Dev) (f : Hk → Hk) (x : Line) : (d.onHk f).line x = d.line x := rfl
@[simp] theorem Dev.onHk_pageOn (d : Dev) (f : Hk → Hk) (p : Nat) : (d.onHk f).pageOn p = d.pageOn p := rfl

-- Dev.setWord

@[simp] theorem Dev.setWord_regs (d : Dev) (a : Nat) (v : Word) : (d.setWord a v).regs = wr d.regs a v := rfl
@[simp] theorem Dev.setWord_clk (d : Dev) (a : Nat) (v : Word) : (d.setWord a v).clk = d.clk := rfl
@[simp] theorem Dev.setWord_aon (d : Dev) (a : Nat) (v : Word) : (d.setWord a v).aon = d.aon := rfl
@[simp] theorem Dev.setWord_bus (d : Dev) (a : Nat) (v : Word) : (d.setWord a v).bus = d.bus := rfl
@[simp] theorem Dev.setWord_jr (d : Dev) (a : Nat) (v : Word) : (d.setWord a v).jr = d.jr := rfl
@[simp] theorem Dev.setWord_tr (d : Dev) (a : Nat) (v : Word) : (d.setWord a v).tr = d.tr := rfl
@[simp] theorem Dev.setWord_lineA (d : Dev) (a : Nat) (v : Word) : (d.setWord a v).lineA = d.lineA := rfl
@[simp] theorem Dev.setWord_lineB (d : Dev) (a : Nat) (v : Word) : (d.setWord a v).lineB = d.lineB := rfl
@[simp] theorem Dev.setWord_pins (d : Dev) (a : Nat) (v : Word) : (d.setWord a v).pins = d.pins := rfl
@[simp] theorem Dev.setWord_pcie (d : Dev) (a : Nat) (v : Word) : (d.setWord a v).pcie = d.pcie := rfl
@[simp] theorem Dev.setWord_hk (d : Dev) (a : Nat) (v : Word) : (d.setWord a v).hk = d.hk := rfl
@[simp] theorem Dev.setWord_pfe (d : Dev) (a : Nat) (v : Word) : (d.setWord a v).pfe = d.pfe := rfl
@[simp] theorem Dev.setWord_tiu0 (d : Dev) (a : Nat) (v : Word) : (d.setWord a v).tiu0 = d.tiu0 := rfl
@[simp] theorem Dev.setWord_tiu1 (d : Dev) (a : Nat) (v : Word) : (d.setWord a v).tiu1 = d.tiu1 := rfl
@[simp] theorem Dev.setWord_pll (d : Dev) (a : Nat) (v : Word) : (d.setWord a v).pll = d.pll := rfl
@[simp] theorem Dev.setWord_sram (d : Dev) (a : Nat) (v : Word) : (d.setWord a v).sram = d.sram := rfl
@[simp] theorem Dev.setWord_mem (d : Dev) (a : Nat) (v : Word) : (d.setWord a v).mem = d.mem := rfl
@[simp] theorem Dev.setWord_dma (d : Dev) (a : Nat) (v : Word) : (d.setWord a v).dma = d.dma := rfl
@[simp] theorem Dev.setWord_codec (d : Dev) (a : Nat) (v : Word) : (d.setWord a v).codec = d.codec := rfl
@[simp] theorem Dev.setWord_alarm (d : Dev) (a : Nat) (v : Word) : (d.setWord a v).alarm = d.alarm := rfl
@[simp] theorem Dev.setWord_inbox (d : Dev) (a : Nat) (v : Word) : (d.setWord a v).inbox = d.inbox := rfl
@[simp] theorem Dev.setWord_sahf (d : Dev) (a : Nat) (v : Word) : (d.setWord a v).sahf = d.sahf := rfl
@[simp] theorem Dev.setWord_eth0 (d : Dev) (a : Nat) (v : Word) : (d.setWord a v).eth0 = d.eth0 := rfl
@[simp] theorem Dev.setWord_eth1 (d : Dev) (a : Nat) (v : Word) : (d.setWord a v).eth1 = d.eth1 := rfl
@[simp] theorem Dev.setWord_ptp (d : Dev) (a : Nat) (v : Word) : (d.setWord a v).ptp = d.ptp := rfl
@[simp] theorem Dev.setWord_ser (d : Dev) (a : Nat) (v : Word) : (d.setWord a v).ser = d.ser := rfl
@[simp] theorem Dev.setWord_pwr (d : Dev) (a : Nat) (v : Word) : (d.setWord a v).pwr = d.pwr := rfl
@[simp] theorem Dev.setWord_aonSt (d : Dev) (a : Nat) (v : Word) : (d.setWord a v).aonSt = d.aonSt := rfl
@[simp] theorem Dev.setWord_fm (d : Dev) (a : Nat) (v : Word) : (d.setWord a v).fm = d.fm := rfl
@[simp] theorem Dev.setWord_reel (d : Dev) (a : Nat) (v : Word) : (d.setWord a v).reel = d.reel := rfl
@[simp] theorem Dev.setWord_tap (d : Dev) (a : Nat) (v : Word) : (d.setWord a v).tap = d.tap := rfl
@[simp] theorem Dev.setWord_irq (d : Dev) (a : Nat) (v : Word) : (d.setWord a v).irq = d.irq := rfl
@[simp] theorem Dev.setWord_fuse (d : Dev) (a : Nat) (v : Word) : (d.setWord a v).fuse = d.fuse := rfl
@[simp] theorem Dev.setWord_freeCtr (d : Dev) (a : Nat) (v : Word) : (d.setWord a v).freeCtr = d.freeCtr := rfl
@[simp] theorem Dev.setWord_domainOn (d : Dev) (a : Nat) (v : Word) (c : Nat) : (d.setWord a v).domainOn c = d.domainOn c := rfl
@[simp] theorem Dev.setWord_line (d : Dev) (a : Nat) (v : Word) (x : Line) : (d.setWord a v).line x = d.line x := rfl
@[simp] theorem Dev.setWord_pageOn (d : Dev) (a : Nat) (v : Word) (p : Nat) : (d.setWord a v).pageOn p = d.pageOn p := rfl

-- Dev.setLiv

@[simp] theorem Dev.setLiv_regs (d : Dev) (p : Nat) (f : Fld) (v : Nat) : (d.setLiv p f v).regs = f.put d.regs (pageBase p) v := rfl
@[simp] theorem Dev.setLiv_clk (d : Dev) (p : Nat) (f : Fld) (v : Nat) : (d.setLiv p f v).clk = d.clk := rfl
@[simp] theorem Dev.setLiv_aon (d : Dev) (p : Nat) (f : Fld) (v : Nat) : (d.setLiv p f v).aon = d.aon := rfl
@[simp] theorem Dev.setLiv_bus (d : Dev) (p : Nat) (f : Fld) (v : Nat) : (d.setLiv p f v).bus = d.bus := rfl
@[simp] theorem Dev.setLiv_jr (d : Dev) (p : Nat) (f : Fld) (v : Nat) : (d.setLiv p f v).jr = d.jr := rfl
@[simp] theorem Dev.setLiv_tr (d : Dev) (p : Nat) (f : Fld) (v : Nat) : (d.setLiv p f v).tr = d.tr := rfl
@[simp] theorem Dev.setLiv_lineA (d : Dev) (p : Nat) (f : Fld) (v : Nat) : (d.setLiv p f v).lineA = d.lineA := rfl
@[simp] theorem Dev.setLiv_lineB (d : Dev) (p : Nat) (f : Fld) (v : Nat) : (d.setLiv p f v).lineB = d.lineB := rfl
@[simp] theorem Dev.setLiv_pins (d : Dev) (p : Nat) (f : Fld) (v : Nat) : (d.setLiv p f v).pins = d.pins := rfl
@[simp] theorem Dev.setLiv_pcie (d : Dev) (p : Nat) (f : Fld) (v : Nat) : (d.setLiv p f v).pcie = d.pcie := rfl
@[simp] theorem Dev.setLiv_hk (d : Dev) (p : Nat) (f : Fld) (v : Nat) : (d.setLiv p f v).hk = d.hk := rfl
@[simp] theorem Dev.setLiv_pfe (d : Dev) (p : Nat) (f : Fld) (v : Nat) : (d.setLiv p f v).pfe = d.pfe := rfl
@[simp] theorem Dev.setLiv_tiu0 (d : Dev) (p : Nat) (f : Fld) (v : Nat) : (d.setLiv p f v).tiu0 = d.tiu0 := rfl
@[simp] theorem Dev.setLiv_tiu1 (d : Dev) (p : Nat) (f : Fld) (v : Nat) : (d.setLiv p f v).tiu1 = d.tiu1 := rfl
@[simp] theorem Dev.setLiv_pll (d : Dev) (p : Nat) (f : Fld) (v : Nat) : (d.setLiv p f v).pll = d.pll := rfl
@[simp] theorem Dev.setLiv_sram (d : Dev) (p : Nat) (f : Fld) (v : Nat) : (d.setLiv p f v).sram = d.sram := rfl
@[simp] theorem Dev.setLiv_mem (d : Dev) (p : Nat) (f : Fld) (v : Nat) : (d.setLiv p f v).mem = d.mem := rfl
@[simp] theorem Dev.setLiv_dma (d : Dev) (p : Nat) (f : Fld) (v : Nat) : (d.setLiv p f v).dma = d.dma := rfl
@[simp] theorem Dev.setLiv_codec (d : Dev) (p : Nat) (f : Fld) (v : Nat) : (d.setLiv p f v).codec = d.codec := rfl
@[simp] theorem Dev.setLiv_alarm (d : Dev) (p : Nat) (f : Fld) (v : Nat) : (d.setLiv p f v).alarm = d.alarm := rfl
@[simp] theorem Dev.setLiv_inbox (d : Dev) (p : Nat) (f : Fld) (v : Nat) : (d.setLiv p f v).inbox = d.inbox := rfl
@[simp] theorem Dev.setLiv_sahf (d : Dev) (p : Nat) (f : Fld) (v : Nat) : (d.setLiv p f v).sahf = d.sahf := rfl
@[simp] theorem Dev.setLiv_eth0 (d : Dev) (p : Nat) (f : Fld) (v : Nat) : (d.setLiv p f v).eth0 = d.eth0 := rfl
@[simp] theorem Dev.setLiv_eth1 (d : Dev) (p : Nat) (f : Fld) (v : Nat) : (d.setLiv p f v).eth1 = d.eth1 := rfl
@[simp] theorem Dev.setLiv_ptp (d : Dev) (p : Nat) (f : Fld) (v : Nat) : (d.setLiv p f v).ptp = d.ptp := rfl
@[simp] theorem Dev.setLiv_ser (d : Dev) (p : Nat) (f : Fld) (v : Nat) : (d.setLiv p f v).ser = d.ser := rfl
@[simp] theorem Dev.setLiv_pwr (d : Dev) (p : Nat) (f : Fld) (v : Nat) : (d.setLiv p f v).pwr = d.pwr := rfl
@[simp] theorem Dev.setLiv_aonSt (d : Dev) (p : Nat) (f : Fld) (v : Nat) : (d.setLiv p f v).aonSt = d.aonSt := rfl
@[simp] theorem Dev.setLiv_fm (d : Dev) (p : Nat) (f : Fld) (v : Nat) : (d.setLiv p f v).fm = d.fm := rfl
@[simp] theorem Dev.setLiv_reel (d : Dev) (p : Nat) (f : Fld) (v : Nat) : (d.setLiv p f v).reel = d.reel := rfl
@[simp] theorem Dev.setLiv_tap (d : Dev) (p : Nat) (f : Fld) (v : Nat) : (d.setLiv p f v).tap = d.tap := rfl
@[simp] theorem Dev.setLiv_irq (d : Dev) (p : Nat) (f : Fld) (v : Nat) : (d.setLiv p f v).irq = d.irq := rfl
@[simp] theorem Dev.setLiv_fuse (d : Dev) (p : Nat) (f : Fld) (v : Nat) : (d.setLiv p f v).fuse = d.fuse := rfl
@[simp] theorem Dev.setLiv_freeCtr (d : Dev) (p : Nat) (f : Fld) (v : Nat) : (d.setLiv p f v).freeCtr = d.freeCtr := rfl
@[simp] theorem Dev.setLiv_domainOn (d : Dev) (p : Nat) (f : Fld) (v : Nat) (c : Nat) : (d.setLiv p f v).domainOn c = d.domainOn c := rfl
@[simp] theorem Dev.setLiv_line (d : Dev) (p : Nat) (f : Fld) (v : Nat) (x : Line) : (d.setLiv p f v).line x = d.line x := rfl
@[simp] theorem Dev.setLiv_pageOn (d : Dev) (q : Nat) (f : Fld) (v : Nat) (p : Nat) : (d.setLiv q f v).pageOn p = d.pageOn p := rfl

-- Dev.setAon

@[simp] theorem Dev.setAon_aon (d : Dev) (f : Fld) (v : Nat) : (d.setAon f v).aon = f.put d.aon (pageBase pgAon) v := rfl
@[simp] theorem Dev.setAon_clk (d : Dev) (f : Fld) (v : Nat) : (d.setAon f v).clk = d.clk := rfl
@[simp] theorem Dev.setAon_regs (d : Dev) (f : Fld) (v : Nat) : (d.setAon f v).regs = d.regs := rfl
@[simp] theorem Dev.setAon_bus (d : Dev) (f : Fld) (v : Nat) : (d.setAon f v).bus = d.bus := rfl
@[simp] theorem Dev.setAon_jr (d : Dev) (f : Fld) (v : Nat) : (d.setAon f v).jr = d.jr := rfl
@[simp] theorem Dev.setAon_tr (d : Dev) (f : Fld) (v : Nat) : (d.setAon f v).tr = d.tr := rfl
@[simp] theorem Dev.setAon_lineA (d : Dev) (f : Fld) (v : Nat) : (d.setAon f v).lineA = d.lineA := rfl
@[simp] theorem Dev.setAon_lineB (d : Dev) (f : Fld) (v : Nat) : (d.setAon f v).lineB = d.lineB := rfl
@[simp] theorem Dev.setAon_pins (d : Dev) (f : Fld) (v : Nat) : (d.setAon f v).pins = d.pins := rfl
@[simp] theorem Dev.setAon_pcie (d : Dev) (f : Fld) (v : Nat) : (d.setAon f v).pcie = d.pcie := rfl
@[simp] theorem Dev.setAon_hk (d : Dev) (f : Fld) (v : Nat) : (d.setAon f v).hk = d.hk := rfl
@[simp] theorem Dev.setAon_pfe (d : Dev) (f : Fld) (v : Nat) : (d.setAon f v).pfe = d.pfe := rfl
@[simp] theorem Dev.setAon_tiu0 (d : Dev) (f : Fld) (v : Nat) : (d.setAon f v).tiu0 = d.tiu0 := rfl
@[simp] theorem Dev.setAon_tiu1 (d : Dev) (f : Fld) (v : Nat) : (d.setAon f v).tiu1 = d.tiu1 := rfl
@[simp] theorem Dev.setAon_pll (d : Dev) (f : Fld) (v : Nat) : (d.setAon f v).pll = d.pll := rfl
@[simp] theorem Dev.setAon_sram (d : Dev) (f : Fld) (v : Nat) : (d.setAon f v).sram = d.sram := rfl
@[simp] theorem Dev.setAon_mem (d : Dev) (f : Fld) (v : Nat) : (d.setAon f v).mem = d.mem := rfl
@[simp] theorem Dev.setAon_dma (d : Dev) (f : Fld) (v : Nat) : (d.setAon f v).dma = d.dma := rfl
@[simp] theorem Dev.setAon_codec (d : Dev) (f : Fld) (v : Nat) : (d.setAon f v).codec = d.codec := rfl
@[simp] theorem Dev.setAon_alarm (d : Dev) (f : Fld) (v : Nat) : (d.setAon f v).alarm = d.alarm := rfl
@[simp] theorem Dev.setAon_inbox (d : Dev) (f : Fld) (v : Nat) : (d.setAon f v).inbox = d.inbox := rfl
@[simp] theorem Dev.setAon_sahf (d : Dev) (f : Fld) (v : Nat) : (d.setAon f v).sahf = d.sahf := rfl
@[simp] theorem Dev.setAon_eth0 (d : Dev) (f : Fld) (v : Nat) : (d.setAon f v).eth0 = d.eth0 := rfl
@[simp] theorem Dev.setAon_eth1 (d : Dev) (f : Fld) (v : Nat) : (d.setAon f v).eth1 = d.eth1 := rfl
@[simp] theorem Dev.setAon_ptp (d : Dev) (f : Fld) (v : Nat) : (d.setAon f v).ptp = d.ptp := rfl
@[simp] theorem Dev.setAon_ser (d : Dev) (f : Fld) (v : Nat) : (d.setAon f v).ser = d.ser := rfl
@[simp] theorem Dev.setAon_pwr (d : Dev) (f : Fld) (v : Nat) : (d.setAon f v).pwr = d.pwr := rfl
@[simp] theorem Dev.setAon_aonSt (d : Dev) (f : Fld) (v : Nat) : (d.setAon f v).aonSt = d.aonSt := rfl
@[simp] theorem Dev.setAon_fm (d : Dev) (f : Fld) (v : Nat) : (d.setAon f v).fm = d.fm := rfl
@[simp] theorem Dev.setAon_reel (d : Dev) (f : Fld) (v : Nat) : (d.setAon f v).reel = d.reel := rfl
@[simp] theorem Dev.setAon_tap (d : Dev) (f : Fld) (v : Nat) : (d.setAon f v).tap = d.tap := rfl
@[simp] theorem Dev.setAon_irq (d : Dev) (f : Fld) (v : Nat) : (d.setAon f v).irq = d.irq := rfl
@[simp] theorem Dev.setAon_fuse (d : Dev) (f : Fld) (v : Nat) : (d.setAon f v).fuse = d.fuse := rfl
@[simp] theorem Dev.setAon_freeCtr (d : Dev) (f : Fld) (v : Nat) : (d.setAon f v).freeCtr = d.freeCtr := rfl
@[simp] theorem Dev.setAon_domainOn (d : Dev) (f : Fld) (v : Nat) (c : Nat) : (d.setAon f v).domainOn c = d.domainOn c := rfl
@[simp] theorem Dev.setAon_line (d : Dev) (f : Fld) (v : Nat) (x : Line) : (d.setAon f v).line x = d.line x := rfl
@[simp] theorem Dev.setAon_pageOn (d : Dev) (f : Fld) (v : Nat) (p : Nat) : (d.setAon f v).pageOn p = d.pageOn p := rfl

-- Dev.tookFree

@[simp] theorem Dev.tookFree_freeCtr (d : Dev) : d.tookFree.freeCtr = d.freeCtr + 1 := rfl
@[simp] theorem Dev.tookFree_clk (d : Dev) : d.tookFree.clk = d.clk := rfl
@[simp] theorem Dev.tookFree_regs (d : Dev) : d.tookFree.regs = d.regs := rfl
@[simp] theorem Dev.tookFree_aon (d : Dev) : d.tookFree.aon = d.aon := rfl
@[simp] theorem Dev.tookFree_bus (d : Dev) : d.tookFree.bus = d.bus := rfl
@[simp] theorem Dev.tookFree_jr (d : Dev) : d.tookFree.jr = d.jr := rfl
@[simp] theorem Dev.tookFree_tr (d : Dev) : d.tookFree.tr = d.tr := rfl
@[simp] theorem Dev.tookFree_lineA (d : Dev) : d.tookFree.lineA = d.lineA := rfl
@[simp] theorem Dev.tookFree_lineB (d : Dev) : d.tookFree.lineB = d.lineB := rfl
@[simp] theorem Dev.tookFree_pins (d : Dev) : d.tookFree.pins = d.pins := rfl
@[simp] theorem Dev.tookFree_pcie (d : Dev) : d.tookFree.pcie = d.pcie := rfl
@[simp] theorem Dev.tookFree_hk (d : Dev) : d.tookFree.hk = d.hk := rfl
@[simp] theorem Dev.tookFree_pfe (d : Dev) : d.tookFree.pfe = d.pfe := rfl
@[simp] theorem Dev.tookFree_tiu0 (d : Dev) : d.tookFree.tiu0 = d.tiu0 := rfl
@[simp] theorem Dev.tookFree_tiu1 (d : Dev) : d.tookFree.tiu1 = d.tiu1 := rfl
@[simp] theorem Dev.tookFree_pll (d : Dev) : d.tookFree.pll = d.pll := rfl
@[simp] theorem Dev.tookFree_sram (d : Dev) : d.tookFree.sram = d.sram := rfl
@[simp] theorem Dev.tookFree_mem (d : Dev) : d.tookFree.mem = d.mem := rfl
@[simp] theorem Dev.tookFree_dma (d : Dev) : d.tookFree.dma = d.dma := rfl
@[simp] theorem Dev.tookFree_codec (d : Dev) : d.tookFree.codec = d.codec := rfl
@[simp] theorem Dev.tookFree_alarm (d : Dev) : d.tookFree.alarm = d.alarm := rfl
@[simp] theorem Dev.tookFree_inbox (d : Dev) : d.tookFree.inbox = d.inbox := rfl
@[simp] theorem Dev.tookFree_sahf (d : Dev) : d.tookFree.sahf = d.sahf := rfl
@[simp] theorem Dev.tookFree_eth0 (d : Dev) : d.tookFree.eth0 = d.eth0 := rfl
@[simp] theorem Dev.tookFree_eth1 (d : Dev) : d.tookFree.eth1 = d.eth1 := rfl
@[simp] theorem Dev.tookFree_ptp (d : Dev) : d.tookFree.ptp = d.ptp := rfl
@[simp] theorem Dev.tookFree_ser (d : Dev) : d.tookFree.ser = d.ser := rfl
@[simp] theorem Dev.tookFree_pwr (d : Dev) : d.tookFree.pwr = d.pwr := rfl
@[simp] theorem Dev.tookFree_aonSt (d : Dev) : d.tookFree.aonSt = d.aonSt := rfl
@[simp] theorem Dev.tookFree_fm (d : Dev) : d.tookFree.fm = d.fm := rfl
@[simp] theorem Dev.tookFree_reel (d : Dev) : d.tookFree.reel = d.reel := rfl
@[simp] theorem Dev.tookFree_tap (d : Dev) : d.tookFree.tap = d.tap := rfl
@[simp] theorem Dev.tookFree_irq (d : Dev) : d.tookFree.irq = d.irq := rfl
@[simp] theorem Dev.tookFree_fuse (d : Dev) : d.tookFree.fuse = d.fuse := rfl
@[simp] theorem Dev.tookFree_domainOn (d : Dev) (c : Nat) : d.tookFree.domainOn c = d.domainOn c := rfl
@[simp] theorem Dev.tookFree_line (d : Dev) (x : Line) : d.tookFree.line x = d.line x := rfl
@[simp] theorem Dev.tookFree_pageOn (d : Dev) (p : Nat) : d.tookFree.pageOn p = d.pageOn p := rfl

-- the status bits and register pairs
@[simp] theorem Dev.setStatus_domainOn (d : Dev) (p n : Nat) (b : Bool) (c : Nat) :
    (d.setStatus p n b).domainOn c = d.domainOn c := rfl
@[simp] theorem Dev.setStatus_pageOn (d : Dev) (p n : Nat) (b : Bool) (q : Nat) :
    (d.setStatus p n b).pageOn q = d.pageOn q := rfl
@[simp] theorem Dev.setStatus_line (d : Dev) (p n : Nat) (b : Bool) (x : Line) :
    (d.setStatus p n b).line x = d.line x := rfl
@[simp] theorem Dev.setPair_domainOn (d : Dev) (p lo hi v c : Nat) :
    (d.setPair p lo hi v).domainOn c = d.domainOn c := rfl
@[simp] theorem Dev.setPair_pageOn (d : Dev) (p lo hi v q : Nat) : (d.setPair p lo hi v).pageOn q = d.pageOn q := rfl
@[simp] theorem Dev.setPair_line (d : Dev) (p lo hi v : Nat) (x : Line) :
    (d.setPair p lo hi v).line x = d.line x := rfl

-- Dev.onLine

@[simp] theorem Dev.onLine_domainOn (d : Dev) (x : Line) (f : LineSt → LineSt) (c : Nat) :
    (d.onLine x f).domainOn c = d.domainOn c := by cases x <;> rfl
@[simp] theorem Dev.onLine_pageOn (d : Dev) (x : Line) (f : LineSt → LineSt) (p : Nat) :
    (d.onLine x f).pageOn p = d.pageOn p := by cases x <;> rfl
@[simp] theorem Dev.onLine_line (d : Dev) (x : Line) (f : LineSt → LineSt) : (d.onLine x f).line x = f (d.line x) := by
  cases x <;> rfl
@[simp] theorem Dev.onLine_other (d : Dev) (x : Line) (f : LineSt → LineSt) : (d.onLine x f).line x.other = d.line x.other := by
  cases x <;> rfl
@[simp] theorem Dev.onLine_clk (d : Dev) (x : Line) (f : LineSt → LineSt) : (d.onLine x f).clk = d.clk := by cases x <;> rfl
@[simp] theorem Dev.onLine_regs (d : Dev) (x : Line) (f : LineSt → LineSt) : (d.onLine x f).regs = d.regs := by cases x <;> rfl
@[simp] theorem Dev.onLine_aon (d : Dev) (x : Line) (f : LineSt → LineSt) : (d.onLine x f).aon = d.aon := by cases x <;> rfl
@[simp] theorem Dev.onLine_bus (d : Dev) (x : Line) (f : LineSt → LineSt) : (d.onLine x f).bus = d.bus := by cases x <;> rfl
@[simp] theorem Dev.onLine_jr (d : Dev) (x : Line) (f : LineSt → LineSt) : (d.onLine x f).jr = d.jr := by cases x <;> rfl
@[simp] theorem Dev.onLine_tr (d : Dev) (x : Line) (f : LineSt → LineSt) : (d.onLine x f).tr = d.tr := by cases x <;> rfl
@[simp] theorem Dev.onLine_pins (d : Dev) (x : Line) (f : LineSt → LineSt) : (d.onLine x f).pins = d.pins := by cases x <;> rfl
@[simp] theorem Dev.onLine_pcie (d : Dev) (x : Line) (f : LineSt → LineSt) : (d.onLine x f).pcie = d.pcie := by cases x <;> rfl
@[simp] theorem Dev.onLine_hk (d : Dev) (x : Line) (f : LineSt → LineSt) : (d.onLine x f).hk = d.hk := by cases x <;> rfl
@[simp] theorem Dev.onLine_pfe (d : Dev) (x : Line) (f : LineSt → LineSt) : (d.onLine x f).pfe = d.pfe := by cases x <;> rfl
@[simp] theorem Dev.onLine_tiu0 (d : Dev) (x : Line) (f : LineSt → LineSt) : (d.onLine x f).tiu0 = d.tiu0 := by cases x <;> rfl
@[simp] theorem Dev.onLine_tiu1 (d : Dev) (x : Line) (f : LineSt → LineSt) : (d.onLine x f).tiu1 = d.tiu1 := by cases x <;> rfl
@[simp] theorem Dev.onLine_pll (d : Dev) (x : Line) (f : LineSt → LineSt) : (d.onLine x f).pll = d.pll := by cases x <;> rfl
@[simp] theorem Dev.onLine_sram (d : Dev) (x : Line) (f : LineSt → LineSt) : (d.onLine x f).sram = d.sram := by cases x <;> rfl
@[simp] theorem Dev.onLine_mem (d : Dev) (x : Line) (f : LineSt → LineSt) : (d.onLine x f).mem = d.mem := by cases x <;> rfl
@[simp] theorem Dev.onLine_dma (d : Dev) (x : Line) (f : LineSt → LineSt) : (d.onLine x f).dma = d.dma := by cases x <;> rfl
@[simp] theorem Dev.onLine_codec (d : Dev) (x : Line) (f : LineSt → LineSt) : (d.onLine x f).codec = d.codec := by cases x <;> rfl
@[simp] theorem Dev.onLine_alarm (d : Dev) (x : Line) (f : LineSt → LineSt) : (d.onLine x f).alarm = d.alarm := by cases x <;> rfl
@[simp] theorem Dev.onLine_inbox (d : Dev) (x : Line) (f : LineSt → LineSt) : (d.onLine x f).inbox = d.inbox := by cases x <;> rfl
@[simp] theorem Dev.onLine_sahf (d : Dev) (x : Line) (f : LineSt → LineSt) : (d.onLine x f).sahf = d.sahf := by cases x <;> rfl
@[simp] theorem Dev.onLine_eth0 (d : Dev) (x : Line) (f : LineSt → LineSt) : (d.onLine x f).eth0 = d.eth0 := by cases x <;> rfl
@[simp] theorem Dev.onLine_eth1 (d : Dev) (x : Line) (f : LineSt → LineSt) : (d.onLine x f).eth1 = d.eth1 := by cases x <;> rfl
@[simp] theorem Dev.onLine_ptp (d : Dev) (x : Line) (f : LineSt → LineSt) : (d.onLine x f).ptp = d.ptp := by cases x <;> rfl
@[simp] theorem Dev.onLine_ser (d : Dev) (x : Line) (f : LineSt → LineSt) : (d.onLine x f).ser = d.ser := by cases x <;> rfl
@[simp] theorem Dev.onLine_pwr (d : Dev) (x : Line) (f : LineSt → LineSt) : (d.onLine x f).pwr = d.pwr := by cases x <;> rfl
@[simp] theorem Dev.onLine_aonSt (d : Dev) (x : Line) (f : LineSt → LineSt) : (d.onLine x f).aonSt = d.aonSt := by cases x <;> rfl
@[simp] theorem Dev.onLine_fm (d : Dev) (x : Line) (f : LineSt → LineSt) : (d.onLine x f).fm = d.fm := by cases x <;> rfl
@[simp] theorem Dev.onLine_reel (d : Dev) (x : Line) (f : LineSt → LineSt) : (d.onLine x f).reel = d.reel := by cases x <;> rfl
@[simp] theorem Dev.onLine_tap (d : Dev) (x : Line) (f : LineSt → LineSt) : (d.onLine x f).tap = d.tap := by cases x <;> rfl
@[simp] theorem Dev.onLine_irq (d : Dev) (x : Line) (f : LineSt → LineSt) : (d.onLine x f).irq = d.irq := by cases x <;> rfl
@[simp] theorem Dev.onLine_fuse (d : Dev) (x : Line) (f : LineSt → LineSt) : (d.onLine x f).fuse = d.fuse := by cases x <;> rfl
@[simp] theorem Dev.onLine_freeCtr (d : Dev) (x : Line) (f : LineSt → LineSt) : (d.onLine x f).freeCtr = d.freeCtr := by cases x <;> rfl

-- the clocks

/-- n core cycles change the clocks and the AON copy in the register space only. -/
theorem Dev.advance_form (d : Dev) (n : Nat) : ∃ c m, d.advance n = { d with clk := c, regs := m } := by
  by_cases h : slowOf d.clk.cyc =
      slowOf (if d.clk.coreOn then
        { d.clk with cyc := d.clk.cyc + n, tick := d.clk.tick + n,
                     time := d.clk.time + n * (8 * (65536000000 + d.clk.freq)).toNat }
        else { d.clk with cyc := d.clk.cyc + n } : Clock).cyc
  · exact ⟨_, d.regs, by unfold Dev.advance; exact if_pos h⟩
  · exact ⟨_, _, by unfold Dev.advance; exact if_neg h⟩

/-- So does moving on to a core tick. -/
theorem Dev.advanceTo_form (d : Dev) (t : Nat) : ∃ c m, d.advanceTo t = { d with clk := c, regs := m } := by
  by_cases h : d.clk.tick < t
  · unfold Dev.advanceTo; rw [if_pos h]; exact d.advance_form _
  · unfold Dev.advanceTo; rw [if_neg h]; exact ⟨d.clk, d.regs, rfl⟩

/-- So does moving on to a slow edge. -/
theorem Dev.advanceSlow_form (d : Dev) (n : Nat) : ∃ c m, d.advanceSlow n = { d with clk := c, regs := m } := by
  by_cases h : d.clk.cyc < slowStart n
  · unfold Dev.advanceSlow; rw [if_pos h]; exact d.advance_form _
  · unfold Dev.advanceSlow; rw [if_neg h]; exact ⟨d.clk, d.regs, rfl⟩

@[simp] theorem Dev.advance_aon (d : Dev) (n : Nat) : (d.advance n).aon = d.aon := by
  obtain ⟨c, m, h⟩ := d.advance_form n; rw [h]
@[simp] theorem Dev.advance_bus (d : Dev) (n : Nat) : (d.advance n).bus = d.bus := by
  obtain ⟨c, m, h⟩ := d.advance_form n; rw [h]
@[simp] theorem Dev.advance_jr (d : Dev) (n : Nat) : (d.advance n).jr = d.jr := by
  obtain ⟨c, m, h⟩ := d.advance_form n; rw [h]
@[simp] theorem Dev.advance_tr (d : Dev) (n : Nat) : (d.advance n).tr = d.tr := by
  obtain ⟨c, m, h⟩ := d.advance_form n; rw [h]
@[simp] theorem Dev.advance_lineA (d : Dev) (n : Nat) : (d.advance n).lineA = d.lineA := by
  obtain ⟨c, m, h⟩ := d.advance_form n; rw [h]
@[simp] theorem Dev.advance_lineB (d : Dev) (n : Nat) : (d.advance n).lineB = d.lineB := by
  obtain ⟨c, m, h⟩ := d.advance_form n; rw [h]
@[simp] theorem Dev.advance_pins (d : Dev) (n : Nat) : (d.advance n).pins = d.pins := by
  obtain ⟨c, m, h⟩ := d.advance_form n; rw [h]
@[simp] theorem Dev.advance_pcie (d : Dev) (n : Nat) : (d.advance n).pcie = d.pcie := by
  obtain ⟨c, m, h⟩ := d.advance_form n; rw [h]
@[simp] theorem Dev.advance_hk (d : Dev) (n : Nat) : (d.advance n).hk = d.hk := by
  obtain ⟨c, m, h⟩ := d.advance_form n; rw [h]
@[simp] theorem Dev.advance_pfe (d : Dev) (n : Nat) : (d.advance n).pfe = d.pfe := by
  obtain ⟨c, m, h⟩ := d.advance_form n; rw [h]
@[simp] theorem Dev.advance_tiu0 (d : Dev) (n : Nat) : (d.advance n).tiu0 = d.tiu0 := by
  obtain ⟨c, m, h⟩ := d.advance_form n; rw [h]
@[simp] theorem Dev.advance_tiu1 (d : Dev) (n : Nat) : (d.advance n).tiu1 = d.tiu1 := by
  obtain ⟨c, m, h⟩ := d.advance_form n; rw [h]
@[simp] theorem Dev.advance_pll (d : Dev) (n : Nat) : (d.advance n).pll = d.pll := by
  obtain ⟨c, m, h⟩ := d.advance_form n; rw [h]
@[simp] theorem Dev.advance_sram (d : Dev) (n : Nat) : (d.advance n).sram = d.sram := by
  obtain ⟨c, m, h⟩ := d.advance_form n; rw [h]
@[simp] theorem Dev.advance_mem (d : Dev) (n : Nat) : (d.advance n).mem = d.mem := by
  obtain ⟨c, m, h⟩ := d.advance_form n; rw [h]
@[simp] theorem Dev.advance_dma (d : Dev) (n : Nat) : (d.advance n).dma = d.dma := by
  obtain ⟨c, m, h⟩ := d.advance_form n; rw [h]
@[simp] theorem Dev.advance_codec (d : Dev) (n : Nat) : (d.advance n).codec = d.codec := by
  obtain ⟨c, m, h⟩ := d.advance_form n; rw [h]
@[simp] theorem Dev.advance_alarm (d : Dev) (n : Nat) : (d.advance n).alarm = d.alarm := by
  obtain ⟨c, m, h⟩ := d.advance_form n; rw [h]
@[simp] theorem Dev.advance_inbox (d : Dev) (n : Nat) : (d.advance n).inbox = d.inbox := by
  obtain ⟨c, m, h⟩ := d.advance_form n; rw [h]
@[simp] theorem Dev.advance_sahf (d : Dev) (n : Nat) : (d.advance n).sahf = d.sahf := by
  obtain ⟨c, m, h⟩ := d.advance_form n; rw [h]
@[simp] theorem Dev.advance_eth0 (d : Dev) (n : Nat) : (d.advance n).eth0 = d.eth0 := by
  obtain ⟨c, m, h⟩ := d.advance_form n; rw [h]
@[simp] theorem Dev.advance_eth1 (d : Dev) (n : Nat) : (d.advance n).eth1 = d.eth1 := by
  obtain ⟨c, m, h⟩ := d.advance_form n; rw [h]
@[simp] theorem Dev.advance_ptp (d : Dev) (n : Nat) : (d.advance n).ptp = d.ptp := by
  obtain ⟨c, m, h⟩ := d.advance_form n; rw [h]
@[simp] theorem Dev.advance_ser (d : Dev) (n : Nat) : (d.advance n).ser = d.ser := by
  obtain ⟨c, m, h⟩ := d.advance_form n; rw [h]
@[simp] theorem Dev.advance_pwr (d : Dev) (n : Nat) : (d.advance n).pwr = d.pwr := by
  obtain ⟨c, m, h⟩ := d.advance_form n; rw [h]
@[simp] theorem Dev.advance_aonSt (d : Dev) (n : Nat) : (d.advance n).aonSt = d.aonSt := by
  obtain ⟨c, m, h⟩ := d.advance_form n; rw [h]
@[simp] theorem Dev.advance_fm (d : Dev) (n : Nat) : (d.advance n).fm = d.fm := by
  obtain ⟨c, m, h⟩ := d.advance_form n; rw [h]
@[simp] theorem Dev.advance_reel (d : Dev) (n : Nat) : (d.advance n).reel = d.reel := by
  obtain ⟨c, m, h⟩ := d.advance_form n; rw [h]
@[simp] theorem Dev.advance_tap (d : Dev) (n : Nat) : (d.advance n).tap = d.tap := by
  obtain ⟨c, m, h⟩ := d.advance_form n; rw [h]
@[simp] theorem Dev.advance_irq (d : Dev) (n : Nat) : (d.advance n).irq = d.irq := by
  obtain ⟨c, m, h⟩ := d.advance_form n; rw [h]
@[simp] theorem Dev.advance_fuse (d : Dev) (n : Nat) : (d.advance n).fuse = d.fuse := by
  obtain ⟨c, m, h⟩ := d.advance_form n; rw [h]
@[simp] theorem Dev.advance_freeCtr (d : Dev) (n : Nat) : (d.advance n).freeCtr = d.freeCtr := by
  obtain ⟨c, m, h⟩ := d.advance_form n; rw [h]
@[simp] theorem Dev.advance_domainOn (d : Dev) (n c : Nat) : (d.advance n).domainOn c = d.domainOn c := by
  obtain ⟨_, m, h⟩ := d.advance_form n; rw [h]; rfl
@[simp] theorem Dev.advance_pageOn (d : Dev) (n p : Nat) : (d.advance n).pageOn p = d.pageOn p := by
  obtain ⟨c, m, h⟩ := d.advance_form n; rw [h]; rfl
@[simp] theorem Dev.advance_line (d : Dev) (n : Nat) (x : Line) : (d.advance n).line x = d.line x := by
  obtain ⟨c, m, h⟩ := d.advance_form n; rw [h]; rfl
@[simp] theorem Dev.advanceTo_aon (d : Dev) (n : Nat) : (d.advanceTo n).aon = d.aon := by
  obtain ⟨c, m, h⟩ := d.advanceTo_form n; rw [h]
@[simp] theorem Dev.advanceTo_bus (d : Dev) (n : Nat) : (d.advanceTo n).bus = d.bus := by
  obtain ⟨c, m, h⟩ := d.advanceTo_form n; rw [h]
@[simp] theorem Dev.advanceTo_jr (d : Dev) (n : Nat) : (d.advanceTo n).jr = d.jr := by
  obtain ⟨c, m, h⟩ := d.advanceTo_form n; rw [h]
@[simp] theorem Dev.advanceTo_tr (d : Dev) (n : Nat) : (d.advanceTo n).tr = d.tr := by
  obtain ⟨c, m, h⟩ := d.advanceTo_form n; rw [h]
@[simp] theorem Dev.advanceTo_lineA (d : Dev) (n : Nat) : (d.advanceTo n).lineA = d.lineA := by
  obtain ⟨c, m, h⟩ := d.advanceTo_form n; rw [h]
@[simp] theorem Dev.advanceTo_lineB (d : Dev) (n : Nat) : (d.advanceTo n).lineB = d.lineB := by
  obtain ⟨c, m, h⟩ := d.advanceTo_form n; rw [h]
@[simp] theorem Dev.advanceTo_pins (d : Dev) (n : Nat) : (d.advanceTo n).pins = d.pins := by
  obtain ⟨c, m, h⟩ := d.advanceTo_form n; rw [h]
@[simp] theorem Dev.advanceTo_pcie (d : Dev) (n : Nat) : (d.advanceTo n).pcie = d.pcie := by
  obtain ⟨c, m, h⟩ := d.advanceTo_form n; rw [h]
@[simp] theorem Dev.advanceTo_hk (d : Dev) (n : Nat) : (d.advanceTo n).hk = d.hk := by
  obtain ⟨c, m, h⟩ := d.advanceTo_form n; rw [h]
@[simp] theorem Dev.advanceTo_pfe (d : Dev) (n : Nat) : (d.advanceTo n).pfe = d.pfe := by
  obtain ⟨c, m, h⟩ := d.advanceTo_form n; rw [h]
@[simp] theorem Dev.advanceTo_tiu0 (d : Dev) (n : Nat) : (d.advanceTo n).tiu0 = d.tiu0 := by
  obtain ⟨c, m, h⟩ := d.advanceTo_form n; rw [h]
@[simp] theorem Dev.advanceTo_tiu1 (d : Dev) (n : Nat) : (d.advanceTo n).tiu1 = d.tiu1 := by
  obtain ⟨c, m, h⟩ := d.advanceTo_form n; rw [h]
@[simp] theorem Dev.advanceTo_pll (d : Dev) (n : Nat) : (d.advanceTo n).pll = d.pll := by
  obtain ⟨c, m, h⟩ := d.advanceTo_form n; rw [h]
@[simp] theorem Dev.advanceTo_sram (d : Dev) (n : Nat) : (d.advanceTo n).sram = d.sram := by
  obtain ⟨c, m, h⟩ := d.advanceTo_form n; rw [h]
@[simp] theorem Dev.advanceTo_mem (d : Dev) (n : Nat) : (d.advanceTo n).mem = d.mem := by
  obtain ⟨c, m, h⟩ := d.advanceTo_form n; rw [h]
@[simp] theorem Dev.advanceTo_dma (d : Dev) (n : Nat) : (d.advanceTo n).dma = d.dma := by
  obtain ⟨c, m, h⟩ := d.advanceTo_form n; rw [h]
@[simp] theorem Dev.advanceTo_codec (d : Dev) (n : Nat) : (d.advanceTo n).codec = d.codec := by
  obtain ⟨c, m, h⟩ := d.advanceTo_form n; rw [h]
@[simp] theorem Dev.advanceTo_alarm (d : Dev) (n : Nat) : (d.advanceTo n).alarm = d.alarm := by
  obtain ⟨c, m, h⟩ := d.advanceTo_form n; rw [h]
@[simp] theorem Dev.advanceTo_inbox (d : Dev) (n : Nat) : (d.advanceTo n).inbox = d.inbox := by
  obtain ⟨c, m, h⟩ := d.advanceTo_form n; rw [h]
@[simp] theorem Dev.advanceTo_sahf (d : Dev) (n : Nat) : (d.advanceTo n).sahf = d.sahf := by
  obtain ⟨c, m, h⟩ := d.advanceTo_form n; rw [h]
@[simp] theorem Dev.advanceTo_eth0 (d : Dev) (n : Nat) : (d.advanceTo n).eth0 = d.eth0 := by
  obtain ⟨c, m, h⟩ := d.advanceTo_form n; rw [h]
@[simp] theorem Dev.advanceTo_eth1 (d : Dev) (n : Nat) : (d.advanceTo n).eth1 = d.eth1 := by
  obtain ⟨c, m, h⟩ := d.advanceTo_form n; rw [h]
@[simp] theorem Dev.advanceTo_ptp (d : Dev) (n : Nat) : (d.advanceTo n).ptp = d.ptp := by
  obtain ⟨c, m, h⟩ := d.advanceTo_form n; rw [h]
@[simp] theorem Dev.advanceTo_ser (d : Dev) (n : Nat) : (d.advanceTo n).ser = d.ser := by
  obtain ⟨c, m, h⟩ := d.advanceTo_form n; rw [h]
@[simp] theorem Dev.advanceTo_pwr (d : Dev) (n : Nat) : (d.advanceTo n).pwr = d.pwr := by
  obtain ⟨c, m, h⟩ := d.advanceTo_form n; rw [h]
@[simp] theorem Dev.advanceTo_aonSt (d : Dev) (n : Nat) : (d.advanceTo n).aonSt = d.aonSt := by
  obtain ⟨c, m, h⟩ := d.advanceTo_form n; rw [h]
@[simp] theorem Dev.advanceTo_fm (d : Dev) (n : Nat) : (d.advanceTo n).fm = d.fm := by
  obtain ⟨c, m, h⟩ := d.advanceTo_form n; rw [h]
@[simp] theorem Dev.advanceTo_reel (d : Dev) (n : Nat) : (d.advanceTo n).reel = d.reel := by
  obtain ⟨c, m, h⟩ := d.advanceTo_form n; rw [h]
@[simp] theorem Dev.advanceTo_tap (d : Dev) (n : Nat) : (d.advanceTo n).tap = d.tap := by
  obtain ⟨c, m, h⟩ := d.advanceTo_form n; rw [h]
@[simp] theorem Dev.advanceTo_irq (d : Dev) (n : Nat) : (d.advanceTo n).irq = d.irq := by
  obtain ⟨c, m, h⟩ := d.advanceTo_form n; rw [h]
@[simp] theorem Dev.advanceTo_fuse (d : Dev) (n : Nat) : (d.advanceTo n).fuse = d.fuse := by
  obtain ⟨c, m, h⟩ := d.advanceTo_form n; rw [h]
@[simp] theorem Dev.advanceTo_freeCtr (d : Dev) (n : Nat) : (d.advanceTo n).freeCtr = d.freeCtr := by
  obtain ⟨c, m, h⟩ := d.advanceTo_form n; rw [h]
@[simp] theorem Dev.advanceTo_domainOn (d : Dev) (n c : Nat) : (d.advanceTo n).domainOn c = d.domainOn c := by
  obtain ⟨_, m, h⟩ := d.advanceTo_form n; rw [h]; rfl
@[simp] theorem Dev.advanceTo_pageOn (d : Dev) (n p : Nat) : (d.advanceTo n).pageOn p = d.pageOn p := by
  obtain ⟨c, m, h⟩ := d.advanceTo_form n; rw [h]; rfl
@[simp] theorem Dev.advanceTo_line (d : Dev) (n : Nat) (x : Line) : (d.advanceTo n).line x = d.line x := by
  obtain ⟨c, m, h⟩ := d.advanceTo_form n; rw [h]; rfl
@[simp] theorem Dev.advanceSlow_aon (d : Dev) (n : Nat) : (d.advanceSlow n).aon = d.aon := by
  obtain ⟨c, m, h⟩ := d.advanceSlow_form n; rw [h]
@[simp] theorem Dev.advanceSlow_bus (d : Dev) (n : Nat) : (d.advanceSlow n).bus = d.bus := by
  obtain ⟨c, m, h⟩ := d.advanceSlow_form n; rw [h]
@[simp] theorem Dev.advanceSlow_jr (d : Dev) (n : Nat) : (d.advanceSlow n).jr = d.jr := by
  obtain ⟨c, m, h⟩ := d.advanceSlow_form n; rw [h]
@[simp] theorem Dev.advanceSlow_tr (d : Dev) (n : Nat) : (d.advanceSlow n).tr = d.tr := by
  obtain ⟨c, m, h⟩ := d.advanceSlow_form n; rw [h]
@[simp] theorem Dev.advanceSlow_lineA (d : Dev) (n : Nat) : (d.advanceSlow n).lineA = d.lineA := by
  obtain ⟨c, m, h⟩ := d.advanceSlow_form n; rw [h]
@[simp] theorem Dev.advanceSlow_lineB (d : Dev) (n : Nat) : (d.advanceSlow n).lineB = d.lineB := by
  obtain ⟨c, m, h⟩ := d.advanceSlow_form n; rw [h]
@[simp] theorem Dev.advanceSlow_pins (d : Dev) (n : Nat) : (d.advanceSlow n).pins = d.pins := by
  obtain ⟨c, m, h⟩ := d.advanceSlow_form n; rw [h]
@[simp] theorem Dev.advanceSlow_pcie (d : Dev) (n : Nat) : (d.advanceSlow n).pcie = d.pcie := by
  obtain ⟨c, m, h⟩ := d.advanceSlow_form n; rw [h]
@[simp] theorem Dev.advanceSlow_hk (d : Dev) (n : Nat) : (d.advanceSlow n).hk = d.hk := by
  obtain ⟨c, m, h⟩ := d.advanceSlow_form n; rw [h]
@[simp] theorem Dev.advanceSlow_pfe (d : Dev) (n : Nat) : (d.advanceSlow n).pfe = d.pfe := by
  obtain ⟨c, m, h⟩ := d.advanceSlow_form n; rw [h]
@[simp] theorem Dev.advanceSlow_tiu0 (d : Dev) (n : Nat) : (d.advanceSlow n).tiu0 = d.tiu0 := by
  obtain ⟨c, m, h⟩ := d.advanceSlow_form n; rw [h]
@[simp] theorem Dev.advanceSlow_tiu1 (d : Dev) (n : Nat) : (d.advanceSlow n).tiu1 = d.tiu1 := by
  obtain ⟨c, m, h⟩ := d.advanceSlow_form n; rw [h]
@[simp] theorem Dev.advanceSlow_pll (d : Dev) (n : Nat) : (d.advanceSlow n).pll = d.pll := by
  obtain ⟨c, m, h⟩ := d.advanceSlow_form n; rw [h]
@[simp] theorem Dev.advanceSlow_sram (d : Dev) (n : Nat) : (d.advanceSlow n).sram = d.sram := by
  obtain ⟨c, m, h⟩ := d.advanceSlow_form n; rw [h]
@[simp] theorem Dev.advanceSlow_mem (d : Dev) (n : Nat) : (d.advanceSlow n).mem = d.mem := by
  obtain ⟨c, m, h⟩ := d.advanceSlow_form n; rw [h]
@[simp] theorem Dev.advanceSlow_dma (d : Dev) (n : Nat) : (d.advanceSlow n).dma = d.dma := by
  obtain ⟨c, m, h⟩ := d.advanceSlow_form n; rw [h]
@[simp] theorem Dev.advanceSlow_codec (d : Dev) (n : Nat) : (d.advanceSlow n).codec = d.codec := by
  obtain ⟨c, m, h⟩ := d.advanceSlow_form n; rw [h]
@[simp] theorem Dev.advanceSlow_alarm (d : Dev) (n : Nat) : (d.advanceSlow n).alarm = d.alarm := by
  obtain ⟨c, m, h⟩ := d.advanceSlow_form n; rw [h]
@[simp] theorem Dev.advanceSlow_inbox (d : Dev) (n : Nat) : (d.advanceSlow n).inbox = d.inbox := by
  obtain ⟨c, m, h⟩ := d.advanceSlow_form n; rw [h]
@[simp] theorem Dev.advanceSlow_sahf (d : Dev) (n : Nat) : (d.advanceSlow n).sahf = d.sahf := by
  obtain ⟨c, m, h⟩ := d.advanceSlow_form n; rw [h]
@[simp] theorem Dev.advanceSlow_eth0 (d : Dev) (n : Nat) : (d.advanceSlow n).eth0 = d.eth0 := by
  obtain ⟨c, m, h⟩ := d.advanceSlow_form n; rw [h]
@[simp] theorem Dev.advanceSlow_eth1 (d : Dev) (n : Nat) : (d.advanceSlow n).eth1 = d.eth1 := by
  obtain ⟨c, m, h⟩ := d.advanceSlow_form n; rw [h]
@[simp] theorem Dev.advanceSlow_ptp (d : Dev) (n : Nat) : (d.advanceSlow n).ptp = d.ptp := by
  obtain ⟨c, m, h⟩ := d.advanceSlow_form n; rw [h]
@[simp] theorem Dev.advanceSlow_ser (d : Dev) (n : Nat) : (d.advanceSlow n).ser = d.ser := by
  obtain ⟨c, m, h⟩ := d.advanceSlow_form n; rw [h]
@[simp] theorem Dev.advanceSlow_pwr (d : Dev) (n : Nat) : (d.advanceSlow n).pwr = d.pwr := by
  obtain ⟨c, m, h⟩ := d.advanceSlow_form n; rw [h]
@[simp] theorem Dev.advanceSlow_aonSt (d : Dev) (n : Nat) : (d.advanceSlow n).aonSt = d.aonSt := by
  obtain ⟨c, m, h⟩ := d.advanceSlow_form n; rw [h]
@[simp] theorem Dev.advanceSlow_fm (d : Dev) (n : Nat) : (d.advanceSlow n).fm = d.fm := by
  obtain ⟨c, m, h⟩ := d.advanceSlow_form n; rw [h]
@[simp] theorem Dev.advanceSlow_reel (d : Dev) (n : Nat) : (d.advanceSlow n).reel = d.reel := by
  obtain ⟨c, m, h⟩ := d.advanceSlow_form n; rw [h]
@[simp] theorem Dev.advanceSlow_tap (d : Dev) (n : Nat) : (d.advanceSlow n).tap = d.tap := by
  obtain ⟨c, m, h⟩ := d.advanceSlow_form n; rw [h]
@[simp] theorem Dev.advanceSlow_irq (d : Dev) (n : Nat) : (d.advanceSlow n).irq = d.irq := by
  obtain ⟨c, m, h⟩ := d.advanceSlow_form n; rw [h]
@[simp] theorem Dev.advanceSlow_fuse (d : Dev) (n : Nat) : (d.advanceSlow n).fuse = d.fuse := by
  obtain ⟨c, m, h⟩ := d.advanceSlow_form n; rw [h]
@[simp] theorem Dev.advanceSlow_freeCtr (d : Dev) (n : Nat) : (d.advanceSlow n).freeCtr = d.freeCtr := by
  obtain ⟨c, m, h⟩ := d.advanceSlow_form n; rw [h]
@[simp] theorem Dev.advanceSlow_domainOn (d : Dev) (n c : Nat) : (d.advanceSlow n).domainOn c = d.domainOn c := by
  obtain ⟨_, m, h⟩ := d.advanceSlow_form n; rw [h]; rfl
@[simp] theorem Dev.advanceSlow_pageOn (d : Dev) (n p : Nat) : (d.advanceSlow n).pageOn p = d.pageOn p := by
  obtain ⟨c, m, h⟩ := d.advanceSlow_form n; rw [h]; rfl
@[simp] theorem Dev.advanceSlow_line (d : Dev) (n : Nat) (x : Line) : (d.advanceSlow n).line x = d.line x := by
  obtain ⟨c, m, h⟩ := d.advanceSlow_form n; rw [h]; rfl

end Sys2Proof.Machine
end

