-- ==== Sys2Proof/Laws/Bus.lean ====
section
/-!
SUPPORT. What an access of the register bus does, by the place it names (R12, R19, R42): an access that fails only
leaves its record; a read gives the word of its place; a write does what its place does.
-/
namespace Sys2Proof.Machine

-- ---- a failing access ---------------------------------------------------------------------------------------

/-- A failing read leaves its record and gives no word. -/
theorem busRead_bar {d : Dev} {k : Link} {a w : Nat} {e : BusErr} (h : busBar d a w = some e) :
    busRead k a w d = (d.busError a e (linkCode k), some e, 0) := by
  simp only [busRead, busGet, h]

/-- A failing write leaves its record. -/
theorem busWrite_bar {sys : Link → Nat → Word → Dev → Dev} {d : Dev} {k : Link} {a w : Nat} {v : Word} {e : BusErr}
    (h : busBar d a w = some e) : busWrite sys k a w v d = (d.busError a e (linkCode k), some e) := by
  simp only [busWrite, busPut, h]

-- ---- an access that its place takes -----------------------------------------------------------------------------

/-- A read that nothing bars gives the word of its place. -/
theorem busRead_ok {d : Dev} {k : Link} {a w : Nat} {pl : Place} (h : busBar d a w = none) (hp : placeOf a = some pl) :
    busRead k a w d = ((readPlace d a pl).1, none, (readPlace d a pl).2) := by
  simp only [busRead, busGet, h, hp]

/-- A write that nothing bars, that no AON register takes and that carries no failing APPLY_SET does what its place
does. -/
theorem busWrite_ok {sys : Link → Nat → Word → Dev → Dev} {d : Dev} {k : Link} {a w : Nat} {v : Word} {pl : Place}
    (h : busBar d a w = none) (hp : placeOf a = some pl) (ha : a / 0x1000 ≠ pgAon) (hs : setBar a v d = none) :
    busWrite sys k a w v d = (writePlace sys k a pl v d, none) := by
  simp only [busWrite, busPut, h, hp, ha, hs, if_false]

/-- A write that carries a failing APPLY_SET leaves the record of its bus error and nothing else (R28). -/
theorem busWrite_set {sys : Link → Nat → Word → Dev → Dev} {d : Dev} {k : Link} {a w : Nat} {v : Word} {pl : Place}
    {e : BusErr} (h : busBar d a w = none) (hp : placeOf a = some pl) (ha : a / 0x1000 ≠ pgAon)
    (hs : setBar a v d = some e) : busWrite sys k a w v d = (d.busError a e (linkCode k), some e) := by
  simp only [busWrite, busPut, h, hp, ha, hs, if_false]

/-- A write of an AON register that nothing bars enters the queue. -/
theorem busWrite_aon {sys : Link → Nat → Word → Dev → Dev} {d : Dev} {k : Link} {a w : Nat} {v : Word} {pl : Place}
    (h : busBar d a w = none) (hp : placeOf a = some pl) (ha : a / 0x1000 = pgAon) (hq : d.bus.aonQueue.length < 8) :
    busWrite sys k a w v d =
      ({ d with bus := { d.bus with
          aonQueue := d.bus.aonQueue ++ [⟨a % 0x1000, v, linkCode k, d.slow + 3⟩] } }, none) := by
  simp only [busWrite, busPut, h, hp, ha, if_true, queueAonWrite, Nat.not_le.mpr hq, if_false]

/-- With the queue full a write of an AON register fails with AON_BUSY (R32). -/
theorem busWrite_aonBusy {sys : Link → Nat → Word → Dev → Dev} {d : Dev} {k : Link} {a w : Nat} {v : Word} {pl : Place}
    (h : busBar d a w = none) (hp : placeOf a = some pl) (ha : a / 0x1000 = pgAon) (hq : 8 ≤ d.bus.aonQueue.length) :
    busWrite sys k a w v d = (d.busError a .aonBusy (linkCode k), some .aonBusy) := by
  simp only [busWrite, busPut, h, hp, ha, if_true, queueAonWrite, hq]

-- ---- places --------------------------------------------------------------------------------------------------------

/-- The page that a number names has that number. -/
theorem pageOf_num {p : Nat} {pg : Page} (h : pageOf p = some pg) : pg.num = p := by
  have := List.find?_some (show directory.find? (fun e => e.num == p) = some pg from h)
  simpa using this

/-- An address within a page names the page and the offset. -/
theorem placeOf_page {p off : Nat} (hp : p < 0x800) (ho : off < 0x1000) :
    placeOf (pageBase p + off) = (pageOf p).map fun pg => Place.page pg off := by
  have h1 : pageBase p + off < 0x800000 := by unfold pageBase; omega
  have h2 : (pageBase p + off) / 0x1000 = p := by unfold pageBase; omega
  have h3 : (pageBase p + off) % 0x1000 = off := by unfold pageBase; omega
  simp only [placeOf, h1, if_true, h2, h3]

/-- Every page of the directory lies below page 0x800. -/
theorem directory_num : ∀ pg ∈ directory, pg.num < 0x800 := by decide +kernel

/-- A page of the directory lies below page 0x800. -/
theorem pageOf_lt {p : Nat} {pg : Page} (h : pageOf p = some pg) : p < 0x800 := by
  have hm := List.mem_of_find?_eq_some (show directory.find? (fun e => e.num == p) = some pg from h)
  have := directory_num pg hm
  rwa [pageOf_num h] at this

/-- An aligned word of a powered page that implements it meets no error. -/
theorem busBar_page {d : Dev} {p off : Nat} {pg : Page} (h : pageOf p = some pg) (ho : off < 0x1000) (h4 : off % 4 = 0)
    (hd : d.domainOn pg.domain = true) (hi : pageHas pg off = true) : busBar d (pageBase p + off) 4 = none := by
  have ha : (pageBase p + off) % 4 = 0 := by unfold pageBase; omega
  simp [busBar, placeOf_page (pageOf_lt h) ho, h, ha, Place.domain, hd, Place.implemented, hi]

/-- A write of an implemented word of a powered page other than AON does what the page does with it, APPLY_SET of DEV
apart. -/
theorem busWrite_page {sys : Link → Nat → Word → Dev → Dev} {d : Dev} {k : Link} {p off : Nat} {v : Word} {pg : Page}
    (h : pageOf p = some pg) (ho : off < 0x1000) (h4 : off % 4 = 0) (hd : d.domainOn pg.domain = true)
    (hi : pageHas pg off = true) (ha : p ≠ pgAon) (hs : p ≠ pgDev ∨ off ≠ 0x140) :
    busWrite sys k (pageBase p + off) 4 v d = (writePage sys k pg off v d, none) := by
  have hp := placeOf_page (pageOf_lt h) ho
  rw [h] at hp
  have hn : (pageBase p + off) / 0x1000 ≠ pgAon := by
    have : (pageBase p + off) / 0x1000 = p := by unfold pageBase; omega
    rwa [this]
  have hset : setBar (pageBase p + off) v d = none := by
    unfold setBar
    rw [if_neg]
    rintro ⟨he, -⟩
    unfold pageBase at he
    omega
  exact busWrite_ok (busBar_page h ho h4 hd hi) hp hn hset

end Sys2Proof.Machine
end

