-- ==== Sys2Proof/Laws/Commands.lean ====
section
/-!
SUPPORT. What a command does that passes the checks of R467: it is executed and answered; and what each kind of
command answers.
-/
namespace Sys2Proof.Machine

/-- A served command is executed and answered, under the SAHF page that applies at its start. -/
theorem arrive_serves {d : Dev} {v : Via} {r : Req} (f : Facts) (hm : v.mailbox = false) (ha : arrives d v = true)
    (h : (applyNow pgSahf d).serves v r) : arrive v r f d = serveSahfort v r f (applyNow pgSahf d) := by
  obtain ⟨hn, hc, ht, hb, hs⟩ := h
  have h2 : (r.service && !(applyNow pgSahf d).foremanRuns) = false := by
    cases hr : r.service
    · rfl
    · simp [hs hr]
  unfold arrive
  simp only [hm, ha, hn, Bool.not_true, Bool.false_eq_true, if_false, if_true]
  unfold sahfort
  simp only [hc, ht, hb, h2, Bool.not_true, Bool.false_eq_true, if_false]
  rfl

/-- What becomes of a command over Sahfort, for any that `arrive` runs (R467). -/
theorem takes_of_arrive {s : State} {c : Instr} {v : Via} {r : Req} (f : Facts)
    (h : exec c s = done s (arrive v r f s.dev)) {served : Dev → Dev}
    (hs : ∀ d, d.serves v r → serveSahfort v r f d = served d) : s.takes c v r served := by
  intro hm
  simp only [State.lands, h]
  have on : ∀ d, d = s.dev → arrives d v = true → arrive v r f d =
      if arrives (applyNow pgSahf d) v = true then sahfort v 1 true r f (applyNow pgSahf d) else applyNow pgSahf d := by
    intro d _ ha
    unfold arrive
    simp only [hm, ha, Bool.not_true, Bool.false_eq_true, if_false]
  refine ⟨fun ha => ?_, fun ha => ⟨fun h1 => ?_, fun h1 => ⟨fun h2 => ?_, fun e h2 h3 => ?_, fun st h2 h3 h4 => ?_,
    fun h2 h3 h4 h5 h6 => ?_⟩, fun h1 => ?_⟩⟩
  · have : arrive v r f s.dev = s.dev := by
      unfold arrive
      simp only [hm, ha, Bool.not_false, Bool.false_eq_true, if_false, if_true]
    rw [this]; rfl
  · rw [on _ rfl ha, if_neg (by simp [h1])]; rfl
  · rw [on _ rfl ha, if_pos h1]; simp only [sahfort, h2]; rfl
  · rw [on _ rfl ha, if_pos h1]; simp only [sahfort, h2, h3]; rfl
  · rw [on _ rfl ha, if_pos h1]; simp only [sahfort, h2, h3, h4]; rfl
  · rw [on _ rfl ha, if_pos h1]; simp only [sahfort, h2, h3, h4, h5, h6]; rfl
  · rw [arrive_serves f hm ha h1, hs _ h1]; rfl

/-- What the mailbox holds is executed and answered in its window (R381). -/
theorem boxed_of_arrive {s : State} {c : Instr} {v : Via} {r : Req} (f : Facts)
    (h : exec c s = done s (arrive v r f s.dev)) {served : Req → Dev → Dev}
    (hs : v.mailbox = true → afterReply (mailboxReq s.dev)
      (answerMailbox (doService v (mailboxReq s.dev) s.dev).1
        (replyBytes (mailboxReq s.dev).code (doService v (mailboxReq s.dev) s.dev).2.status
          (doService v (mailboxReq s.dev) s.dev).2.arg s.dev.jr.nextSeq (doService v (mailboxReq s.dev) s.dev).2.data)) =
        served (mailboxReq s.dev) s.dev) : s.boxed c v r served := by
  intro hm
  simp only [State.lands, h]
  have hx : arrive v r f s.dev = serveMailbox v r s.dev := by
    unfold arrive
    rw [hm]
    rfl
  rw [hx]
  constructor
  · rintro ⟨h1, h2, h3, h4⟩
    have : serveMailbox v r s.dev = served (mailboxReq s.dev) s.dev := by
      rw [← hs hm]
      simp [serveMailbox, h1, h2, h3, h4]
    rw [this]; rfl
  · intro hn
    have : serveMailbox v r s.dev = s.dev := by
      unfold serveMailbox
      rw [if_pos]
      by_contra hc
      apply hn
      simpa [not_or, and_assoc] using hc
    rw [this]; rfl

/-- A command without an entry of its own is answered once executed. -/
theorem serveSahfort_plain {d : Dev} {v : Via} {r : Req} (f : Facts) (hj : r.journalled = false)
    (hr : r.code ≠ 0x01F0) :
    serveSahfort v r f d =
      (execute v r f d).1.answered v r.code (execute v r f d).2.status (execute v r f d).2.arg
        (execute v r f d).2.data := by
  unfold serveSahfort Dev.answered
  simp only [hj, Bool.false_eq_true, if_false, afterReply, hr, Dev.replied]
  cases sahfOn (execute v r f d).1 <;> simp

/-- A journalled command's reply carries the SEQ of its entry and is kept. -/
theorem serveSahfort_kept {d : Dev} {v : Via} {r : Req} (f : Facts) (hj : r.journalled = true)
    (hr : r.code ≠ 0x01F0) :
    serveSahfort v r f d =
      (execute v r f d).1.answeredKept v r.code (execute v r f d).2.status (execute v r f d).2.arg d.jr.nextSeq
        (execute v r f d).2.data := by
  unfold serveSahfort Dev.answeredKept
  simp only [hj, if_true, afterReply, hr, if_false, Dev.repliedKept]
  cases sahfOn (execute v r f d).1 <;> simp

/-- A service command is executed as one. -/
theorem execute_service {d : Dev} {v : Via} {r : Req} (f : Facts) (h : 5 < r.code) :
    execute v r f d = doService v r d := by
  unfold execute
  split <;> first | omega | rfl

/-- A service command is executed, and closed on the path it came by. -/
theorem serviced_of_arrive {s : State} {c : Instr} {v : Via} {r : Req} (h : exec c s = done s (arrive v r {} s.dev))
    (hr : r.service = true) {served : Req → Dev → Dev}
    (hs : ∀ r' d, r'.code = r.code →
      (doService v r' d).1.closes v r'.code (doService v r' d).2.status (doService v r' d).2.arg d.jr.nextSeq
        (doService v r' d).2.data (afterReply r') = served r' d) : s.serviced c v r served := by
  have hcode : 5 < r.code := by
    have := List.all_eq_true.mp (show serviceCodes.all (fun n => decide (5 < n)) = true by decide) r.code
      (by simpa [Req.service] using hr)
    simpa using this
  constructor
  · intro hm
    refine takes_of_arrive {} h (fun d _ => ?_) hm
    rw [← hs r d rfl]
    have hj : r.journalled = true := by
      unfold Req.journalled
      simp only [Bool.not_eq_true', Bool.or_eq_false_iff, beq_eq_false_iff_ne]
      omega
    unfold serveSahfort Dev.closes Dev.repliedKept
    rw [execute_service {} hcode]
    simp only [hj, hm, if_true, Bool.false_eq_true, if_false]
    cases sahfOn (doService v r d).1 <;> simp
  · intro hm
    by_cases hh : mailboxHolds s.dev r = true
    · have hc : (mailboxReq s.dev).code = r.code := by
        simp only [mailboxHolds, Bool.and_eq_true, beq_iff_eq] at hh
        exact hh.1.1.2
      refine boxed_of_arrive {} h (fun _ => ?_) hm
      rw [← hs _ _ hc]
      simp only [Dev.closes, hm, if_true]
    · refine ⟨fun hx => absurd hx.2.2.1 hh, fun _ => ?_⟩
      have hx : arrive v r {} s.dev = s.dev := by
        unfold arrive
        rw [hm]
        simp [serveMailbox, hh]
      simp only [State.lands, h, hx]
      rfl

/-- A barred service command fails with its reason and leaves its entry. -/
theorem doService_bar {d : Dev} {v : Via} {r : Req} {why : Nat} (h : serviceBar d r = some why) :
    doService v r d = (commandEntry d (cmdEntry v r 0 3 5), { status := 5, arg := why }) := by
  simp only [doService, h, serviceFails]

/-- An instant command leaves its entry, then has its effect. -/
theorem doService_instant {d : Dev} {v : Via} {r : Req} (h : serviceBar d r = none)
    (hp : servicePlan d r = none) :
    doService v r d = (instantEffect v r (commandEntry d (cmdEntry v r 0 0 0)), instantAnswer d r) := by
  simp only [doService, h, hp]

/-- A command with a plan leaves its entry and opens its procedure. -/
theorem doService_opens {d : Dev} {v : Via} {r : Req} {plan : List PStep} (h : serviceBar d r = none)
    (hp : servicePlan d r = some plan) (hm : memxRefused r (beforeProc r d) = none) :
    doService v r d =
      (openProc (commandEntry (beforeProc r d) (cmdEntry v r 0 2 0))
        { code := r.code, seq := (beforeProc r d).jr.nextSeq, link := linkCode v.link, arg := r.arg,
          arg2 := if r.code = 0x0131 then (swapBank (beforeProc r d)).getD 0 else 0, plan := plan }, {}) := by
  simp only [doService, h, hp, hm]

end Sys2Proof.Machine
end

