-- ==== Sys2Proof/Laws/Exec.lean ====
section
/-!
SUPPORT. Each command as its effect on the device: `exec` answers the next state whose device is that effect with its
outputs settled. No proof need unfold `exec` or `done`.
-/
namespace Sys2Proof.Machine

/-- A command lands where its answer is the settled device. -/
theorem State.lands_iff {s : State} {c : Instr} {d : Dev} : s.lands c d ↔ exec c s = done s d := Iff.rfl

/-- An answer names its settled device. -/
theorem done_eq_done {s : State} {d e : Dev} (h : d = e) : done s d = done s e := h ▸ rfl

theorem exec_registerWrite (k : Link) (a : Addr) (w : Nat) (v : WordsOut) (s : State) :
    exec (.registerWrite k a w v) s =
      done s (writeRequest k a.toNat w v.first v.more s.dev) := rfl
theorem exec_lowWordRead (k : Link) (a : WordsIn) (s : State) :
    exec (.lowWordRead k a) s =
      done s (readRequest k a.addr.toNat (a.more + 1) s.dev) := rfl
theorem exec_arm (k : Link) (p : PageNo) (v : Word) (s : State) :
    exec (.arm k p v) s =
      done s (putWord k (pageBase p.toNat + 0x00C) v s.dev) := rfl
theorem exec_applySet (k : Link) (tag : BitVec 16) (s : State) :
    exec (.applySet k tag) s =
      done s (s.dev.guarded k pgDev 0x140 (applySet k tag.toNat)) := rfl
theorem exec_strobe (k : Link) (groups : BitVec 4) (s : State) :
    exec (.strobe k groups) s =
      done s (s.dev.guarded k pgDev 0x144 (strobe k groups.toNat)) := rfl
theorem exec_updEdge (s : State) :
    exec (.updEdge) s =
      done s (updEdge s.dev) := rfl
theorem exec_applyPage (p : PageNo) (delay : Nat) (s : State) :
    exec (.applyPage p delay) s =
      done s (applyPage p.toNat delay s.dev) := rfl
theorem exec_applyEntryCommit (p : PageNo) (s : State) :
    exec (.applyEntryCommit p) s =
      done s (applyEntryCommit p.toNat s.dev) := rfl
theorem exec_aonWrite (k : Link) (off : BitVec 12) (v : Word) (s : State) :
    exec (.aonWrite k off v) s =
      done s (putWord k (pageBase pgAon + off.toNat) v s.dev) := rfl
theorem exec_aonWriteComplete (s : State) :
    exec (.aonWriteComplete) s =
      done s (aonWriteComplete s.dev) := rfl
theorem exec_seenWrite (k : Link) (p : PageNo) (n : Nat) (v : Word) (s : State) :
    exec (.seenWrite k p n v) s =
      done s (if n < 24 then putWord k (countAddr p.toNat n + 4) v s.dev
    else s.dev.busError (pageBase p.toNat) .reserved (linkCode k)) := rfl
theorem exec_tallyCapture (k : Link) (v : Word) (s : State) :
    exec (.tallyCapture k v) s =
      done s (putWord k (pageBase pgTally + 0x980) v s.dev) := rfl
theorem exec_paritySweep (bad : List Addr) (s : State) :
    exec (.paritySweep bad) s =
      done s (paritySweep (bad.map BitVec.toNat) s.dev) := rfl
theorem exec_calReq (k : Link) (p : PageNo) (s : State) :
    exec (.calReq k p) s =
      done s (ctrlCommand k p.toNat calReqOn s.dev) := rfl
theorem exec_ctrlCalFactory (k : Link) (p : PageNo) (s : State) :
    exec (.ctrlCalFactory k p) s =
      done s (ctrlCommand k p.toNat calFactoryOn s.dev) := rfl
theorem exec_slotLaunch (x : Line) (s : State) :
    exec (.slotLaunch x) s =
      done s (slotLaunch x s.dev) := rfl
theorem exec_holdEnd (x : Line) (s : State) :
    exec (.holdEnd x) s =
      done s (holdEnd x s.dev) := rfl
theorem exec_ramanPulse (x : Line) (s : State) :
    exec (.ramanPulse x) s =
      done s (ramanPulse x s.dev) := rfl
theorem exec_gateEnd (x : Line) (g : Gate) (s : State) :
    exec (.gateEnd x g) s =
      done s (gateEnd x g s.dev) := rfl
theorem exec_trigInEdge (rising : Bool) (s : State) :
    exec (.trigInEdge rising) s =
      done s (trigInEdge rising s.dev) := rfl
theorem exec_shotPredict (x : Line) (s : State) :
    exec (.shotPredict x) s =
      done s (shotPredict x s.dev) := rfl
theorem exec_shotRecord (x : Line) (s : State) :
    exec (.shotRecord x) s =
      done s (shotRecordOut x s.dev) := rfl
theorem exec_deadAgeExpiry (x : Line) (s : State) :
    exec (.deadAgeExpiry x) s =
      done s (deadAgeExpiry x s.dev) := rfl
theorem exec_deadTimeStart (x : Line) (s : State) :
    exec (.deadTimeStart x) s =
      done s (deadTimeStart x s.dev) := rfl
theorem exec_laneCalPass (x : Line) (cores : List (List Int)) (s : State) :
    exec (.laneCalPass x cores) s =
      done s (laneCalPass x cores s.dev) := rfl
theorem exec_dacCalPass (x : Line) (xi xq : List Int) (s : State) :
    exec (.dacCalPass x xi xq) s =
      done s (dacCalPass x xi xq s.dev) := rfl
theorem exec_ramanCalPass (x : Line) (antiStokes stokes : List Int) (s : State) :
    exec (.ramanCalPass x antiStokes stokes) s =
      done s (ramanCalPass x antiStokes stokes s.dev) := rfl
theorem exec_thermistorSample (x : Line) (l : Laser) (code : BitVec 16) (s : State) :
    exec (.thermistorSample x l code) s =
      done s (thermistorSample x l code.toNat s.dev) := rfl
theorem exec_colourLoopRun (x : Line) (l : Laser) (s : State) :
    exec (.colourLoopRun x l) s =
      done s (colourLoopRun x l s.dev) := rfl
theorem exec_lockFail (x : Line) (l : Laser) (s : State) :
    exec (.lockFail x l) s =
      done s (lockFail x l s.dev) := rfl
theorem exec_senseCheck (x : Line) (e : Emitter) (mV : Nat) (s : State) :
    exec (.senseCheck x e mV) s =
      done s (senseCheck x e mV s.dev) := rfl
theorem exec_gatedSenseCheck (x : Line) (g : Gate) (mV : Nat) (s : State) :
    exec (.gatedSenseCheck x g mV) s =
      done s (gatedSenseCheck x g mV s.dev) := rfl
theorem exec_monBackCrossing (x : Line) (cycle mV : Nat) (s : State) :
    exec (.monBackCrossing x cycle mV) s =
      done s (monBackCrossing x cycle mV s.dev) := rfl
theorem exec_witnessVerdict (x : Line) (steps : List (Nat × Nat)) (s : State) :
    exec (.witnessVerdict x steps) s =
      done s (witnessVerdict x steps s.dev) := rfl
theorem exec_monOutCrossing (x : Line) (mV : Nat) (s : State) :
    exec (.monOutCrossing x mV) s =
      done s (monOutCrossing x mV s.dev) := rfl
theorem exec_gatesOff (s : State) :
    exec (.gatesOff) s =
      done s (gatesOff s.dev) := rfl
theorem exec_copyMismatch (x : Line) (second : Bool) (off : BitVec 12) (v : Word) (s : State) :
    exec (.copyMismatch x second off v) s =
      done s (copyMismatch x second off.toNat v s.dev) := rfl
theorem exec_interlockFall (s : State) :
    exec (.interlockFall) s =
      done s (interlockFall s.dev) := rfl
theorem exec_interlockRise (s : State) :
    exec (.interlockRise) s =
      done s (interlockRise s.dev) := rfl
theorem exec_clockLoss (s : State) :
    exec (.clockLoss) s =
      done s (clockLoss s.dev) := rfl
theorem exec_clockReturn (s : State) :
    exec (.clockReturn) s =
      done s (clockReturn s.dev) := rfl
theorem exec_diagRequest (x : Line) (s : State) :
    exec (.diagRequest x) s =
      done s (diagRequest x s.dev) := rfl
theorem exec_diagSample (x : Line) (g : Gate) (mV : Nat) (s : State) :
    exec (.diagSample x g mV) s =
      done s (diagSample x g mV s.dev) := rfl
theorem exec_probeStart (x : Line) (s : State) :
    exec (.probeStart x) s =
      done s (probeStart x s.dev) := rfl
theorem exec_seedSettled (x : Line) (s : State) :
    exec (.seedSettled x) s =
      done s (seedSettled x s.dev) := rfl
theorem exec_probePass (x : Line) (s : State) :
    exec (.probePass x) s =
      done s (probePass x s.dev) := rfl
theorem exec_autoProbe (x : Line) (s : State) :
    exec (.autoProbe x) s =
      done s (autoProbe x s.dev) := rfl
theorem exec_restart (k : Link) (x : Line) (key : BitVec 16) (s : State) :
    exec (.restart k x key) s =
      done s (s.dev.guarded k (pgCanary x) 0x980 (restart x key.toNat)) := rfl
theorem exec_serviceOpen (k : Link) (x : Line) (key : BitVec 16) (noWitness : Bool) (seconds : BitVec 6) (s : State) :
    exec (.serviceOpen k x key noWitness seconds) s =
      done s (s.dev.guarded k (pgCanary x) 0x984 (serviceOpen x key.toNat noWitness seconds.toNat)) := rfl
theorem exec_serviceStop (k : Link) (x : Line) (key : BitVec 16) (s : State) :
    exec (.serviceStop k x key) s =
      done s (s.dev.guarded k (pgCanary x) 0x984 (serviceStop x key.toNat)) := rfl
theorem exec_serviceEnd (x : Line) (s : State) :
    exec (.serviceEnd x) s =
      done s (serviceEnd x s.dev) := rfl
theorem exec_slotWord (x : Line) (samples : Lanes) (s : State) :
    exec (.slotWord x samples) s =
      done s (slotWord x samples s.dev) := rfl
theorem exec_coreStuck (x : Line) (core : Fin 8) (s : State) :
    exec (.coreStuck x core) s =
      done s (coreStuck x core.val s.dev) := rfl
theorem exec_lanePllLoss (s : State) :
    exec (.lanePllLoss) s =
      done s (lanePllLoss s.dev) := rfl
theorem exec_lanePllLock (s : State) :
    exec (.lanePllLock) s =
      done s (if s.dev.pins.refPresent && s.dev.domainOn 10 then lanePllLock s.dev else s.dev) := rfl
theorem exec_trimTempRead (x : Line) (s : State) :
    exec (.trimTempRead x) s =
      done s (trimTempRead x s.dev) := rfl
theorem exec_chanBlock (x : Line) (t : Fin 8) (window : Lanes) (s : State) :
    exec (.chanBlock x t window) s =
      done s (chanBlock x t.val window s.dev) := rfl
theorem exec_pointWord (x : Line) (seq : Word) (ecc pfEcc : SramEcc) (s : State) :
    exec (.pointWord x seq ecc pfEcc) s =
      done s (pointWord x seq.toNat ecc pfEcc s.dev) := rfl
theorem exec_oosSet (k : Link) (x : Line) (s : State) :
    exec (.oosSet k x) s =
      done s (s.dev.guarded k (pgPhase x) 0x988 (oosCommand x true)) := rfl
theorem exec_oosClear (k : Link) (x : Line) (s : State) :
    exec (.oosClear k x) s =
      done s (s.dev.guarded k (pgPhase x) 0x988 (oosCommand x false)) := rfl
theorem exec_oosApplied (x : Line) (s : State) :
    exec (.oosApplied x) s =
      done s (oosApplied x s.dev) := rfl
theorem exec_oosMapClear (x : Line) (s : State) :
    exec (.oosMapClear x) s =
      done s (oosMapClear x s.dev) := rfl
theorem exec_frameRelease (x : Line) (s : State) :
    exec (.frameRelease x) s =
      done s (frameRelease x s.dev) := rfl
theorem exec_freezeReq (x : Line) (s : State) :
    exec (.freezeReq x) s =
      done s (freezeReq x s.dev) := rfl
theorem exec_hostFreezeSet (k : Link) (x : Line) (slot : Fin 4) (s : State) :
    exec (.hostFreezeSet k x slot) s =
      done s (s.dev.guarded k (pgPfilt x) 0x98C (hostFreezeSet x slot.val)) := rfl
theorem exec_hostFreezeClear (k : Link) (x : Line) (slot : Fin 4) (s : State) :
    exec (.hostFreezeClear k x slot) s =
      done s (s.dev.guarded k (pgPfilt x) 0x98C (hostFreezeClear x slot.val)) := rfl
theorem exec_zoneReduction (x : Line) (ecc : SramEcc) (s : State) :
    exec (.zoneReduction x ecc) s =
      done s (zoneReduction x ecc s.dev) := rfl
theorem exec_alarmEdge (k : Fin 4) (s : State) :
    exec (.alarmEdge k) s =
      done s (alarmEdge k.val s.dev) := rfl
theorem exec_alarmPulseEnd (k : Fin 4) (s : State) :
    exec (.alarmPulseEnd k) s =
      done s (alarmPulseEnd k.val s.dev) := rfl
theorem exec_alarmClear (k : Link) (balls : BitVec 4) (s : State) :
    exec (.alarmClear k balls) s =
      done s (s.dev.guarded k (pgTrig .a) 0x980 (alarmClear balls.toNat)) := rfl
theorem exec_triggerRecord (x : Line) (s : State) :
    exec (.triggerRecord x) s =
      done s (triggerRecord x s.dev) := rfl
theorem exec_descWrite (k : Link) (n : BitVec 16) (w : Fin 8) (v : Word) (s : State) :
    exec (.descWrite k n w v) s =
      done s (if s.dev.domainOn 7 then descWrite n.toNat w.val v s.dev
    else s.dev.busError (descAddr n.toNat w.val) .domainOff (linkCode k)) := rfl
theorem exec_segmentCopy (x : Line) (c : Fin 4) (ecc : Ecc) (s : State) :
    exec (.segmentCopy x c ecc) s =
      done s (segmentCopy x c.val ecc s.dev) := rfl
theorem exec_segmentEnd (x : Line) (c : Fin 4) (s : State) :
    exec (.segmentEnd x c) s =
      done s (segmentEnd x c.val s.dev) := rfl
theorem exec_descRead (x : Line) (c : Fin 4) (s : State) :
    exec (.descRead x c) s =
      done s (descRead x c.val s.dev) := rfl
theorem exec_ramanTrace (x : Line) (antiStokes stokes darkAs darkS : List Int) (s : State) :
    exec (.ramanTrace x antiStokes stokes darkAs darkS) s =
      done s (ramanTrace (fun p d => applyOne p 3 d) x antiStokes stokes darkAs darkS s.dev) := rfl
theorem exec_readout (x : Line) (bad : List Nat) (s : State) :
    exec (.readout x bad) s =
      done s (readout x bad s.dev) := rfl
theorem exec_readoutEnd (x : Line) (s : State) :
    exec (.readoutEnd x) s =
      done s (readoutEnd x s.dev) := rfl
theorem exec_pass2 (x : Line) (bad : List Nat) (s : State) :
    exec (.pass2 x bad) s =
      done s (pass2 x bad s.dev) := rfl
theorem exec_profileRelease (x : Line) (s : State) :
    exec (.profileRelease x) s =
      done s (profileRelease x s.dev) := rfl
theorem exec_pfeConversion (q : Int) (overload : Bool) (s : State) :
    exec (.pfeConversion q overload) s =
      done s (applyNow pgPfe (pfeConversion q overload s.dev)) := rfl
theorem exec_pfeComplianceCheck (ch : Fin 4) (pass : Bool) (s : State) :
    exec (.pfeComplianceCheck ch pass) s =
      done s (pfeComplianceCheck ch.val pass s.dev) := rfl
theorem exec_pfeCalVisit (shorted divider : List (List Int)) (s : State) :
    exec (.pfeCalVisit shorted divider) s =
      done s (applyNow pgPfe (pfeCalVisit shorted divider s.dev)) := rfl
theorem exec_hkPassStart (s : State) :
    exec (.hkPassStart) s =
      done s (hkPassStart applyNow s.dev) := rfl
theorem exec_hkConversion (code : BitVec 12) (s : State) :
    exec (.hkConversion code) s =
      done s (hkConversion applyNow code.toNat s.dev) := rfl
theorem exec_urgent (k : Link) (input : BitVec 5) (s : State) :
    exec (.urgent k input) s =
      done s (s.dev.guarded k pgHk 0x980 (hkUrgent applyNow input.toNat)) := rfl
theorem exec_telemetry (s : State) :
    exec (.telemetry) s =
      done s (telemetry s.dev) := rfl
theorem exec_tiuArm (k : Link) (u : Fin 2) (s : State) :
    exec (.tiuArm k u) s =
      done s (s.dev.guarded k (pgTiu u.val) 0x980 (tiuArm u.val)) := rfl
theorem exec_tiuStart (k : Link) (u : Fin 2) (s : State) :
    exec (.tiuStart k u) s =
      done s (s.dev.guarded k (pgTiu u.val) 0x980 (tiuStart u.val)) := rfl
theorem exec_tiuStop (k : Link) (u : Fin 2) (s : State) :
    exec (.tiuStop k u) s =
      done s (s.dev.guarded k (pgTiu u.val) 0x980 (tiuStop u.val)) := rfl
theorem exec_tiuCancel (k : Link) (u : Fin 2) (s : State) :
    exec (.tiuCancel k u) s =
      done s (s.dev.guarded k (pgTiu u.val) 0x980 (tiuCancel u.val)) := rfl
theorem exec_tiuStartEdge (u : Fin 2) (same : Bool) (s : State) :
    exec (.tiuStartEdge u same) s =
      done s (tiuStartEdge u.val same s.dev) := rfl
theorem exec_tiuStopEdge (u : Fin 2) (s : State) :
    exec (.tiuStopEdge u) s =
      done s (tiuStopEdge u.val s.dev) := rfl
theorem exec_tiuTimeout (u : Fin 2) (s : State) :
    exec (.tiuTimeout u) s =
      done s (tiuTimeout u.val s.dev) := rfl
theorem exec_tiuResult (u : Fin 2) (s : State) :
    exec (.tiuResult u) s =
      done s (tiuResult u.val s.dev) := rfl
theorem exec_memRequest (port : Fin 8) (l : Nat) (wr : Option (List (Option Byte))) (s : State) :
    exec (.memRequest port l wr) s =
      done s (memRequest port.val l wr s.dev) := rfl
theorem exec_miss (unit : Fin 4) (s : State) :
    exec (.miss unit) s =
      done s (miss unit.val s.dev) := rfl
theorem exec_memReadData (unit : Fin 4) (ecc : Ecc) (s : State) :
    exec (.memReadData unit ecc) s =
      done s (memReadData unit.val ecc s.dev) := rfl
theorem exec_refreshDue (p : Fin 8) (s : State) :
    exec (.refreshDue p) s =
      done s (refreshDue p.val s.dev) := rfl
theorem exec_mr4Poll (p : Fin 8) (doubled hot : Bool) (code : BitVec 3) (s : State) :
    exec (.mr4Poll p doubled hot code) s =
      done s (mr4Poll p.val doubled hot code.toNat s.dev) := rfl
theorem exec_srEntry (p : Fin 8) (s : State) :
    exec (.srEntry p) s =
      done s (srEntry p.val s.dev) := rfl
theorem exec_srExit (p : Fin 8) (s : State) :
    exec (.srExit p) s =
      done s (srExit (applyNow (pgDdr (p.val / 2))) p.val s.dev) := rfl
theorem exec_retrain (k : Link) (u : Fin 4) (s : State) :
    exec (.retrain k u) s =
      done s (s.dev.guarded k pgMemx 0x990 (retrain (applyNow (pgDdr u.val)) u.val)) := rfl
theorem exec_retrainDone (unit : Fin 4) (trained : Bool) (eye : BitVec 16) (s : State) :
    exec (.retrainDone unit trained eye) s =
      done s (retrainDone unit.val trained eye.toNat s.dev) := rfl
theorem exec_scrubRead (unit : Fin 4) (ecc : Ecc) (s : State) :
    exec (.scrubRead unit ecc) s =
      done s (scrubRead unit.val ecc s.dev) := rfl
theorem exec_fillCmd (k : Link) (s : State) :
    exec (.fillCmd k) s =
      done s (s.dev.guarded k pgMemx 0x988 fillCmd) := rfl
theorem exec_fillDone (s : State) :
    exec (.fillDone) s =
      done s (fillDone s.dev) := rfl
theorem exec_initQuery (k : Link) (r : BitVec 16) (s : State) :
    exec (.initQuery k r) s =
      done s (s.dev.guarded k pgMemx 0x938 (initQuery r.toNat)) := rfl
theorem exec_migrate (k : Link) (p : Fin 8) (s : State) :
    exec (.migrate k p) s =
      done s (s.dev.guarded k pgMemx 0x98C (migrate p.val)) := rfl
theorem exec_migCopy (ecc : Ecc) (s : State) :
    exec (.migCopy ecc) s =
      done s (migCopy ecc s.dev) := rfl
theorem exec_migDone (s : State) :
    exec (.migDone) s =
      done s (migDone s.dev) := rfl
theorem exec_sramScrub (data check double : List (Fin 288)) (s : State) :
    exec (.sramScrub data check double) s =
      done s (sramScrub (sramFaults data check double) s.dev) := rfl
theorem exec_dmaStart (k : Link) (c : Fin 32) (s : State) :
    exec (.dmaStart k c) s =
      done s (s.dev.guarded k pgDma (0xC00 + 4 * c.val) (dmaStart c.val)) := rfl
theorem exec_dmaStop (k : Link) (c : Fin 32) (s : State) :
    exec (.dmaStop k c) s =
      done s (s.dev.guarded k pgDma (0xC00 + 4 * c.val) (dmaStop c.val)) := rfl
theorem exec_dmaRing (k : Link) (c : Fin 32) (s : State) :
    exec (.dmaRing k c) s =
      done s (s.dev.guarded k pgDma (0xC00 + 4 * c.val) (dmaRing c.val)) := rfl
theorem exec_dmaFetch (c : Fin 32) (ecc : Ecc) (s : State) :
    exec (.dmaFetch c ecc) s =
      done s (dmaFetch applyChan c.val ecc s.dev) := rfl
theorem exec_dmaBurst (host : HostReply) (ecc : BurstEcc) (s : State) :
    exec (.dmaBurst host ecc) s =
      done s (dmaBurst sysWrite host ecc.read ecc.write s.dev) := rfl
theorem exec_dmaComplete (c : Fin 32) (s : State) :
    exec (.dmaComplete c) s =
      done s (dmaComplete c.val s.dev) := rfl
theorem exec_linkRead (c : Fin 32) (ecc : Ecc) (s : State) :
    exec (.linkRead c ecc) s =
      done s (linkRead c.val ecc s.dev) := rfl
theorem exec_noresp (c : Fin 32) (s : State) :
    exec (.noresp c) s =
      done s (noresp c.val s.dev) := rfl
theorem exec_codecInput (n : Fin 16) (bytes : List Byte) (eom : Bool) (s : State) :
    exec (.codecInput n bytes eom) s =
      done s (codecInput n.val bytes eom s.dev) := rfl
theorem exec_codecBlock (n : Fin 16) (verified storedVerified : Bool) (s : State) :
    exec (.codecBlock n verified storedVerified) s =
      done s (codecBlock applyCtx n.val verified storedVerified s.dev) := rfl
theorem exec_codecDecode (n : Fin 16) (s : State) :
    exec (.codecDecode n) s =
      done s (codecDecode applyCtx n.val s.dev) := rfl
theorem exec_codecClose (k : Link) (n : Fin 16) (s : State) :
    exec (.codecClose k n) s =
      done s (s.dev.guarded k pgCodec (0xB00 + 4 * n.val) (codecClose n.val)) := rfl
theorem exec_codecReset (k : Link) (n : Fin 16) (s : State) :
    exec (.codecReset k n) s =
      done s (s.dev.guarded k pgCodec (0xB00 + 4 * n.val) (codecReset n.val)) := rfl
theorem exec_stallTimeout (n : Fin 16) (s : State) :
    exec (.stallTimeout n) s =
      done s (stallTimeout n.val s.dev) := rfl
theorem exec_contextSwitch (n : Fin 16) (ecc : Ecc) (s : State) :
    exec (.contextSwitch n ecc) s =
      done s (contextSwitch n.val ecc s.dev) := rfl
theorem exec_pcieFlr (s : State) :
    exec (.pcieFlr) s =
      done s (pcieFlr s.dev) := rfl
theorem exec_linkDown (s : State) :
    exec (.linkDown) s =
      done s (linkDown s.dev) := rfl
theorem exec_bar2Access (a len : Nat) (wr : Option (List (Option Byte))) (ecc : Ecc) (s : State) :
    exec (.bar2Access a len wr ecc) s =
      done s (bar2Access a len wr ecc s.dev) := rfl
theorem exec_msixUnmask (v : Option (Fin 64)) (s : State) :
    exec (.msixUnmask v) s =
      done s (msixUnmask (v.map Fin.val) s.dev) := rfl
theorem exec_ringTail (k : Link) (r : Fin 16) (tail : BitVec 16) (entries : List HostEntry) (s : State) :
    exec (.ringTail k r tail entries) s =
      done s (s.dev.guarded k pgSahf (0x980 + 4 * r.val) (ringTail r.val tail.toNat entries)) := rfl
theorem exec_ringWrite (r : Fin 16) (s : State) :
    exec (.ringWrite r) s =
      done s (ringWriteCmd applyNow applyCtx r.val s.dev) := rfl
theorem exec_coalesceTimeout (r : Fin 16) (s : State) :
    exec (.coalesceTimeout r) s =
      done s (coalesceTimeout r.val s.dev) := rfl
theorem exec_replyDropped (s : State) :
    exec (.replyDropped) s =
      done s (replyDropped s.dev) := rfl
theorem exec_regRead (v : Via) (a : Addr) (count : Nat) (s : State) :
    exec (.regRead v a count) s =
      done s (arrive v (withData 0x0001 count a.toNat []) {} s.dev) := rfl
theorem exec_regWrite (v : Via) (a : Addr) (words : List Word) (s : State) :
    exec (.regWrite v a words) s =
      done s (arrive v (withData 0x0002 words.length a.toNat (words.flatMap fun w => leBytes 4 w.toNat)) {} s.dev) := rfl
theorem exec_memRead (v : Via) (a count : Nat) (ecc : Ecc) (s : State) :
    exec (.memRead v a count ecc) s =
      done s (arrive v (withData 0x0003 count a []) { ecc := ecc } s.dev) := rfl
theorem exec_memWrite (v : Via) (a : Nat) (bytes : MemBytes) (s : State) :
    exec (.memWrite v a bytes) s =
      done s (arrive v (withData 0x0004 bytes.bytes.length a bytes.bytes) { ecc := bytes.ecc } s.dev) := rfl
theorem exec_echo (v : Via) (bytes : List Byte) (s : State) :
    exec (.echo v bytes) s =
      done s (arrive v (withData 0x0005 bytes.length 0 bytes) {} s.dev) := rfl
theorem exec_status (v : Via) (s : State) :
    exec (.status v) s =
      done s (arrive v (plain 0x0100) {} s.dev) := rfl
theorem exec_modeSet (v : Via) (mode : BitVec 3) (s : State) :
    exec (.modeSet v mode) s =
      done s (arrive v (withAddr 0x0101 mode.toNat) {} s.dev) := rfl
theorem exec_lineOut (v : Via) (x : Line) (s : State) :
    exec (.lineOut v x) s =
      done s (arrive v (withAddr 0x0102 x.idx) {} s.dev) := rfl
theorem exec_lineIn (v : Via) (x : Line) (s : State) :
    exec (.lineIn v x) s =
      done s (arrive v (withAddr 0x0103 x.idx) {} s.dev) := rfl
theorem exec_calRun (v : Via) (p : PageNo) (now : Bool) (s : State) :
    exec (.calRun v p now) s =
      done s (arrive v (withAddr 0x0110 (p.toNat + 2 ^ 16 * bit now)) {} s.dev) := rfl
theorem exec_calFactory (v : Via) (p : PageNo) (s : State) :
    exec (.calFactory v p) s =
      done s (arrive v (withAddr 0x0111 p.toNat) {} s.dev) := rfl
theorem exec_journalRead (v : Via) (first : Word) (count : Nat) (s : State) :
    exec (.journalRead v first count) s =
      done s (arrive v (withData 0x0120 count first.toNat []) {} s.dev) := rfl
theorem exec_troubleRead (v : Via) (first : Word) (count : Nat) (s : State) :
    exec (.troubleRead v first count) s =
      done s (arrive v (withData 0x0121 count first.toNat []) {} s.dev) := rfl
theorem exec_journalMark (v : Via) (value : BitVec 64) (s : State) :
    exec (.journalMark v value) s =
      done s (arrive v (withAddr 0x0122 value.toNat) {} s.dev) := rfl
theorem exec_patchLoad (v : Via) (a count : Nat) (data : List Byte) (s : State) :
    exec (.patchLoad v a count data) s =
      done s (arrive v (withData 0x0130 count a data) {} s.dev) := rfl
theorem exec_patchSwap (v : Via) (s : State) :
    exec (.patchSwap v) s =
      done s (arrive v (plain 0x0131) {} s.dev) := rfl
theorem exec_swapRestart (s : State) :
    exec (.swapRestart) s =
      done s (swapRestart s.dev) := rfl
theorem exec_patchRevert (v : Via) (s : State) :
    exec (.patchRevert v) s =
      done s (arrive v (plain 0x0132) {} s.dev) := rfl
theorem exec_patchCommit (v : Via) (s : State) :
    exec (.patchCommit v) s =
      done s (arrive v (plain 0x0133) {} s.dev) := rfl
theorem exec_reelRecord (v : Via) (s : State) :
    exec (.reelRecord v) s =
      done s (arrive v (plain 0x0140) {} s.dev) := rfl
theorem exec_reelStop (v : Via) (s : State) :
    exec (.reelStop v) s =
      done s (arrive v (plain 0x0141) {} s.dev) := rfl
theorem exec_reelPlay (v : Via) (s : State) :
    exec (.reelPlay v) s =
      done s (arrive v (plain 0x0142) {} s.dev) := rfl
theorem exec_emitSwapBegin (v : Via) (x : Line) (e : Emitter) (s : State) :
    exec (.emitSwapBegin v x e) s =
      done s (arrive v (withAddr 0x0150 (x.idx + 16 * emitterNo e)) {} s.dev) := rfl
theorem exec_emitSwapEnd (v : Via) (x : Line) (e : Emitter) (s : State) :
    exec (.emitSwapEnd v x e) s =
      done s (arrive v (withAddr 0x0151 (x.idx + 16 * emitterNo e)) {} s.dev) := rfl
theorem exec_rankMigrate (v : Via) (p : Fin 8) (s : State) :
    exec (.rankMigrate v p) s =
      done s (arrive v (withAddr 0x0160 p.val) {} s.dev) := rfl
theorem exec_foremanRestart (v : Via) (s : State) :
    exec (.foremanRestart v) s =
      done s (arrive v (plain 0x01F0) {} s.dev) := rfl
theorem exec_procStep (n : ProcRun) (s : State) :
    exec (.procStep n) s =
      done s (procStep n.index n.faults s.dev) := rfl
theorem exec_streamMessage (s : State) :
    exec (.streamMessage) s =
      done s (streamMessage s.dev) := rfl
theorem exec_packetTransmit (p : Fin 2) (s : State) :
    exec (.packetTransmit p) s =
      done s (packetTransmit applyNow applyCtx p.val s.dev) := rfl
theorem exec_ethRx (p : Fin 2) (frame : List Byte) (fcsOk : Bool) (s : State) :
    exec (.ethRx p frame fcsOk) s =
      done s (ethRx p.val frame fcsOk s.dev) := rfl
theorem exec_ethLinkUp (p : Fin 2) (s : State) :
    exec (.ethLinkUp p) s =
      done s (ethLinkUp p.val s.dev) := rfl
theorem exec_ethLinkDown (p : Fin 2) (s : State) :
    exec (.ethLinkDown p) s =
      done s (ethLinkDown p.val s.dev) := rfl
theorem exec_resolveRetry (p : Fin 2) (s : State) :
    exec (.resolveRetry p) s =
      done s (resolveRetry p.val s.dev) := rfl
theorem exec_unresolved (e : Fin 64) (s : State) :
    exec (.unresolved e) s =
      done s (unresolved e.val s.dev) := rfl
theorem exec_cacheRefresh (p : Fin 2) (s : State) :
    exec (.cacheRefresh p) s =
      done s (cacheRefresh p.val s.dev) := rfl
theorem exec_i2cPoll (p : Fin 2) (diag : Option SfpReading) (s : State) :
    exec (.i2cPoll p diag) s =
      done s (i2cPoll applyNow p.val diag s.dev) := rfl
theorem exec_xfer (k : Link) (v : Word) (ack : Bool) (data : Byte) (s : State) :
    exec (.xfer k v ack data) s =
      done s (s.dev.guarded k pgI2cm 0x980 (xfer applyNow v ack data)) := rfl
theorem exec_moduleChange (p : Fin 2) (present : Bool) (s : State) :
    exec (.moduleChange p present) s =
      done s (moduleChange p.val present s.dev) := rfl
theorem exec_ptpMessage (m : PtpArrival) (s : State) :
    exec (.ptpMessage m) s =
      done s (ptpMessage applyNow m.sender m.msg s.dev) := rfl
theorem exec_delayReq (s : State) :
    exec (.delayReq) s =
      done s (delayReq applyNow s.dev) := rfl
theorem exec_syncTimeout (s : State) :
    exec (.syncTimeout) s =
      done s (syncTimeout s.dev) := rfl
theorem exec_timeSet (k : Link) (s : State) :
    exec (.timeSet k) s =
      done s (s.dev.guarded k pgPtp 0x988 timeSet) := rfl
theorem exec_ppsInEdge (rising : Bool) (s : State) :
    exec (.ppsInEdge rising) s =
      done s (ppsInEdge rising s.dev) := rfl
theorem exec_ppsMissing (s : State) :
    exec (.ppsMissing) s =
      done s (ppsMissing s.dev) := rfl
theorem exec_ppsOut (s : State) :
    exec (.ppsOut) s =
      done s (ppsOut s.dev) := rfl
theorem exec_ppsOutEnd (s : State) :
    exec (.ppsOutEnd) s =
      done s (ppsOutEnd s.dev) := rfl
theorem exec_refLost (s : State) :
    exec (.refLost) s =
      done s (refLost s.dev) := rfl
theorem exec_refReturn (s : State) :
    exec (.refReturn) s =
      done s (refReturn s.dev) := rfl
theorem exec_spiRead (a : SpiHead) (count : Nat) (s : State) :
    exec (.spiRead a count) s =
      done s (spiFrame (spiOp a.op count a.addr.toNat) s.dev) := rfl
theorem exec_spiWrite (a : Addr) (words : List Word) (s : State) :
    exec (.spiWrite a words) s =
      done s (spiFrame (spiWrites words a.toNat) s.dev) := rfl
theorem exec_abortedWord (s : State) :
    exec (.abortedWord) s =
      done s (abortedWord s.dev) := rfl
theorem exec_legacyRead (a : BitVec 15) (s : State) :
    exec (.legacyRead a) s =
      done s (legacyFrame (legacyRead a.toNat) s.dev) := rfl
theorem exec_legacyWrite (a : BitVec 15) (v : BitVec 16) (s : State) :
    exec (.legacyWrite a v) s =
      done s (legacyFrame (legacyWrite a.toNat v.toNat) s.dev) := rfl
theorem exec_journalFlush (s : State) :
    exec (.journalFlush) s =
      done s (journalFlush s.dev) := rfl
theorem exec_troubleFlush (s : State) :
    exec (.troubleFlush) s =
      done s (troubleFlush s.dev) := rfl
theorem exec_retentionCopy (s : State) :
    exec (.retentionCopy) s =
      done s (retentionCopy s.dev) := rfl
theorem exec_notification (s : State) :
    exec (.notification) s =
      done s (notification s.dev) := rfl
theorem exec_calAdvised (s : State) :
    exec (.calAdvised) s =
      done s (calAdvised s.dev) := rfl
theorem exec_calRetry (s : State) :
    exec (.calRetry) s =
      done s (calRetry s.dev) := rfl
theorem exec_watchdog (s : State) :
    exec (.watchdog) s =
      done s (crash 2 s.dev) := rfl
theorem exec_exception (s : State) :
    exec (.exception) s =
      done s (crash 3 s.dev) := rfl
theorem exec_restarted (s : State) :
    exec (.restarted) s =
      done s (restarted s.dev) := rfl
theorem exec_reelStart (x : Line) (s : State) :
    exec (.reelStart x) s =
      done s (reelStart x s.dev) := rfl
theorem exec_reelShot (x : Line) (samples : Lanes) (s : State) :
    exec (.reelShot x samples) s =
      done s (reelShot x samples s.dev) := rfl
theorem exec_reelEnd (x : ReelStop) (s : State) :
    exec (.reelEnd x) s =
      done s (reelEnd x.line x.behind s.dev) := rfl
theorem exec_reelFeed (s : State) :
    exec (.reelFeed) s =
      done s (reelFeed s.dev.reel.faults s.dev) := rfl
theorem exec_replayEnd (s : State) :
    exec (.replayEnd) s =
      done s (replayEnd s.dev) := rfl
theorem exec_railFail (s : State) :
    exec (.railFail) s =
      done s (railFail s.dev) := rfl
theorem exec_boot (s : State) :
    exec (.boot) s =
      done s (boot s.dev) := rfl
theorem exec_thermalTrip (s : State) :
    exec (.thermalTrip) s =
      done s (thermalTrip s.dev) := rfl
theorem exec_thermalClear (s : State) :
    exec (.thermalClear) s =
      done s (thermalClear s.dev) := rfl
theorem exec_interlockHold (s : State) :
    exec (.interlockHold) s =
      done s (interlockHold s.dev) := rfl
theorem exec_slowFallback (s : State) :
    exec (.slowFallback) s =
      done s (slowFallback s.dev) := rfl
theorem exec_refclkTimeout (s : State) :
    exec (.refclkTimeout) s =
      done s (refclkTimeout s.dev) := rfl
theorem exec_alarmWake (s : State) :
    exec (.alarmWake) s =
      done s (alarmWake s.dev) := rfl
theorem exec_wakeIn (rising : Bool) (s : State) :
    exec (.wakeIn rising) s =
      done s (wakeIn rising s.dev) := rfl
theorem exec_pfeWake (s : State) :
    exec (.pfeWake) s =
      done s (pfeWake s.dev) := rfl
theorem exec_hkWake (s : State) :
    exec (.hkWake) s =
      done s (hkWake s.dev) := rfl
theorem exec_scriptWrite (s : State) :
    exec (.scriptWrite) s =
      done s (scriptWrite s.dev) := rfl
theorem exec_scriptWaitEvent (s : State) :
    exec (.scriptWaitEvent) s =
      done s (scriptWaitEvent s.dev) := rfl
theorem exec_scriptDelay (s : State) :
    exec (.scriptDelay) s =
      done s (scriptDelay s.dev) := rfl
theorem exec_returnHome (s : State) :
    exec (.returnHome) s =
      done s (returnHome s.dev) := rfl
theorem exec_resetN (s : State) :
    exec (.resetN) s =
      done s (resetN s.dev) := rfl
theorem exec_pwrReset (k : Link) (key : BitVec 16) (s : State) :
    exec (.pwrReset k key) s =
      done s (s.dev.guarded k pgPwr 0x980 (pwrReset key.toNat true)) := rfl
theorem exec_vaonApplied (s : State) :
    exec (.vaonApplied) s =
      done s (vaonApplied s.dev) := rfl
theorem exec_testMode (high : Bool) (s : State) :
    exec (.testMode high) s =
      done s (testMode high s.dev) := rfl
theorem exec_tapReset (s : State) :
    exec (.tapReset) s =
      done s (tapReset s.dev) := rfl
theorem exec_bypass (s : State) :
    exec (.bypass) s =
      done s (tapRun 0 s.dev) := rfl
theorem exec_idcode (s : State) :
    exec (.idcode) s =
      done s (idcode s.dev) := rfl
theorem exec_samplePreload (cells : List Bool) (s : State) :
    exec (.samplePreload cells) s =
      done s (samplePreload cells s.dev) := rfl
theorem exec_extest (s : State) :
    exec (.extest) s =
      done s (tapRun 3 s.dev) := rfl
theorem exec_extestPulse (s : State) :
    exec (.extestPulse) s =
      done s (tapRun 4 s.dev) := rfl
theorem exec_extestTrain (s : State) :
    exec (.extestTrain) s =
      done s (tapRun 5 s.dev) := rfl
theorem exec_highz (s : State) :
    exec (.highz) s =
      done s (tapRun 6 s.dev) := rfl
theorem exec_clamp (s : State) :
    exec (.clamp) s =
      done s (tapRun 7 s.dev) := rfl
theorem exec_stuckCleared (x : Line) (core : Fin 8) (s : State) :
    exec (.stuckCleared x core) s =
      done s (stuckCleared x core.val s.dev) := rfl
theorem exec_pcieLinkUp (width gen : BitVec 4) (s : State) :
    exec (.pcieLinkUp width gen) s =
      done s (pcieLinkUp applyNow width.toNat gen.toNat s.dev) := rfl
theorem exec_vaonRemoved (s : State) :
    exec (.vaonRemoved) s =
      done s (vaonRemoved s.dev) := rfl
theorem exec_powerGoodLoss (k : Fin 6) (s : State) :
    exec (.powerGoodLoss k) s =
      done s (powerGoodLoss k.val s.dev) := rfl
theorem exec_procTimeout (i : Nat) (s : State) :
    exec (.procTimeout i) s =
      done s (procTimeout i s.dev) := rfl

/-- RAIL_STEP with no rail coming up changes nothing. -/
theorem exec_railStep_idle (k : Fin 6) (good : Bool) (s : State) (h : s.dev.aonSt.goal = none) :
    exec (.railStep k good) s = done s s.dev := by
  show execRailStep k good s = _
  simp only [execRailStep, h]

/-- RAIL_STEP of the rail whose turn it is. -/
theorem exec_railStep_turn (k : Fin 6) (good : Bool) (s : State) {last : Nat} (h : s.dev.aonSt.goal = some last)
    (hk : k.val = s.dev.aonSt.rail) : exec (.railStep k good) s = done s (railStep k.val good last s.dev) := by
  show execRailStep k good s = _
  simp only [execRailStep, h, hk, if_true]

/-- RAIL_STEP of another rail stops (R446). -/
theorem exec_railStep_stop (k : Fin 6) (good : Bool) (s : State) {last : Nat} (h : s.dev.aonSt.goal = some last)
    (hk : k.val ≠ s.dev.aonSt.rail) : exec (.railStep k good) s = .fault .railOutOfOrder := by
  show execRailStep k good s = _
  simp only [execRailStep, h, hk, if_false]

end Sys2Proof.Machine
end

