-- ==== Sys2Proof/Laws/Fields.lean ====
section
/-!
SUPPORT. What a write of a field of a register word leaves: the field holds what was written, cut to its width; every
other field and every other word stays.
-/
namespace Sys2Proof.Machine

/-- A number in three parts: above a field, the field, below it. -/
theorem putBits_parts (v hi lo x : Nat) :
    putBits v hi lo x =
      (v / 2 ^ lo / 2 ^ (hi + 1 - lo) * 2 ^ (hi + 1 - lo) + x % 2 ^ (hi + 1 - lo)) * 2 ^ lo + v % 2 ^ lo := by
  unfold putBits bitsOf
  generalize hp : 2 ^ lo = p
  generalize hw : 2 ^ (hi + 1 - lo) = w
  have h1 := Nat.div_add_mod v p
  have h2 := Nat.div_add_mod (v / p) w
  have h3 : v = (v / p / w * w + v / p % w) * p + v % p := by
    rw [Nat.mul_comm (v / p / w) w, h2, Nat.mul_comm]; exact h1.symm
  have h4 : (v / p / w * w + x % w) * p + v % p = v / p / w * w * p + x % w * p + v % p := by rw [Nat.add_mul]
  have h5 : (v / p / w * w + v / p % w) * p + v % p = v / p / w * w * p + v / p % w * p + v % p := by rw [Nat.add_mul]
  rw [h4]
  rw [h5] at h3
  omega

/-- The bits of a word with a field written. -/
theorem putBits_testBit (v hi lo x i : Nat) :
    (putBits v hi lo x).testBit i = if lo ≤ i ∧ i < lo + (hi + 1 - lo) then x.testBit (i - lo) else v.testBit i := by
  rw [putBits_parts, Nat.mul_comm, Nat.testBit_two_pow_mul_add _ (Nat.mod_lt _ (Nat.two_pow_pos _))]
  by_cases h1 : i < lo
  · rw [if_pos h1, if_neg (by omega), Nat.testBit_mod_two_pow]; simp [h1]
  · rw [if_neg h1, Nat.mul_comm (v / _ / _), Nat.testBit_two_pow_mul_add _ (Nat.mod_lt _ (Nat.two_pow_pos _))]
    by_cases h2 : i - lo < hi + 1 - lo
    · rw [if_pos h2, if_pos (by omega), Nat.testBit_mod_two_pow]; simp [h2]
    · rw [if_neg h2, if_neg (by omega), Nat.testBit_div_two_pow, Nat.testBit_div_two_pow]
      congr 1
      omega

/-- The bits of a field. -/
theorem bitsOf_testBit (v hi lo i : Nat) :
    (bitsOf v hi lo).testBit i = (decide (i < hi + 1 - lo) && v.testBit (i + lo)) := by
  unfold bitsOf
  rw [Nat.testBit_mod_two_pow, Nat.testBit_div_two_pow, Nat.add_comm]

/-- A written field holds what was written, cut to its width. -/
theorem bitsOf_putBits (v hi lo x : Nat) : bitsOf (putBits v hi lo x) hi lo = x % 2 ^ (hi + 1 - lo) := by
  refine Nat.eq_of_testBit_eq fun i => ?_
  rw [bitsOf_testBit, putBits_testBit, Nat.testBit_mod_two_pow]
  by_cases h : i < hi + 1 - lo
  · rw [if_pos (by omega)]; simp [h]
  · simp [h]

/-- A field apart from the written one stays. -/
theorem bitsOf_putBits_apart (v x : Nat) {hi lo hi' lo' : Nat} (h : hi' < lo ∨ hi < lo') :
    bitsOf (putBits v hi lo x) hi' lo' = bitsOf v hi' lo' := by
  refine Nat.eq_of_testBit_eq fun i => ?_
  rw [bitsOf_testBit, bitsOf_testBit, putBits_testBit]
  by_cases hi : i < hi' + 1 - lo'
  · rw [if_neg (by omega)]
  · simp [hi]

/-- A bit of a word is a field of one bit. -/
theorem bitOf_bitsOf (v n : Nat) : bitOf v n = (bitsOf v n n == 1) := by
  simp [bitOf, bitsOf]

/-- A word with a field below bit 32 written is a word. -/
theorem putBits_lt {v hi lo x : Nat} (hv : v < 2 ^ 32) (h : hi < 32) : putBits v hi lo x < 2 ^ 32 := by
  refine Nat.lt_pow_two_of_testBit _ fun i hi32 => ?_
  rw [putBits_testBit, if_neg (by omega)]
  exact Nat.testBit_lt_two_pow (Nat.lt_of_lt_of_le hv (Nat.pow_le_pow_right (by omega) hi32))

/-- A register word as the number it is. -/
theorem Word.toNat_ofNat {v : Nat} (h : v < 2 ^ 32) : (Word.ofNat v).toNat = v := by
  unfold Word.ofNat
  rw [BitVec.toNat_ofNat, Nat.mod_eq_of_lt h]

/-- A written field reads as what was written, cut to its width. -/
theorem Fld.at_put (f : Fld) (m : RegMap) (base v : Nat) (h : f.hi < 32) :
    f.at (f.put m base v) base = v % 2 ^ f.width := by
  unfold Fld.at Fld.put
  rw [rd_wr_same, Word.toNat_ofNat (putBits_lt (BitVec.isLt _) h), bitsOf_putBits]
  rfl

/-- A field of the same word apart from the written one reads as before. -/
theorem Fld.at_put_apart {f g : Fld} (m : RegMap) (base v : Nat) (ho : g.off = f.off)
    (h : f.hi < 32 ∧ (g.hi < f.lo ∨ f.hi < g.lo)) : g.at (f.put m base v) base = g.at m base := by
  unfold Fld.at Fld.put
  rw [ho, rd_wr_same, Word.toNat_ofNat (putBits_lt (BitVec.isLt _) h.1), bitsOf_putBits_apart _ _ h.2]

/-- A field of another word reads as before. -/
theorem Fld.at_put_other {f g : Fld} (m : RegMap) {b c : Nat} (v : Nat) (h : c + g.off ≠ b + f.off) :
    g.at (f.put m b v) c = g.at m c := by
  unfold Fld.at
  rw [Fld.rd_put_other f v h]

/-- A field reads as before where its word is another than the written one. -/
theorem Fld.at_wr_other (f : Fld) (m : RegMap) {base a : Nat} (v : Word) (h : base + f.off ≠ a) :
    f.at (wr m a v) base = f.at m base := by
  unfold Fld.at
  rw [rd_wr_other v h]

-- ---- registers and status bits of the device ------------------------------------------------------------------------

/-- A written register reads as what was written, cut to its width. -/
theorem Dev.liv_setLiv (d : Dev) (p : Nat) (f : Fld) (v : Nat) (h : f.hi < 32) :
    liv (d.setLiv p f v).regs p f = v % 2 ^ f.width := Fld.at_put f d.regs (pageBase p) v h

/-- A register of another word reads as before. -/
theorem Dev.liv_setLiv_other (d : Dev) {p q : Nat} {f g : Fld} (v : Nat)
    (h : pageBase q + g.off ≠ pageBase p + f.off) : liv (d.setLiv p f v).regs q g = liv d.regs q g :=
  Fld.at_put_other d.regs v h

/-- A set status bit shows what was set. -/
theorem Dev.status_setStatus (d : Dev) (p n : Nat) (b : Bool) (h : n < 32) : (d.setStatus p n b).status p n = b := by
  unfold Dev.status Dev.setStatus Dev.setWord
  rw [rd_wr_same, Word.toNat_ofNat (putBits_lt (BitVec.isLt _) h), bitOf_bitsOf, bitsOf_putBits]
  cases b <;> simp [bit]

/-- The other status bits of the page stay. -/
theorem Dev.status_setStatus_apart (d : Dev) (p : Nat) {n k : Nat} (b : Bool) (h : n < 32) (hk : k ≠ n) :
    (d.setStatus p n b).status p k = d.status p k := by
  unfold Dev.status Dev.setStatus Dev.setWord
  rw [rd_wr_same, Word.toNat_ofNat (putBits_lt (BitVec.isLt _) h), bitOf_bitsOf, bitOf_bitsOf,
    bitsOf_putBits_apart _ _ (by omega)]

/-- The status bits of other pages stay. -/
theorem Dev.status_setStatus_other (d : Dev) {p q n k : Nat} (b : Bool) (h : q ≠ p) :
    (d.setStatus p n b).status q k = d.status q k := by
  unfold Dev.status Dev.setStatus Dev.setWord
  rw [rd_wr_other _ (by unfold pageBase; omega)]

/-- A write of a register of another word leaves the status bits. -/
theorem Dev.status_setLiv (d : Dev) {p q k : Nat} {f : Fld} (v : Nat)
    (h : pageBase q + 0x010 ≠ pageBase p + f.off) : (d.setLiv p f v).status q k = d.status q k := by
  unfold Dev.status Dev.setLiv
  rw [Fld.rd_put_other f v h]

end Sys2Proof.Machine
end

