-- ==== Sys2Proof/Laws/Flags.lean ====
section
/-!
SUPPORT. What an event, a trouble entry, a journal entry, a bus error and an interrupt message can change: the form of
the device after each says it once, with the registers that stay as they were; every other field is as it was.
-/
namespace Sys2Proof.Machine

-- ---- forms ------------------------------------------------------------------------------------------------------

/-- Two register spaces agree outside some pages. -/
def RegMap.agree (m m' : RegMap) (out : Nat → Prop) : Prop := ∀ b, ¬ out b → rd m b = rd m' b

theorem RegMap.agree_refl (m : RegMap) (out : Nat → Prop) : m.agree m out := fun _ _ => rfl

theorem RegMap.agree_trans {m m' m'' : RegMap} {out : Nat → Prop} (h : m.agree m' out) (h' : m'.agree m'' out) :
    m.agree m'' out := fun b hb => (h b hb).trans (h' b hb)

theorem RegMap.agree_mono {m m' : RegMap} {out out' : Nat → Prop} (h : m.agree m' out) (ho : ∀ b, out b → out' b) :
    m.agree m' out' := fun b hb => h b fun hc => hb (ho b hc)

theorem RegMap.agree_wr (m : RegMap) {a : Nat} (v : Word) {out : Nat → Prop} (h : out a) : (wr m a v).agree m out :=
  fun b hb => rd_wr_other v (fun e => hb (e ▸ h))

theorem RegMap.agree_put (m : RegMap) (f : Fld) {base : Nat} (v : Nat) {out : Nat → Prop} (h : out (base + f.off)) :
    (f.put m base v).agree m out := fun b hb => Fld.rd_put_other f v (fun e => hb (e ▸ h))

/-- COUNT n of a page stands in it. -/
theorem countAddr_page {p n : Nat} (h : n < 500) : countAddr p n / 4096 = p := by unfold countAddr pageBase; omega

/-- Counting an event of a page other than AON changes its COUNT word only. -/
theorem Dev.bump_form (d : Dev) {p n : Nat} (hn : n < 500) (hp : p ≠ pgAon) :
    ∃ m, d.bump p n = { d with regs := m } ∧ m.agree d.regs (· = countAddr p n) := by
  unfold Dev.bump Dev.setHome
  rw [countAddr_page hn, if_neg hp]
  split_ifs
  · exact ⟨d.regs, rfl, RegMap.agree_refl _ _⟩
  · exact ⟨_, rfl, RegMap.agree_wr _ _ rfl⟩
  · exact ⟨d.regs, rfl, RegMap.agree_refl _ _⟩

/-- The same of any page, AON among them. -/
theorem Dev.bump_any (d : Dev) (p n : Nat) :
    ∃ m a, d.bump p n = { d with regs := m, aon := a } ∧ m.agree d.regs (· = countAddr p n) := by
  unfold Dev.bump Dev.setHome
  split_ifs
  · exact ⟨d.regs, d.aon, rfl, RegMap.agree_refl _ _⟩
  · exact ⟨d.regs, _, rfl, RegMap.agree_refl _ _⟩
  · exact ⟨_, d.aon, rfl, RegMap.agree_wr _ _ rfl⟩
  · exact ⟨d.regs, d.aon, rfl, RegMap.agree_refl _ _⟩

/-- Within the TROUBLE page. -/
abbrev inTrouble (b : Nat) : Prop := b / 4096 = pgTrouble

theorem trouble_count {n : Nat} (h : n < 500) (b : Nat) : b = countAddr pgTrouble n → inTrouble b := by
  rintro rfl; exact countAddr_page h

theorem put_trouble (f : Fld) (h : f.off < 4096) : inTrouble (pageBase pgTrouble + f.off) := by
  unfold inTrouble pageBase; omega

/-- What logging can do: the one device is the other but for registers of TROUBLE and the trouble log. -/
def Dev.logged (d d' : Dev) : Prop := ∃ m t, d' = { d with regs := m, tr := t } ∧ m.agree d.regs inTrouble

theorem Dev.logged_refl (d : Dev) : d.logged d := ⟨d.regs, d.tr, rfl, RegMap.agree_refl _ _⟩

theorem Dev.logged_trans {d e f : Dev} (h : d.logged e) (h' : e.logged f) : d.logged f := by
  obtain ⟨m, t, rfl, g⟩ := h
  obtain ⟨m', t', rfl, g'⟩ := h'
  exact ⟨m', t', rfl, RegMap.agree_trans g' g⟩

/-- A field of TROUBLE and the log itself are logging. -/
theorem Dev.logged_put (d : Dev) (t : Trouble) (f : Fld) (v : Nat) (h : f.off < 4096) :
    d.logged (({ d with tr := t } : Dev).setLiv pgTrouble f v) :=
  ⟨_, t, rfl, RegMap.agree_put _ _ _ (put_trouble f h)⟩

/-- So is the log alone. -/
theorem Dev.logged_tr (d : Dev) (t : Trouble) : d.logged { d with tr := t } := ⟨d.regs, t, rfl, RegMap.agree_refl _ _⟩

/-- So is a count of TROUBLE. -/
theorem Dev.logged_bump (d : Dev) {n : Nat} (hn : n < 500) : d.logged (d.bump pgTrouble n) := by
  obtain ⟨m, h, hm⟩ := Dev.bump_form d hn (show pgTrouble ≠ pgAon by decide)
  exact ⟨m, d.tr, h, RegMap.agree_mono hm (trouble_count hn)⟩

theorem Dev.logStore_form (d : Dev) (e : TEntry) : d.logged (d.logStore e) :=
  d.logged_put _ TROUBLE.TOTAL _ (by decide)

theorem Dev.countEntry_form (d : Dev) : d.logged d.countEntry := by
  have h := d.logged_bump (n := 4) (by decide)
  unfold Dev.countEntry
  dsimp only
  split
  · exact Dev.logged_trans h (Dev.logStore_form _ _)
  · exact h

theorem Dev.ownEvent_form (d : Dev) {n : Nat} (hn : n < 500) : d.logged (d.ownEvent n) := by
  have h := d.logged_bump hn
  unfold Dev.ownEvent
  dsimp only
  split
  · exact Dev.logged_trans h (Dev.logged_trans (Dev.logStore_form _ _) (Dev.countEntry_form _))
  · exact h

/-- A notification changes registers of TROUBLE and the trouble log. -/
theorem Dev.notify_form (d : Dev) (e : TEntry) : d.logged (d.notify e) := by
  have lost : d.logged ((({ d with tr := { d.tr with lost := d.tr.lost + 1 } } : Dev).setLiv pgTrouble
      TROUBLE.LOST_ERRORS (min (liv d.regs pgTrouble TROUBLE.LOST_ERRORS + 1) 0xFFFFFFFF)).ownEvent 5) :=
    Dev.logged_trans (d.logged_put _ TROUBLE.LOST_ERRORS _ (by decide)) (Dev.ownEvent_form _ (by decide))
  unfold Dev.notify
  dsimp only
  split <;> split <;> first | exact d.logged_tr _ | (split <;> first | exact d.logged_tr _ | exact lost)

/-- So does an entry with its events. -/
theorem Dev.logEntry_form (d : Dev) (e : TEntry) : d.logged (d.logEntry e) := by
  have notified : d.logged (if 1 ≤ e.severity then (d.logStore e).notify e else d.logStore e) := by
    split
    · exact Dev.logged_trans (Dev.logStore_form d e) (Dev.notify_form _ e)
    · exact Dev.logStore_form d e
  have counted := Dev.logged_trans notified (Dev.countEntry_form _)
  unfold Dev.logEntry
  dsimp only
  split
  · exact Dev.logged_trans counted (Dev.ownEvent_form _ (by decide))
  · exact counted

/-- So does the report of the entries dropped. -/
theorem Dev.reportDropped_form (d : Dev) : d.logged d.reportDropped := by
  unfold Dev.reportDropped
  split
  · exact d.logged_refl
  · exact Dev.logged_trans (Dev.logEntry_form d _) (Dev.logged_tr _ _)

/-- So does an entry offered to the trouble block. -/
theorem Dev.trouble_logged (d : Dev) (p c s g : Nat) : d.logged (d.trouble p c s g) := by
  unfold Dev.trouble
  split
  · exact d.logged_refl
  · dsimp only
    split
    · exact Dev.logged_trans (d.logged_put _ TROUBLE.DROPPED _ (by decide)) (Dev.ownEvent_form _ (by decide))
    · exact Dev.logged_trans (Dev.logged_trans d.reportDropped_form (Dev.logged_tr _ _)) (Dev.logEntry_form _ _)

theorem Dev.trouble_form (d : Dev) (p c s g : Nat) :
    ∃ m t, d.trouble p c s g = { d with regs := m, tr := t } ∧ m.agree d.regs inTrouble := d.trouble_logged p c s g

/-- An event changes its COUNT word, and what an entry of the trouble log changes. -/
theorem Dev.event_form (d : Dev) (p n : Nat) :
    ∃ m a t, d.event p n = { d with regs := m, aon := a, tr := t } ∧
      m.agree d.regs (fun b => b = countAddr p n ∨ inTrouble b) := by
  unfold Dev.event
  dsimp only
  obtain ⟨m, a, h, hm⟩ := Dev.bump_any d p n
  have hm1 := RegMap.agree_mono (out' := fun b => b = countAddr p n ∨ inTrouble b) hm (fun _ => Or.inl)
  rw [h]
  split
  · obtain ⟨m', t', h', hm'⟩ := Dev.trouble_form { d with regs := m, aon := a } p 0x7F sevNote n
    exact ⟨m', a, t', h', RegMap.agree_trans (RegMap.agree_mono hm' (fun _ => Or.inr)) hm1⟩
  · exact ⟨m, a, d.tr, rfl, hm1⟩

/-- The same of a page other than AON: its registers stay in the register space. -/
theorem Dev.event_regs (d : Dev) {p n : Nat} (hn : n < 500) (hp : p ≠ pgAon) :
    ∃ m t, d.event p n = { d with regs := m, tr := t } ∧
      m.agree d.regs (fun b => b = countAddr p n ∨ inTrouble b) := by
  unfold Dev.event
  dsimp only
  obtain ⟨m, h, hm⟩ := Dev.bump_form d hn hp
  have hm1 := RegMap.agree_mono (out' := fun b => b = countAddr p n ∨ inTrouble b) hm (fun _ => Or.inl)
  rw [h]
  split
  · obtain ⟨m', t', h', hm'⟩ := Dev.trouble_form { d with regs := m } p 0x7F sevNote n
    exact ⟨m', t', h', RegMap.agree_trans (RegMap.agree_mono hm' (fun _ => Or.inr)) hm1⟩
  · exact ⟨m, d.tr, rfl, hm1⟩

/-- Several events at once change the same. -/
theorem Dev.events_form (d : Dev) (p n k : Nat) :
    ∃ m a t, d.events p n k = { d with regs := m, aon := a, tr := t } ∧
      m.agree d.regs (fun b => b = countAddr p n ∨ inTrouble b) := by
  induction k generalizing d with
  | zero => exact ⟨d.regs, d.aon, d.tr, rfl, RegMap.agree_refl _ _⟩
  | succ k ih =>
    obtain ⟨m, a, t, h, hm⟩ := Dev.event_form d p n
    obtain ⟨m', a', t', h', hm'⟩ := ih (d.event p n)
    refine ⟨m', a', t', ?_, RegMap.agree_trans hm' (by rw [h]; exact hm)⟩
    unfold Dev.events
    rw [h', h]

/-- So does an event logged. -/
theorem Dev.eventLog_form (d : Dev) (p n s g : Nat) :
    ∃ m a t, d.eventLog p n s g = { d with regs := m, aon := a, tr := t } ∧
      m.agree d.regs (fun b => b = countAddr p n ∨ inTrouble b) := by
  unfold Dev.eventLog
  obtain ⟨m, a, t, h, hm⟩ := Dev.event_form d p n
  rw [h]
  obtain ⟨m', t', h', hm'⟩ := Dev.trouble_form { d with regs := m, aon := a, tr := t } p n s g
  exact ⟨m', a, t', h', RegMap.agree_trans (RegMap.agree_mono hm' (fun _ => Or.inr)) hm⟩

/-- So does an event logged as a warning. -/
theorem Dev.eventWarn_form (d : Dev) (p n : Nat) :
    ∃ m a t, d.eventWarn p n = { d with regs := m, aon := a, tr := t } ∧
      m.agree d.regs (fun b => b = countAddr p n ∨ inTrouble b) := by
  unfold Dev.eventWarn
  dsimp only
  obtain ⟨m, a, t, h, hm⟩ := Dev.event_form d p n
  rw [h]
  obtain ⟨m', t', h', hm'⟩ := Dev.trouble_form { d with regs := m, aon := a, tr := t } p n sevWarning
    (Dev.count { d with regs := m, aon := a, tr := t } p n)
  exact ⟨m', a, t', h', RegMap.agree_trans (RegMap.agree_mono hm' (fun _ => Or.inr)) hm⟩

/-- With CTRL off a bus error leaves no record. -/
theorem Dev.busError_off {d : Dev} (h : d.domainOn 1 = false) (a : Nat) (e : BusErr) (k : Nat) : d.busError a e k = d := by
  simp [Dev.busError, h]

/-- A bus error changes its two registers of DEV, its COUNT and what an entry of the trouble log changes. -/
theorem Dev.busError_form (d : Dev) (a : Nat) (e : BusErr) (k : Nat) :
    ∃ m t, d.busError a e k = { d with regs := m, tr := t } ∧
      m.agree d.regs (fun b => b = pageBase pgDev + DEV.BUS_ERR_ADDR.off ∨
        b = pageBase pgDev + DEV.BUS_ERR_INFO.LINK.off ∨ b = countAddr pgDev 4 ∨ inTrouble b) := by
  unfold Dev.busError
  split
  · exact ⟨d.regs, d.tr, rfl, RegMap.agree_refl _ _⟩
  · dsimp only [Dev.eventLog]
    obtain ⟨m, t, h, hm⟩ := Dev.event_regs (((d.setLiv pgDev DEV.BUS_ERR_ADDR a).setLiv pgDev DEV.BUS_ERR_INFO.LINK k).setLiv
      pgDev DEV.BUS_ERR_INFO.CODE e.code) (p := pgDev) (n := 4) (by decide) (by decide)
    rw [h]
    obtain ⟨m', t', h', hm'⟩ := Dev.trouble_form { ((d.setLiv pgDev DEV.BUS_ERR_ADDR a).setLiv pgDev
      DEV.BUS_ERR_INFO.LINK k).setLiv pgDev DEV.BUS_ERR_INFO.CODE e.code with regs := m, tr := t } pgDev 4 sevWarning
      (a % 2 ^ 24 + e.code * 2 ^ 24 + k * 2 ^ 32)
    refine ⟨m', t', h', ?_⟩
    refine RegMap.agree_trans (RegMap.agree_mono hm' fun b hb => ?_)
      (RegMap.agree_trans (RegMap.agree_mono hm fun b hb => ?_)
        (RegMap.agree_trans (RegMap.agree_put _ _ _ ?_)
          (RegMap.agree_trans (RegMap.agree_put _ _ _ ?_) (RegMap.agree_put _ _ _ ?_))))
    · exact Or.inr (Or.inr (Or.inr hb))
    · rcases hb with hb | hb
      · exact Or.inr (Or.inr (Or.inl hb))
      · exact Or.inr (Or.inr (Or.inr hb))
    · exact Or.inr (Or.inl rfl)
    · exact Or.inr (Or.inl rfl)
    · exact Or.inl rfl

/-- A journal entry changes registers of JOURNAL and TROUBLE, the journal and the trouble log. -/
theorem Dev.journal_form (d : Dev) (s : JSource) :
    ∃ m t j, d.journal s = { d with regs := m, tr := t, jr := j } ∧
      m.agree d.regs (fun b => b / 4096 = pgJournal ∨ inTrouble b) := by
  unfold Dev.journal
  split
  · exact ⟨d.regs, d.tr, d.jr, rfl, RegMap.agree_refl _ _⟩
  · dsimp only
    obtain ⟨m, t, h, hm⟩ := Dev.event_regs (Dev.setLiv (Dev.setLiv { d with jr := _ } pgJournal JOURNAL.NEXT_SEQ _) pgJournal
      JOURNAL.OLDEST_SEQ _) (p := pgJournal) (n := 4) (by decide) (by decide)
    refine ⟨m, t, _, h, ?_⟩
    have hin : ∀ f : Fld, f.off < 4096 → (pageBase pgJournal + f.off) / 4096 = pgJournal := by
      intro f hf; unfold pageBase; omega
    refine RegMap.agree_trans (RegMap.agree_mono hm fun b hb => ?_)
      (RegMap.agree_trans (RegMap.agree_put _ _ _ (Or.inl (hin JOURNAL.OLDEST_SEQ (by decide))))
        (RegMap.agree_put _ _ _ (Or.inl (hin JOURNAL.NEXT_SEQ (by decide)))))
    rcases hb with hb | hb
    · exact Or.inl (hb ▸ countAddr_page (by decide))
    · exact Or.inr hb

/-- A message of an interrupt vector changes the pending bits of PCIE and what the link has sent. -/
theorem Dev.msix_form (d : Dev) (v : Nat) : ∃ m q, d.msix v = { d with regs := m, pcie := q } := by
  unfold Dev.msix
  split_ifs
  · exact ⟨d.regs, d.pcie, rfl⟩
  · exact ⟨_, d.pcie, rfl⟩
  · exact ⟨d.regs, _, rfl⟩

/-- So does the message of a page's interrupt. -/
theorem Dev.irqMessage_form (d : Dev) (e : Nat) : ∃ m q, d.irqMessage e = { d with regs := m, pcie := q } := by
  unfold Dev.irqMessage
  split_ifs
  · exact Dev.msix_form d _
  · exact ⟨d.regs, d.pcie, rfl⟩

-- ---- fields that stay ---------------------------------------------------------------------------------------------


@[simp] theorem Dev.event_clk (d : Dev) (p n : Nat) : (d.event p n).clk = d.clk := by
  obtain ⟨_, _, _, h, -⟩ := d.event_form p n; rw [h]
@[simp] theorem Dev.event_bus (d : Dev) (p n : Nat) : (d.event p n).bus = d.bus := by
  obtain ⟨_, _, _, h, -⟩ := d.event_form p n; rw [h]
@[simp] theorem Dev.event_lineA (d : Dev) (p n : Nat) : (d.event p n).lineA = d.lineA := by
  obtain ⟨_, _, _, h, -⟩ := d.event_form p n; rw [h]
@[simp] theorem Dev.event_lineB (d : Dev) (p n : Nat) : (d.event p n).lineB = d.lineB := by
  obtain ⟨_, _, _, h, -⟩ := d.event_form p n; rw [h]
@[simp] theorem Dev.event_pins (d : Dev) (p n : Nat) : (d.event p n).pins = d.pins := by
  obtain ⟨_, _, _, h, -⟩ := d.event_form p n; rw [h]
@[simp] theorem Dev.event_pcie (d : Dev) (p n : Nat) : (d.event p n).pcie = d.pcie := by
  obtain ⟨_, _, _, h, -⟩ := d.event_form p n; rw [h]
@[simp] theorem Dev.event_mem (d : Dev) (p n : Nat) : (d.event p n).mem = d.mem := by
  obtain ⟨_, _, _, h, -⟩ := d.event_form p n; rw [h]
@[simp] theorem Dev.event_dma (d : Dev) (p n : Nat) : (d.event p n).dma = d.dma := by
  obtain ⟨_, _, _, h, -⟩ := d.event_form p n; rw [h]
@[simp] theorem Dev.event_codec (d : Dev) (p n : Nat) : (d.event p n).codec = d.codec := by
  obtain ⟨_, _, _, h, -⟩ := d.event_form p n; rw [h]
@[simp] theorem Dev.event_sahf (d : Dev) (p n : Nat) : (d.event p n).sahf = d.sahf := by
  obtain ⟨_, _, _, h, -⟩ := d.event_form p n; rw [h]
@[simp] theorem Dev.event_eth0 (d : Dev) (p n : Nat) : (d.event p n).eth0 = d.eth0 := by
  obtain ⟨_, _, _, h, -⟩ := d.event_form p n; rw [h]
@[simp] theorem Dev.event_eth1 (d : Dev) (p n : Nat) : (d.event p n).eth1 = d.eth1 := by
  obtain ⟨_, _, _, h, -⟩ := d.event_form p n; rw [h]
@[simp] theorem Dev.event_ptp (d : Dev) (p n : Nat) : (d.event p n).ptp = d.ptp := by
  obtain ⟨_, _, _, h, -⟩ := d.event_form p n; rw [h]
@[simp] theorem Dev.event_ser (d : Dev) (p n : Nat) : (d.event p n).ser = d.ser := by
  obtain ⟨_, _, _, h, -⟩ := d.event_form p n; rw [h]
@[simp] theorem Dev.event_pwr (d : Dev) (p n : Nat) : (d.event p n).pwr = d.pwr := by
  obtain ⟨_, _, _, h, -⟩ := d.event_form p n; rw [h]
@[simp] theorem Dev.event_aonSt (d : Dev) (p n : Nat) : (d.event p n).aonSt = d.aonSt := by
  obtain ⟨_, _, _, h, -⟩ := d.event_form p n; rw [h]
@[simp] theorem Dev.event_fm (d : Dev) (p n : Nat) : (d.event p n).fm = d.fm := by
  obtain ⟨_, _, _, h, -⟩ := d.event_form p n; rw [h]
@[simp] theorem Dev.event_reel (d : Dev) (p n : Nat) : (d.event p n).reel = d.reel := by
  obtain ⟨_, _, _, h, -⟩ := d.event_form p n; rw [h]
@[simp] theorem Dev.event_tap (d : Dev) (p n : Nat) : (d.event p n).tap = d.tap := by
  obtain ⟨_, _, _, h, -⟩ := d.event_form p n; rw [h]
@[simp] theorem Dev.event_jr (d : Dev) (p n : Nat) : (d.event p n).jr = d.jr := by
  obtain ⟨_, _, _, h, -⟩ := d.event_form p n; rw [h]
@[simp] theorem Dev.event_freeCtr (d : Dev) (p n : Nat) : (d.event p n).freeCtr = d.freeCtr := by
  obtain ⟨_, _, _, h, -⟩ := d.event_form p n; rw [h]
@[simp] theorem Dev.event_domainOn (d : Dev) (p n : Nat) (q : Nat) : (d.event p n).domainOn q = d.domainOn q := by
  obtain ⟨_, _, _, h, -⟩ := d.event_form p n; rw [h]; rfl
@[simp] theorem Dev.event_pageOn (d : Dev) (p n : Nat) (q : Nat) : (d.event p n).pageOn q = d.pageOn q := by
  obtain ⟨_, _, _, h, -⟩ := d.event_form p n; rw [h]; rfl
@[simp] theorem Dev.event_line (d : Dev) (p n : Nat) (x : Line) : (d.event p n).line x = d.line x := by
  obtain ⟨_, _, _, h, -⟩ := d.event_form p n; rw [h]; rfl

@[simp] theorem Dev.events_clk (d : Dev) (p n k : Nat) : (d.events p n k).clk = d.clk := by
  obtain ⟨_, _, _, h, -⟩ := d.events_form p n k; rw [h]
@[simp] theorem Dev.events_bus (d : Dev) (p n k : Nat) : (d.events p n k).bus = d.bus := by
  obtain ⟨_, _, _, h, -⟩ := d.events_form p n k; rw [h]
@[simp] theorem Dev.events_lineA (d : Dev) (p n k : Nat) : (d.events p n k).lineA = d.lineA := by
  obtain ⟨_, _, _, h, -⟩ := d.events_form p n k; rw [h]
@[simp] theorem Dev.events_lineB (d : Dev) (p n k : Nat) : (d.events p n k).lineB = d.lineB := by
  obtain ⟨_, _, _, h, -⟩ := d.events_form p n k; rw [h]
@[simp] theorem Dev.events_pins (d : Dev) (p n k : Nat) : (d.events p n k).pins = d.pins := by
  obtain ⟨_, _, _, h, -⟩ := d.events_form p n k; rw [h]
@[simp] theorem Dev.events_pcie (d : Dev) (p n k : Nat) : (d.events p n k).pcie = d.pcie := by
  obtain ⟨_, _, _, h, -⟩ := d.events_form p n k; rw [h]
@[simp] theorem Dev.events_mem (d : Dev) (p n k : Nat) : (d.events p n k).mem = d.mem := by
  obtain ⟨_, _, _, h, -⟩ := d.events_form p n k; rw [h]
@[simp] theorem Dev.events_dma (d : Dev) (p n k : Nat) : (d.events p n k).dma = d.dma := by
  obtain ⟨_, _, _, h, -⟩ := d.events_form p n k; rw [h]
@[simp] theorem Dev.events_codec (d : Dev) (p n k : Nat) : (d.events p n k).codec = d.codec := by
  obtain ⟨_, _, _, h, -⟩ := d.events_form p n k; rw [h]
@[simp] theorem Dev.events_sahf (d : Dev) (p n k : Nat) : (d.events p n k).sahf = d.sahf := by
  obtain ⟨_, _, _, h, -⟩ := d.events_form p n k; rw [h]
@[simp] theorem Dev.events_eth0 (d : Dev) (p n k : Nat) : (d.events p n k).eth0 = d.eth0 := by
  obtain ⟨_, _, _, h, -⟩ := d.events_form p n k; rw [h]
@[simp] theorem Dev.events_eth1 (d : Dev) (p n k : Nat) : (d.events p n k).eth1 = d.eth1 := by
  obtain ⟨_, _, _, h, -⟩ := d.events_form p n k; rw [h]
@[simp] theorem Dev.events_ptp (d : Dev) (p n k : Nat) : (d.events p n k).ptp = d.ptp := by
  obtain ⟨_, _, _, h, -⟩ := d.events_form p n k; rw [h]
@[simp] theorem Dev.events_ser (d : Dev) (p n k : Nat) : (d.events p n k).ser = d.ser := by
  obtain ⟨_, _, _, h, -⟩ := d.events_form p n k; rw [h]
@[simp] theorem Dev.events_pwr (d : Dev) (p n k : Nat) : (d.events p n k).pwr = d.pwr := by
  obtain ⟨_, _, _, h, -⟩ := d.events_form p n k; rw [h]
@[simp] theorem Dev.events_aonSt (d : Dev) (p n k : Nat) : (d.events p n k).aonSt = d.aonSt := by
  obtain ⟨_, _, _, h, -⟩ := d.events_form p n k; rw [h]
@[simp] theorem Dev.events_fm (d : Dev) (p n k : Nat) : (d.events p n k).fm = d.fm := by
  obtain ⟨_, _, _, h, -⟩ := d.events_form p n k; rw [h]
@[simp] theorem Dev.events_reel (d : Dev) (p n k : Nat) : (d.events p n k).reel = d.reel := by
  obtain ⟨_, _, _, h, -⟩ := d.events_form p n k; rw [h]
@[simp] theorem Dev.events_tap (d : Dev) (p n k : Nat) : (d.events p n k).tap = d.tap := by
  obtain ⟨_, _, _, h, -⟩ := d.events_form p n k; rw [h]
@[simp] theorem Dev.events_jr (d : Dev) (p n k : Nat) : (d.events p n k).jr = d.jr := by
  obtain ⟨_, _, _, h, -⟩ := d.events_form p n k; rw [h]
@[simp] theorem Dev.events_freeCtr (d : Dev) (p n k : Nat) : (d.events p n k).freeCtr = d.freeCtr := by
  obtain ⟨_, _, _, h, -⟩ := d.events_form p n k; rw [h]
@[simp] theorem Dev.events_domainOn (d : Dev) (p n k : Nat) (q : Nat) : (d.events p n k).domainOn q = d.domainOn q := by
  obtain ⟨_, _, _, h, -⟩ := d.events_form p n k; rw [h]; rfl
@[simp] theorem Dev.events_pageOn (d : Dev) (p n k : Nat) (q : Nat) : (d.events p n k).pageOn q = d.pageOn q := by
  obtain ⟨_, _, _, h, -⟩ := d.events_form p n k; rw [h]; rfl
@[simp] theorem Dev.events_line (d : Dev) (p n k : Nat) (x : Line) : (d.events p n k).line x = d.line x := by
  obtain ⟨_, _, _, h, -⟩ := d.events_form p n k; rw [h]; rfl

@[simp] theorem Dev.trouble_clk (d : Dev) (p c s g : Nat) : (d.trouble p c s g).clk = d.clk := by
  obtain ⟨_, _, h, -⟩ := d.trouble_form p c s g; rw [h]
@[simp] theorem Dev.trouble_aon (d : Dev) (p c s g : Nat) : (d.trouble p c s g).aon = d.aon := by
  obtain ⟨_, _, h, -⟩ := d.trouble_form p c s g; rw [h]
@[simp] theorem Dev.trouble_bus (d : Dev) (p c s g : Nat) : (d.trouble p c s g).bus = d.bus := by
  obtain ⟨_, _, h, -⟩ := d.trouble_form p c s g; rw [h]
@[simp] theorem Dev.trouble_lineA (d : Dev) (p c s g : Nat) : (d.trouble p c s g).lineA = d.lineA := by
  obtain ⟨_, _, h, -⟩ := d.trouble_form p c s g; rw [h]
@[simp] theorem Dev.trouble_lineB (d : Dev) (p c s g : Nat) : (d.trouble p c s g).lineB = d.lineB := by
  obtain ⟨_, _, h, -⟩ := d.trouble_form p c s g; rw [h]
@[simp] theorem Dev.trouble_pins (d : Dev) (p c s g : Nat) : (d.trouble p c s g).pins = d.pins := by
  obtain ⟨_, _, h, -⟩ := d.trouble_form p c s g; rw [h]
@[simp] theorem Dev.trouble_pcie (d : Dev) (p c s g : Nat) : (d.trouble p c s g).pcie = d.pcie := by
  obtain ⟨_, _, h, -⟩ := d.trouble_form p c s g; rw [h]
@[simp] theorem Dev.trouble_mem (d : Dev) (p c s g : Nat) : (d.trouble p c s g).mem = d.mem := by
  obtain ⟨_, _, h, -⟩ := d.trouble_form p c s g; rw [h]
@[simp] theorem Dev.trouble_dma (d : Dev) (p c s g : Nat) : (d.trouble p c s g).dma = d.dma := by
  obtain ⟨_, _, h, -⟩ := d.trouble_form p c s g; rw [h]
@[simp] theorem Dev.trouble_codec (d : Dev) (p c s g : Nat) : (d.trouble p c s g).codec = d.codec := by
  obtain ⟨_, _, h, -⟩ := d.trouble_form p c s g; rw [h]
@[simp] theorem Dev.trouble_sahf (d : Dev) (p c s g : Nat) : (d.trouble p c s g).sahf = d.sahf := by
  obtain ⟨_, _, h, -⟩ := d.trouble_form p c s g; rw [h]
@[simp] theorem Dev.trouble_eth0 (d : Dev) (p c s g : Nat) : (d.trouble p c s g).eth0 = d.eth0 := by
  obtain ⟨_, _, h, -⟩ := d.trouble_form p c s g; rw [h]
@[simp] theorem Dev.trouble_eth1 (d : Dev) (p c s g : Nat) : (d.trouble p c s g).eth1 = d.eth1 := by
  obtain ⟨_, _, h, -⟩ := d.trouble_form p c s g; rw [h]
@[simp] theorem Dev.trouble_ptp (d : Dev) (p c s g : Nat) : (d.trouble p c s g).ptp = d.ptp := by
  obtain ⟨_, _, h, -⟩ := d.trouble_form p c s g; rw [h]
@[simp] theorem Dev.trouble_ser (d : Dev) (p c s g : Nat) : (d.trouble p c s g).ser = d.ser := by
  obtain ⟨_, _, h, -⟩ := d.trouble_form p c s g; rw [h]
@[simp] theorem Dev.trouble_pwr (d : Dev) (p c s g : Nat) : (d.trouble p c s g).pwr = d.pwr := by
  obtain ⟨_, _, h, -⟩ := d.trouble_form p c s g; rw [h]
@[simp] theorem Dev.trouble_aonSt (d : Dev) (p c s g : Nat) : (d.trouble p c s g).aonSt = d.aonSt := by
  obtain ⟨_, _, h, -⟩ := d.trouble_form p c s g; rw [h]
@[simp] theorem Dev.trouble_fm (d : Dev) (p c s g : Nat) : (d.trouble p c s g).fm = d.fm := by
  obtain ⟨_, _, h, -⟩ := d.trouble_form p c s g; rw [h]
@[simp] theorem Dev.trouble_reel (d : Dev) (p c s g : Nat) : (d.trouble p c s g).reel = d.reel := by
  obtain ⟨_, _, h, -⟩ := d.trouble_form p c s g; rw [h]
@[simp] theorem Dev.trouble_tap (d : Dev) (p c s g : Nat) : (d.trouble p c s g).tap = d.tap := by
  obtain ⟨_, _, h, -⟩ := d.trouble_form p c s g; rw [h]
@[simp] theorem Dev.trouble_jr (d : Dev) (p c s g : Nat) : (d.trouble p c s g).jr = d.jr := by
  obtain ⟨_, _, h, -⟩ := d.trouble_form p c s g; rw [h]
@[simp] theorem Dev.trouble_freeCtr (d : Dev) (p c s g : Nat) : (d.trouble p c s g).freeCtr = d.freeCtr := by
  obtain ⟨_, _, h, -⟩ := d.trouble_form p c s g; rw [h]
@[simp] theorem Dev.trouble_domainOn (d : Dev) (p c s g : Nat) (q : Nat) : (d.trouble p c s g).domainOn q = d.domainOn q := by
  obtain ⟨_, _, h, -⟩ := d.trouble_form p c s g; rw [h]; rfl
@[simp] theorem Dev.trouble_pageOn (d : Dev) (p c s g : Nat) (q : Nat) : (d.trouble p c s g).pageOn q = d.pageOn q := by
  obtain ⟨_, _, h, -⟩ := d.trouble_form p c s g; rw [h]; rfl
@[simp] theorem Dev.trouble_line (d : Dev) (p c s g : Nat) (x : Line) : (d.trouble p c s g).line x = d.line x := by
  obtain ⟨_, _, h, -⟩ := d.trouble_form p c s g; rw [h]; rfl

@[simp] theorem Dev.eventLog_clk (d : Dev) (p n s g : Nat) : (d.eventLog p n s g).clk = d.clk := by
  obtain ⟨_, _, _, h, -⟩ := d.eventLog_form p n s g; rw [h]
@[simp] theorem Dev.eventLog_bus (d : Dev) (p n s g : Nat) : (d.eventLog p n s g).bus = d.bus := by
  obtain ⟨_, _, _, h, -⟩ := d.eventLog_form p n s g; rw [h]
@[simp] theorem Dev.eventLog_lineA (d : Dev) (p n s g : Nat) : (d.eventLog p n s g).lineA = d.lineA := by
  obtain ⟨_, _, _, h, -⟩ := d.eventLog_form p n s g; rw [h]
@[simp] theorem Dev.eventLog_lineB (d : Dev) (p n s g : Nat) : (d.eventLog p n s g).lineB = d.lineB := by
  obtain ⟨_, _, _, h, -⟩ := d.eventLog_form p n s g; rw [h]
@[simp] theorem Dev.eventLog_pins (d : Dev) (p n s g : Nat) : (d.eventLog p n s g).pins = d.pins := by
  obtain ⟨_, _, _, h, -⟩ := d.eventLog_form p n s g; rw [h]
@[simp] theorem Dev.eventLog_pcie (d : Dev) (p n s g : Nat) : (d.eventLog p n s g).pcie = d.pcie := by
  obtain ⟨_, _, _, h, -⟩ := d.eventLog_form p n s g; rw [h]
@[simp] theorem Dev.eventLog_mem (d : Dev) (p n s g : Nat) : (d.eventLog p n s g).mem = d.mem := by
  obtain ⟨_, _, _, h, -⟩ := d.eventLog_form p n s g; rw [h]
@[simp] theorem Dev.eventLog_dma (d : Dev) (p n s g : Nat) : (d.eventLog p n s g).dma = d.dma := by
  obtain ⟨_, _, _, h, -⟩ := d.eventLog_form p n s g; rw [h]
@[simp] theorem Dev.eventLog_codec (d : Dev) (p n s g : Nat) : (d.eventLog p n s g).codec = d.codec := by
  obtain ⟨_, _, _, h, -⟩ := d.eventLog_form p n s g; rw [h]
@[simp] theorem Dev.eventLog_sahf (d : Dev) (p n s g : Nat) : (d.eventLog p n s g).sahf = d.sahf := by
  obtain ⟨_, _, _, h, -⟩ := d.eventLog_form p n s g; rw [h]
@[simp] theorem Dev.eventLog_eth0 (d : Dev) (p n s g : Nat) : (d.eventLog p n s g).eth0 = d.eth0 := by
  obtain ⟨_, _, _, h, -⟩ := d.eventLog_form p n s g; rw [h]
@[simp] theorem Dev.eventLog_eth1 (d : Dev) (p n s g : Nat) : (d.eventLog p n s g).eth1 = d.eth1 := by
  obtain ⟨_, _, _, h, -⟩ := d.eventLog_form p n s g; rw [h]
@[simp] theorem Dev.eventLog_ptp (d : Dev) (p n s g : Nat) : (d.eventLog p n s g).ptp = d.ptp := by
  obtain ⟨_, _, _, h, -⟩ := d.eventLog_form p n s g; rw [h]
@[simp] theorem Dev.eventLog_ser (d : Dev) (p n s g : Nat) : (d.eventLog p n s g).ser = d.ser := by
  obtain ⟨_, _, _, h, -⟩ := d.eventLog_form p n s g; rw [h]
@[simp] theorem Dev.eventLog_pwr (d : Dev) (p n s g : Nat) : (d.eventLog p n s g).pwr = d.pwr := by
  obtain ⟨_, _, _, h, -⟩ := d.eventLog_form p n s g; rw [h]
@[simp] theorem Dev.eventLog_aonSt (d : Dev) (p n s g : Nat) : (d.eventLog p n s g).aonSt = d.aonSt := by
  obtain ⟨_, _, _, h, -⟩ := d.eventLog_form p n s g; rw [h]
@[simp] theorem Dev.eventLog_fm (d : Dev) (p n s g : Nat) : (d.eventLog p n s g).fm = d.fm := by
  obtain ⟨_, _, _, h, -⟩ := d.eventLog_form p n s g; rw [h]
@[simp] theorem Dev.eventLog_reel (d : Dev) (p n s g : Nat) : (d.eventLog p n s g).reel = d.reel := by
  obtain ⟨_, _, _, h, -⟩ := d.eventLog_form p n s g; rw [h]
@[simp] theorem Dev.eventLog_tap (d : Dev) (p n s g : Nat) : (d.eventLog p n s g).tap = d.tap := by
  obtain ⟨_, _, _, h, -⟩ := d.eventLog_form p n s g; rw [h]
@[simp] theorem Dev.eventLog_jr (d : Dev) (p n s g : Nat) : (d.eventLog p n s g).jr = d.jr := by
  obtain ⟨_, _, _, h, -⟩ := d.eventLog_form p n s g; rw [h]
@[simp] theorem Dev.eventLog_freeCtr (d : Dev) (p n s g : Nat) : (d.eventLog p n s g).freeCtr = d.freeCtr := by
  obtain ⟨_, _, _, h, -⟩ := d.eventLog_form p n s g; rw [h]
@[simp] theorem Dev.eventLog_domainOn (d : Dev) (p n s g : Nat) (q : Nat) : (d.eventLog p n s g).domainOn q = d.domainOn q := by
  obtain ⟨_, _, _, h, -⟩ := d.eventLog_form p n s g; rw [h]; rfl
@[simp] theorem Dev.eventLog_pageOn (d : Dev) (p n s g : Nat) (q : Nat) : (d.eventLog p n s g).pageOn q = d.pageOn q := by
  obtain ⟨_, _, _, h, -⟩ := d.eventLog_form p n s g; rw [h]; rfl
@[simp] theorem Dev.eventLog_line (d : Dev) (p n s g : Nat) (x : Line) : (d.eventLog p n s g).line x = d.line x := by
  obtain ⟨_, _, _, h, -⟩ := d.eventLog_form p n s g; rw [h]; rfl

@[simp] theorem Dev.eventWarn_clk (d : Dev) (p n : Nat) : (d.eventWarn p n).clk = d.clk := by
  obtain ⟨_, _, _, h, -⟩ := d.eventWarn_form p n; rw [h]
@[simp] theorem Dev.eventWarn_bus (d : Dev) (p n : Nat) : (d.eventWarn p n).bus = d.bus := by
  obtain ⟨_, _, _, h, -⟩ := d.eventWarn_form p n; rw [h]
@[simp] theorem Dev.eventWarn_lineA (d : Dev) (p n : Nat) : (d.eventWarn p n).lineA = d.lineA := by
  obtain ⟨_, _, _, h, -⟩ := d.eventWarn_form p n; rw [h]
@[simp] theorem Dev.eventWarn_lineB (d : Dev) (p n : Nat) : (d.eventWarn p n).lineB = d.lineB := by
  obtain ⟨_, _, _, h, -⟩ := d.eventWarn_form p n; rw [h]
@[simp] theorem Dev.eventWarn_pins (d : Dev) (p n : Nat) : (d.eventWarn p n).pins = d.pins := by
  obtain ⟨_, _, _, h, -⟩ := d.eventWarn_form p n; rw [h]
@[simp] theorem Dev.eventWarn_pcie (d : Dev) (p n : Nat) : (d.eventWarn p n).pcie = d.pcie := by
  obtain ⟨_, _, _, h, -⟩ := d.eventWarn_form p n; rw [h]
@[simp] theorem Dev.eventWarn_mem (d : Dev) (p n : Nat) : (d.eventWarn p n).mem = d.mem := by
  obtain ⟨_, _, _, h, -⟩ := d.eventWarn_form p n; rw [h]
@[simp] theorem Dev.eventWarn_dma (d : Dev) (p n : Nat) : (d.eventWarn p n).dma = d.dma := by
  obtain ⟨_, _, _, h, -⟩ := d.eventWarn_form p n; rw [h]
@[simp] theorem Dev.eventWarn_codec (d : Dev) (p n : Nat) : (d.eventWarn p n).codec = d.codec := by
  obtain ⟨_, _, _, h, -⟩ := d.eventWarn_form p n; rw [h]
@[simp] theorem Dev.eventWarn_sahf (d : Dev) (p n : Nat) : (d.eventWarn p n).sahf = d.sahf := by
  obtain ⟨_, _, _, h, -⟩ := d.eventWarn_form p n; rw [h]
@[simp] theorem Dev.eventWarn_eth0 (d : Dev) (p n : Nat) : (d.eventWarn p n).eth0 = d.eth0 := by
  obtain ⟨_, _, _, h, -⟩ := d.eventWarn_form p n; rw [h]
@[simp] theorem Dev.eventWarn_eth1 (d : Dev) (p n : Nat) : (d.eventWarn p n).eth1 = d.eth1 := by
  obtain ⟨_, _, _, h, -⟩ := d.eventWarn_form p n; rw [h]
@[simp] theorem Dev.eventWarn_ptp (d : Dev) (p n : Nat) : (d.eventWarn p n).ptp = d.ptp := by
  obtain ⟨_, _, _, h, -⟩ := d.eventWarn_form p n; rw [h]
@[simp] theorem Dev.eventWarn_ser (d : Dev) (p n : Nat) : (d.eventWarn p n).ser = d.ser := by
  obtain ⟨_, _, _, h, -⟩ := d.eventWarn_form p n; rw [h]
@[simp] theorem Dev.eventWarn_pwr (d : Dev) (p n : Nat) : (d.eventWarn p n).pwr = d.pwr := by
  obtain ⟨_, _, _, h, -⟩ := d.eventWarn_form p n; rw [h]
@[simp] theorem Dev.eventWarn_aonSt (d : Dev) (p n : Nat) : (d.eventWarn p n).aonSt = d.aonSt := by
  obtain ⟨_, _, _, h, -⟩ := d.eventWarn_form p n; rw [h]
@[simp] theorem Dev.eventWarn_fm (d : Dev) (p n : Nat) : (d.eventWarn p n).fm = d.fm := by
  obtain ⟨_, _, _, h, -⟩ := d.eventWarn_form p n; rw [h]
@[simp] theorem Dev.eventWarn_reel (d : Dev) (p n : Nat) : (d.eventWarn p n).reel = d.reel := by
  obtain ⟨_, _, _, h, -⟩ := d.eventWarn_form p n; rw [h]
@[simp] theorem Dev.eventWarn_tap (d : Dev) (p n : Nat) : (d.eventWarn p n).tap = d.tap := by
  obtain ⟨_, _, _, h, -⟩ := d.eventWarn_form p n; rw [h]
@[simp] theorem Dev.eventWarn_jr (d : Dev) (p n : Nat) : (d.eventWarn p n).jr = d.jr := by
  obtain ⟨_, _, _, h, -⟩ := d.eventWarn_form p n; rw [h]
@[simp] theorem Dev.eventWarn_freeCtr (d : Dev) (p n : Nat) : (d.eventWarn p n).freeCtr = d.freeCtr := by
  obtain ⟨_, _, _, h, -⟩ := d.eventWarn_form p n; rw [h]
@[simp] theorem Dev.eventWarn_domainOn (d : Dev) (p n : Nat) (q : Nat) : (d.eventWarn p n).domainOn q = d.domainOn q := by
  obtain ⟨_, _, _, h, -⟩ := d.eventWarn_form p n; rw [h]; rfl
@[simp] theorem Dev.eventWarn_pageOn (d : Dev) (p n : Nat) (q : Nat) : (d.eventWarn p n).pageOn q = d.pageOn q := by
  obtain ⟨_, _, _, h, -⟩ := d.eventWarn_form p n; rw [h]; rfl
@[simp] theorem Dev.eventWarn_line (d : Dev) (p n : Nat) (x : Line) : (d.eventWarn p n).line x = d.line x := by
  obtain ⟨_, _, _, h, -⟩ := d.eventWarn_form p n; rw [h]; rfl

@[simp] theorem Dev.busError_clk (d : Dev) (a : Nat) (e : BusErr) (k : Nat) : (d.busError a e k).clk = d.clk := by
  obtain ⟨_, _, h, -⟩ := d.busError_form a e k; rw [h]
@[simp] theorem Dev.busError_aon (d : Dev) (a : Nat) (e : BusErr) (k : Nat) : (d.busError a e k).aon = d.aon := by
  obtain ⟨_, _, h, -⟩ := d.busError_form a e k; rw [h]
@[simp] theorem Dev.busError_bus (d : Dev) (a : Nat) (e : BusErr) (k : Nat) : (d.busError a e k).bus = d.bus := by
  obtain ⟨_, _, h, -⟩ := d.busError_form a e k; rw [h]
@[simp] theorem Dev.busError_lineA (d : Dev) (a : Nat) (e : BusErr) (k : Nat) : (d.busError a e k).lineA = d.lineA := by
  obtain ⟨_, _, h, -⟩ := d.busError_form a e k; rw [h]
@[simp] theorem Dev.busError_lineB (d : Dev) (a : Nat) (e : BusErr) (k : Nat) : (d.busError a e k).lineB = d.lineB := by
  obtain ⟨_, _, h, -⟩ := d.busError_form a e k; rw [h]
@[simp] theorem Dev.busError_pins (d : Dev) (a : Nat) (e : BusErr) (k : Nat) : (d.busError a e k).pins = d.pins := by
  obtain ⟨_, _, h, -⟩ := d.busError_form a e k; rw [h]
@[simp] theorem Dev.busError_pcie (d : Dev) (a : Nat) (e : BusErr) (k : Nat) : (d.busError a e k).pcie = d.pcie := by
  obtain ⟨_, _, h, -⟩ := d.busError_form a e k; rw [h]
@[simp] theorem Dev.busError_mem (d : Dev) (a : Nat) (e : BusErr) (k : Nat) : (d.busError a e k).mem = d.mem := by
  obtain ⟨_, _, h, -⟩ := d.busError_form a e k; rw [h]
@[simp] theorem Dev.busError_dma (d : Dev) (a : Nat) (e : BusErr) (k : Nat) : (d.busError a e k).dma = d.dma := by
  obtain ⟨_, _, h, -⟩ := d.busError_form a e k; rw [h]
@[simp] theorem Dev.busError_codec (d : Dev) (a : Nat) (e : BusErr) (k : Nat) : (d.busError a e k).codec = d.codec := by
  obtain ⟨_, _, h, -⟩ := d.busError_form a e k; rw [h]
@[simp] theorem Dev.busError_sahf (d : Dev) (a : Nat) (e : BusErr) (k : Nat) : (d.busError a e k).sahf = d.sahf := by
  obtain ⟨_, _, h, -⟩ := d.busError_form a e k; rw [h]
@[simp] theorem Dev.busError_eth0 (d : Dev) (a : Nat) (e : BusErr) (k : Nat) : (d.busError a e k).eth0 = d.eth0 := by
  obtain ⟨_, _, h, -⟩ := d.busError_form a e k; rw [h]
@[simp] theorem Dev.busError_eth1 (d : Dev) (a : Nat) (e : BusErr) (k : Nat) : (d.busError a e k).eth1 = d.eth1 := by
  obtain ⟨_, _, h, -⟩ := d.busError_form a e k; rw [h]
@[simp] theorem Dev.busError_ptp (d : Dev) (a : Nat) (e : BusErr) (k : Nat) : (d.busError a e k).ptp = d.ptp := by
  obtain ⟨_, _, h, -⟩ := d.busError_form a e k; rw [h]
@[simp] theorem Dev.busError_ser (d : Dev) (a : Nat) (e : BusErr) (k : Nat) : (d.busError a e k).ser = d.ser := by
  obtain ⟨_, _, h, -⟩ := d.busError_form a e k; rw [h]
@[simp] theorem Dev.busError_pwr (d : Dev) (a : Nat) (e : BusErr) (k : Nat) : (d.busError a e k).pwr = d.pwr := by
  obtain ⟨_, _, h, -⟩ := d.busError_form a e k; rw [h]
@[simp] theorem Dev.busError_aonSt (d : Dev) (a : Nat) (e : BusErr) (k : Nat) : (d.busError a e k).aonSt = d.aonSt := by
  obtain ⟨_, _, h, -⟩ := d.busError_form a e k; rw [h]
@[simp] theorem Dev.busError_fm (d : Dev) (a : Nat) (e : BusErr) (k : Nat) : (d.busError a e k).fm = d.fm := by
  obtain ⟨_, _, h, -⟩ := d.busError_form a e k; rw [h]
@[simp] theorem Dev.busError_reel (d : Dev) (a : Nat) (e : BusErr) (k : Nat) : (d.busError a e k).reel = d.reel := by
  obtain ⟨_, _, h, -⟩ := d.busError_form a e k; rw [h]
@[simp] theorem Dev.busError_tap (d : Dev) (a : Nat) (e : BusErr) (k : Nat) : (d.busError a e k).tap = d.tap := by
  obtain ⟨_, _, h, -⟩ := d.busError_form a e k; rw [h]
@[simp] theorem Dev.busError_jr (d : Dev) (a : Nat) (e : BusErr) (k : Nat) : (d.busError a e k).jr = d.jr := by
  obtain ⟨_, _, h, -⟩ := d.busError_form a e k; rw [h]
@[simp] theorem Dev.busError_freeCtr (d : Dev) (a : Nat) (e : BusErr) (k : Nat) : (d.busError a e k).freeCtr = d.freeCtr := by
  obtain ⟨_, _, h, -⟩ := d.busError_form a e k; rw [h]
@[simp] theorem Dev.busError_domainOn (d : Dev) (a : Nat) (e : BusErr) (k : Nat) (q : Nat) : (d.busError a e k).domainOn q = d.domainOn q := by
  obtain ⟨_, _, h, -⟩ := d.busError_form a e k; rw [h]; rfl
@[simp] theorem Dev.busError_pageOn (d : Dev) (a : Nat) (e : BusErr) (k : Nat) (q : Nat) : (d.busError a e k).pageOn q = d.pageOn q := by
  obtain ⟨_, _, h, -⟩ := d.busError_form a e k; rw [h]; rfl
@[simp] theorem Dev.busError_line (d : Dev) (a : Nat) (e : BusErr) (k : Nat) (x : Line) : (d.busError a e k).line x = d.line x := by
  obtain ⟨_, _, h, -⟩ := d.busError_form a e k; rw [h]; rfl

@[simp] theorem Dev.journal_clk (d : Dev) (s : JSource) : (d.journal s).clk = d.clk := by
  obtain ⟨_, _, _, h, -⟩ := d.journal_form s; rw [h]
@[simp] theorem Dev.journal_aon (d : Dev) (s : JSource) : (d.journal s).aon = d.aon := by
  obtain ⟨_, _, _, h, -⟩ := d.journal_form s; rw [h]
@[simp] theorem Dev.journal_bus (d : Dev) (s : JSource) : (d.journal s).bus = d.bus := by
  obtain ⟨_, _, _, h, -⟩ := d.journal_form s; rw [h]
@[simp] theorem Dev.journal_lineA (d : Dev) (s : JSource) : (d.journal s).lineA = d.lineA := by
  obtain ⟨_, _, _, h, -⟩ := d.journal_form s; rw [h]
@[simp] theorem Dev.journal_lineB (d : Dev) (s : JSource) : (d.journal s).lineB = d.lineB := by
  obtain ⟨_, _, _, h, -⟩ := d.journal_form s; rw [h]
@[simp] theorem Dev.journal_pins (d : Dev) (s : JSource) : (d.journal s).pins = d.pins := by
  obtain ⟨_, _, _, h, -⟩ := d.journal_form s; rw [h]
@[simp] theorem Dev.journal_pcie (d : Dev) (s : JSource) : (d.journal s).pcie = d.pcie := by
  obtain ⟨_, _, _, h, -⟩ := d.journal_form s; rw [h]
@[simp] theorem Dev.journal_mem (d : Dev) (s : JSource) : (d.journal s).mem = d.mem := by
  obtain ⟨_, _, _, h, -⟩ := d.journal_form s; rw [h]
@[simp] theorem Dev.journal_dma (d : Dev) (s : JSource) : (d.journal s).dma = d.dma := by
  obtain ⟨_, _, _, h, -⟩ := d.journal_form s; rw [h]
@[simp] theorem Dev.journal_codec (d : Dev) (s : JSource) : (d.journal s).codec = d.codec := by
  obtain ⟨_, _, _, h, -⟩ := d.journal_form s; rw [h]
@[simp] theorem Dev.journal_sahf (d : Dev) (s : JSource) : (d.journal s).sahf = d.sahf := by
  obtain ⟨_, _, _, h, -⟩ := d.journal_form s; rw [h]
@[simp] theorem Dev.journal_eth0 (d : Dev) (s : JSource) : (d.journal s).eth0 = d.eth0 := by
  obtain ⟨_, _, _, h, -⟩ := d.journal_form s; rw [h]
@[simp] theorem Dev.journal_eth1 (d : Dev) (s : JSource) : (d.journal s).eth1 = d.eth1 := by
  obtain ⟨_, _, _, h, -⟩ := d.journal_form s; rw [h]
@[simp] theorem Dev.journal_ptp (d : Dev) (s : JSource) : (d.journal s).ptp = d.ptp := by
  obtain ⟨_, _, _, h, -⟩ := d.journal_form s; rw [h]
@[simp] theorem Dev.journal_ser (d : Dev) (s : JSource) : (d.journal s).ser = d.ser := by
  obtain ⟨_, _, _, h, -⟩ := d.journal_form s; rw [h]
@[simp] theorem Dev.journal_pwr (d : Dev) (s : JSource) : (d.journal s).pwr = d.pwr := by
  obtain ⟨_, _, _, h, -⟩ := d.journal_form s; rw [h]
@[simp] theorem Dev.journal_aonSt (d : Dev) (s : JSource) : (d.journal s).aonSt = d.aonSt := by
  obtain ⟨_, _, _, h, -⟩ := d.journal_form s; rw [h]
@[simp] theorem Dev.journal_fm (d : Dev) (s : JSource) : (d.journal s).fm = d.fm := by
  obtain ⟨_, _, _, h, -⟩ := d.journal_form s; rw [h]
@[simp] theorem Dev.journal_reel (d : Dev) (s : JSource) : (d.journal s).reel = d.reel := by
  obtain ⟨_, _, _, h, -⟩ := d.journal_form s; rw [h]
@[simp] theorem Dev.journal_tap (d : Dev) (s : JSource) : (d.journal s).tap = d.tap := by
  obtain ⟨_, _, _, h, -⟩ := d.journal_form s; rw [h]
@[simp] theorem Dev.journal_freeCtr (d : Dev) (s : JSource) : (d.journal s).freeCtr = d.freeCtr := by
  obtain ⟨_, _, _, h, -⟩ := d.journal_form s; rw [h]
@[simp] theorem Dev.journal_domainOn (d : Dev) (s : JSource) (q : Nat) : (d.journal s).domainOn q = d.domainOn q := by
  obtain ⟨_, _, _, h, -⟩ := d.journal_form s; rw [h]; rfl
@[simp] theorem Dev.journal_pageOn (d : Dev) (s : JSource) (q : Nat) : (d.journal s).pageOn q = d.pageOn q := by
  obtain ⟨_, _, _, h, -⟩ := d.journal_form s; rw [h]; rfl
@[simp] theorem Dev.journal_line (d : Dev) (s : JSource) (x : Line) : (d.journal s).line x = d.line x := by
  obtain ⟨_, _, _, h, -⟩ := d.journal_form s; rw [h]; rfl

@[simp] theorem Dev.irqMessage_clk (d : Dev) (e : Nat) : (d.irqMessage e).clk = d.clk := by
  obtain ⟨_, _, h⟩ := d.irqMessage_form e; rw [h]
@[simp] theorem Dev.irqMessage_aon (d : Dev) (e : Nat) : (d.irqMessage e).aon = d.aon := by
  obtain ⟨_, _, h⟩ := d.irqMessage_form e; rw [h]
@[simp] theorem Dev.irqMessage_bus (d : Dev) (e : Nat) : (d.irqMessage e).bus = d.bus := by
  obtain ⟨_, _, h⟩ := d.irqMessage_form e; rw [h]
@[simp] theorem Dev.irqMessage_lineA (d : Dev) (e : Nat) : (d.irqMessage e).lineA = d.lineA := by
  obtain ⟨_, _, h⟩ := d.irqMessage_form e; rw [h]
@[simp] theorem Dev.irqMessage_lineB (d : Dev) (e : Nat) : (d.irqMessage e).lineB = d.lineB := by
  obtain ⟨_, _, h⟩ := d.irqMessage_form e; rw [h]
@[simp] theorem Dev.irqMessage_pins (d : Dev) (e : Nat) : (d.irqMessage e).pins = d.pins := by
  obtain ⟨_, _, h⟩ := d.irqMessage_form e; rw [h]
@[simp] theorem Dev.irqMessage_mem (d : Dev) (e : Nat) : (d.irqMessage e).mem = d.mem := by
  obtain ⟨_, _, h⟩ := d.irqMessage_form e; rw [h]
@[simp] theorem Dev.irqMessage_dma (d : Dev) (e : Nat) : (d.irqMessage e).dma = d.dma := by
  obtain ⟨_, _, h⟩ := d.irqMessage_form e; rw [h]
@[simp] theorem Dev.irqMessage_codec (d : Dev) (e : Nat) : (d.irqMessage e).codec = d.codec := by
  obtain ⟨_, _, h⟩ := d.irqMessage_form e; rw [h]
@[simp] theorem Dev.irqMessage_sahf (d : Dev) (e : Nat) : (d.irqMessage e).sahf = d.sahf := by
  obtain ⟨_, _, h⟩ := d.irqMessage_form e; rw [h]
@[simp] theorem Dev.irqMessage_eth0 (d : Dev) (e : Nat) : (d.irqMessage e).eth0 = d.eth0 := by
  obtain ⟨_, _, h⟩ := d.irqMessage_form e; rw [h]
@[simp] theorem Dev.irqMessage_eth1 (d : Dev) (e : Nat) : (d.irqMessage e).eth1 = d.eth1 := by
  obtain ⟨_, _, h⟩ := d.irqMessage_form e; rw [h]
@[simp] theorem Dev.irqMessage_ptp (d : Dev) (e : Nat) : (d.irqMessage e).ptp = d.ptp := by
  obtain ⟨_, _, h⟩ := d.irqMessage_form e; rw [h]
@[simp] theorem Dev.irqMessage_ser (d : Dev) (e : Nat) : (d.irqMessage e).ser = d.ser := by
  obtain ⟨_, _, h⟩ := d.irqMessage_form e; rw [h]
@[simp] theorem Dev.irqMessage_pwr (d : Dev) (e : Nat) : (d.irqMessage e).pwr = d.pwr := by
  obtain ⟨_, _, h⟩ := d.irqMessage_form e; rw [h]
@[simp] theorem Dev.irqMessage_aonSt (d : Dev) (e : Nat) : (d.irqMessage e).aonSt = d.aonSt := by
  obtain ⟨_, _, h⟩ := d.irqMessage_form e; rw [h]
@[simp] theorem Dev.irqMessage_fm (d : Dev) (e : Nat) : (d.irqMessage e).fm = d.fm := by
  obtain ⟨_, _, h⟩ := d.irqMessage_form e; rw [h]
@[simp] theorem Dev.irqMessage_reel (d : Dev) (e : Nat) : (d.irqMessage e).reel = d.reel := by
  obtain ⟨_, _, h⟩ := d.irqMessage_form e; rw [h]
@[simp] theorem Dev.irqMessage_tap (d : Dev) (e : Nat) : (d.irqMessage e).tap = d.tap := by
  obtain ⟨_, _, h⟩ := d.irqMessage_form e; rw [h]
@[simp] theorem Dev.irqMessage_jr (d : Dev) (e : Nat) : (d.irqMessage e).jr = d.jr := by
  obtain ⟨_, _, h⟩ := d.irqMessage_form e; rw [h]
@[simp] theorem Dev.irqMessage_freeCtr (d : Dev) (e : Nat) : (d.irqMessage e).freeCtr = d.freeCtr := by
  obtain ⟨_, _, h⟩ := d.irqMessage_form e; rw [h]
@[simp] theorem Dev.irqMessage_domainOn (d : Dev) (e : Nat) (q : Nat) : (d.irqMessage e).domainOn q = d.domainOn q := by
  obtain ⟨_, _, h⟩ := d.irqMessage_form e; rw [h]; rfl
@[simp] theorem Dev.irqMessage_pageOn (d : Dev) (e : Nat) (q : Nat) : (d.irqMessage e).pageOn q = d.pageOn q := by
  obtain ⟨_, _, h⟩ := d.irqMessage_form e; rw [h]; rfl
@[simp] theorem Dev.irqMessage_line (d : Dev) (e : Nat) (x : Line) : (d.irqMessage e).line x = d.line x := by
  obtain ⟨_, _, h⟩ := d.irqMessage_form e; rw [h]; rfl

end Sys2Proof.Machine
end

