-- ==== Sys2Proof/Laws/Memory.lean ====
section
/-!
SUPPORT. The memories keep their canonical form: the DRAM's bytes under every operation that writes them, and the
words of the point-state SRAM.
-/
namespace Sys2Proof.Machine

/-- A line replaced keeps the memory canonical. -/
theorem Dev.putLine_wf {d : Dev} (h : Memory.wf d.mem.cells = true) (p l : Nat) (bytes : List Byte) :
    Memory.wf (d.putLine p l bytes).mem.cells = true := Sparse.setList_wf h _ _

/-- Poison leaves the bytes as they are. -/
@[simp] theorem Dev.setPoison_cells (d : Dev) (p l : Nat) (b : Bool) :
    (d.setPoison p l b).mem.cells = d.mem.cells := rfl

/-- The tracking of full writes leaves the bytes as they are. -/
@[simp] theorem Dev.trackLine_cells (d : Dev) (line : Nat) : (d.trackLine line).mem.cells = d.mem.cells := by
  unfold Dev.trackLine
  simp only
  split
  · rfl
  · split
    · split <;> rfl
    · split
      · rfl
      · rw [Dev.event_mem]

-- ---- operations that leave the bytes as they are -----------------------------------------------------------------

@[simp] theorem Dev.setQueue_cells (d : Dev) (s : Nat) (q : List MemReq) : (d.setQueue s q).mem.cells = d.mem.cells := rfl
@[simp] theorem Dev.answer_cells (d : Dev) (p l s : Nat) (b : List Byte) : (d.answer p l s b).mem.cells = d.mem.cells := rfl
@[simp] theorem openRow_cells (d : Dev) (r : Nat × Nat) : (openRow d r).mem.cells = d.mem.cells := rfl
@[simp] theorem Dev.queueBack_cells (d : Dev) (l : Nat) : (d.queueBack l).mem.cells = d.mem.cells := by
  unfold Dev.queueBack; split <;> rfl
@[simp] theorem Dev.degrade_cells (d : Dev) (p : Nat) : (d.degrade p).mem.cells = d.mem.cells := by
  unfold Dev.degrade; dsimp only; split
  · rfl
  · rw [Dev.eventLog_mem]; rfl
@[simp] theorem Dev.startMigration_cells (d : Dev) (s t : Nat) : (d.startMigration s t).mem.cells = d.mem.cells := rfl
@[simp] theorem Dev.showSpare_cells (d : Dev) : d.showSpare.mem.cells = d.mem.cells := rfl
@[simp] theorem Dev.setRankState_cells (d : Dev) (p v : Nat) : (d.setRankState p v).mem.cells = d.mem.cells := rfl
@[simp] theorem Dev.memError_cells (d : Dev) (l p e k : Nat) : (d.memError l p e k).mem.cells = d.mem.cells := rfl

/-- A rank declared failing keeps its bytes. -/
@[simp] theorem Dev.declareFailing_cells (d : Dev) (p : Nat) : (d.declareFailing p).mem.cells = d.mem.cells := by
  unfold Dev.declareFailing
  dsimp only
  repeat' split
  all_goals simp [Dev.onMem]

/-- So does a line corrected. -/
@[simp] theorem Dev.correctedLine_cells (d : Dev) (l p e : Nat) : (d.correctedLine l p e).mem.cells = d.mem.cells := by
  unfold Dev.correctedLine
  dsimp only
  repeat' split
  all_goals simp [Dev.trouble_mem, Dev.onMem]

/-- So does a line decoded, whatever its code says. -/
@[simp] theorem Dev.codeLine_cells (d : Dev) (l p k : Nat) (c : Ecc) : (d.codeLine l p k c).1.mem.cells = d.mem.cells := by
  unfold Dev.codeLine
  dsimp only
  repeat' split
  all_goals simp

@[simp] theorem closeRows_cells (d : Dev) (p : Nat) : (closeRows d p).mem.cells = d.mem.cells := rfl
@[simp] theorem Dev.issueRefreshes_cells (d : Dev) (p w n : Nat) : (d.issueRefreshes p w n).mem.cells = d.mem.cells := by
  unfold Dev.issueRefreshes; split <;> rfl
@[simp] theorem payRefresh_cells (d : Dev) (p : Nat) : (payRefresh d p).mem.cells = d.mem.cells := by
  unfold payRefresh; dsimp only; split
  · rfl
  · simp [Dev.onMem]
@[simp] theorem leaveSr_cells (d : Dev) (p : Nat) : (leaveSr d p).mem.cells = d.mem.cells := by
  unfold leaveSr; dsimp only; split <;> rfl

/-- So does the wait for a rank. -/
@[simp] theorem Dev.wake_cells (d : Dev) (p : Nat) : (d.wake p).mem.cells = d.mem.cells := by
  unfold Dev.wake
  dsimp only
  repeat' split
  all_goals simp [Dev.onMem]
@[simp] theorem Dev.awaitRank_cells (d : Dev) (p : Nat) : (d.awaitRank p).mem.cells = d.mem.cells := by
  unfold Dev.awaitRank
  dsimp only
  split <;> simp

-- ---- operations that write -----------------------------------------------------------------------------------------

/-- A write of one line keeps the memory canonical. -/
theorem Dev.writeLine_wf {d : Dev} (h : Memory.wf d.mem.cells = true) (line : Nat) (bytes : List (Option Byte))
    (c : Ecc) : Memory.wf (d.writeLine line bytes c).1.mem.cells = true := by
  unfold Dev.writeLine
  dsimp only
  split
  · exact h
  · split
    · exact h
    · split
      · simpa using Dev.putLine_wf h _ _ _
      · split
        · simpa using h
        · split
          · simpa using Dev.putLine_wf (by simpa using h) _ _ _
          · exact Dev.putLine_wf (by simpa using h) _ _ _

/-- A request served keeps the memory canonical. -/
theorem serveReq_wf {d : Dev} (h : Memory.wf d.mem.cells = true) (r : MemReq) (c : Ecc) :
    Memory.wf (serveReq d r c).mem.cells = true := by
  unfold serveReq
  dsimp only
  split
  · exact h
  · split
    · split
      · simpa using h
      · simpa using h
    · exact Dev.writeLine_wf h _ _ _

/-- So do requests served one after another. -/
theorem serveReqs_wf (rs : List MemReq) : ∀ {d : Dev}, Memory.wf d.mem.cells = true →
    Memory.wf (rs.foldl (fun d r => serveReq d r .clean) d).mem.cells = true := by
  induction rs with
  | nil => exact fun h => h
  | cons r rs ih => exact fun h => ih (serveReq_wf h r _)

/-- So do the requests of a row that were queued before an access. -/
theorem Dev.serveOlder_wf {d : Dev} (h : Memory.wf d.mem.cells = true) (s : Nat) (f : MemReq → Bool) :
    Memory.wf (d.serveOlder s f).mem.cells = true := by
  unfold Dev.serveOlder
  dsimp only
  split
  · exact serveReqs_wf _ h
  · exact h

/-- So does all that stands before an access of a line. -/
theorem Dev.reachLine_wf {d : Dev} (h : Memory.wf d.mem.cells = true) (line : Nat) :
    Memory.wf (d.reachLine line).mem.cells = true := by
  unfold Dev.reachLine
  dsimp only
  split
  · exact h
  · simpa using Dev.serveOlder_wf (by simpa using h) _ _

/-- So do the regions a fill clears. -/
theorem Dev.fillRegions_wf {d : Dev} (h : Memory.wf d.mem.cells = true) (first n : Nat) :
    Memory.wf (d.fillRegions first n).mem.cells = true := by
  have served (f : MemReq → Bool) (ss : List Nat) : ∀ {d : Dev}, Memory.wf d.mem.cells = true →
      Memory.wf (ss.foldl (fun d s => d.serveOlder s f) d).mem.cells = true := by
    induction ss with
    | nil => exact fun h => h
    | cons s ss ih => exact fun h => ih (Dev.serveOlder_wf h s f)
  exact Sparse.filter_wf (served _ _ h) _

/-- So does what a fill under way has cleared by now. -/
theorem Dev.fillStep_wf {d : Dev} (h : Memory.wf d.mem.cells = true) : Memory.wf d.fillStep.mem.cells = true := by
  unfold Dev.fillStep
  dsimp only
  split
  · exact h
  · split
    · exact h
    · simp only [Dev.setLiv_mem, Dev.onMem_mem]
      exact Dev.fillRegions_wf (d := d.tookFree) h _ _

/-- A write of several lines keeps the memory canonical. -/
theorem Dev.writeLines_wf (data : Nat → List (Option Byte)) (ls : List Nat) : ∀ {d : Dev} (c : Ecc) (st : MemStatus),
    Memory.wf d.mem.cells = true → Memory.wf (d.writeLines data ls c st).1.mem.cells = true := by
  induction ls with
  | nil => exact fun _ _ h => h
  | cons l ls ih => exact fun _ _ h => ih _ _ (Dev.writeLine_wf (Dev.reachLine_wf h l) _ _ _)

/-- A write of bytes keeps the memory canonical. -/
theorem Dev.memWrite_wf {d : Dev} (h : Memory.wf d.mem.cells = true) (addr : Nat) (data : List Byte) (c : Ecc) :
    Memory.wf (d.memWrite addr data c).1.mem.cells = true := by
  unfold Dev.memWrite
  split
  · exact h
  · exact Dev.writeLines_wf _ _ _ _ (Dev.fillStep_wf h)

/-- A read of lines keeps the memory canonical. -/
theorem Dev.codeLines_wf (faults : List (Nat × Ecc)) (ls : List Nat) : ∀ {d : Dev} (bad : Option Nat),
    Memory.wf d.mem.cells = true → Memory.wf (d.codeLines faults ls bad).1.mem.cells = true := by
  induction ls with
  | nil => exact fun _ h => h
  | cons l ls ih =>
    intro d bad h
    unfold Dev.codeLines
    dsimp only
    split
    · exact ih _ h
    · split
      · exact ih _ (Dev.reachLine_wf h l)
      · exact ih _ (by simpa using Dev.reachLine_wf h l)

/-- A read of bytes keeps the memory canonical. -/
theorem Dev.memReadWith_wf {d : Dev} (h : Memory.wf d.mem.cells = true) (addr n : Nat) (faults : List (Nat × Ecc)) :
    Memory.wf (d.memReadWith addr n faults).1.mem.cells = true := by
  unfold Dev.memReadWith
  dsimp only
  split
  · exact h
  · split
    · exact Dev.codeLines_wf _ _ _ (Dev.fillStep_wf h)
    · simpa using Dev.fillStep_wf h
    · exact Dev.fillStep_wf h

/-- What a fill clears leaves the memory canonical. -/
theorem Memory.filter_wf {m : List Host.Cell} (h : Memory.wf m = true) (p : Host.Cell → Bool) :
    Memory.wf (m.filter p) = true := Sparse.filter_wf h p

/-- A word of the SRAM written keeps its words canonical. -/
theorem Dev.sramSet_wf {d : Dev} (h : Sparse.wf (fun _ => (0 : Word)) d.sram.words = true) (bank word : Nat)
    (v : Word) : Sparse.wf (fun _ => (0 : Word)) (d.sramSet bank word v).sram.words = true := Sparse.set_wf h _ _

/-- The memories right after V_AON is applied are canonical. -/
theorem State.reset_memory_wf : Memory.wf State.reset.dev.mem.cells = true ∧
    Sparse.wf (fun _ => (0 : Word)) State.reset.dev.sram.words = true ∧ RegMap.wf State.reset.dev.regs = true ∧
    RegMap.wf State.reset.dev.aon = true := ⟨rfl, rfl, rfl, rfl⟩

end Sys2Proof.Machine
end

