-- ==== Sys2Proof/Laws/Pages.lean ====
section
/-!
SUPPORT. The domain that powers each page of the directory (R16, R463), page by page.
-/
namespace Sys2Proof.Machine

/-- A page of the directory is on when its domain is. -/
theorem Dev.pageOn_of {d : Dev} {p : Nat} {pg : Page} (h : pageOf p = some pg) : d.pageOn p = d.domainOn pg.domain := by
  unfold Dev.pageOn
  rw [h]

/-- A command of a page that is on has its effect. -/
theorem Dev.guarded_on {d : Dev} {k : Link} {p off : Nat} {f : Dev → Dev} (h : d.pageOn p = true) :
    d.guarded k p off f = f d := by
  unfold Dev.guarded
  rw [if_pos h]

/-- A command of a page whose domain is off is a bus error (R42). -/
theorem Dev.guarded_off {d : Dev} {k : Link} {p off : Nat} {f : Dev → Dev} (h : d.pageOn p = false) :
    d.guarded k p off f = d.busError (pageBase p + off) .domainOff (linkCode k) := by
  unfold Dev.guarded
  rw [if_neg (by rw [h]; exact Bool.false_ne_true)]

@[simp] theorem pageOf_pgDev : pageOf pgDev = some ⟨0x000, .dev, 0, 0x0001, 0, 1, 0⟩ := rfl

@[simp] theorem Dev.pageOn_pgDev (d : Dev) : d.pageOn pgDev = d.domainOn 1 := rfl

@[simp] theorem pageOf_pgForeman : pageOf pgForeman = some ⟨0x100, .foreman, 0, 0x1001, 0, 1, 0⟩ := rfl

@[simp] theorem Dev.pageOn_pgForeman (d : Dev) : d.pageOn pgForeman = d.domainOn 1 := rfl

@[simp] theorem pageOf_pgJournal : pageOf pgJournal = some ⟨0x101, .journal, 0, 0x1002, 0, 1, 0⟩ := rfl

@[simp] theorem Dev.pageOn_pgJournal (d : Dev) : d.pageOn pgJournal = d.domainOn 1 := rfl

@[simp] theorem pageOf_pgTrouble : pageOf pgTrouble = some ⟨0x102, .trouble, 0, 0x1003, 0, 1, 0⟩ := rfl

@[simp] theorem Dev.pageOn_pgTrouble (d : Dev) : d.pageOn pgTrouble = d.domainOn 1 := rfl

@[simp] theorem pageOf_pgHk : pageOf pgHk = some ⟨0x103, .hk, 0, 0x1004, 0, 1, 5⟩ := rfl

@[simp] theorem Dev.pageOn_pgHk (d : Dev) : d.pageOn pgHk = d.domainOn 1 := rfl

@[simp] theorem pageOf_pgPfe : pageOf pgPfe = some ⟨0x104, .pfe, 0, 0x1005, 0, 9, 5⟩ := rfl

@[simp] theorem Dev.pageOn_pgPfe (d : Dev) : d.pageOn pgPfe = d.domainOn 9 := rfl

@[simp] theorem pageOf_pgTally : pageOf pgTally = some ⟨0x107, .tally, 0, 0x1007, 0, 1, 0⟩ := rfl

@[simp] theorem Dev.pageOn_pgTally (d : Dev) : d.pageOn pgTally = d.domainOn 1 := rfl

@[simp] theorem pageOf_pgPwr : pageOf pgPwr = some ⟨0x108, .pwr, 0, 0x1008, 0, 1, 0⟩ := rfl

@[simp] theorem Dev.pageOn_pgPwr (d : Dev) : d.pageOn pgPwr = d.domainOn 1 := rfl

@[simp] theorem pageOf_pgMemx : pageOf pgMemx = some ⟨0x504, .memx, 0, 0x5002, 0, 4, 0⟩ := rfl

@[simp] theorem Dev.pageOn_pgMemx (d : Dev) : d.pageOn pgMemx = d.domainOn 4 := rfl

@[simp] theorem pageOf_pgSram : pageOf pgSram = some ⟨0x505, .sram, 0, 0x5003, 0, 4, 0⟩ := rfl

@[simp] theorem Dev.pageOn_pgSram (d : Dev) : d.pageOn pgSram = d.domainOn 4 := rfl

@[simp] theorem pageOf_pgDma : pageOf pgDma = some ⟨0x506, .dma, 0, 0x5004, 0, 4, 6⟩ := rfl

@[simp] theorem Dev.pageOn_pgDma (d : Dev) : d.pageOn pgDma = d.domainOn 4 := rfl

@[simp] theorem pageOf_pgCodec : pageOf pgCodec = some ⟨0x507, .codec, 0, 0x5005, 0, 11, 7⟩ := rfl

@[simp] theorem Dev.pageOn_pgCodec (d : Dev) : d.pageOn pgCodec = d.domainOn 11 := rfl

@[simp] theorem pageOf_pgPcie : pageOf pgPcie = some ⟨0x600, .pcie, 0, 0x6001, 0, 2, 4⟩ := rfl

@[simp] theorem Dev.pageOn_pgPcie (d : Dev) : d.pageOn pgPcie = d.domainOn 2 := rfl

@[simp] theorem pageOf_pgPtp : pageOf pgPtp = some ⟨0x603, .ptp, 0, 0x6003, 0, 2, 4⟩ := rfl

@[simp] theorem Dev.pageOn_pgPtp (d : Dev) : d.pageOn pgPtp = d.domainOn 2 := rfl

@[simp] theorem pageOf_pgSahf : pageOf pgSahf = some ⟨0x604, .sahf, 0, 0x6004, 0, 2, 4⟩ := rfl

@[simp] theorem Dev.pageOn_pgSahf (d : Dev) : d.pageOn pgSahf = d.domainOn 2 := rfl

@[simp] theorem pageOf_pgSpis : pageOf pgSpis = some ⟨0x605, .spis, 0, 0x6005, 0, 2, 4⟩ := rfl

@[simp] theorem Dev.pageOn_pgSpis (d : Dev) : d.pageOn pgSpis = d.domainOn 2 := rfl

@[simp] theorem pageOf_pgLegacy : pageOf pgLegacy = some ⟨0x606, .legacy, 0, 0x6006, 0, 2, 4⟩ := rfl

@[simp] theorem Dev.pageOn_pgLegacy (d : Dev) : d.pageOn pgLegacy = d.domainOn 2 := rfl

@[simp] theorem pageOf_pgI2cm : pageOf pgI2cm = some ⟨0x607, .i2cm, 0, 0x6007, 0, 3, 4⟩ := rfl

@[simp] theorem Dev.pageOn_pgI2cm (d : Dev) : d.pageOn pgI2cm = d.domainOn 3 := rfl

@[simp] theorem pageOf_pgAon : pageOf pgAon = some ⟨0x700, .aon, 0, 0x7001, 0, 0, 9⟩ := rfl

@[simp] theorem Dev.pageOn_pgAon (d : Dev) : d.pageOn pgAon = d.domainOn 0 := rfl

-- pgTiu
@[simp] theorem Dev.pageOn_pgTiu_0 (d : Dev) : d.pageOn (pgTiu 0) = d.domainOn 1 := rfl

@[simp] theorem Dev.pageOn_pgTiu_1 (d : Dev) : d.pageOn (pgTiu 1) = d.domainOn 1 := rfl

-- pgDdr
@[simp] theorem Dev.pageOn_pgDdr_0 (d : Dev) : d.pageOn (pgDdr 0) = d.domainOn 4 := rfl

@[simp] theorem Dev.pageOn_pgDdr_1 (d : Dev) : d.pageOn (pgDdr 1) = d.domainOn 4 := rfl

@[simp] theorem Dev.pageOn_pgDdr_2 (d : Dev) : d.pageOn (pgDdr 2) = d.domainOn 4 := rfl

@[simp] theorem Dev.pageOn_pgDdr_3 (d : Dev) : d.pageOn (pgDdr 3) = d.domainOn 4 := rfl

-- pgEth
@[simp] theorem Dev.pageOn_pgEth_0 (d : Dev) : d.pageOn (pgEth 0) = d.domainOn 3 := rfl

@[simp] theorem Dev.pageOn_pgEth_1 (d : Dev) : d.pageOn (pgEth 1) = d.domainOn 3 := rfl

@[simp] theorem pageOf_pgShot_a : pageOf (pgShot .a) = some ⟨0x200, .shot, 0, 0x2001, 0, 10, 1⟩ := rfl

@[simp] theorem pageOf_pgShot_b : pageOf (pgShot .b) = some ⟨0x201, .shot, 1, 0x2001, 1, 10, 1⟩ := rfl

@[simp] theorem Dev.pageOn_pgShot (d : Dev) (x : Line) : d.pageOn (pgShot x) = d.domainOn 10 := by
  cases x <;> rfl

@[simp] theorem pageOf_pgSyn_a : pageOf (pgSyn .a) = some ⟨0x202, .syn, 0, 0x2002, 0, 5, 1⟩ := rfl

@[simp] theorem pageOf_pgSyn_b : pageOf (pgSyn .b) = some ⟨0x203, .syn, 1, 0x2003, 0, 6, 1⟩ := rfl

@[simp] theorem Dev.pageOn_pgSyn_a (d : Dev) : d.pageOn (pgSyn .a) = d.domainOn 5 := rfl

@[simp] theorem Dev.pageOn_pgSyn_b (d : Dev) : d.pageOn (pgSyn .b) = d.domainOn 6 := rfl

@[simp] theorem pageOf_pgEmit_a : pageOf (pgEmit .a) = some ⟨0x204, .emit, 0, 0x2004, 0, 10, 1⟩ := rfl

@[simp] theorem pageOf_pgEmit_b : pageOf (pgEmit .b) = some ⟨0x205, .emit, 1, 0x2004, 1, 10, 1⟩ := rfl

@[simp] theorem Dev.pageOn_pgEmit (d : Dev) (x : Line) : d.pageOn (pgEmit x) = d.domainOn 10 := by
  cases x <;> rfl

@[simp] theorem pageOf_pgCanary_a : pageOf (pgCanary .a) = some ⟨0x206, .canary, 0, 0x2005, 0, 10, 1⟩ := rfl

@[simp] theorem pageOf_pgCanary_b : pageOf (pgCanary .b) = some ⟨0x207, .canary, 1, 0x2005, 1, 10, 1⟩ := rfl

@[simp] theorem Dev.pageOn_pgCanary (d : Dev) (x : Line) : d.pageOn (pgCanary x) = d.domainOn 10 := by
  cases x <;> rfl

@[simp] theorem pageOf_pgLane_a : pageOf (pgLane .a) = some ⟨0x300, .lane, 0, 0x3001, 0, 5, 1⟩ := rfl

@[simp] theorem pageOf_pgLane_b : pageOf (pgLane .b) = some ⟨0x301, .lane, 1, 0x3002, 0, 6, 1⟩ := rfl

@[simp] theorem Dev.pageOn_pgLane_a (d : Dev) : d.pageOn (pgLane .a) = d.domainOn 5 := rfl

@[simp] theorem Dev.pageOn_pgLane_b (d : Dev) : d.pageOn (pgLane .b) = d.domainOn 6 := rfl

@[simp] theorem pageOf_pgRaml_a : pageOf (pgRaml .a) = some ⟨0x302, .raml, 0, 0x3003, 0, 8, 1⟩ := rfl

@[simp] theorem pageOf_pgRaml_b : pageOf (pgRaml .b) = some ⟨0x303, .raml, 1, 0x3003, 1, 8, 1⟩ := rfl

@[simp] theorem Dev.pageOn_pgRaml (d : Dev) (x : Line) : d.pageOn (pgRaml x) = d.domainOn 8 := by
  cases x <;> rfl

@[simp] theorem pageOf_pgTrim_a : pageOf (pgTrim .a) = some ⟨0x304, .trim, 0, 0x3004, 0, 5, 1⟩ := rfl

@[simp] theorem pageOf_pgTrim_b : pageOf (pgTrim .b) = some ⟨0x305, .trim, 1, 0x3004, 1, 6, 1⟩ := rfl

@[simp] theorem Dev.pageOn_pgTrim_a (d : Dev) : d.pageOn (pgTrim .a) = d.domainOn 5 := rfl

@[simp] theorem Dev.pageOn_pgTrim_b (d : Dev) : d.pageOn (pgTrim .b) = d.domainOn 6 := rfl

@[simp] theorem pageOf_pgChan_a : pageOf (pgChan .a) = some ⟨0x400, .chan, 0, 0x4001, 0, 7, 1⟩ := rfl

@[simp] theorem pageOf_pgChan_b : pageOf (pgChan .b) = some ⟨0x401, .chan, 1, 0x4002, 0, 7, 1⟩ := rfl

@[simp] theorem Dev.pageOn_pgChan (d : Dev) (x : Line) : d.pageOn (pgChan x) = d.domainOn 7 := by
  cases x <;> rfl

@[simp] theorem pageOf_pgPhase_a : pageOf (pgPhase .a) = some ⟨0x402, .phase, 0, 0x4003, 0, 7, 1⟩ := rfl

@[simp] theorem pageOf_pgPhase_b : pageOf (pgPhase .b) = some ⟨0x403, .phase, 1, 0x4004, 0, 7, 1⟩ := rfl

@[simp] theorem Dev.pageOn_pgPhase (d : Dev) (x : Line) : d.pageOn (pgPhase x) = d.domainOn 7 := by
  cases x <;> rfl

@[simp] theorem pageOf_pgGauge_a : pageOf (pgGauge .a) = some ⟨0x404, .gauge, 0, 0x4005, 0, 7, 1⟩ := rfl

@[simp] theorem pageOf_pgGauge_b : pageOf (pgGauge .b) = some ⟨0x405, .gauge, 1, 0x4006, 0, 7, 1⟩ := rfl

@[simp] theorem Dev.pageOn_pgGauge (d : Dev) (x : Line) : d.pageOn (pgGauge x) = d.domainOn 7 := by
  cases x <;> rfl

@[simp] theorem pageOf_pgPfilt_a : pageOf (pgPfilt .a) = some ⟨0x406, .pfilt, 0, 0x4007, 0, 7, 2⟩ := rfl

@[simp] theorem pageOf_pgPfilt_b : pageOf (pgPfilt .b) = some ⟨0x407, .pfilt, 1, 0x4007, 1, 7, 2⟩ := rfl

@[simp] theorem Dev.pageOn_pgPfilt (d : Dev) (x : Line) : d.pageOn (pgPfilt x) = d.domainOn 7 := by
  cases x <;> rfl

@[simp] theorem pageOf_pgZone_a : pageOf (pgZone .a) = some ⟨0x408, .zone, 0, 0x4008, 0, 7, 2⟩ := rfl

@[simp] theorem pageOf_pgZone_b : pageOf (pgZone .b) = some ⟨0x409, .zone, 1, 0x4008, 1, 7, 2⟩ := rfl

@[simp] theorem Dev.pageOn_pgZone (d : Dev) (x : Line) : d.pageOn (pgZone x) = d.domainOn 7 := by
  cases x <;> rfl

@[simp] theorem pageOf_pgTrig_a : pageOf (pgTrig .a) = some ⟨0x40A, .trig, 0, 0x4009, 0, 7, 2⟩ := rfl

@[simp] theorem pageOf_pgTrig_b : pageOf (pgTrig .b) = some ⟨0x40B, .trig, 1, 0x4009, 1, 7, 2⟩ := rfl

@[simp] theorem Dev.pageOn_pgTrig (d : Dev) (x : Line) : d.pageOn (pgTrig x) = d.domainOn 7 := by
  cases x <;> rfl

@[simp] theorem pageOf_pgCapt_a : pageOf (pgCapt .a) = some ⟨0x40C, .capt, 0, 0x400A, 0, 7, 2⟩ := rfl

@[simp] theorem pageOf_pgCapt_b : pageOf (pgCapt .b) = some ⟨0x40D, .capt, 1, 0x400A, 1, 7, 2⟩ := rfl

@[simp] theorem Dev.pageOn_pgCapt (d : Dev) (x : Line) : d.pageOn (pgCapt x) = d.domainOn 7 := by
  cases x <;> rfl

@[simp] theorem pageOf_pgRaman_a : pageOf (pgRaman .a) = some ⟨0x40E, .raman, 0, 0x400B, 0, 8, 3⟩ := rfl

@[simp] theorem pageOf_pgRaman_b : pageOf (pgRaman .b) = some ⟨0x40F, .raman, 1, 0x400B, 1, 8, 3⟩ := rfl

@[simp] theorem Dev.pageOn_pgRaman (d : Dev) (x : Line) : d.pageOn (pgRaman x) = d.domainOn 8 := by
  cases x <;> rfl

@[simp] theorem pageOf_pgReel_a : pageOf (pgReel .a) = some ⟨0x410, .reel, 0, 0x400C, 0, 7, 1⟩ := rfl

@[simp] theorem pageOf_pgReel_b : pageOf (pgReel .b) = some ⟨0x411, .reel, 1, 0x400C, 1, 7, 1⟩ := rfl

@[simp] theorem Dev.pageOn_pgReel (d : Dev) (x : Line) : d.pageOn (pgReel x) = d.domainOn 7 := by
  cases x <;> rfl

end Sys2Proof.Machine
end

