-- ==== Sys2Proof/Laws/Settle.lean ====
section
/-!
SUPPORT. What the settling of the outputs after a command can change: the idle levels of the alarms, the emitter
balls, the interrupt levels, the messages sent and the pending-bit array of the PCIE page (R35, R343).
-/
namespace Sys2Proof.Machine

/-- A message only adds to the messages sent or sets a bit of the pending-bit array. -/
theorem Dev.msix_cases (d : Dev) (v : Nat) :
    d.msix v = d ∨ (∃ w, d.msix v = d.setWord (pageBase pgPcie + 0x9F8 + 4 * (v / 32)) w) ∨
      d.msix v = { d with pcie := { d.pcie with sent := v :: d.pcie.sent } } := by
  unfold Dev.msix
  split
  · exact .inl rfl
  · split
    · exact .inr (.inl ⟨_, rfl⟩)
    · exact .inr (.inr rfl)

/-- A message leaves everything but the registers and the PCIe state as it was. -/
theorem Dev.msix_frame (d : Dev) (v : Nat) :
    d.msix v = { d with regs := (d.msix v).regs, pcie := { d.pcie with sent := (d.msix v).pcie.sent } } := by
  rcases d.msix_cases v with h | ⟨w, h⟩ | h <;> rw [h] <;> rfl

/-- The message of a page's interrupt leaves everything but the registers and the PCIe state as it was. -/
theorem Dev.irqMessage_frame (d : Dev) (e : Nat) :
    d.irqMessage e =
      { d with regs := (d.irqMessage e).regs, pcie := { d.pcie with sent := (d.irqMessage e).pcie.sent } } := by
  unfold Dev.irqMessage
  split
  · exact Dev.msix_frame d _
  · rfl

/-- The messages of the pages leave everything but the registers and the PCIe state as it was. -/
theorem irqRises_frame (ns : List Bool) : ∀ (d : Dev) (i : Nat) (os : List Bool),
    irqRises d i ns os =
      { d with regs := (irqRises d i ns os).regs,
               pcie := { d.pcie with sent := (irqRises d i ns os).pcie.sent } } := by
  induction ns with
  | nil => intro d i os; rfl
  | cons n ns ih =>
    intro d i os
    cases os with
    | nil => rfl
    | cons o os =>
      have h : irqRises d i (n :: ns) (o :: os) =
          irqRises (if n && !o then d.irqMessage i else d) (i + 1) ns os := rfl
      rw [h]
      split
      · have h1 := ih (d.irqMessage i) (i + 1) os
        have h2 := Dev.irqMessage_frame d i
        rw [h1, h2]
      · exact ih d (i + 1) os

/-- One after another, messages of channels leave everything but the registers and the PCIe state as it was. -/
theorem chanMessages_frame (levels old : List Bool) (cs : List Nat) : ∀ d : Dev,
    (cs.foldl (fun e c => if levels.getD c false && !old.getD c false then Dev.chanMessage e c else e) d) =
      { d with
        regs := (cs.foldl (fun e c =>
          if levels.getD c false && !old.getD c false then Dev.chanMessage e c else e) d).regs,
        pcie := { d.pcie with
          sent := (cs.foldl (fun e c =>
            if levels.getD c false && !old.getD c false then Dev.chanMessage e c else e) d).pcie.sent } } := by
  induction cs with
  | nil => intro d; rfl
  | cons c cs ih =>
    intro d
    simp only [List.foldl_cons]
    split
    · have h1 := ih (d.chanMessage c)
      have h2 : d.chanMessage c = _ := Dev.msix_frame d (act d.regs pgDma (DMA.CH.VECTOR c))
      rw [h1, h2]
    · exact ih d

/-- The settling of the channels leaves everything but the registers, the PCIe state and the channel levels. -/
theorem settleChans_frame (d : Dev) :
    settleChans d =
      { d with regs := (settleChans d).regs, pcie := { d.pcie with sent := (settleChans d).pcie.sent },
               dma := { d.dma with irq := (List.range 32).map d.chanRaised } } := by
  unfold settleChans
  have h := chanMessages_frame ((List.range 32).map d.chanRaised) d.dma.irq (List.range 32) d
  simp only at h ⊢
  rw [h]

/-- The settling of the outputs changes the alarms' idle levels, the balls, the levels of the interrupts, the
registers (those of TROUBLE and the pending-bit array), the trouble log and the messages sent, and nothing else. -/
theorem settle_frame (d : Dev) :
    settle d =
      { settleBalls (settleAlarms d) with
        regs := (settle d).regs, tr := (settle d).tr, pcie := { d.pcie with sent := (settle d).pcie.sent },
        dma := { d.dma with irq := (settle d).dma.irq }, irq := (settle d).irq } := by
  obtain ⟨m, t, hr, hm⟩ := d.reportDropped_form
  have ha : settleAlarms d.reportDropped = { settleAlarms d with regs := m, tr := t } := by
    rw [hr]
    unfold settleAlarms
    have hp : ((List.range 4).map fun k => act m (pgTrig .a) (TRIG.ALARM_CFG.POLARITY k) == 1) =
        (List.range 4).map fun k => act d.regs (pgTrig .a) (TRIG.ALARM_CFG.POLARITY k) == 1 := by
      refine List.map_congr_left fun k hk => ?_
      have hk := List.mem_range.1 hk
      unfold act Fld.at
      rw [hm _ (by unfold inTrouble pageBase pgTrig pgTrouble TRIG.ALARM_CFG.POLARITY; dsimp only; omega)]
    dsimp only
    rw [hp]
    rfl
  have hb : settleBalls (settleAlarms d.reportDropped) = { settleBalls (settleAlarms d) with regs := m, tr := t } := by
    rw [ha]
    unfold settleBalls
    have hs : ({ settleAlarms d with regs := m, tr := t } : Dev).scan = (settleAlarms d).scan := rfl
    rw [hs]
    split <;> rfl
  have hk : (settleBalls (settleAlarms d)).pcie = d.pcie ∧ (settleBalls (settleAlarms d)).dma = d.dma := by
    unfold settleBalls
    split <;> exact ⟨rfl, rfl⟩
  have hs : settle d =
      { irqRises (settleChans (settleBalls (settleAlarms d.reportDropped))) 0
          (settleChans (settleBalls (settleAlarms d.reportDropped))).irqLevels
          (settleChans (settleBalls (settleAlarms d.reportDropped))).irq with
        irq := (settleChans (settleBalls (settleAlarms d.reportDropped))).irqLevels } := rfl
  generalize settleBalls (settleAlarms d) = e at hb hk ⊢
  rw [hb] at hs
  generalize hg : ({ e with regs := m, tr := t } : Dev) = g at hs
  have h1 := settleChans_frame g
  have h2 := irqRises_frame (settleChans g).irqLevels (settleChans g) 0 (settleChans g).irq
  rw [hs, h2, h1, ← hg, hk.1, hk.2]

end Sys2Proof.Machine
end

