-- ==== Sys2Proof/Machine/Dac.lean ====
section
/-!
DEFINITION. What the two converters of a line's SYN page put out (R51, R71).
-/
namespace Sys2Proof.Machine

/-- The core cycle of the DAC calibration pass in progress, counted from its start: the pass that DAC_CAL_PASS will end
(R71, R115). -/
def dacPassCycle (d : Dev) (x : Line) : Option Nat :=
  let at0 := (d.line x).passAt
  let laneWaits := (calRun d x calLane).pending && trimMode d x trimKind == 0
  if (calRun d x calDac).pending && !laneWaits && passFits d x at0 && d.pwr.mode != 6 && at0 ≤ d.clk.tick &&
      d.clk.tick < at0 + 4608 then some (d.clk.tick - at0)
  else none

/-- The codes of the calibration tone at lane sample n of an S pass (R71). -/
def dacTone (n : Nat) : Int × Int :=
  let cs := cosSin20 (n % 20)
  (asrRound (4096 * cs.1) 15, asrRound (4096 * cs.2) 15)

/-- The codes of the waveform that SYN started last, at lane sample i of the present core cycle: from ALIGN lane samples
after its gate edge to the end of its longest tone, 0 outside (R50, R51). -/
def waveformCode (d : Dev) (x : Line) (i : Nat) : Int × Int :=
  match (d.line x).fired with
  | none => (0, 0)
  | some s =>
    let n := 4 * (d.clk.tick - s.shot.tick) + i
    let a := synAlign s.cfg x
    if s.shot.tick ≤ d.clk.tick ∧ a ≤ n ∧ n < a + groupDur s.cfg x s.shot.tones then
      dacPair s.cfg x s.shot.tones (n - a)
    else (0, 0)

/-- The I and Q DAC codes of a line at lane sample i of the present core cycle (R51, R71): 0 while EMIT is off; in a DAC
calibration 0 in a Z pass and the tone in an S pass; else the waveform. -/
def Dev.dacOut (d : Dev) (x : Line) (i : Nat) : Int × Int :=
  if !d.domainOn 10 then (0, 0)
  else match dacPassCycle d x with
    | some c => if (calRun d x calDac).pass < calDac.offs then (0, 0) else dacTone (4 * c + i)
    | none => waveformCode d x i

end Sys2Proof.Machine
end

