-- ==== Sys2Proof/WellFormed.lean ====
section
/-!
DEFINITION. Well-formed commands: the bounds that the operand types do not carry. A command that fails
a check here spells something the device cannot be shown (samples beyond a converter's range, lists
of unlike length, a DRAM line of other than 64 bytes).
-/
namespace Sys2Proof

/-- A code of a converter of w bits. -/
def codeOk (w : Nat) (v : Int) : Bool := -(2 ^ (w - 1) : Int) ≤ v && v < (2 ^ (w - 1) : Int)

/-- Four lists of 12-bit codes (R99) of one length. -/
def Lanes.wf (s : Lanes) : Bool :=
  s.xq.length == s.xi.length && s.yi.length == s.xi.length && s.yq.length == s.xi.length &&
    (s.xi ++ s.xq ++ s.yi ++ s.yq).all (codeOk 12)

/-- A list of codes of a converter of w bits. -/
def codesOk (w : Nat) (l : List Int) : Bool := l.all (codeOk w)

/-- Two lists of w-bit codes, of one length. -/
def pairOk (w : Nat) (a b : List Int) : Bool := a.length == b.length && codesOk w (a ++ b)

/-- Eight lists of codes, one per converter core (R115). -/
def coresOk (l : List (List Int)) : Bool :=
  l.length == 8 && l.all fun c => c.length == (l.headD []).length && codesOk 12 c

/-- A write of one line: 64 bytes, each with its enable (R288). -/
def lineOk (wr : Option (List (Option Byte))) : Bool :=
  match wr with
  | none => true
  | some l => l.length == 64

/-- The well-formed commands. -/
def Instr.wf : Instr → Bool
  | .laneCalPass _ cores => coresOk cores
  | .dacCalPass _ xi xq => pairOk 12 xi xq
  | .ramanCalPass _ a s => pairOk 14 a s
  | .slotWord _ s => s.wf
  | .chanBlock _ _ w => w.wf
  | .reelShot _ s => s.wf
  | .ramanTrace _ a s da ds => pairOk 14 a s && pairOk 14 da ds
  | .pfeConversion q _ => codeOk 26 q
  | .pfeCalVisit s v => s.all (codesOk 26) && v.all (codesOk 26) && s.length == v.length
  | .memRequest _ _ wr => lineOk wr
  | .applyPage _ delay => delay ≤ 8
  | .ethRx _ frame _ => 14 ≤ frame.length
  | _ => true

end Sys2Proof
end

