-- ==== Sys2Proof/Tests/Slice0.lean ====
section
/-!
SUPPORT. Tests of the model: what well-formedness refuses, worked figures of the spec, and for each obligation a
state and operands that meet the hypotheses of its clauses.
-/
namespace Sys2Proof.Tests
open Sys2Proof.Machine

set_option Elab.async false

-- ---- well-formedness --------------------------------------------------------------------------------------------

/-- Codes of a lane beyond 12 bits, and lists of unlike length, are refused. -/
theorem test_wf_lanes :
    Instr.wf (.slotWord .a ⟨[2048], [0], [0], [0]⟩) = false ∧ Instr.wf (.slotWord .a ⟨[2047], [0], [0], [-2048]⟩) = true ∧
    Instr.wf (.chanBlock .b 7 ⟨[0], [], [0], [0]⟩) = false ∧ Instr.wf (.reelShot .a ⟨[0], [0], [-2049], [0]⟩) = false := by
  decide

/-- The passes of the calibrations take the codes of their converters. -/
theorem test_wf_passes :
    Instr.wf (.laneCalPass .a [[0]]) = false ∧ Instr.wf (.laneCalPass .a (List.replicate 8 [2047])) = true ∧
    Instr.wf (.laneCalPass .a (List.replicate 8 [2048])) = false ∧
    Instr.wf (.dacCalPass .a [1, 2] [1]) = false ∧ Instr.wf (.dacCalPass .a [1, 2] [1, -3000]) = false ∧
    Instr.wf (.ramanCalPass .a [8191] [-8192]) = true ∧ Instr.wf (.ramanCalPass .a [8192] [0]) = false ∧
    Instr.wf (.ramanTrace .a [0] [0] [0] []) = false := by decide

/-- A platinum conversion has 26 bits, and its calibration visit as many shorted as divider conversions. -/
theorem test_wf_pfe :
    Instr.wf (.pfeConversion 33554431 false) = true ∧ Instr.wf (.pfeConversion 33554432 false) = false ∧
    Instr.wf (.pfeCalVisit [[0]] []) = false ∧ Instr.wf (.pfeCalVisit [[0]] [[33554432]]) = false := by decide

/-- A line has 64 bytes, an idle apply comes within 8 cycles, a frame has its header. -/
theorem test_wf_shapes :
    Instr.wf (.memRequest 0 5 (some [none])) = false ∧ Instr.wf (.memRequest 0 5 none) = true ∧
    Instr.wf (.applyPage 0x100#12 9) = false ∧ Instr.wf (.applyPage 0x100#12 8) = true ∧
    Instr.wf (.ethRx 0 (List.replicate 13 0) true) = false ∧
    Instr.wf (.ethRx 0 (List.replicate 14 0) true) = true := by decide

-- ---- states -------------------------------------------------------------------------------------------------------

/-- Every domain on, the core clock present, mode Full, the lane clock locked. -/
def on : Dev := { clk := { coreOn := true, cyc := 1000, tick := 1000 }, pwr := { mode := 5, domains := 0xFFF },
                  pll := { locked := true } }

/-- A state with a device and no command waiting. -/
def st (d : Dev) : State := { dev := d }

/-- EN in both views of a page. -/
def en (p : Nat) (d : Dev) : Dev := d.setWord (pageBase p + 0x008) 0x101

/-- A live or shadow field. -/
def lv (p : Nat) (f : Fld) (v : Nat) (d : Dev) : Dev := d.setLiv p f v

/-- An active field. -/
def ac (p : Nat) (f : Fld) (v : Nat) (d : Dev) : Dev := d.setAct p f v

/-- A field of AON, shadow and active. -/
def ao (f : Fld) (v : Nat) (d : Dev) : Dev :=
  { d with aon := f.put (f.put d.aon (pageBase pgAon) v) (pageBase pgAon + 0x400) v }

/-- One rank in the map, its sub-channel trained, region 0 initialised. -/
def ddr : Dev :=
  let d := lv pgMemx (MEMX.MAP.SLOT 0) 0 ((List.range 7).foldl (fun d j => lv pgMemx (MEMX.MAP.SLOT (j + 1)) 15 d) on)
  ((lv pgMemx MEMX.CAPACITY 4096 d).setRankState 0 1).setStatus (pgDdr 0) 9 true |>.onMem fun m => { m with initMap := 1 }

-- ---- the queue, the interrupts, the registers -----------------------------------------------------------------------

/-- O2: reset has no command waiting. -/
theorem witness_EmptyQueueLetsTimePass : State.reset.pending = [] := rfl

/-- O3, O4, O5: a step from reset answers a next state; so does a command. -/
theorem witness_steps : answers (step State.reset) ∧ answers (exec .highz (st on)) := ⟨⟨_, rfl⟩, ⟨_, rfl⟩⟩

/-- O3: the one fault: a rail out of its order while the rails come up. -/
theorem witness_OnlyRailsOutOfOrderStop :
    ∃ f, exec (.railStep 2 true) (st { on with aonSt := { on.aonSt with goal := some 3, rail := 1 } }) = .fault f :=
  ⟨_, rfl⟩

/-- O4: states with a low interlock, and with the EMIT domain off, are reached by a step. -/
theorem witness_LightNeedsItsPermit :
    (∃ t, step { pending := [.interlockFall], dev := { on with pwr := { mode := 1, domains := 3 } } } = .next t ∧
      t.dev.pins.interlock = false) ∧
    (∃ t, step State.reset = .next t ∧ t.dev.domainOn 10 = false) :=
  ⟨⟨_, rfl, by decide +kernel⟩, ⟨_, rfl, by decide +kernel⟩⟩

/-- O8: a pair of a page that is on counts from 0, from 0xFFFFFFFE and not from 0xFFFFFFFF; one of a page that is off. -/
theorem witness_EventPairsCountAndAcknowledge :
    let full (v : Word) : Dev := on.setWord (countAddr (pgShot .a) 4) v
    (∃ pg, pageOf (pgShot .a) = some pg ∧ 4 < pg.nEvents ∧ on.domainOn pg.domain = true ∧
      State.reset.dev.domainOn pg.domain = false) ∧
    on.count (pgShot .a) 4 < 0xFFFFFFFE ∧ (full 0xFFFFFFFE).count (pgShot .a) 4 = 0xFFFFFFFE ∧
    (full 0xFFFFFFFF).count (pgShot .a) 4 = 0xFFFFFFFF ∧
    (∃ pg, pageOf (0x200#12).toNat = some pg ∧ on.domainOn pg.domain = true ∧ 3 < pg.nEvents ∧
      (0x200#12).toNat ≠ pgAon ∧ on.irqRaised pg = false) := by
  constructorm* _ ∧ _ <;> decide +kernel

/-- O8: a page whose interrupt stays raised after a SEEN write; a SEEN write of AON at its slow edge. -/
theorem witness_SeenWriteAcknowledges :
    let d := ((on.setWord (countAddr 0x200 4) 7).setWord (pageBase 0x200 + 0x014) 0x10)
    let t := d.setWord (countAddr 0x200 4 + 4) 5
    (∃ pg, pageOf 0x200 = some pg ∧ d.irqRaised pg = true ∧ t.irqRaised pg = true) ∧ (∃ e, entryOf 0x200 = some e) ∧
    ({ on with bus := { on.bus with aonQueue := [⟨0x044, 3, 4, 0⟩] } } : Dev).bus.aonQueue = [⟨0x044, 3, 4, 0⟩] ∧
    (4 ≠ linkHardware) := by
  exact ⟨⟨_, rfl, by decide +kernel⟩, ⟨_, rfl⟩, rfl, by decide⟩

/-- O9: a read of a pair's low word that meets no error, one that meets one, and a read of a word that is not a low word. -/
theorem witness_ReadsLatchHighWords :
    let a : Addr := BitVec.ofNat 24 (pageBase (pgShot .a) + 0x900)
    (∃ pg, placeOf a.toNat = some (.page pg 0x900) ∧ isLow pg 0x900 = true ∧ isLow pg 0x904 = false) ∧
    busBar on a.toNat 4 = none ∧ busBar State.reset.dev a.toNat 4 = some .domainOff ∧
    (∃ pg, placeOf (pageBase (pgShot .a) + 0x100) = some (.page pg 0x100) ∧ isLow pg 0x100 = false) := by
  constructorm* _ ∧ _ <;> first | decide +kernel | exact ⟨_, rfl, by decide +kernel⟩

/-- O10: a block has bins. -/
theorem witness_AmplitudeIsTheRoot :
    (polBins on.regs .a 0 0 0 1 [] [0, 0] [0, 0]).length = 1 := by decide +kernel

/-- O11: settings that RAML and LANE refuse outside Service, each alone, at the boundary of its range. -/
theorem witness_FrontEndRefusals :
    on.pwr.mode ≠ 7 ∧ (∃ pg, pageOf (pgRaml .a) = some pg) ∧ (∃ pg, pageOf (pgLane .b) = some pg) ∧
    act (ac (pgRaml .a) RAML.MODE 2 on).regs (pgRaml .a) RAML.MODE = 2 ∧
    act (ac (pgRaml .a) (RAML.INPUT.SEL 1) 1 on).regs (pgRaml .a) (RAML.INPUT.SEL 1) ≠ 0 ∧
    12 < act (ac (pgLane .b) (LANE.GAIN.CODE 3) 13 on).regs (pgLane .b) (LANE.GAIN.CODE 3) ∧
    act (ac (pgLane .b) (LANE.INPUT.SEL 0) 1 on).regs (pgLane .b) (LANE.INPUT.SEL 0) ≠ 0 ∧
    (let m := (ac (pgLane .b) LANE.STAT_START (2 ^ 24 - 1) (ac (pgLane .b) LANE.STAT_LEN 2 on)).regs
     act m (pgLane .b) LANE.STAT_START + act m (pgLane .b) LANE.STAT_LEN = 2 ^ 24 + 1) := by
  exact ⟨by decide, ⟨_, rfl⟩, ⟨_, rfl⟩, by decide +kernel⟩

/-- O12: CTRL on with the journal's event pair below its top, and CTRL off. -/
theorem witness_JournalCommitsInOrder :
    on.domainOn 1 = true ∧ on.saturates pgJournal 4 = false ∧ State.reset.dev.domainOn 1 = false := by decide +kernel

/-- O13: a word of a page's configuration that a write reaches, and one it does not; a page that may be armed, and is. -/
theorem witness_RegisterWritesLandAndArm :
    let a := pageBase (pgLane .a) + 0x100
    (∃ pg, placeOf a = some (.page pg 0x100) ∧ pg.block ≠ .dev ∧ pg.block ≠ .aon) ∧ busBar on a 4 = none ∧
    busBar on a 2 = some .width ∧
    (∃ pg, pageOf (pgLane .a) = some pg ∧ pg.block ≠ .dev ∧ on.domainOn pg.domain = true) ∧
    pgLane .a ∉ [pgAon, pgDma, pgCodec] ∧ on.armedAs (pgLane .a) = none ∧
    (({ on with bus := { on.bus with armed := [⟨pgLane .a, 0, 0, 0⟩] } } : Dev).armedAs (pgLane .a)).isSome = true := by
  constructorm* _ ∧ _ <;> first | decide +kernel | exact ⟨_, rfl, by decide +kernel⟩

/-- O14: pages listed for APPLY_SET that are on, one that is off, one that is no page; a strobe with and without groups; UPD enabled with a group, and not. -/
theorem witness_SetAndStrobeArmTogether :
    let d := (lv pgDev DEV.UPD_CTRL.EN 1 (lv pgDev DEV.UPD_CTRL.GROUPS 8 on))
    let names (p : Nat) : Dev := lv pgDev (DEV.APPLY_LIST.PAGE_B 3) p (lv pgDev (DEV.APPLY_LIST.PAGE_A 0) (pgHk) { on with pwr := { mode := 1, domains := 3 } })
    (∃ q ∈ (listedPages (names (pgLane .a)).regs).dedup, (pageOf q).isSome = true ∧ (names (pgLane .a)).pageOn q = false) ∧
    ((∀ q ∈ (listedPages (names 0xFFF).regs).dedup, (pageOf q).isSome = true → (names 0xFFF).pageOn q = true) ∧
      ∃ q ∈ (listedPages (names 0xFFF).regs).dedup, pageOf q = none) ∧
    (Link.pcie ≠ .upd) ∧ (tiuEdge 14 true d).domainOn 1 = true ∧ liv (tiuEdge 14 true d).regs pgDev DEV.UPD_CTRL.EN = 1 ∧
    liv (tiuEdge 14 true d).regs pgDev DEV.UPD_CTRL.GROUPS ≠ 0 ∧ liv (tiuEdge 14 true on).regs pgDev DEV.UPD_CTRL.EN = 0 ∧
    on.domainOn 1 = true ∧ (∀ p ∈ (listedPages on.regs).dedup, (pageOf p).isSome = true ∧ on.pageOn p = true) ∧
    (8#4 ≠ 0) := by
  decide +kernel

/-- O15: an armed page of each kind of boundary, one that produces, one alone of its line's round class, and two
together, AON's, an Ethernet port's with a frame on its wire; configurations that apply and that are refused; an apply that waits for its entry. -/
theorem witness_AppliesCopyTheWholeShadow :
    let r (p : Nat) : Armed := ⟨p, 0, 0, 1000⟩
    let d (l : List Nat) : Dev := { on with bus := { on.bus with armed := l.map r } }
    let bad : Dev := lv (pgLane .a) (LANE.GAIN.CODE 0) 13 (d [pgLane .a])
    let pgOf (p : Nat) : Page := (pageOf p).getD ⟨0, .dev, 0, 0, 0, 0, 0⟩
    let bar (d : Dev) (p : Nat) := applyBar d d.regs (copyPage d.regs (pgOf p) d.regs) (pgOf p)
    let together (d : Dev) := (roundPages .a).filter fun q => (d.armedAs q.num).any (fun b => b.tick == 1000) && !producing d q
    (pgOf (pgLane .a)).boundary = 1 ∧ (d [pgLane .a]).armedAs (pgLane .a) = some (r (pgLane .a)) ∧
    together (d [pgLane .a]) = [pgOf (pgLane .a)] ∧ (together (d [pgLane .a, pgTrim .a])).length = 2 ∧
    bar (d [pgLane .a]) (pgLane .a) = none ∧ (bar bad (pgLane .a)).isSome = true ∧
    (pgOf pgHk).boundary = 5 ∧ producing (en pgHk (d [pgHk])) (pgOf pgHk) = true ∧
    producing (d [pgHk]) (pgOf pgHk) = false ∧ (pgOf pgHk).boundary ≠ 1 ∧
    (∃ p ∈ directory, p.boundary = 4 ∧ p.num ∉ [pgAon, pgDma, pgCodec]) ∧
    (pgLane .a ∉ [pgAon, pgDma, pgCodec]) ∧ on.armedAs (pgLane .a) = none ∧ pgDma ∈ [pgDma, pgCodec] ∧
    (d [pgAon]).armedAs pgAon = some (r pgAon) ∧
    (let e := { en (pgEth 0) (lv (pgEth 0) ETH.LINK.UP 1 (d [pgEth 0])) with eth0 := { on.eth0 with free := 1200 } }
     (pgOf (pgEth 0)).block = .eth ∧ producing e (pgOf (pgEth 0)) = true ∧ e.clk.tick < (e.port (pgOf (pgEth 0)).unit).free) ∧
    (∃ q : Applied, ({ on with bus := { on.bus with applied := [⟨pgLane .a, 0, 0, 1, true, 900, 0⟩] } } : Dev).bus.applied.find?
      (fun q => q.page == pgLane .a) = some q) ∧ on.pageOn (pgLane .a) = true := by
  constructorm* _ ∧ _ <;> first | decide +kernel | exact ⟨_, rfl⟩

/-- O16: a queue of seven, a queue of eight, a queue whose oldest write is of IRQ_EN; a word of a powered page and of no page. -/
theorem witness_QueuesTalliesAndSweeps :
    let w : AonWrite := ⟨0x014, 1, 4, 0⟩
    busBar on (pageBase pgAon + (0x014#12).toNat) 4 = none ∧ (List.replicate 7 w).length < 8 ∧
    8 ≤ (List.replicate 8 w).length ∧ w.link ≠ linkHardware ∧ on.armedAs pgAon = none ∧ on.domainOn 1 = true ∧
    (let owners (a : Addr) := directory.filter fun pg =>
      on.domainOn pg.domain && pg.block != .dev && pg.block != .canary &&
        (shadowOf on.regs pg a.toNat || activeOf on.regs pg a.toNat)
     owners 0 = [] ∧ (owners (BitVec.ofNat 24 (pageBase (pgLane .a) + 0x500))).length = 1) ∧
    busBar on (pageBase pgAon + (0xA00#12).toNat) 4 = some .reserved ∧
    on.statusHome (pgLane .a) 2 = false ∧ (on.setStatusHome (pgLane .a) 2 true).statusHome (pgLane .a) 2 = true := by decide +kernel

-- ---- launching light, the Canary -----------------------------------------------------------------------------------------

/-- A line with its state changed. -/
def ln (x : Line) (f : LineSt → LineSt) (d : Dev) : Dev := d.onLine x f

/-- A slot of a record. -/
def slot0 : Slot := { shot := ⟨0, 0, 0, 0, 0, 0, 0, 0, 0⟩, cfg := [] }

/-- A line that holds the Canary's PERMIT. -/
def lit (x : Line) (d : Dev) : Dev :=
  lv (pgCanary x) CANARY.STATE 2 (d.onCells x fun c => { c with permit := true })

/-- A field in the words of both copies of a Canary. -/
def cc (x : Line) (f : Fld) (v : Nat) (d : Dev) : Dev :=
  let put (c : Copy) : Copy := { c with cfg := f.put c.cfg (pageBase (pgCanary x)) v }
  d.onCan x fun c => { c with copy0 := put c.copy0, copy1 := put c.copy1 }

/-- O17: a TRIM page with and without a pending calibration, on a line that launches and one that does not; passes that
fit in a dead time and that do not. -/
theorem witness_CalibrationIsRequestedAndRun :
    let pend := on.onCal .a calLane fun r => { r with pending := true }
    let dead (d : Dev) : Dev := d.onSeq .a fun q => { q with inDead := true, calRound := true, deadFrom := some 0, deadTo := 100000 }
    (∃ pg, pageOf (pgTrim .a) = some pg ∧ on.domainOn pg.domain = true ∧ calKindOf pg.block = some calLane ∧
      (calRun on pg.line calLane).pending = false ∧ (calRun pend pg.line calLane).pending = true) ∧
    busBar on (pageBase 0xFFF + 0x008) 4 = some .unmapped ∧
    (∃ pg, pageOf pgPfe = some pg ∧ pg.block = .pfe ∧ on.domainOn pg.domain = true) ∧ on.pfe.calEnd = none ∧ on.pfe.ch = none ∧
    (on.onPfe fun p => { p with ch := some 1 }).pfe.ch.isSome = true ∧
    launching on .a = false ∧
    (∃ d : Dev, launching d .a = true) ∧
    passFits on .a 0 = false ∧ passFits (dead on) .a 0 = true ∧ on.pwr.mode ≠ 6 ∧
    on.pageOn (pgTrim .a) = true ∧ on.pageOn (pgSyn .a) = true ∧ on.pageOn (pgRaml .a) = true ∧
    trimMode on .a trimKind = 0 ∧ trimMode on .a ramlKind = 0 ∧
    (calRun (on.onCal .a calDac fun r => { r with pending := true }) .a calDac).pending = true ∧
    (calRun (on.onCal .a calRaman fun r => { r with pending := true }) .a calRaman).pending = true := by
  constructorm* _ ∧ _ <;>
    first
    | decide +kernel
    | exact ⟨_, rfl, by decide +kernel⟩
    | exact ⟨en (pgShot .a) (ln .a (fun l => { l with shot := { l.shot with nextEdge := some 0 } }) on), by decide +kernel⟩

/-- O18: the CHAN page of a line that is on. -/
theorem witness_PagesWithNothingToCalibrate :
    ∃ pg, pageOf (pgChan .b) = some pg ∧ pg.block = .chan ∧ on.domainOn pg.domain = true :=
  ⟨_, rfl, by decide +kernel⟩

/-- O19: a write and a read that meet errors; CTRL off. -/
theorem witness_BusErrorChangesNothing :
    (busPut sysWrite .pcie 0x7FFFFF 4 0 on).2 = some .unmapped ∧ (busGet 0x200101 4 on).2.1 = some .width ∧
    State.reset.dev.domainOn 1 = false := by decide +kernel

/-- O20: a slot scheduled with a launch path, the round's first and a later one, a held slot, a due Raman pulse with a
permit; what fires with and without it. -/
theorem witness_SlotsLaunchAtTheirEdges :
    let d (f : Shot → Shot) : Dev := lit .a (en (pgShot .a) (on.onSeq .a f))
    let g (f : Shot → Shot) : Dev := d fun q => f { q with nextEdge := some 2000 }
    launchPath (g id) .a = true ∧ ((g id).seq .a).nextSlot = 0 ∧ ((g fun q => { q with nextSlot := 1 }).seq .a).nextSlot ≠ 0 ∧
    ((g fun q => { q with holdTo := some 2100 }).seq .a).holdTo = some 2100 ∧ launchPath on .a = false ∧
    (on.seq .a).nextEdge = none ∧ (on.seq .a).ramanDue = none ∧
    slotPermit ((g id).onSeq .a fun q => { q with ramanDue := none }) .a = true ∧ slotPermit on .a = false ∧
    ((g fun q => { q with ramanDue := some 2250 }).seq .a).ramanDue = some 2250 ∧
    bitOf slot0.shot.flags 1 = false ∧ bitOf ({ slot0.shot with flags := 2 } : ShotRec).flags 1 = true ∧
    (((d fun q => { q with calRound := true }).seq .a).calRound = true) ∧
    (firing (ac (pgShot .a) (SHOT.ROUND_CTRL.COH_EN) 1 on) .a 0).raman = false ∧
    cohEn (ac (pgShot .a) (SHOT.ROUND_CTRL.COH_EN) 0 on).regs .a = false ∧
    ramanEn (ac (pgShot .a) (SHOT.RAMAN_CTRL.EN) 0 on).regs .a = false := by decide +kernel

/-- O21: an edge that no line takes, one that meets a disabled SHOT, one too early, and one that is accepted. -/
theorem witness_TriggerEdgesAreJudged :
    let d := ac (pgShot .b) SHOT.TRIG_CTRL.MODE 1 on
    let e := en (pgShot .b) d
    let ok := e.onSeq .b fun q => { q with extWait := true, nextSlot := 1 }
    trigMode on.regs .a = 0 ∧ trigMode d.regs .b ≠ 0 ∧ (shotFld d.regs .b SHOT.TRIG_CTRL.POLARITY == 0) = true ∧
    enActive d.regs (pgShot .b) = false ∧ enActive e.regs (pgShot .b) = true ∧ edgeAccepted e .b e.clk.tick = false ∧
    edgeAccepted ok .b ok.clk.tick = true ∧ (ok.seq .b).nextSlot ≠ 0 := by decide +kernel

/-- O22: the SHOT page; a slot whose record waits; requests in and out of a dead time, with 499 and 500 cycles left. -/
theorem witness_ShotsArePredictedAndRecorded :
    let pend := on.onCal .a calLane fun r => { r with pending := true }
    let d (n : Nat) : Dev := (on.onSeq .a fun q => { q with deadFrom := some 1000, calRound := true, deadTo := n }).onCan .a
      fun c => { c with diagReq := true }
    (∃ pg, pageOf (pgShot .a) = some pg) ∧ on.domainOn 10 = true ∧ State.reset.dev.domainOn 10 = false ∧
    calPending pend .a = true ∧ (pend.seq .a).inDead = false ∧ calPending on .a = false ∧
    ((ln .a (fun l => { l with slots := [slot0] }) on).line .a).slots = [slot0] ∧ on.domainOn 7 = true ∧
    State.reset.dev.domainOn 7 = false ∧
    ((d 1499).seq .a).deadTo < 1000 + 500 ∧ 1000 + 500 ≤ ((d 1500).seq .a).deadTo ∧
    ((d 1500).line .a).can.diagReq = true ∧ ((d 1500).seq .a).taken = false := by
  exact ⟨⟨_, rfl⟩, by decide +kernel⟩

/-- O23: gates on and off, a decision twelve cycles old, a clock that is present and one that is lost; copies that agree
and that differ. -/
theorem witness_SafetyInputsTurnOutputsOff :
    let d := on.onCells .a fun c => { c with soaOn := true, ramOn := true }
    let put (v : Word) : Dev := on.onCan .a fun c =>
      { c with copy0 := { c.copy0 with cfg := wr c.copy0.cfg (pageBase (pgCanary .a) + (0x500#12).toNat) v } }
    (d.line .a).cells.soaOn = true ∧ (d.line .a).cells.ramOn = true ∧ (on.line .a).cells.soaOn = false ∧
    ((on.onCan .a fun c => { c with cut := some 990 }).line .a).can.cut = some 990 ∧ (on.line .b).can.cut = none ∧
    on.clk.coreOn = true ∧ on.clk.lost = false ∧ ({ on with clk := { on.clk with lost := true } } : Dev).clk.lost = true ∧
    (0x500#12 ≠ 0x900#12) ∧ ((put 1).line .a).can.copy0 ≠ ((put 1).line .a).can.copy1 ∧
    (on.line .a).can.copy0 = (on.line .a).can.copy1 ∧
    ((on.advance 1).setStatus (pgCanary .a) 10 true).status (pgCanary .a) 2 = false ∧
    (((on.setStatus (pgCanary .a) 2 true).advance 1).setStatus (pgCanary .a) 10 true).status (pgCanary .a) 2 = true ∧
    (let fell : Dev := { on with clk := { on.clk with coreOn := false, lost := true }, pins := { on.pins with interlock := false } }
     let r (d : Dev) := raiseCause { d with clk := { d.clk with coreOn := true, lost := false } } [.a, .b] 13
     (r fell).pins.interlock = false ∧ (r fell).status (pgCanary .a) 9 = false ∧ (r fell).domainOn 10 = true ∧
     (r fell).clk.coreOn = true ∧ (r on).pins.interlock = true) := by decide +kernel

/-- O24: scopes; a latched line; paired lines. -/
theorem witness_CausesLatchTheLines :
    lineScope 3 = false ∧ canState (lv (pgCanary .a) CANARY.STATE 4 on) .a = 4 ∧ paired on = false ∧
    paired (cc .a CANARY.PAIRED 1 (cc .b CANARY.PAIRED 1 on)) = true ∧ on.domainOn 10 = true := by decide +kernel

/-- O25: codes at the edges of the range, a loop in fault, a hot device, a loop that is enabled, a loop with one reading. -/
theorem witness_ColourLoopsRun :
    let p := pgEmit .a
    let d := ac p (EMIT.TEC_COMP.COMP_SRC 0) 31 (on.onLoop .a .seed fun r => { r with count := 1, sum := 100 })
    on.domainOn 10 = true ∧ State.reset.dev.domainOn 10 = false ∧ ¬ (65000 < (65000#16).toNat ∨ (65000#16).toNat < 500) ∧ 65000 < (65001#16).toNat ∧ (499#16).toNat < 500 ∧
    on.status p 12 = false ∧ (on.setStatus p 12 true).status p 12 = true ∧ on.pwr.hot = false ∧
    ({ on with pwr := { on.pwr with hot := true } } : Dev).pwr.hot = true ∧ (loopOf on .a .seed).enabled = none ∧
    (loopOf (on.onLoop .a .seed fun r => { r with enabled := some 0 }) .a .seed).enabled = some 0 ∧
    laserLocked (on.advanceSlow (120 * 32768)) .a 0 = false ∧
    (loopOf d .a .seed).count ≠ 0 ∧ act d.regs p (EMIT.TEC_COMP.COMP_SRC 0) = 31 ∧ d.status p 8 = false ∧
    (loopOf d .a .seed).inRuns + 1 < 2000 ∧ (loopOf d .a .seed).wasLocked = false := by decide +kernel

/-- O26: an emitter too short on to be read, one driven long enough below, in and above its window, one that is off, is stuck
on, was found so before; a gate of 124 and of 125 cycles; a diagnostic pulse in and outside its gate, below its threshold and not. -/
theorem witness_SenseReadingsAreChecked :
    let long : Dev := { on with clk := { on.clk with tick := 32768 } }
    let driven := long.onCan .a fun c => { c with drive := c.drive.set 0 (true, 0) }
    let gate (n : Nat) : Dev := on.onCells .a fun c => { c with soaOn := true, soaFrom := 0, soaOff := n }
    let low := cc .a (CANARY.SENSE.SNS_MIN 0) 5 (cc .a (CANARY.SENSE.SNS_MAX 0) 9 on)
    let diag := (gate 125).onCan .a fun c => { c with diagSlot := some 0, diagSoa := true, diagRam := true }
    let copies (d : Dev) : List RegMap := [(d.line .a).can.copy0.cfg, (d.line .a).can.copy1.cfg]
    let below (d : Dev) (f : Fld) (mV : Nat) : Bool := (copies d).any fun m => decide (mV < liv m (pgCanary .a) f)
    let above (d : Dev) (f : Fld) (mV : Nat) : Bool := (copies d).any fun m => decide (liv m (pgCanary .a) f < mV)
    on.clk.tick < ((on.line .a).can.drive.getD 0 (false, 0)).2 + 32768 ∧
    ((long.line .a).can.drive.getD 0 (false, 0)).2 + 32768 ≤ long.clk.tick ∧
    ((driven.line .a).can.drive.getD 0 (false, 0)).1 = true ∧ ((on.line .a).can.drive.getD 0 (false, 0)).1 = false ∧
    below low (CANARY.SENSE.SNS_MIN 0) 4 = true ∧ below low (CANARY.SENSE.SNS_MIN 0) 5 = false ∧
    above low (CANARY.SENSE.SNS_MAX 0) 9 = false ∧ above low (CANARY.SENSE.SNS_MAX 0) 10 = true ∧
    above low (CANARY.SENSE.SNS_MIN 0) 6 = true ∧ (on.line .a).can.stuckOn.getD 0 false = false ∧
    ((on.onCan .a fun c => { c with stuckOn := c.stuckOn.set 0 true }).line .a).can.stuckOn.getD 0 false = true ∧
    ((gate 124).line .a).cells.soaOff < ((gate 124).line .a).cells.soaFrom + 125 ∧
    ((gate 125).line .a).cells.soaFrom + 125 ≤ ((gate 125).line .a).cells.soaOff ∧ inDiag (gate 125) .a .soa = false ∧
    inDiag diag .a .soa = true ∧ inDiag diag .a .raman = false ∧ (on.line .a).can.diagSlot = none ∧
    (diag.line .a).can.diagSlot = some 0 ∧ (diag.line .a).can.diagSoa = true ∧
    below (cc .a CANARY.DIAG_SNS.DIAG_SNS_SOA 3 diag) CANARY.DIAG_SNS.DIAG_SNS_SOA 2 = true ∧
    below (cc .a CANARY.DIAG_SNS.DIAG_SNS_SOA 3 diag) CANARY.DIAG_SNS.DIAG_SNS_SOA 3 = false := by decide +kernel

/-- O26: lit slots of each verdict: light above OUT_MAX, light on a line that has been dark; a witness below its count and at it; a crossing
at and beyond the ends of the window, before and at the next launch, of a slot that has failed already. -/
theorem witness_LitSlotsAreJudged :
    let l : LitSlot := { launch := 1000, ramanOnly := false }
    let shot := cc .a CANARY.OBS_END 400 (cc .a CANARY.BLANK 20 (cc .a CANARY.BACK.REFL_MAX 7 (cc .a CANARY.WIT_COUNT 3
      (cc .a CANARY.OUT.OUT_MAX 50 (cc .a CANARY.OUT.DARK_MAX 5 (lit .a (on.onCan .a fun c => { c with lit := [l] })))))))
    let dark : Dev := { cc .a CANARY.OUT.DARK_MAX 5 on with clk := { on.clk with tick := 6250000 } }
    let m := (shot.line .a).can.copy0.cfg
    let seen (cycle mV : Nat) : Bool := decide (liv m (pgCanary .a) CANARY.BLANK ≤ cycle) &&
      decide (cycle ≤ liv m (pgCanary .a) CANARY.OBS_END) && decide (liv m (pgCanary .a) CANARY.BACK.REFL_MAX < mV)
    (shot.line .a).can.lit.find? (fun l => !l.judged) = some l ∧ (on.line .a).can.lit.find? (fun l => !l.judged) = none ∧
    (shot.line .a).can.lit.getLast? = some l ∧ canLit shot .a = true ∧ canLit dark .a = false ∧
    liv m (pgCanary .a) CANARY.OUT.OUT_MAX < 51 ∧ (dark.line .a).can.darkFrom + 6250000 ≤ dark.clk.tick ∧
    liv (dark.line .a).can.copy0.cfg (pgCanary .a) CANARY.OUT.DARK_MAX < 6 ∧ (shot.line .a).can.noWitness = false ∧
    witnessCount .a l [] m < liv m (pgCanary .a) CANARY.WIT_COUNT ∧
    liv (cc .a CANARY.WIT_COUNT 0 shot |>.line .a).can.copy0.cfg (pgCanary .a) CANARY.WIT_COUNT ≤ witnessCount .a l [] m ∧
    seen 20 8 = true ∧ seen 400 8 = true ∧ seen 401 8 = false ∧ seen 19 8 = false ∧ seen 20 7 = false ∧ l.reflFail = false ∧
    l.next = none ∧ ({ l with reflFail := true } : LitSlot).reflFail = true := by decide +kernel

/-- O27: a line in OFF that may emit, one that may not; a locked seed in step 1; a probe in step 3; a line in LINE_OFF with
an automatic probe due; a RESTART that is refused and one that is not; a diagnostic request that is due. -/
theorem witness_ProbesReachPermit :
    let e := en (pgCanary .a) on
    let step (n : Nat) := (lv (pgCanary .a) CANARY.STATE 1 e).onCan .a fun c => { c with step := n, settle := some 0 }
    canState e .a = 0 ∧ enActive e.regs (pgCanary .a) = true ∧ emittingMode e = true ∧ enActive on.regs (pgCanary .a) = false ∧
    canState (step 1) .a = 1 ∧ laserLocked ((step 1).setStatus (pgEmit .a) 8 true) .a 0 = true ∧
    setptOn (ac (pgEmit .a) (EMIT.SETPT.ON 2) 1 (step 1)) .a 2 = true ∧ ((step 3).line .a).can.step = 3 ∧
    (let o := cc .a CANARY.PROBES.AUTO 1 ((lv (pgCanary .a) CANARY.STATE 3 e).onCan .a fun c => { c with probeDue := some 0 })
     canState o .a = 3 ∧ canCfg o .a CANARY.PROBES.AUTO = 1 ∧ (o.line .a).can.probeDue = some 0) ∧
    restartOk e .a 0x5245 = false ∧ on.domainOn 10 = true ∧ State.reset.dev.domainOn 10 = false ∧
    (({ on with pwr := { on.pwr with mode := 7 } } : Dev).onCan .a fun c => { c with session := some 9 } : Dev).pwr.mode = 7 ∧
    (let r := ((lv (pgCanary .a) CANARY.STATE 3 { on with clk := { on.clk with cyc := 625000001 } }).setStatus (pgEmit .a) 8 true).setStatus
        (pgEmit .a) 9 true
     restartOk r .a 0x5245 = true ∧ restartOk r .a 0x5244 = false ∧ restartOk (en (pgCanary .a) r) .a 0x5245 = true) ∧
    1024 ≤ liv (lv (pgCanary .a) CANARY.DIAG_AGE 1024 on).regs (pgCanary .a) CANARY.DIAG_AGE ∧
    liv (lv (pgCanary .a) CANARY.DIAG_AGE 1023 on).regs (pgCanary .a) CANARY.DIAG_AGE < 1024 ∧
    (on.line .a).can.diagReq = false ∧ emittingMode { on with pwr := { on.pwr with mode := 2 } } = false := by decide +kernel

/-- O28: the key in Service mode for 1 and for 60 seconds on a dark line; another key; an open session. -/
theorem witness_ServiceSessionsOpenAndEnd :
    let d : Dev := { on with pwr := { on.pwr with mode := 7 } }
    let ok (d : Dev) (key : BitVec 16) (sec : BitVec 6) : Bool := key == 0x5356 && 1 ≤ sec.toNat && sec.toNat ≤ 60 &&
      d.pwr.mode == 7 && d.pins.interlock && (canState d .a == 0 || canState d .a == 3)
    ok d 0x5356 1 = true ∧ ok d 0x5356 60 = true ∧ ok d 0x5356 61 = false ∧ ok d 0x5357 1 = false ∧ ok on 0x5356 1 = false ∧
    enActive (en (pgCanary .a) d).regs (pgCanary .a) = true ∧ enActive d.regs (pgCanary .a) = false ∧
    d.domainOn 10 = true ∧ State.reset.dev.domainOn 10 = false ∧
    ((d.onCan .a fun c => { c with session := some 40 }).line .a).can.session.isSome = true ∧
    (d.line .a).can.session = none := by decide +kernel

-- ---- lanes to capture ------------------------------------------------------------------------------------------------------

/-- A shot in PHASE of one tone without bins, and of no tones. -/
def pshot (l : List Trace) (m : RegMap) : PhaseShot :=
  { slot := { slot0 with cfg := m }, traces := l, gap := false, ticks := [], epoch := 0 }

/-- O29: an open slot of a dark record, none in Replay; an enabled lane on its balls, with a stuck core and without; the lane
clock lost; a fresh and a stale die temperature. -/
theorem witness_LanesShowTheirSlots :
    let sp : SlotSpan := ⟨{ slot0 with shot := { slot0.shot with flags := 0x80 } }, some 1200, none⟩
    let d := on.onLane .a fun l => { l with spans := [sp] }
    let off : Dev := { on with pwr := { on.pwr with domains := 0xEFF } }
    oldestOpen (d.line .a).lane.spans = some sp ∧ oldestOpen (on.line .a).lane.spans = none ∧ sp.slot.shot.flags &&& 0x8C ≠ 0 ∧
    sp.slot.shot.group + 1 ≠ act (ac (pgShot .a) SHOT.ROUND_CTRL.N_GROUPS 2 on).regs (pgShot .a) SHOT.ROUND_CTRL.N_GROUPS ∧
    on.pageOn (pgLane .a) = true ∧ on.pll.locked = true ∧ laneEnabled on.regs .a 3 = true ∧ laneInput on.regs .a 3 % 2 = 0 ∧
    laneStuck { on.lineA.lane with stuck := on.lineA.lane.stuck.set 7 true } 3 = true ∧ laneStuck on.lineA.lane 3 = false ∧
    on.pageOn (pgLane .b) = true ∧ ({ on with pll := {} } : Dev).pll.locked = false ∧
    off.pageOn (pgTrim .a) = true ∧ off.pageOn (pgRaml .a) = false ∧ off.hk.mirror.getD 1 none = none ∧
    ({ off with hk := { off.hk with mirror := off.hk.mirror.set 1 (some (2000, 5)) } } : Dev).hk.mirror.getD 1 none = some (2000, 5) ∧
    (trimSt off .a trimKind).lastTick = none ∧ (trimSt off .a trimKind).temps = [] := by decide +kernel

/-- O29: the last slot of a round; a line with TRIM alone powered, with RAML alone and with neither. -/
theorem witness_LaneClockAndTemperature :
    let one (n : Nat) : Dev := { on with pwr := { on.pwr with domains := n } }
    let m := (ac (pgShot .a) SHOT.ROUND_CTRL.N_GROUPS 1 on).regs
    slot0.shot.group + 1 = act m (pgShot .a) SHOT.ROUND_CTRL.N_GROUPS ∧ slot0.shot.flags &&& 0x8C = 0 ∧
    (one 0xEFF).pageOn (pgTrim .a) = true ∧ (one 0xEFF).pageOn (pgRaml .a) = false ∧
    (one 0xFDF).pageOn (pgTrim .a) = false ∧ (one 0xFDF).pageOn (pgRaml .a) = true ∧
    State.reset.dev.pageOn (pgTrim .a) = false ∧ State.reset.dev.pageOn (pgRaml .a) = false ∧
    on.pins.refPresent = true ∧ on.domainOn 10 = true := by decide +kernel

/-- O30: a trace with a block that is not its last; shots whose point waits, follows, and lies beyond the capacity; the
out-of-service commands with PHASE on and off. -/
theorem witness_BinsPointsAndOutOfService :
    let m := (ac (pgShot .a) SHOT.LINE_LEN 1025 (ac (pgGauge .a) GAUGE.COUNT 2 on)).regs
    let r : Trace := { tone := 3 }
    let q := pshot [r] m
    let bare := pshot [] m
    let d (q : PhaseShot) := on.onPhase .a fun p => { p with shots := [q] }
    traceShot (d q) .a 3 = some q ∧ q.traces.find? (fun r => r.tone == 3) = some r ∧
    1024 * r.next + min 1024 (shotFld m .a SHOT.LINE_LEN - 1024 * r.next) < shotFld m .a SHOT.LINE_LEN ∧ on.pwr.mode ≠ 6 ∧
    traceShot on .a 3 = none ∧ findShot on .a 0 = none ∧ findShot (d q) .a 0 = some q ∧ binsReady q .a 0 = false ∧
    findShot (d bare) .a 0 = some bare ∧ binsReady bare .a 0 = true ∧ bare.gap = false ∧
    bare.next + 1 < pointCount bare.slot.cfg .a ∧ waitsBehind [] .a 0 = false ∧ capacityOf bare.slot.cfg .a ≤ bare.next ∧
    on.pageOn (pgPhase .a) = true ∧ State.reset.dev.pageOn (pgPhase .a) = false ∧ (on.line .a).phase.oos = none ∧
    ((on.onPhase .a fun p => { p with oos := some (true, 0, 1) }).line .a).phase.oos = some (true, 0, 1) ∧
    ((on.onPhase .a fun p => { p with oosClear := true }).line .a).phase.oosClear = true ∧
    (on.line .a).phase.oosClear = false := by decide +kernel

/-- A frame. -/
def frame0 : PFrame := { seq := 0, cfg := [], firstSeq := 0, count := 0, expo := 0, startTick := 0 }

/-- O31: frames that are not ready, ready without and with a traced shot; a freeze that waits; a host freeze that runs;
frames to reduce with no, two, and all zones. -/
theorem witness_FramesAndZones :
    let f (r : Option Nat) (t : Bool) : PFrame := { frame0 with ready := r, traced := t }
    let d (g : PFrame) := on.onPf .a fun q => { q with frames := [g] }
    let z (zs : List Nat) (c : Bool) : ZFrame :=
      { frame := frame0, rel := 0, vals := [], bands := [], settling := false, zones := zs, last := 0, combined := c }
    let e (g : ZFrame) := on.onZone .a fun q => { q with frames := [g] }
    on.domainOn 7 = true ∧ State.reset.dev.domainOn 7 = false ∧ (on.line .a).pf.frames = [] ∧
    ((d (f none true)).line .a).pf.frames = [f none true] ∧ (f (some 5) false).abandon = false ∧
    (f (some 5) true).ready = some 5 ∧ (d (f (some 5) true)).status (pgPfilt .a) 2 = false ∧
    ((on.onPf .a fun q => { q with freezes := [⟨0, 0, 0, 1⟩] }).line .a).pf.freezes = [⟨0, 0, 0, 1⟩] ∧
    freezeOpen on .a 0 0 = false ∧ on.pageOn (pgPfilt .a) = true ∧
    (let h := setFreeze on .a 64 [0, 1, 0, 5]
     seqLe (h.line .a).pf.nextSeq (freezeWord h .a 64 3) = true) ∧
    (let h := (setFreeze on .a 64 [0, 1, 0, 5]).onPf .a fun q => { q with nextSeq := 3 }
     seqLe (h.line .a).pf.nextSeq (freezeWord h .a 64 2) = false ∧ seqLt (h.line .a).pf.nextSeq (freezeWord h .a 64 3) = true) ∧
    ((e (z [] false)).line .a).zone.frames.find? (fun f => !f.combined) = some (z [] false) ∧
    ((e (z [0, 1] false)).line .a).zone.frames.find? (fun f => !f.combined) = some (z [0, 1] false) ∧
    (on.sramCheck 281 0 16 .clean).2 = false ∧ trigRuns .a (z [0, 1] false) = false ∧
    liv (lv (pgZone .a) ZONE.PROBE_ZONE 5 on).regs (pgZone .a) ZONE.PROBE_ZONE ≠ 0 ∧ (z [] true).met = [] ∧ (z [] true).released = [] := by
  decide +kernel

/-- O31: frames that are abandoned, with a shot of theirs still on its way and without, and held; a freeze that runs for the range of the
next request; an accumulator that an upset has spoilt. -/
theorem witness_FreezesAndUpsets :
    let f : PFrame := { frame0 with abandon := true }
    let q : PhaseShot := { pshot [] (ac (pgGauge .a) GAUGE.COUNT 2 on).regs with frame := some 0 }
    let late := on.onPhase .a fun p => { p with shots := [q] }
    let h := setFreeze on .a 2 [0, 1, 0, 5]
    f.abandon = true ∧ bitOf ({ frame0 with held := 1 } : PFrame).held 0 = true ∧
    ((late.line .a).phase.shots.any fun q => q.frame == some f.seq && q.next < pointCount q.slot.cfg .a) = true ∧
    ((on.line .a).phase.shots.any fun q => q.frame == some f.seq && q.next < pointCount q.slot.cfg .a) = false ∧
    freezeOpen h .a 2 0 = true ∧ freezeWord h .a 2 0 = 0 ∧ freezeWord h .a 2 1 = 1 ∧
    (on.sramCheck 281 0 16 .double).2 = true ∧
    trigRuns .a { frame := { frame0 with cfg := (en (pgTrig .a) on).regs }, rel := 0, vals := [], bands := [], settling := false,
                  zones := [0], last := 0 } = true := by decide +kernel

/-- O32: edges and pulse ends of an alarm ball, a latched one; a descriptor that is open and one that is not; a segment
whose frame has come, has not, and whose end has passed. -/
theorem witness_AlarmsAndSegments :
    let up : AlarmEdge := ⟨2, 1100, true⟩
    let down : AlarmEdge := ⟨2, 1100, false⟩
    let d (e : AlarmEdge) : Dev := { on with alarm := { on.alarm with edges := [e] } }
    let g : Seg := { desc := 0, cls := 0, addr := 0, alloc := 100, stream := none, trigTick := 0, trigTime := 0, trigSeq := 0,
                     first := 0, stop := 1, next := 0, point := 0, points := 4 }
    let s (g : Seg) (f : Option Nat) := (setSeg on .a 1 (some g)).onCapt .a fun q => { q with newest := f }
    (d up).alarm.edges.find? (fun e => e.ball == 2) = some up ∧ (d down).alarm.edges.find? (fun e => e.ball == 2) = some down ∧
    on.alarm.edges.find? (fun e => e.ball == 2) = none ∧ on.alarm.on.getD 2 false = false ∧ alarmHeld (ac (pgTrig .a) (TRIG.ALARM_CFG.EN 2) 1 on) 2 = false ∧
    alarmMode on 2 ≠ 1 ∧ on.alarm.stops.getD 2 none = none ∧
    alarmMode (ac (pgTrig .a) (TRIG.ALARM_CFG.MODE 2) 2 on) 2 = 2 ∧ on.pageOn (pgTrig .a) = true ∧
    on.domainOn 7 = true ∧ descFld on.regs (CAPT.W0.STATE 3) ≠ 2 ∧
    descFld (on.setDesc (CAPT.W0.STATE 3) 2).regs (CAPT.W0.STATE 3) = 2 ∧ segOf on .a 1 = none ∧
    segOf (s g (some 0)) .a 1 = some g ∧ ((s g none).line .a).capt.newest = none ∧ seqLe g.next 0 = true ∧
    seqLe g.next g.stop = true ∧ (s g (some 0)).touchesDegraded g.addr (g.alloc * 64) = false ∧
    ((s g (some 0)).line .a).capt.gapped.contains g.next = false ∧ bitOf g.flags segTruncated = false ∧
    seqLt g.stop ({ g with next := 2 } : Seg).next = true ∧ seqLt g.stop g.next = false := by decide +kernel

/-- O32: a ball whose condition meets now, one asserted; a segment whose context is upset, over a degraded buffer, whose frame can be read and
not; an armed descriptor. -/
theorem witness_SegmentsEnd :
    let g : Seg := { desc := 0, cls := 0, addr := 0, alloc := 100, stream := none, trigTick := 0, trigTime := 0, trigSeq := 0,
                     first := 0, stop := 1, next := 0, point := 0, points := 4 }
    let upset : Dev := { on with sram := { on.sram with bad := [sramKey 283 (16 * 1)] } }
    let sick := ddr.setStatus (pgDdr 0) 8 true
    (upset.sramCheck 283 (16 * (4 * Line.a.idx + 1)) 16 .clean).2 = true ∧
    (on.sramCheck 283 (16 * (4 * Line.a.idx + 1)) 16 .clean).2 = false ∧
    sick.touchesDegraded g.addr (g.alloc * 64) = true ∧ ddr.touchesDegraded g.addr (g.alloc * 64) = false ∧
    (ddr.memRead 0 56 .clean).2.1 = .ok ∧ (on.memRead 0 56 .clean).2.1 ≠ .ok ∧
    g.alloc * 64 < ({ g with offset := 6400 } : Seg).offset + 1 ∧ bitOf (g.mark segTruncated).flags segTruncated = true ∧
    meetsNow { on with alarm := { on.alarm with raised := on.alarm.raised.set 2 (some 1000) } } 2 = true ∧
    meetsNow on 2 = false ∧ ({ on with alarm := { on.alarm with on := on.alarm.on.set 2 true } } : Dev).alarm.on.getD 2 false = true ∧
    State.reset.dev.domainOn 7 = false ∧ bitsOf (0x40000000 : Word).toNat 31 30 = 1 := by decide +kernel

-- ---- Raman to intervals ------------------------------------------------------------------------------------------------

/-- O33: a pulse of a disabled page and of an enabled one; profiles at each stage of their readout. -/
theorem witness_RamanTracesAndProfiles :
    let q (m : RegMap) : RamPulse := ⟨slot0.shot, 0, 0, m, false, false⟩
    let m := (en (pgRaman .a) on).regs
    let p : Profile := { cfg := m, seq := 0, first := 0, time := 0, applied := false, double := false }
    let d (p : Profile) := on.onRaman .a fun r => { r with ended := [p] }
    enActive (q []).cfg (pgRaman .a) = false ∧ enActive (q m).cfg (pgRaman .a) = true ∧ on.pageOn (pgRaman .a) = true ∧
    on.pwr.mode ≠ 6 ∧ (on.line .a).raman.prof = none ∧ (on.line .a).raman.pulses = [] ∧
    ((d p).line .a).raman.ended.find? (fun q => !q.read) = some p ∧
    (let r := { p with read := true }
     ((d r).line .a).raman.ended.find? (fun q => q.read && !q.readEnd) = some r ∧ r.abort = none) ∧
    (let r := { p with read := true, readEnd := true }
     ((d r).line .a).raman.ended.find? (fun q => q.readEnd && q.frame.isNone) = some r ∧ r.double = false) ∧
    (let r := { p with read := true, readEnd := true, double := true }
     let e := (d r).onRaman .b fun s => { s with ended := [r] }
     (e.line .b).raman.ended.find? (fun o => o.readEnd && o.seq == r.seq) = some r) ∧
    (let r := { p with frame := some ([], 7) }
     ((d r).line .a).raman.ended = [r] ∧ r.frame = some ([], 7)) := by decide +kernel

/-- O33: a pulse that is skipped, and one that begins a profile. -/
theorem witness_RamanSkips :
    let m := (en (pgRaman .a) on).regs
    let q (b : Bool) : RamPulse := ⟨slot0.shot, 0, 0, m, b, false⟩
    (skipOf on m .a (q true)).isSome = true ∧ skipOf on m .a (q false) = none ∧ mayBegin on m .a 0 = true := by decide +kernel

/-- O33: a trace that joins a profile in progress, a profile that may not begin, and one that is aborted. -/
theorem witness_RamanProfiles :
    let m := (en (pgRaman .a) on).regs
    let p : Profile := { cfg := m, seq := 0, first := 0, time := 0, applied := false, double := false }
    let d := on.onRaman .a fun r => { r with prof := some p }
    (d.line .a).raman.prof.isSome = true ∧ act m (pgRaman .a) RAMAN.OUT.STREAM_EN = 0 ∧
    act (ac (pgRaman .a) RAMAN.OUT.STREAM_EN 1 on).regs (pgRaman .a) RAMAN.OUT.STREAM_EN = 1 ∧
    mayBegin (on.onRaman .a fun r => { r with singleDone := true }) m .a 0 = false ∧
    ({ p with abort := some 3 } : Profile).abort.isSome = true := by decide +kernel

/-- O34: no channel and a visited one, with checks passed and failed before; a calibration visit; the converter idle, at
work, and with a full queue; telemetry on and off. -/
theorem witness_PlatinumAndHousekeeping :
    let v := on.onPfe fun p => { p with ch := some 1, endAt := 1500 }
    let c (x y : Nat) := v.onPfe fun p => { p with comply := p.comply.set 1 (x, y) }
    let u : HkConv := { input := 5, slot := 5, urgent := true, start := 1000, acq := 0, data := false }
    let h := on.onHk fun h => { h with conv := some u }
    on.armedAs pgPfe = none ∧ on.pfe.ch = none ∧ v.pfe.ch = some (1 : Fin 4).val ∧ v.pfe.calEnd = none ∧
    v.status pgPfe 9 = false ∧ (v.setStatus pgPfe 9 true).status pgPfe 9 = true ∧ 1 ≤ ((c 0 1).pfe.comply.getD 1 (0, 0)).2 ∧
    1 ≤ ((c 1 0).pfe.comply.getD 1 (0, 0)).1 ∧ v.pfe.comply.getD 1 (0, 0) = (0, 0) ∧
    (v.onPfe fun p => { p with calEnd := some 2000 }).pfe.calEnd = some 2000 ∧ v.pfe.calReq = false ∧
    on.pageOn pgHk = true ∧ on.hk.slot = none ∧ on.hk.passAt = none ∧ on.hk.conv = none ∧ h.hk.conv = some u ∧
    u.urgent = true ∧ h.status pgHk 2 = false ∧ 23 < (24#5).toNat ∧ (23#5).toNat ≤ 23 ∧
    4 ≤ (on.onHk fun h => { h with queue := [1, 2, 3, 4] }).hk.queue.length ∧ on.hk.queue.length < 4 ∧
    hkFld on.regs HK.TELEM.EN = 0 ∧ hkFld (ac pgHk HK.TELEM.EN 1 on).regs HK.TELEM.EN = 1 ∧ on.foremanRuns = false ∧
    (lv pgForeman FOREMAN.STATE 2 on).foremanRuns = true := by decide +kernel

/-- O34: the end of a calibration visit with a channel under way, with one to visit and with none; a conversion held back; an urgent request that
breaks into a pass, and one that waits. -/
theorem witness_PlatinumAndHousekeepingGoOn :
    let u : HkConv := { input := 5, slot := 5, urgent := false, start := 1000, acq := 0, data := false }
    let w (c : HkConv) := on.onHk fun h => { h with conv := some c }
    let breaks (c : HkConv) : Bool := !c.urgent && !(showHk (w c)).hk.shield && decide ((showHk (w c)).clk.tick + 2 ≤ c.stop)
    (pfeChans (en pgPfe (ac pgPfe (PFE.CH.EN 2) 1 on)).regs).head? = some 2 ∧ pfeChans on.regs = [] ∧ on.status pgPfe 9 = false ∧
    (on.setStatus pgPfe 9 true).status pgPfe 9 = true ∧ ({ u with held := true } : HkConv).held = true ∧
    breaks u = true ∧ breaks { u with urgent := true } = false ∧ State.reset.dev.pageOn pgHk = false ∧
    (on.onHk fun h => { h with slot := some 3 }).hk.slot.isSome = true ∧ (on.onHk fun h => { h with passAt := some 5 }).hk.passAt = some 5 := by
  decide +kernel

/-- O35, O36: an idle unit in each mode; armed now and later; started, within and at HOLDOFF and TIMEOUT; sources alike and
not; a result to show. -/
theorem witness_IntervalUnitsMeasure :
    let cfg (h t m a b : Nat) : RegMap := (ac (pgTiu 0) TIU.HOLDOFF h (ac (pgTiu 0) TIU.TIMEOUT t (ac (pgTiu 0) TIU.MODE m
      (ac (pgTiu 0) TIU.SOURCES.START_SRC a (ac (pgTiu 0) TIU.SOURCES.STOP_SRC b on))))).regs
    let d (m : RegMap) (t : Tiu) : Dev := setTiu { on with regs := m } 0 { t with cfg := m }
    on.pageOn (pgTiu 0) = true ∧ tiuIdle (on.tiu 0) = true ∧ tiuFld on.regs 0 TIU.MODE = 0 ∧
    tiuFld (cfg 0 0 1 1 2) 0 TIU.MODE = 1 ∧ tiuFld (cfg 0 0 2 1 2) 0 TIU.MODE = 2 ∧ tiuFld (cfg 0 0 3 1 2) 0 TIU.MODE = 3 ∧
    (let t := (d (cfg 0 0 1 1 2) { armed := some 1000 }).tiu 0
     t.start = none ∧ t.armed = some 1000 ∧ oneSource t.cfg 0 = false ∧ tiuFld t.cfg 0 TIU.HOLDOFF = 0) ∧
    (let t := (d (cfg 1 0 1 15 15) { armed := some 1001 }).tiu 0
     t.armed = some 1001 ∧ tiuFld t.cfg 0 TIU.SOURCES.START_SRC = 15 ∧ 0 < tiuFld t.cfg 0 TIU.HOLDOFF ∧
      oneSource t.cfg 0 = true) ∧
    (let t := (d (cfg 1 2 2 15 15) { start := some (999, 0) }).tiu 0
     t.start = some (999, 0) ∧ tiuFld t.cfg 0 TIU.HOLDOFF ≤ 1000 - 999 ∧ 1000 - 999 ≤ tiuFld t.cfg 0 TIU.TIMEOUT ∧
      tiuFld t.cfg 0 TIU.SOURCES.STOP_SRC = 15 ∧ oneSource t.cfg 0 = true ∧ tiuFld t.cfg 0 TIU.MODE = 2) ∧
    (let t := (d (cfg 2 0 1 1 2) { start := some (999, 0) }).tiu 0
     1000 - 999 < tiuFld t.cfg 0 TIU.HOLDOFF ∧ tiuFld t.cfg 0 TIU.TIMEOUT = 0 ∧ oneSource t.cfg 0 = false) ∧
    ((setTiu on 0 { on.tiu 0 with result := some (1000, 5, false, false) }).tiu 0).result = some (1000, 5, false, false) ∧
    rd on.regs (countAddr (pgTiu 0) 4) = rd on.regs (countAddr (pgTiu 0) 4 + 4) := by decide +kernel

-- ---- memory, DMA, codec ------------------------------------------------------------------------------------------------------

/-- O37: lines mapped and not, on and off, initialised and not; a queue with a whole write of the line; requests to miss and
to serve; a rank refreshed and not, doubled, with and without requests. -/
theorem witness_MemoryRequestsAndRefresh :
    let w : MemReq := { port := 1, line := 5, tick := 900, bytes := some (List.replicate 64 (some 7)) }
    let d := ddr.setQueue 0 [w]
    ddr.domainOn 4 = true ∧ State.reset.dev.domainOn 4 = false ∧ ddr.physLine 5 = some (0, 5) ∧
    ddr.physLine (4096 * 16384) = none ∧ ddr.physLine (4096 * 16384 - 1) = some (0, 2 ^ 26 - 1) ∧ ddr.subUp 0 = true ∧
    ddr.subUp 2 = false ∧ ddr.initialised 0 = true ∧ ddr.initialised 1 = false ∧ srEntering ddr 0 = false ∧
    (ddr.memQueue 0).length < 64 ∧ (ddr.memQueue 0).filter (fun r => r.line == 5 && r.bytes.isSome) = [] ∧
    ((d.memQueue 0).filter fun r => r.line == 5 && r.bytes.isSome).getLast? = some w ∧
    nextMiss d (d.memQueue 0) = some w ∧ nextMiss ddr (ddr.memQueue 0) = none ∧
    nextReq d 0 = some w ∧ nextReq ddr 0 = none ∧ d.mem.retrain.getD 0 none = none ∧
    refreshed ddr 0 = true ∧ refreshed ddr 1 = false ∧ doubled ddr 0 = false ∧ doubled (ddr.setStatus (pgDdr 0) 10 true) 0 = true ∧
    liv (lv (pgDdr 0) (DDR.REF_OWED.RANK 0) 7 ddr).regs (pgDdr 0) (DDR.REF_OWED.RANK 0) < 8 ∧
    ddr.status (pgDdr 0) 12 = false ∧ act (ac (pgDdr 0) DDR.SR_IDLE 1 ddr).regs (pgDdr 0) DDR.SR_IDLE ≠ 0 ∧
    act (ac (pgDdr 0) DDR.SR_IDLE 0 ddr).regs (pgDdr 0) DDR.SR_IDLE = 0 := by decide +kernel

/-- O37: a whole and a partial write waiting for the line, 63 and 64 requests waiting for the rank; a rank that is polled with five refreshes
owed and with four, and one that is not. -/
theorem witness_QueuesAndPolls :
    let w (b : List (Option Byte)) : MemReq := { port := 1, line := 5, tick := 900, bytes := some b }
    let full (n : Nat) := ddr.setQueue 0 (List.replicate n { w [] with bytes := none })
    let owes (n : Nat) := lv (pgDdr 0) (DDR.REF_OWED.RANK 0) n ddr
    (List.replicate 64 (some (7 : Byte))).all Option.isSome = true ∧ ([none, some (7 : Byte)].all Option.isSome) = false ∧
    (((full 63).memQueue 0).filter fun r => reqRank (full 63) r == 0).length < 64 ∧
    64 ≤ (((full 64).memQueue 0).filter fun r => reqRank (full 64) r == 0).length ∧
    ((full 1).memQueue 0).any (fun r => reqRank (full 1) r == 0) = true ∧ (ddr.memQueue 0).any (fun r => reqRank ddr r == 0) = false ∧
    polled ddr 0 = true ∧ polled ddr 2 = false ∧ doubled ddr 0 = false ∧
    4 < liv (owes 5).regs (pgDdr 0) (DDR.REF_OWED.RANK 0) ∧ ¬ 4 < liv (owes 4).regs (pgDdr 0) (DDR.REF_OWED.RANK 0) ∧
    8 ≤ liv (owes 8).regs (pgDdr 0) (DDR.REF_OWED.RANK 0) := by decide +kernel

/-- O38: a line of a sub-channel that is up, and 64 bytes. -/
theorem witness_LinesReadBackTheirWrites :
    ddr.physLine 5 = some (0, 5) ∧ ddr.domainOn 4 = true ∧ ddr.subUp 0 = true ∧ (List.replicate 64 (7 : Byte)).length = 64 ∧
    lineKey 0 6 ≠ lineKey 0 5 := by decide +kernel

/-- O39: a rank in self-refresh, a sub-channel with and without fitted ranks, one that retrains; fills within and beyond
the capacity; a scrubbed line; a migration that runs, and its end; the words of the SRAM. -/
theorem witness_RetrainingFillsAndMigration :
    let sr := ddr.onMem fun m => { m with srFrom := m.srFrom.set 0 (some 900) }
    let fit := ac (pgDdr 0) DDR.CONFIG.RANK_FIT 1 ddr
    let re := fit.onMem fun m => { m with retrain := m.retrain.set 0 (some 2000) }
    let fill (f n : Nat) := lv pgMemx MEMX.FILL_FIRST f (lv pgMemx MEMX.FILL_COUNT n ddr)
    let mig (p : Nat) := lv pgMemx MEMX.MIG_PTR p (lv pgMemx MEMX.MIG_STATE.RUNNING 1 (lv pgMemx MEMX.MIG_STATE.TARGET 1 ddr))
    sr.mem.srFrom.getD 0 none = some 900 ∧ sr.rankState 0 ≠ 6 ∧ ddr.mem.woken.contains 0 = false ∧ (ddr.onMem fun m => { m with woken := [0] }).mem.woken.contains 0 = true ∧ ddr.mem.srFrom.getD 0 none = none ∧
    ddr.pageOn pgMemx = true ∧ act (ac (pgDdr 0) DDR.CONFIG.RANK_FIT 0 ddr).regs (pgDdr 0) DDR.CONFIG.RANK_FIT = 0 ∧
    ddr.status (pgDdr 0) 1 = false ∧ act fit.regs (pgDdr 0) DDR.CONFIG.RANK_FIT ≠ 0 ∧
    ((ringsAndWork fit.regs ++ segRanges fit .a ++ segRanges fit .b).any (rangeOnSub fit 0) = false) ∧ fit.migrating = false ∧
    State.reset.dev.pageOn pgMemx = false ∧ re.mem.retrain.getD 0 none = some 2000 ∧
    (let d := fill 4095 2
     d.capacity < liv d.regs pgMemx MEMX.FILL_FIRST + liv d.regs pgMemx MEMX.FILL_COUNT) ∧
    (let d := fill 4095 1
     liv d.regs pgMemx MEMX.FILL_FIRST + liv d.regs pgMemx MEMX.FILL_COUNT ≤ d.capacity ∧ d.mem.fill = none ∧
      (ringsAndWork d.regs).any (Range.meets (4095 * 2 ^ 20, 2 ^ 20)) = false) ∧
    (ddr.onMem fun m => { m with fill := some (0, 2) }).mem.fill = some (0, 2) ∧ ddr.status (pgDdr 1) 9 = false ∧
    act (ac pgMemx MEMX.SCRUB.SCRUB_EN 0 ddr).regs pgMemx MEMX.SCRUB.SCRUB_EN = 0 ∧
    scrubNext ddr 0 (2 * ddr.rankLines / 16384 + 1) 0 = some 0 ∧
    ((List.range ddr.inMap).any fun j => ddr.mapSlot j == 0) = true ∧ ((List.range ddr.inMap).any fun j => ddr.mapSlot j == 1) = false ∧
    ddr.spare = none ∧ (ddr.setRankState 1 3).spare = some 1 ∧ (mig 0).migrating = true ∧
    migNext (mig 0) 0 ((mig 0).rankLines / 16384 + 1) 0 < (mig 0).rankLines ∧
    (mig (2 ^ 26)).rankLines ≤ migNext (mig (2 ^ 26)) 0 ((mig (2 ^ 26)).rankLines / 16384 + 1) (2 ^ 26) ∧
    on.pageOn pgSram = true ∧ act (ac pgSram SRAM.SCRUB.EN 1 on).regs pgSram SRAM.SCRUB.EN = 1 ∧
    act (ac pgSram SRAM.SCRUB.EN 0 on).regs pgSram SRAM.SCRUB.EN = 0 ∧ bankOn on 287 = true ∧ bankOn State.reset.dev 0 = false ∧
    on.sram.bad.contains (sramKey 287 65535) = false ∧ on.sram.swept + 1 < 65536 ∧ banksOn on ≠ 0 ∧ ddr.status (pgDdr 0) 9 = true ∧
    State.reset.dev.domainOn 4 = false ∧ topUrgency ddr 0 = 0 ∧
    act (ac pgMemx MEMX.SCRUB.SCRUB_EN 1 ddr).regs pgMemx MEMX.SCRUB.SCRUB_EN = 1 := by decide +kernel

/-- O40: a channel in each state; a fetch at the chain limit and below it, of a line that reads and one that does not; a
completed descriptor; links to another descriptor, to itself, and odd with and without a doorbell; a host transfer. -/
theorem witness_DmaChannelsRun :
    let s (n : Nat) := setDmaState ddr 3 n
    let f := ddr.onChan 3 fun _ => { fetch := some 64 }
    let g (b : List Byte) : Dev := (s 1).memWrite 88 b |>.1.onChan 3 fun _ =>
      { desc := some ⟨64, 0, 0, 256, 0⟩, link := true, done := none }
    let e := (s 1).onChan 3 fun _ => { desc := some ⟨64, 0, 0, 256, 1⟩ }
    ddr.pageOn pgDma = true ∧ dmaState (s 0) 3 = 0 ∧ dmaState (s 1) 3 = 1 ∧ dmaState (s 2) 3 = 2 ∧ dmaState (s 3) 3 = 3 ∧
    (f.chan 3).fetch = some 64 ∧ (ddr.chan 3).fetch = none ∧ State.reset.dev.pageOn pgDma = false ∧
    f.status pgDma 2 = false ∧ (f.setStatus pgDma 2 true).status pgDma 2 = true ∧ act (ac pgDma DMA.CHAIN_LIMIT 1 f).regs pgDma DMA.CHAIN_LIMIT = 1 ∧
    liv (lv pgDma (DMA.FETCHED 3) 1 f).regs pgDma (DMA.FETCHED 3) = 1 ∧ act (ac pgDma DMA.CHAIN_LIMIT 0 f).regs pgDma DMA.CHAIN_LIMIT = 0 ∧
    (f.memRead 64 32 .clean).2.1 = .ok ∧ (on.memRead 64 32 .clean).2.1 = .unmapped ∧ (f.memRead 64 32 .uncorrectable).2.1 = .poisoned ∧
    ((ddr.onChan 3 fun _ => { done := some 1, desc := some ⟨64, 0, 0, 1, 0⟩ }).chan 3).done = some 1 ∧
    grantLevel ddr ((List.range 32).filter (burstWaits ddr)) = none ∧
    (grantLevel e ((List.range 32).filter (burstWaits e))).isSome = true ∧
    ((g [4, 0, 0, 0]).memRead 88 4 .clean).2.1 = .ok ∧ leNat ((g [4, 0, 0, 0]).memRead 88 4 .clean).2.2.2 = 4 ∧
    leNat ((g [6, 0, 0, 0]).memRead 88 4 .clean).2.2.2 / 2 * 32 ≠ 64 ∧ leNat ((g [1, 0, 0, 0]).memRead 88 4 .clean).2.2.2 % 2 = 1 ∧
    ((g []).chan 3).link = true ∧ liv ddr.regs pgDma (DMA.STATE.DB_PENDING 3) = 0 ∧
    liv (lv pgDma (DMA.STATE.DB_PENDING 3) 1 ddr).regs pgDma (DMA.STATE.DB_PENDING 3) = 1 ∧
    (⟨64, 0, 0, 256, 1⟩ : DmaDesc).srcSpace = 1 ∧ (e.chan 3).done = none ∧ (s 1).status pgDma 2 = false ∧
    grantLevel e [3] = some 0 ∧ grantAt e [3] 0 = some 3 ∧ ((noteGrant e [3] 0 3).chan 3).desc = some ⟨64, 0, 0, 256, 1⟩ ∧
    (ddr.chan 3).desc = none ∧ ((f.onChan 3 fun _ => { fetch := some (2 ^ 32) }).memRead (2 ^ 32) 32 .clean).2.1 ≠ .ok ∧
    (((s 1).onChan 3 fun _ => { desc := some ⟨64, 0, 0, 256, 0⟩ }).chan 3).desc = some ⟨64, 0, 0, 256, 0⟩ ∧
    (⟨64, 0, 0, 256, 0⟩ : DmaDesc).srcSpace ≠ 1 ∧ (⟨64, 0, 0, 256, 0⟩ : DmaDesc).dstSpace ≠ 1 := by decide +kernel

/-- O41: contexts that take input, take none, are full; open ones that compress a whole message and that decompress; an
engine that is free, held, and whose holder may leave; a stalled context. -/
theorem witness_CodecContextsRun :
    let d := ac pgCodec (CODEC.CTX.EN 2) 1 on
    let c : CodecCtx := { isOpen := true, input := [some 65, none] }
    let o := d.setCtx 2 c
    let x := ac pgCodec (CODEC.CTX.DIR 2) 1 d
    let b := ac pgCodec (CODEC.CTX.EN 3) 1 ((d.setCtx 3 { isOpen := true }).setCtx 2 c)
    let h := b.onCodec fun q => { q with comp := some 3 }
    takesInput d 2 = true ∧ takesInput on 2 = false ∧ codecState d 2 ≠ 3 ∧ codecState (lv pgCodec (CODEC.STATE 2) 3 d) 2 = 3 ∧
    (o.ctx 2).isOpen = true ∧ (on.ctx 2).isOpen = false ∧ codecState o 2 ≠ 4 ∧ (o.ctx 2).saved = false ∧ mayUse o 2 = true ∧
    decompresses o.regs 2 = false ∧ decompresses x.regs 2 = true ∧ (nextBlock o.regs 2 c).isSome = true ∧
    on.pageOn pgCodec = true ∧ c.stall = none ∧ c.held = false ∧ ({ c with stall := some 5 } : CodecCtx).output.isEmpty = true ∧
    engineOf o 2 = none ∧ engineOf h 2 = some 3 ∧ mayLeave h 3 = true ∧ nextReady h 3 = some 2 := by decide +kernel

/-- O41: a decompressing context whose input is in error, ends at a block, ends inside one; the page with a configuration
fault and without, with its domain off; the holder of the engine that may not leave it. -/
theorem witness_CodecDecodes :
    let x := ac pgCodec (CODEC.CTX.WRAP 2) 0 (ac pgCodec (CODEC.CTX.DIR 2) 1 (ac pgCodec (CODEC.CTX.EN 2) 1 on))
    let c (l : List Byte) : CodecCtx := { isOpen := true, input := l.map some }
    let bad := c [0x07]
    let mid := c [0x00, 4, 0, 0xFB, 0xFF, 65]
    let go (c : CodecCtx) := decodeCtx (takeEngine x 2).regs 2 c
    (go bad).2.isSome = true ∧ (go mid).2 = none ∧ 2 ≤ (go mid).1.phase ∧ (go (c [])).2 = none ∧ (go (c [])).1.phase ≤ 1 ∧
    (decodeRest x.regs 2 2 bad).2.isSome = true ∧ (decodeRest x.regs 2 1 (c [])).2 = none ∧
    (decodeRest x.regs 2 1 (c [])).1.phase = 0 ∧ (decodeRest x.regs 2 1 (c [])).1.input = [] ∧
    (decodeRest x.regs 2 7 mid).2 = none ∧ (decodeRest x.regs 2 7 mid).1.phase ≠ 0 ∧
    x.status pgCodec 2 = false ∧ (x.setStatus pgCodec 2 true).status pgCodec 2 = true ∧ mayUse x 2 = true ∧
    mayUse (x.onCodec fun q => { q with decomp := some 3 }) 2 = false ∧ State.reset.dev.pageOn pgCodec = false ∧
    codecState (lv pgCodec (CODEC.STATE 2) 4 x) 2 = 4 ∧ nextReady x 2 = none := by decide +kernel

/-- O41: the context that follows a closed one needs no restoring. -/
theorem witness_ContextSwitch :
    let b := ac pgCodec (CODEC.CTX.EN 3) 1 (ac pgCodec (CODEC.CTX.EN 2) 1 on)
    let h := (b.setCtx 2 { isOpen := true, input := [some 65, none] }).onCodec fun q => { q with comp := some 3 }
    engineOf h 2 = some 3 ∧ mayLeave h 3 = true ∧ nextReady h 3 = some 2 ∧ ((takeEngine (saveCtx h 3) 2).ctx 2).saved = false := by
  decide +kernel

-- ---- host links -----------------------------------------------------------------------------------------------------------------

/-- The PCI Express link up. -/
def pci (d : Dev) : Dev := lv pgPcie PCIE.LINK.UP 1 d

/-- SAHF enabled, accepting commands of ring 0, which is live; the Foreman runs. -/
def host (d : Dev) : Dev :=
  (ac pgSahf SAHF.ACCEPT.RING 1 (lv pgForeman FOREMAN.STATE 2 (en pgSahf (pci d)))).setRing 0 { live := true }

/-- O42: the link up and down; BAR2 at the top of 64 GiB and of the capacity; a live ring that has room and one that has
not; a ring with a message held back. -/
theorem witness_PcieAndRings :
    let r (n : Nat) : RingSt := { live := true, entries := [⟨0, n, true, []⟩] }
    let d (n : Nat) := ((host on).setRing 1 (r n)).onSahf fun q => { q with replies := [([1, 2, 3], 900)] }
    pcieUp on = false ∧ pcieUp (pci on) = true ∧ dramSize ddr < 2 ^ 32 - 3 + 4 ∧ 2 ^ 32 - 4 + 4 ≤ dramSize ddr ∧ ddr.domainOn 4 = true ∧
    0 + 0 ≤ dramSize { ddr with pwr := { ddr.pwr with domains := 0xFEF } } ∧
    ({ ddr with pwr := { ddr.pwr with domains := 0xFEF } } : Dev).domainOn 4 = false ∧
    on.domainOn 2 = true ∧ on.pwr.reduced = false ∧ ({ on with pwr := { on.pwr with reduced := true } } : Dev).pwr.reduced = true ∧
    State.reset.dev.domainOn 2 = false ∧ State.reset.dev.pageOn pgPcie = false ∧ on.pageOn pgPcie = true ∧ on.pageOn pgSahf = true ∧
    State.reset.dev.pageOn pgSahf = false ∧ ((1 : Fin 16) ≠ 0) ∧ (on.ring 1).live = false ∧ ((d 3).ring 1).live = true ∧
    (1 + 2 ^ 16 - liv (d 3).regs pgSahf (SAHF.RING_TAIL 1)) % ringSize (ac pgSahf (SAHF.RING.LOG2_SIZE 1) 4 (d 3)) 1 = 1 ∧
    sahfOn (d 3) = true ∧ sahfOn on = false ∧ (d 3).sahf.replies = [([1, 2, 3], 900)] ∧
    ringFits ((d 3).ring 1) 3 = true ∧ ringFits ((d 2).ring 1) 3 = false ∧ on.sahf.replies = [] ∧ (on.ring 1).since = 0 ∧
    ((d 3).setRing 1 { r 3 with since := 1 }).ring 1 = { r 3 with since := 1 } ∧
    act (ac pgSahf (SAHF.RING.COALESCE_US 1) 0 on).regs pgSahf (SAHF.RING.COALESCE_US 1) = 0 ∧
    act (ac pgSahf (SAHF.RING.COALESCE_US 1) 5 on).regs pgSahf (SAHF.RING.COALESCE_US 1) ≠ 0 := by decide +kernel

/-- A command over ring 0. -/
def via : Via := ⟨.ring, false, 0, 0, false, 7, 0⟩

/-- The conditions of `Dev.serves` as one Bool. -/
def serveChecks (d : Dev) (v : Via) (r : Req) : Bool :=
  arrives d v && accepts d v.link && (retryMatch d v r.code).isNone && (r.bar r.known (replyLimit d v)).isNone &&
    (!r.service || d.foremanRuns)

/-- A command that meets the checks is served. -/
theorem serves_of_checks {d : Dev} {v : Via} {r : Req} (h : serveChecks d v r = true) : d.serves v r := by
  simp only [serveChecks, Bool.and_eq_true, Bool.not_eq_true', Option.isNone_iff_eq_none, Bool.or_eq_true] at h
  obtain ⟨⟨⟨⟨h1, h2⟩, h3⟩, h4⟩, h5⟩ := h
  exact ⟨h1, h2, h3, h4, fun hs => by simpa [hs] using h5⟩

/-- O43 to O45: what `State.takes` and `State.boxed` ask for: a path that takes a command and one that does not, a link that is not accepted, a
retry, an unknown code, a service command while the Foreman does not run; a command of the mailbox that the window holds and one it does not. -/
theorem witness_Takes :
    let d := host on
    let shut := ac pgSahf SAHF.ACCEPT.RING 0 d
    let e : RetryEnt := { source := via.source, port := via.port, seq := via.seq, code := 5, crc := via.crc, reply := [] }
    let kept := d.onSahf fun q => { q with retry := (List.range 8).map fun _ => [e] }
    let off := lv pgForeman FOREMAN.STATE 0 d
    let boxed := (lv pgForeman FOREMAN.MBX_STATUS.BUSY 1 (lv pgForeman FOREMAN.MBX_STATUS.BYTES 12 d)).setWord
      (pageBase pgForeman + 0xC00) 0x100
    via.mailbox = false ∧ arrives on via = false ∧ arrives d via = true ∧ accepts shut via.link = false ∧ accepts d via.link = true ∧
    retryMatch kept via 5 = some e ∧ retryMatch d via 5 = none ∧
    (withData 5 5000 0 []).bar (withData 5 5000 0 []).known (replyLimit d via) ≠ none ∧ off.foremanRuns = false ∧
    (plain 0x0100).service = true ∧ boxed.foremanRuns = true ∧ mailboxHolds boxed (plain 0x0100) = true ∧
    mailboxHolds d (plain 0x0100) = false ∧ linkCode Link.foreman = (boxed.onFm fun f => { f with mbx := linkCode Link.foreman }).fm.mbx := by
  decide +kernel

/-- O43: a command that is served, for each kind; one that has no path; a write that its register takes. -/
theorem witness_RegisterCommandsAnswer :
    let d := host ddr
    let a : Addr := BitVec.ofNat 24 (pageBase (pgLane .a) + 0x100)
    d.serves via (withData 1 256 a.toNat []) ∧ d.serves via (withData 2 1 a.toNat [0, 0, 0, 0]) ∧
    d.serves via (withData 3 8192 0 []) ∧ d.serves via (withData 4 1 0 [9]) ∧ d.serves via (withData 5 2 0 [1, 2]) ∧
    arrives on via = false ∧ via.mailbox = false ∧ sahfOn d = true := by
  constructorm* _ ∧ _ <;> first | exact serves_of_checks (by decide +kernel) | decide +kernel

/-- O43: what memory answers: data, no such line, poison; a register write without an error. -/
theorem witness_RegisterCommandsOutcomes :
    let d := host ddr
    let a : Addr := BitVec.ofNat 24 (pageBase (pgLane .a) + 0x100)
    (d.memRead 0 4 .clean).2.1 = .ok ∧ (d.memRead (2 ^ 32) 4 .clean).2.1 = .unmapped ∧
    (d.memRead 0 4 .uncorrectable).2.1 = .poisoned ∧ (d.memRead 0 4 .uncorrectable).2.2.1 = some 0 ∧
    sahfOn (d.memRead 0 4 .clean).1 = true ∧ (d.memWrite 0 [9]).2 = .ok ∧
    (∃ pg, placeOf (a.toNat % 2 ^ 24) = some (.page pg 0x100)) ∧
    (writeWords .ring (leWords [0, 0, 0, 0]) 0 (a.toNat % 2 ^ 24) d).2 = [] := by
  constructorm* _ ∧ _ <;> first | decide +kernel | exact ⟨_, rfl⟩

/-- The mailbox of the Foreman holding a command of 12 bytes. -/
def mbx (code : Nat) (d : Dev) : Dev :=
  (lv pgForeman FOREMAN.MBX_STATUS.BUSY 1 (lv pgForeman FOREMAN.MBX_STATUS.BYTES 12 d)).setWord (pageBase pgForeman + 0xC00)
    (Word.ofNat code)

/-- O44: served commands that nothing bars. -/
theorem witness_ServiceCommandsAnswerAtOnce :
    ∀ r ∈ [plain 0x0100, withData 0x0120 256 0 [], withData 0x0121 512 0 [], withAddr 0x0122 5, withAddr 0x0111 (pgTrim .a),
        plain 0x0141, plain 0x01F0],
      serveChecks (host on) via r = true ∧ serviceBar (host on) r = none ∧ sahfOn (host on) = true := by
  decide +kernel

/-- O44: a served command that is barred; a command in the mailbox, and none. -/
theorem witness_ServiceCommandsElsewhere :
    let d := host on
    let m := mbx 0x0100 d
    serveChecks d via (withAddr 0x0111 0xFFF) = true ∧ (serviceBar d (withAddr 0x0111 0xFFF)).isSome = true ∧
    m.foremanRuns = true ∧ mailboxHolds m (plain 0x0100) = true ∧ mailboxReq m = plain 0x0100 ∧
    on.foremanRuns = false ∧ mailboxHolds d (plain 0x0100) = false := by decide +kernel

/-- A device that takes every command that opens a procedure: a save region and a reel region with a reel in them, line A out,
a verified patch in bank 1 and one running from bank 0, the interlock low, an emitter being swapped. -/
def ready : Dev :=
  let d := ac pgForeman FOREMAN.SAVE.SAVE_EN 1 (ac (pgReel .a) REEL.REGION_SIZE 1 (ac (pgReel .a) REEL.WINDOW.REC_EN 1 (host ddr)))
  let d := (d.memWrite 0 [0x52, 0x45, 0x45, 0x4C, 0, 0, 4, 0]).1
  let d := setBankBit (runBank d 1) FOREMAN.BANK.VERIFIED 1 true
  { d with pins := { d.pins with interlock := false }, pwr := { d.pwr with outs := [true, false] },
           fm := { d.fm with emitOld := [(0, 0, 0)] } }

/-- O45: each command that opens a procedure is served and open to be taken. -/
theorem witness_ServiceCommandsOpenProcedures :
    ∀ r ∈ [withAddr 0x0101 4, withAddr 0x0102 1, withAddr 0x0103 0, withAddr 0x0110 (pgTrim .a), withAddr 0x0130 0, plain 0x0131,
        plain 0x0132, plain 0x0133, plain 0x0140, plain 0x0142, withAddr 0x0150 0, withAddr 0x0151 0, withAddr 0x0160 0],
      serveChecks ready via r = true ∧ serviceBar ready r = none ∧ sahfOn ready = true ∧ ready.pwr.mode = 5 := by
  decide +kernel

/-- O45: a command is barred while an open procedure holds what it needs; MEMX takes and refuses a migration. -/
theorem witness_ServiceCommandsBarred :
    let busy := (host on).onFm fun f => { f with procs := [{ code := 0x0101, seq := 0, link := 1, plan := [.across] }] }
    serveChecks busy via (withAddr 0x0101 4) = true ∧ (serviceBar busy (withAddr 0x0101 4)).isSome = true ∧
    liv (migrate 0 (ready.setRankState 1 3)).regs pgMemx MEMX.CMD_RESULT = 0 ∧
    liv (migrate 5 ready).regs pgMemx MEMX.CMD_RESULT ≠ 0 := by decide +kernel

/-- O46: a procedure that is open, at its end, at a step; one whose step has a limit; crashes below and at three; a swap. -/
theorem witness_ProceduresStepAndTimeOut :
    let run := lv pgForeman FOREMAN.STATE 2 on
    let p (l : List PStep) : Proc := { code := 0x0110, seq := 0, link := 1, plan := l }
    let d (l : List PStep) := run.onFm fun f => { f with procs := [p l] }
    let launched := (en (pgShot .a) on).onSeq .a fun q => { q with nextEdge := some 5000, nextSlot := 3 }
    (d []).fm.procs[0]? = some (p []) ∧ (d [.cal]).fm.procs[0]? = some (p [.cal]) ∧ on.fm.procs[0]? = none ∧
    run.foremanRuns = true ∧ on.foremanRuns = false ∧ stepLimit run (p []) = none ∧ on.domainOn 1 = true ∧ on.aonSt.booting = 0 ∧
    swapBoundary on = some on ∧ (swapBoundary launched).isNone = true ∧ (swapBoundary
      (launched.onSeq .a fun q => { q with nextSlot := 0 })).isSome = true ∧ activeBank on = 0 ∧ activeBank (runBank on 1) ≠ 0 ∧ on.fm.crashes = [] ∧
    (on.clk.tick :: ([999, 998] : List Nat).filter fun u => on.clk.tick < u + 37500000000).length = 3 ∧
    (on.onFm fun f => { f with swap := some 6 }).fm.swap = some 6 ∧ launching on .a = false ∧ launching on .b = false ∧
    (let q : Proc := { code := 0x0131, seq := 0, link := 1 }
     (on.onFm fun f => { f with procs := [q], swap := some 5 }).fm.procs.find? (fun p => p.code == 0x0131 || p.code == 0x0132) = some q) := by
  decide +kernel

-- ---- streams, ports, time ------------------------------------------------------------------------------------------------------

/-- A port that is up. -/
def port (d : Dev) : Dev := en (pgEth 0) (lv (pgEth 0) ETH.LINK.UP 1 d)

/-- A stream entry that selects stream 5 for a ring. -/
def stream5 : Dev :=
  lv pgSahf (SAHF.STREAM.EN 4) 1 (lv pgSahf (SAHF.STREAM.ID 4) 5 (lv pgSahf (SAHF.STREAM.DEST 4) 2
    (lv pgSahf (SAHF.STREAM.TARGET 4) 2 (lv pgSahf (SAHF.STREAM.QUEUE_MAX 4) 1 (host on)))))

/-- O47: a message for an entry with room, one for a full queue, one whose link is down, one for no entry. -/
theorem witness_StreamMessagesAreQueuedOrDropped :
    let m (n : Nat) : Msg := ⟨n, 8, [], 0, 0, none⟩
    let d (n : Nat) (s : Dev) : Dev := { s with inbox := [m n] }
    let q : QMsg := ⟨m 5, 1000, 2, 2, none⟩
    matchEntry (d 5 stream5) 5 = some 4 ∧ matchEntry stream5 6 = none ∧ sahfOn stream5 = true ∧ sahfOn on = false ∧
    on.inbox = [] ∧ destBar stream5 q = none ∧ destBar (lv pgPcie PCIE.LINK.UP 0 stream5) q = some 3 ∧
    (stream5.stream 4).queue.length < max (streamFld stream5 (SAHF.STREAM.QUEUE_MAX 4)) 1 ∧
    dropGone stream5 4 = stream5 ∧
    max (streamFld stream5 (SAHF.STREAM.QUEUE_MAX 4)) 1 ≤ ((stream5.setStream 4 { queue := [q] }).stream 4).queue.length ∧
    2 ≤ streamFld stream5 (SAHF.STREAM.DEST 4) := by decide +kernel

/-- O47: a port down and up, with a PTP message, a reply whose neighbour is known, an answer, and nothing to send. -/
theorem witness_PortsSendInTheirOrder :
    let d := port on
    let r : EthReply := ⟨false, 0xE0000001, 5, [], 0⟩
    ethUp on 0 = false ∧ ethUp d 0 = true ∧ ethUp (applyNow (pgEth 0) (d.advanceTo (d.port 0).free)) 0 = true ∧
    ethUp (ac (pgEth 0) ETH.PORT.RSFEC 0 d) 0 = true ∧ sahfOn (host d) = true ∧
    ((d.onPort 0 fun e => { e with ptp := [[1]] }).port 0).ptp = [[1]] ∧ (d.port 0).ptp = [] ∧
    (takeReply d 0 [r]).isSome = true ∧ takeReply d 0 [] = none ∧
    ((d.onPort 0 fun e => { e with ctl := [[2]] }).port 0).ctl = [[2]] ∧ sahfOn d = false := by decide +kernel

/-- O48: frames of each type, for the port's address, for a group and for neither. -/
theorem witness_FramesArriveAtTheirProtocol :
    let d := ac (pgEth 0) ETH.VLAN.VID 100 (port on)
    let f (dst : Nat) (l : List Byte) : List Byte := beBytes 6 dst ++ List.replicate 6 0 ++ l ++ List.replicate 4 0
    ethUp d 0 = true ∧ ethUp on 0 = false ∧ ethUp (applyNow (pgEth 0) d) 0 = true ∧
    ptpHere (en pgPtp (ac pgPtp PTP.PORT.TRANSPORT 2 (ac pgPtp PTP.PORT.PORT 0 d))) 0 2 = true ∧ ptpHere d 0 2 = false ∧
    beAt (f 0 [0x88, 0xF7]) 12 2 = 0x88F7 ∧ macConcerns d 0 (beAt (f (portMac d 0) []) 0 6) = true ∧ macConcerns d 0 (beAt (f (2 ^ 40) []) 0 6) = true ∧
    macConcerns (ac (pgEth 0) ETH.MAC_LO 7 d) 0 (beAt (f 8 []) 0 6) = false ∧ beAt (f 0 [0x88, 0x08]) 12 2 = 0x8808 ∧
    beAt (f 0 [0x08, 0x06]) 12 2 = 0x0806 ∧ beAt (f 0 [0x08, 0x00]) 12 2 = 0x0800 ∧ beAt (f 0 [0x86, 0xDD]) 12 2 = 0x86DD ∧
    beAt (f 0 [0x81, 0, 0, 100, 0x08, 0x00]) 14 2 % 4096 = ethFld d 0 ETH.VLAN.VID ∧
    beAt (f 0 [0x81, 0, 0, 100, 0x08, 0x00]) 16 2 = 0x0800 ∧ beAt (f 0 [0x81, 0, 0, 101]) 14 2 % 4096 ≠ ethFld d 0 ETH.VLAN.VID ∧
    beAt (f 0 [0x88, 0xCC]) 12 2 = 0x88CC := by decide +kernel

/-- O49: a port that may come up with one family and with none; messages whose neighbour is known and not; a neighbour
asked for. -/
theorem witness_PortsComeUpAndGoDown :
    let e := en (pgEth 0) on
    let f (a b : Nat) := ac (pgEth 0) ETH.FAMILY.IPV4_EN a (ac (pgEth 0) ETH.FAMILY.IPV6_EN b e)
    let w := (port on).onPort 0 fun q => { q with wants := [(false, 7, 1000)] }
    let q (n : Nat) : QMsg := ⟨⟨5, 8, [], 0, 0, none⟩, 1000, n, 0, none⟩
    let s (n : Nat) := (port on).setStream 3 { queue := [q n] }
    e.pageOn (pgEth 0) = true ∧ enActive e.regs (pgEth 0) = true ∧ ethUp e 0 = false ∧ familyOn (f 1 0) 0 false = true ∧
    familyOn (f 1 0) 0 true = false ∧ familyOn (f 0 0) 0 false = false ∧ enActive on.regs (pgEth 0) = false ∧
    (w.port 0).wants = [(false, 7, 1000)] ∧ ethUp w 0 = true ∧ (w.port 0).replies = [] ∧
    1000 + retryTicks ≤ (w.advanceTo (1000 + retryTicks)).clk.tick ∧ (on.stream 3).queue = [] ∧
    ((s 0).stream 3).queue = [q 0] ∧ ((s 2).stream 3).queue = [q 2] ∧ (q 0).dest < 2 ∧
    macFor (s 0) 0 (destV6 (s 0) 0 0) (destAddr (s 0) 0 0) = none := by decide +kernel

/-- O50: polls off, of an absent and of a present module; a transfer with and without GO, read and write; a module that comes. -/
theorem witness_CagesArePolledAndWritten :
    let d := en pgI2cm (ac pgI2cm I2CM.CONTROL.POLL_EN 1 on)
    let p := lv pgI2cm (I2CM.CAGE.PRESENT 1) 1 d
    d.pageOn pgI2cm = true ∧ enActive d.regs pgI2cm = true ∧ act d.regs pgI2cm I2CM.CONTROL.POLL_EN ≠ 0 ∧
    enActive on.regs pgI2cm = false ∧ act (ac pgI2cm I2CM.CONTROL.POLL_EN 0 d).regs pgI2cm I2CM.CONTROL.POLL_EN = 0 ∧ liv p.regs pgI2cm (I2CM.CAGE.PRESENT 1) ≠ 0 ∧
    liv (lv pgI2cm (I2CM.CAGE.PRESENT 1) 0 d).regs pgI2cm (I2CM.CAGE.PRESENT 1) = 0 ∧
    bitOf (0x80000000#32).toNat 31 = true ∧ bitOf (0x80000000#32).toNat 25 = false ∧ bitOf (0x82000000#32).toNat 25 = true ∧
    bitOf (0x7FFFFFFF#32).toNat 31 = false ∧ State.reset.dev.pageOn pgI2cm = false := by decide +kernel

/-- O51: PTP taken and not; no master, this one, another; a Sync and a Follow_Up that match; a request answered; the states of
the servo. -/
theorem witness_PtpMessagesMoveTheServo :
    let d := en pgPtp (ac pgPtp PTP.PORT.SOURCE 1 on)
    let m := d.onPtp fun p => { p with master := some 9 }
    ptpTakes d = true ∧ ptpTakes on = false ∧ d.armedAs pgPtp = none ∧ d.ptp.master = none ∧ m.ptp.master = some 9 ∧
    ((10 : BitVec 64) ≠ 9) ∧ setNow d = false ∧
    (d.onPtp fun p => { p with twoStep := some ((7#16).toNat, 5, 6) }).ptp.twoStep = some ((7#16).toNat, 5, 6) ∧
    (d.onPtp fun p => { p with dreq := some ((7#16).toNat, some 8), lastM := some (1, 2, 3) }).ptp.dreq = some ((7#16).toNat, some 8) ∧
    ethUp m (ptpFld m PTP.PORT.PORT) = false ∧ ethUp (port m) (ptpFld (port m) PTP.PORT.PORT) = true ∧
    ptpState (lv pgPtp PTP.STATE 3 d) = 3 ∧ ptpState (lv pgPtp PTP.STATE 1 d) = 1 := by decide +kernel

/-- O51: a message that concerns the block and ones that come over another port, transport or domain; announces of a far and of
a near clock, of a master heard once and twice; the master's Sync in the cycle of a SET. -/
theorem witness_PtpMessagesConcern :
    let a : Announce := ⟨1, 128, 6, 0x21, 100, 128, 0, 37, 1⟩
    let d := port (en pgPtp (ac pgPtp PTP.PORT.SOURCE 1 (ac pgPtp PTP.PORT.TRANSPORT 2 (ac pgPtp PTP.PORT.PORT 0 on))))
    let d := ac pgPtp PTP.PORT.DOMAIN 0 d
    let l (n : Nat) : List Foreign := [⟨9, a, List.replicate n 990⟩]
    (ptpTakes d = true ∧ ptpFld d PTP.PORT.PORT = 0 ∧ ptpFld d PTP.PORT.TRANSPORT = 2 ∧ ptpFld d PTP.PORT.DOMAIN = 0 ∧
      ethUp d 0 = true) ∧
    ptpFld d PTP.PORT.TRANSPORT ≠ (0 : Fin 3).val ∧ ptpFld d PTP.PORT.DOMAIN ≠ (5 : Byte).toNat ∧
    a.steps.toNat < 255 ∧ (255 : BitVec 16).toNat = 255 ∧ (9 : BitVec 80).toNat / 2 ^ 16 ≠ clockIdentity d 0 ∧
    (BitVec.ofNat 80 (clockIdentity d 0 * 2 ^ 16)).toNat / 2 ^ 16 = clockIdentity d 0 ∧
    bestMaster (noteAnnounce (l 0) 1000 9 a) 1000 = none ∧
    (bestMaster (noteAnnounce (l 1) 1000 9 a) 1000).map Foreign.source = some 9 ∧
    setNow (d.onPtp fun p => { p with setAt := some d.clk.tick }) = true ∧ d.ptp.twoStep = none ∧ d.ptp.dreq = none ∧
    ptpState on = 0 := by decide +kernel

/-- O52: SET with the page on and off; PPS_IN enabled, steering and not, with and without an edge before; PPS_OUT enabled
outside and inside its quiet time; REFCLK_IN there and gone. -/
theorem witness_DeviceTimeFollowsItsSource :
    let d := en pgPtp (ac pgPtp PTP.PPS_IN.EN 1 on)
    let s := en pgPtp (ac pgPtp PTP.PORT.SOURCE 2 d)
    let o := en pgPtp (ac pgPtp PTP.PPS_OUT.EN 1 on)
    let lost : Dev := { on with pins := { on.pins with refPresent := false } }
    on.pageOn pgPtp = true ∧ State.reset.dev.pageOn pgPtp = false ∧ on.ptp.stepAt = none ∧
    (on.onPtp fun p => { p with stepAt := some (on.clk.tick, 3) }).ptp.stepAt = some (on.clk.tick, 3) ∧
    (on.onPtp fun p => { p with stepAt := some (7, 3) }).clk.tick ≠ 7 ∧
    (s.onPtp fun p => { p with ppsAt := some s.clk.tick }).ptp.ppsAt = some s.clk.tick ∧ setNow s = false ∧
    setNow (s.onPtp fun p => { p with setAt := some s.clk.tick }) = true ∧ ptpOn d = true ∧ ptpOn on = false ∧
    ptpFld d PTP.PPS_IN.EN = 1 ∧ ptpFld d PTP.PPS_IN.POL = 0 ∧ ppsSteers d = false ∧ ppsSteers s = true ∧ s.ptp.ppsAt = none ∧
    (s.onPtp fun p => { p with ppsAt := some 5 }).ptp.ppsAt.isSome = true ∧ d.ptp.ppsGone = false ∧
    ptpFld o PTP.PPS_OUT.EN ≠ 0 ∧ o.clk.coreOn = true ∧ o.ptp.quiet ≤ o.clk.tick ∧
    (o.onPtp fun p => { p with quiet := 2000000000 }).clk.tick < (o.onPtp fun p => { p with quiet := 2000000000 }).ptp.quiet ∧
    (on.onPtp fun p => { p with ppsOut := true }).ptp.ppsOut = true ∧ on.ptp.ppsOut = false ∧ on.pins.refPresent = true ∧
    lost.pins.refPresent = false ∧ lost.domainOn 5 = true := by decide +kernel

/-- O53: SPI words without and with an error; legacy frames off, late, translated and not. -/
theorem witness_SerialPortsReadAndWrite :
    let d := en pgLegacy on
    let a := (BitVec.ofNat 24 (pageBase (pgLane .a) + 0x100)).toNat
    let t := d.setLiv pgLegacy (LEGACY.TRANSLATION 255) (a / 4 * 2 ^ 10 + 3)
    on.pageOn pgSpis = true ∧ (0x9F : Byte) ≠ 0x0B ∧ (0x9F : Byte) ≠ 0x02 ∧ busBar (on.event pgSpis 4) a 4 = none ∧
    (busBar (on.event pgSpis 4) 0x7FFFFF 4).isSome = true ∧ State.reset.dev.pageOn pgSpis = false ∧
    (busWrite sysWrite .spi a 4 0 (on.event pgSpis 4)).2 = none ∧ d.pageOn pgLegacy = true ∧ State.reset.dev.pageOn pgLegacy = false ∧
    enActive d.regs pgLegacy = true ∧ enActive on.regs pgLegacy = false ∧
    (d.onSerial fun q => { q with legEnd := some 0 }).ser.legEnd = some 0 ∧ 1000 < 0 + 1250 ∧ d.ser.legEnd = none ∧
    translation (d.event pgLegacy 4) (255#15).toNat = none ∧ translation (t.event pgLegacy 4) (255#15).toNat = some (a, 0, 4) ∧
    (busRead .legacy a 4 (t.event pgLegacy 4)).2.1 = none ∧
    (busRead .legacy 0x7FFFFC 4 (t.event pgLegacy 4)).2.1.isSome = true ∧ 0 + 1250 ≤ (on.advance 5000).clk.tick := by decide +kernel

-- ---- logs, reels, power --------------------------------------------------------------------------------------------------------

/-- O54: messages below and at their full length, a critical entry; an entry to copy, notifications, calibrations, retries. -/
theorem witness_LogsFlushAndAreServed :
    let j : JEntry := ⟨0, 0, 0, 1, 0, 0, 0, 0, 0, 0⟩
    let e (s : Nat) : TEntry := ⟨0, s, 0, 0, 0⟩
    let run := lv pgForeman FOREMAN.STATE 2 on
    let auto := ac pgForeman FOREMAN.CONTROL.AUTO_CAL 1 run
    (List.replicate 31 j).length < 32 ∧ 32 ≤ (List.replicate 32 j).length ∧ on.domainOn 2 = true ∧ on.jr.outbox = [] ∧
    on.tr.outbox = [] ∧ (List.replicate 63 (e 1)).length < 64 ∧ 64 ≤ (List.replicate 64 (e 1)).length ∧
    (∀ x ∈ [e 1], x.severity ≠ sevCritical) ∧ (∃ x ∈ [e 3], x.severity = sevCritical) ∧ State.reset.dev.domainOn 2 = false ∧
    run.foremanRuns = true ∧ on.foremanRuns = false ∧ (takeNotification run).tr.handling = [] ∧
    (takeNotification { run with tr := { run.tr with handling := [e 2] } }).tr.handling = [e 2] ∧
    act (ac pgForeman FOREMAN.CONTROL.AUTO_CAL 0 on).regs pgForeman FOREMAN.CONTROL.AUTO_CAL = 0 ∧
    act auto.regs pgForeman FOREMAN.CONTROL.AUTO_CAL = 1 ∧ auto.fm.calAt = none ∧ on.fm.retries = [] ∧ autoCal auto = true ∧
    auto.pageOn (pgTrim .a) = true := by decide +kernel

/-- O55: an armed line with its first boundary; a recorded shot with room and without; ends before and after the start; a
reel that plays. -/
theorem witness_ReelsRecordAndReplay :
    let f : ShotRec := slot0.shot
    let armed := on.onReel .a fun l => { l with armed := true, first := some f }
    let sp : SlotSpan := ⟨slot0, some 500, some 0⟩
    let run := (on.onReel .a fun l => { l with running := true }).onLane .a fun l => { l with spans := [sp] }
    let play (n : Nat) : Dev := { on with pwr := { on.pwr with mode := 6 }, reel := { on.reel with playing := true, left := n } }
    armed.domainOn 7 = true ∧ (armed.reel.line .a).armed = true ∧ (armed.reel.line .a).first.isSome = true ∧
    (armed.reel.line .a).stop = none ∧ leadSpan armed .a = none ∧
    (run.line .a).lane.spans.find? (fun sp => sp.slot.shot.seq == (run.reel.line .a).nextSeq) = some sp ∧
    sp.word = some 0 ∧ (run.reel.line .a).running = true ∧ reelRoom run .a = false ∧
    reelRoom (ac (pgReel .a) REEL.REGION_SIZE 200 run) .a = true ∧
    (let e := run.onReel .a fun l => { l with stop := some 1 }
     (e.reel.line .a).stop = some 1 ∧ (e.reel.line .a).active = true ∧ tailReady e .a = true) ∧
    (let e := armed.onReel .a fun l => { l with stop := some 1 }
     (e.reel.line .a).active = true ∧ (e.reel.line .a).running = false) ∧
    (play 64).reel.playing = true ∧ 64 ≤ (play 64).reel.left ∧ (play 63).reel.left < 64 ∧ (play 64).pwr.mode = 6 ∧
    ((on.onReel .a fun l => { l with running := true }).reel.line .a).running = true ∧ on.domainOn 7 = true ∧
    (on.reel.line .a).stop = none ∧ 2 ^ 20 < 2 ^ 20 + 1 ∧ (on.reel.line .a).running = false ∧ (reelRead [] (play 64) 0 64).2.isSome = false := by decide +kernel

/-- O55: a reel whose next entry reads. -/
theorem witness_ReplayFeeds :
    let play : Dev := { ddr with pwr := { ddr.pwr with mode := 6 }, reel := { ddr.reel with playing := true, left := 64 } }
    (reelRead [] play play.reel.next 64).2.isSome = true := by decide +kernel

/-- O56: no rails coming up; the next one, asserted and not, with and without PWR_GOOD; a rail that is up. -/
theorem witness_RailsComeUpInOrder :
    let d : Dev := { on with aonSt := { on.aonSt with goal := some 5, rail := 2 } }
    let e : Dev := { d with aonSt := { d.aonSt with railAt := some 0 } }
    on.aonSt.goal = none ∧ d.aonSt.goal = some 5 ∧ (2 : Fin 6).val = d.aonSt.rail ∧ e.aonSt.railAt = some 0 ∧
    aonFld (ao (AON.RAIL.PG_USE 2) 0 e) (AON.RAIL.PG_USE 2) = 0 ∧ aonFld e (AON.RAIL.PG_USE 2) = 1 ∧
    max e.slow (0 + 1) ≤ 0 + aonFld e (AON.RAIL.WAIT 2) ∧
    (let l := e.advanceSlow (e.slow + 100000); 0 + aonFld l (AON.RAIL.WAIT 2) < max l.slow (0 + 1)) ∧
    (domainRails 1).contains (2 : Fin 6).val = true ∧ (domainRails 1).contains (4 : Fin 6).val = false ∧
    (({ on with aonSt := { on.aonSt with rails := on.aonSt.rails.set 2 true } } : Dev).aonSt.rails.getD 2 false = true) ∧
    on.aonSt.rails.getD 2 false = false := by decide +kernel

/-- O57: booting cold, warm and not; RESET_n with CTRL on, off, and the rails coming up; the key; V_AON there and gone. -/
theorem witness_ResetsAndBoot :
    let b (n : Nat) : Dev := { on with aonSt := { on.aonSt with booting := n } }
    let off : Dev := { on with pwr := { domains := 1 } }
    (b 1).aonSt.booting = 1 ∧ (b 2).aonSt.booting = 2 ∧ 2 < (b 3).aonSt.booting ∧ on.aonSt.booting = 0 ∧ on.pins.refPresent = true ∧ on.aonSt.goal ≠ some 3 ∧
    on.aonSt.vaon = true ∧ on.aonSt.test = false ∧ (on.advanceSlow (on.slow + 2)).domainOn 1 = true ∧
    (off.advanceSlow (off.slow + 2)).domainOn 1 = false ∧ off.aonSt.goal = none ∧ on.pageOn pgPwr = true ∧ off.pageOn pgPwr = false ∧
    bitOf (rd State.reset.dev.aon (pageBase pgAon + 0x010)).toNat 0 = false ∧
    bitOf (rd ({ on with aon := wr on.aon (pageBase pgAon + 0x010) 1 } : Dev).aon (pageBase pgAon + 0x010)).toNat 0 = true ∧
    ({ on with aonSt := { vaon := false } } : Dev).aonSt.vaon = false := by decide +kernel

/-- O58: a cool device with CTRL on and off, a hot one; an interlock held low in a running mode. -/
theorem witness_TripsAndHoldsQuietTheDevice :
    let off : Dev := { on with pwr := { domains := 1 } }
    let hold := ao AON.ILK_HOLD 1 { on with pins := { on.pins with interlock := false } }
    on.aonSt.vaon = true ∧ on.pwr.hot = false ∧ on.domainOn 1 = true ∧ off.domainOn 1 = false ∧ aonFld on AON.ILK_HOLD = 0 ∧
    aonFld hold AON.ILK_HOLD ≠ 0 ∧ hold.pins.interlock = false ∧ modeLevel hold.pwr.mode = 3 ∧ inTransition hold = false ∧
    hold.aonSt.booting = 0 ∧ ({ on with pwr := { on.pwr with hot := true } } : Dev).pwr.hot = true := by decide +kernel

/-- O59: wake sources enabled and not; a script at an entry of each operation. -/
theorem witness_WakesAndScripts :
    let al := ao AON.WAKE.EN_ALARM 1 on
    let wi (p : Nat) := ao AON.WAKE.WAKE_IN_POL p (ao AON.WAKE.EN_WAKE_IN 1 on)
    let w : Dev := { on with pwr := { on.pwr with mode := 1 } }
    let ret := ao AON.WAKE.RETURN 1 ((lv pgForeman FOREMAN.STATE 2 on).onFm fun f => { f with wakeAt := some 5 })
    let p : Proc := { code := 0x0101, seq := 0, link := 6, plan := [.script], begun := true }
    let sc (op : Nat) : Dev :=
      let d := (ao AON.SCRIPT_LEN 1 (lv pgForeman FOREMAN.STATE 2 on)).onFm fun f => { f with entry := some (1000, 0), procs := [p] }
      { d with aonSt := { d.aonSt with script := [(0, BitVec.ofNat 64 (op * 2 ^ 56))] } }
    on.aonSt.alarm = true ∧ aonFld al AON.WAKE.EN_ALARM = 1 ∧ aonFld on AON.WAKE.EN_ALARM = 0 ∧
    aonFld al AON.WAKE_EVERY = 0 ∧ aonFld (ao AON.WAKE_EVERY 10 al) AON.WAKE_EVERY ≠ 0 ∧
    aonFld (wi 0) AON.WAKE.WAKE_IN_POL = 0 ∧ aonFld (wi 1) AON.WAKE.WAKE_IN_POL = 1 ∧ aonFld (wi 0) AON.WAKE.EN_WAKE_IN = 1 ∧
    on.pwr.mode ≠ 1 ∧ w.pwr.mode = 1 ∧ aonFld (ao AON.WAKE.EN_PFE 1 w) AON.WAKE.EN_PFE = 1 ∧ w.pageOn pgPfe = true ∧
    ({ w with aonSt := { w.aonSt with edges := [3, 4] } } : Dev).aonSt.edges.contains 3 = true ∧ on.aonSt.edges.contains 3 = false ∧ aonFld (ao AON.WAKE.EN_HK 1 w) AON.WAKE.EN_HK = 1 ∧ w.pageOn pgHk = true ∧
    ret.fm.wakeAt = some 5 ∧ ret.foremanRuns = true ∧ aonFld ret AON.WAKE.RETURN = 1 ∧
    scriptProc (sc 0) = some (0, p) ∧ (sc 0).fm.entry = some (1000, 0) ∧
    liv (sc 0).aon pgAon AON.SCRIPT_RESULT.PLAYED < aonFld (sc 0) AON.SCRIPT_LEN ∧ scriptEntry (sc 0) 0 / 2 ^ 56 = 0 ∧
    scriptEntry (sc 1) 0 / 2 ^ 56 = 1 ∧ scriptEntry (sc 2) 0 / 2 ^ 56 = 2 ∧ scriptEntry (sc 3) 0 / 2 ^ 56 = 3 ∧
    scriptProc on = none ∧ (aonFld (ao AON.WAKE.RETURN 2 ret) AON.WAKE.RETURN = 2 ∧ allProfiled ret = false) ∧
    (let q := (en (pgRaman .a) ret).setWord (countAddr (pgRaman .a) 4) 7
     allProfiled q = true) := by decide +kernel

/-- O59: a wake in the test mode; one of a device that is down, at rest and coming up; one of a device that is up, in Watch and in
another mode, and while it starts. -/
theorem witness_Wakes :
    let down : Dev := { on with pwr := { domains := 1 } }
    let run := lv pgForeman FOREMAN.STATE 2 on
    on.aonSt.test = false ∧ ({ on with aonSt := { on.aonSt with test := true } } : Dev).aonSt.test = true ∧
    down.domainOn 1 = false ∧ down.aonSt.goal = none ∧ down.aonSt.booting = 0 ∧
    ({ down with aonSt := { down.aonSt with goal := some 3 } } : Dev).aonSt.goal.isSome = true ∧ run.domainOn 1 = true ∧
    inTransition run = false ∧ run.foremanRuns = true ∧ ({ run with pwr := { run.pwr with mode := 1 } } : Dev).pwr.mode = 1 ∧
    run.pwr.mode ≠ 1 ∧ ({ run with aonSt := { run.aonSt with booting := 2 } } : Dev).aonSt.booting ≠ 0 := by decide +kernel

/-- O60: the TAP with CTRL on and off. -/
theorem witness_TapInstructionsAreInForce : on.domainOn 1 = true ∧ State.reset.dev.domainOn 1 = false := by decide +kernel

-- ---- worked figures of the spec ----------------------------------------------------------------------------------------------

/-- Fields set in a page, active. -/
def sets (p : Nat) (l : List (Fld × Nat)) (d : Dev) : Dev := l.foldl (fun d e => ac p e.1 e.2 d) d

/-- Fields set in a line's active tone plan. -/
def plans (x : Line) (l : List (Fld × Nat)) (d : Dev) : Dev :=
  l.foldl (fun d e => { d with regs := e.1.put d.regs (planBase x) e.2 }) d

/-- The reference plan of line A (the example after R68). -/
def planA : Dev :=
  sets (pgShot .a) [(SHOT.LINE_LEN, 282811), (SHOT.GUARD, 1536), (SHOT.ROUND_CTRL.N_GROUPS, 8), (SHOT.ROUND_CTRL.COH_EN, 1),
      (SHOT.RAMAN_CTRL.EN, 1), (SHOT.RAMAN_CTRL.EVERY, 8), (SHOT.RAMAN_TIMING.OFFSET, 2000), (SHOT.RAMAN_TIMING.WIDTH, 7)]
    (plans .a ((List.range 8).flatMap fun t => [(SHOT.GROUP.TONES t, 2 ^ t), (SHOT.TONE.SHAPE t, 1), (SHOT.TONE.BW t, 100),
      (SHOT.TONE.DUR t, 5000), (SHOT.TONE.EDGE t, 64), (SHOT.TONE.AMP t, 32767)]) on)

/-- A plan of line B: its groups, and the amplitude of each tone. -/
def planB (groups : List Nat) (amp every : Nat) : Dev :=
  sets (pgShot .b) [(SHOT.LINE_LEN, 113553), (SHOT.GUARD, 1536), (SHOT.ROUND_CTRL.N_GROUPS, groups.length),
      (SHOT.ROUND_CTRL.COH_EN, 1), (SHOT.RAMAN_CTRL.EN, 1), (SHOT.RAMAN_CTRL.EVERY, every),
      (SHOT.RAMAN_TIMING.OFFSET, 2000), (SHOT.RAMAN_TIMING.WIDTH, 7)]
    (plans .b (groups.zipIdx.map (fun e => (SHOT.GROUP.TONES e.2, e.1)) ++
      (List.range 8).map fun t => (SHOT.TONE.AMP t, amp)) on)

/-- The reference plan of line A: its slot, its period, its chirp words, its kernel (the examples of chapters 2 and 5). -/
theorem test_figures_plan_a :
    planSlot planA.regs .a = 71243 ∧ planPeriod planA.regs .a = 569944 ∧ toneClearMax planA.regs .a = 569944 ∧
    ramanClear planA.regs .a = 568701 ∧ chirpOf planA.regs .a 0 = (-5629499534213, 2251799814) ∧
    (planCheck planA.regs .a).code = 0 ∧ kernelLen planA.regs .a 0 = 625 := by decide +kernel

/-- A fixed period of 560,000 falls short of the clearance by 9,944. -/
theorem test_figures_relaunch :
    relaunch (sets (pgShot .a) [(SHOT.ROUND_CTRL.PERIOD_MODE, 1), (SHOT.ROUND_PERIOD, 560000)] planA).regs .a =
      some ⟨4, 0, 9944⟩ := by decide +kernel

/-- The plans of line B, and the hold that the change from one to the other takes. -/
theorem test_figures_plan_b :
    let p := planB [0x11, 0x22, 0x44, 0x88] 16383 4
    let q := planB [0x33, 0xCC] 8191 2
    let s : Shot := { tones := [some 1000000, some (1000000 + 57561), some (1000000 + 115122), some (1000000 + 172683),
                                some 1000000, some (1000000 + 57561), some (1000000 + 115122), some (1000000 + 172683)],
                      raman := some 1002000 }
    planSlot p.regs .b = 57561 ∧ planPeriod p.regs .b = 230244 ∧ planSlot q.regs .b = 115121 ∧
    planPeriod q.regs .b = 230242 ∧ holdNeeded q.regs .b s (1000000 + 230244) = 57559 ∧
    (planCheck p.regs .b).code = 0 ∧ (planCheck q.regs .b).code = 0 := by decide +kernel

/-- The kernel of a 100 ns pulse. -/
theorem test_figures_kernel_b :
    kernelLen (planB [0x11] 16383 4).regs .b 0 = 32 ∧ kernelTap (planB [0x11] 16383 4).regs .b 0 31 = (32765, 0) := by
  decide +kernel

/-- The tracked offset of core 3, and a step of the tracking. -/
theorem test_figures_trim : trimInterp [0, 0, -37, -21, 0] 12109 = -29 ∧ stepTo (-31) (-26) = -30 := by decide +kernel

/-- Four samples of lane XI in a reel. -/
theorem test_figures_packing :
    (cycleBytes [[1, -1, 2047, -2048]] 0).take 6 = [0x01, 0xF0, 0xFF, 0xFF, 0x07, 0x80] := by decide +kernel

/-- The scale of line A (1.0871192 × 10^15 in the example), and the strain rate of a step. -/
theorem test_figures_scale :
    let d := sets (pgGauge .a) [(GAUGE.WAVELENGTH, 1550120), (GAUGE.PHASE_INDEX, 94634), (GAUGE.XI, 51118),
      (GAUGE.GAUGE_LEN, 31), (GAUGE.SCALE.E, 10)] planA
    gaugeConst d.regs .a = 1087119183643145 ∧ strainRate d.regs .a 1000000 71243 = 888209 := by decide +kernel

/-- One shot at a point of line B: its step, its strain rate (the examples of chapter 6). -/
theorem test_figures_shot :
    wrap24 (1836434 - 1761608) = 74826 ∧
    strainRate (sets (pgGauge .b) [(GAUGE.WAVELENGTH, 1550120), (GAUGE.PHASE_INDEX, 94634), (GAUGE.XI, 51118),
      (GAUGE.GAUGE_LEN, 61), (GAUGE.SCALE.E, 10)] on).regs .b 74826 57561 = 41804 := by decide +kernel

/-- The least freeze lag of line A at D = 16 and at D = 1. -/
theorem test_figures_lag :
    let d := lv (pgShot .a) SHOT.SLOT_EFF 71243 planA
    lagEff (ac (pgPfilt .a) PFILT.DECIM.D 16 d).regs .a = 2 ∧ lagEff d.regs .a = 10 := by decide +kernel

/-- Settling after a change of geometry: the support and the delay of LINEAR K = 2, D = 16. -/
theorem test_figures_support :
    support (sets (pgPfilt .a) [(PFILT.DECIM.D, 16), (PFILT.DECIM.ORDER, 2)] planA).regs .a = 31 := by decide +kernel

/-- The bytes of a frame of 141,390 points. -/
theorem test_figures_frame : frameBytes 141390 = 282832 ∧ recordBytes 1000 = 2048 := by decide +kernel

/-- The reel of 4 km at 26 km: where its windows start, how long they are, what a shot takes. -/
theorem test_figures_reel :
    let d := sets (pgReel .a) [(REEL.WINDOW.WIN_FIRST, 78000), (REEL.WIN_BINS, 12000), (REEL.WINDOW.REC_EN, 1)]
      (sets (pgGauge .a) [(GAUGE.FIRST, 15), (GAUGE.SPACING, 2), (GAUGE.COUNT, 141390)]
        (ac (pgChan .a) CHAN.ZERO 1024 (lv (pgShot .a) SHOT.SLOT_EFF 71243 planA)))
    winStart d.regs .a = 156224 ∧ winCycles d.regs .a = 25311 ∧ shotBytes d .a = 607552 ∧ tailCount d .a = 2 ∧
    configLength = 188992 ∧ stateOffset = 189504 ∧ isReplayed d.regs .a 38999 = false ∧ isReplayed d.regs .a 39000 = true ∧
    isReplayed d.regs .a 44984 = true ∧ isReplayed d.regs .a 44985 = false := by decide +kernel

/-- A platinum resistance at 40 °C. -/
theorem test_figures_rtd :
    let d := sets pgPfe [(PFE.RREF, 2000000), (PFE.RNOM 0, 100000), (PFE.CH.WIRES 0, 2)] on
    pfeRes d.regs 0 3 7753812 = 7572082 ∧ (cvdOf d.regs 0).root 100000 7572082 = .temp 2621440 := by decide +kernel

/-- Eight bytes of 0x41, compressed with the fixed codes. -/
theorem test_figures_codec :
    (takeBytes 4 (padBits (fixedBlock true [] (List.replicate 8 0x41)))).1 = [0x73, 0x84, 0x02, 0x00] ∧
    (fixedBlock true [] (List.replicate 8 0x41)).length = 30 ∧
    adlerBytes ((List.replicate 8 0x41).foldl adlerByte (1, 0)) = [0x09, 0x2C, 0x02, 0x09] := by decide +kernel

/-- The payload of a full fragment under IPv4, and the wire time of a full frame. -/
theorem test_figures_ethernet :
    let d := ac (pgEth 0) ETH.PORT.MTU 9000 on
    fragSize d 0 false = 8940 ∧ ceilDiv 282832 (fragSize d 0 false) = 32 := by decide +kernel

/-- The window test of the survey: a pulse may be launched on both lines in one slot length. -/
theorem test_figures_survey :
    planSlot (sets (pgShot .a) [(SHOT.LINE_LEN, 39800), (SHOT.GUARD, 1536), (SHOT.RAMAN_CTRL.EN, 1)] on).regs .a = 82679 ∧
    planSlot (sets (pgShot .a) [(SHOT.LINE_LEN, 282811), (SHOT.GUARD, 1536), (SHOT.RAMAN_CTRL.EN, 1)] on).regs .a = 568701 ∧
    planSlot (sets (pgShot .b) [(SHOT.LINE_LEN, 113553), (SHOT.GUARD, 1536), (SHOT.RAMAN_CTRL.EN, 1)] on).regs .b = 230185 :=
  by decide +kernel

/-- The square root of R133 at its largest. -/
theorem test_figures_amplitude : isqrt (2 * 32767 ^ 2) = 46339 := by decide +kernel

/-- The check value of CRC-32C. -/
theorem test_crc32c :
    crc32c [0x31, 0x32, 0x33, 0x34, 0x35, 0x36, 0x37, 0x38, 0x39] = 0xE3069283#32 := by decide +kernel
end Sys2Proof.Tests
end

section
/-!
PROOFS. A write of a register over a link (R12, R22, R42, R43): what it does by its words and its place, and what ARM
does to a page by whether the page is armed already.
-/
namespace Sys2Proof.Machine

-- ---- the place of a page's word -------------------------------------------------------------------------------

/-- An address whose place is a word of a page is the page's base and the word's offset. -/
theorem placeOf_eq_page {a off : Nat} {pg : Page} (h : placeOf a = some (.page pg off)) :
    pageOf (a / 0x1000) = some pg ∧ a = pageBase pg.num + off := by
  have hpage : pageOf (a / 0x1000) = some pg ∧ a % 0x1000 = off := by
    unfold placeOf at h
    split_ifs at h <;> simp_all
  obtain ⟨hpg, hoff⟩ := hpage
  refine ⟨hpg, ?_⟩
  rw [pageOf_num hpg, ← hoff]
  unfold pageBase
  omega

/-- A page of another block than AON's is not page AON. -/
theorem pageOf_ne_pgAon {p : Nat} {pg : Page} (h : pageOf p = some pg) (hb : pg.block ≠ .aon) : p ≠ pgAon := by
  rintro rfl
  rw [pageOf_pgAon, Option.some.injEq] at h
  exact hb (h ▸ rfl)

/-- A page of another block than DEV's is not page DEV. -/
theorem pageOf_ne_pgDev {p : Nat} {pg : Page} (h : pageOf p = some pg) (hb : pg.block ≠ .dev) : p ≠ pgDev := by
  rintro rfl
  rw [pageOf_pgDev, Option.some.injEq] at h
  exact hb (h ▸ rfl)

/-- A write outside page DEV carries no APPLY_SET. -/
theorem setBar_none {a : Nat} {v : Word} {d : Dev} (h : a / 0x1000 ≠ pgDev) : setBar a v d = none := by
  unfold setBar
  rw [if_neg]
  rintro ⟨rfl, -⟩
  exact h (by decide)

-- ---- what a page does with a write ----------------------------------------------------------------------------

/-- A configuration word lands in the shadow under its implemented bits, and the page arms in AUTO mode (R12, R22). -/
theorem writePage_config {sys : Link → Nat → Word → Dev → Dev} {k : Link} {pg : Page} {off : Nat} {v : Word} {d : Dev}
    (hb : pg.block ≠ .dev) (hlo : 0x100 ≤ off) (hhi : off < 0x500) :
    writePage sys k pg off v d =
      autoArm (linkCode k)
        (repairWord (d.setWord (pageBase pg.num + off) (v &&& Word.ofNat (wordMask pg.block.cfg off)))
          (pageBase pg.num + off)) pg.num := by
  have hctrl : off ≠ 0x008 := by omega
  have happly : off ≠ 0x00C := by omega
  have hirq : off ≠ 0x014 := by omega
  have hid : ¬ off < 0x040 := by omega
  have hevents : ¬ off < 0x100 := by omega
  simp only [writePage, hctrl, happly, hirq, hid, hevents, hb, hhi, if_true, if_false]

/-- A write of APPLY on a powered page other than AON sets GROUP and MODE, and arms the page where ARM = 1 (R22). -/
theorem putWord_apply {k : Link} {p : Nat} {pg : Page} {v : Word} {d : Dev} (hpg : pageOf p = some pg)
    (hb : pg.block ≠ .dev) (hd : d.domainOn pg.domain = true) (ha : p ≠ pgAon) :
    putWord k (pageBase p + 0x00C) v d =
      if bitOf v.toNat 0 then armPage (linkCode k) 0 (d.setWord (pageBase p + 0x00C) (v &&& 0xF0)) p
      else d.setWord (pageBase p + 0x00C) (v &&& 0xF0) := by
  have hhas : pageHas pg 0x00C = true := by simp [pageHas, hb]
  have hw : writePage noSys k pg 0x00C v d = writeApply k pg v d := by simp [writePage]
  unfold putWord
  rw [busWrite_page hpg (by decide) (by decide) hd hhas ha (.inr (by decide)), hw, writeApply, pageOf_num hpg]

/-- A page that is armed already stays as it is (R22). -/
theorem armPage_armed {link seq : Nat} {d : Dev} {p : Nat} (h : (d.armedAs p).isSome = true) :
    armPage link seq d p = d := by
  unfold armPage
  cases pageOf p with
  | none => rfl
  | some pg => simp [h]

/-- A powered page that is not armed, and has no groups of its own, is armed and shows PENDING (R22). -/
theorem armPage_unarmed {link seq : Nat} {d : Dev} {p : Nat} {pg : Page} (hpg : pageOf p = some pg)
    (hb : pg.block ≠ .dev) (hd : d.domainOn pg.domain = true) (hdma : p ≠ pgDma) (hcodec : p ≠ pgCodec)
    (h : d.armedAs p = none) :
    armPage link seq d p =
      ({ d with bus := { d.bus with armed := d.bus.armed ++ [⟨p, link, seq, d.clk.tick⟩] } } : Dev).setPending p true := by
  have hgo : (pg.block == .dev || !d.domainOn pg.domain || (d.armedAs p).isSome) = false := by simp [hb, hd, h]
  simp only [armPage, hpg, hgo, hdma, hcodec, or_self, Bool.false_eq_true, if_false]

-- ---- a write request ------------------------------------------------------------------------------------------

/-- A write request of one word is a write of the bus. -/
theorem exec_registerWrite_one (k : Link) (a : Addr) (w : Nat) (v : Word) (s : State) :
    exec (.registerWrite k a w ⟨v, []⟩) s = done s (busWrite sysWrite k a.toNat w v s.dev).1 := rfl

/-- A write request of several words writes them one after the other and has one log entry (R43). -/
theorem exec_registerWrite_many (k : Link) (a : Addr) (w : Nat) (v v' : Word) (rest : List Word) (s : State) :
    exec (.registerWrite k a w ⟨v, v' :: rest⟩) s =
      done s (busErrors (writeWords k (v :: v' :: rest) 0 a.toNat s.dev).1 (linkCode k)
        ((writeWords k (v :: v' :: rest) 0 a.toNat s.dev).2.map (·.2))) := rfl

/-- A write of one configuration word lands in the shadow and arms its page in AUTO mode (R12, R22). -/
theorem registerWrite_config {s : State} {k : Link} {a : Addr} {w off : Nat} {v : Word} {pg : Page}
    (hp : placeOf a.toNat = some (.page pg off)) (hbar : busBar s.dev a.toNat w = none) (hdev : pg.block ≠ .dev)
    (haon : pg.block ≠ .aon) (hlo : 0x100 ≤ off) (hhi : off < 0x500) :
    s.lands (.registerWrite k a w ⟨v, []⟩)
      (autoArm (linkCode k)
        (repairWord (s.dev.setWord a.toNat (v &&& Word.ofNat (wordMask pg.block.cfg off))) a.toNat) pg.num) := by
  obtain ⟨hpg, haddr⟩ := placeOf_eq_page hp
  have hwrite := busWrite_ok (sys := sysWrite) (k := k) hbar hp (pageOf_ne_pgAon hpg haon)
    (setBar_none (v := v) (pageOf_ne_pgDev hpg hdev))
  rw [State.lands_iff, exec_registerWrite_one, hwrite, writePlace, writePage_config hdev hlo hhi, ← haddr]

/-- Settles O13: a write request by its number of words, its place and its errors; ARM by whether the page is armed. -/
theorem registerWritesLandAndArm : Obligations.RegisterWritesLandAndArm := by
  unfold Obligations.RegisterWritesLandAndArm
  refine ⟨fun s k a w v => ⟨fun e hbar => ?_, fun pg off hp hbar hdev haon hlo hhi => ?_, fun v' rest => ?_⟩,
    fun s k p v pg hpg hdev hdom haon hdma hcodec => ?_⟩
  · rw [State.lands_iff, exec_registerWrite_one, busWrite_bar hbar]
  · exact registerWrite_config hp hbar hdev haon hlo hhi
  · have hmany := exec_registerWrite_many k a w v v' rest s
    refine ⟨fun hok => ?_, State.lands_iff.mpr hmany⟩
    rw [State.lands_iff, hmany, hok, List.map_nil, busErrors]
  · simp only [State.lands_iff, exec_arm, putWord_apply hpg hdev hdom haon]
    refine ⟨fun hstays => ?_, fun harm hfree => ?_⟩
    · rcases hstays with hoff | harmed
      · rw [hoff, if_neg Bool.false_ne_true]
      · rw [armPage_armed (d := s.dev.setWord _ _) harmed, ite_self]
    · rw [harm, if_pos rfl, armPage_unarmed (d := s.dev.setWord _ _) hpg hdev hdom hdma hcodec hfree]

end Sys2Proof.Machine
end

section
/-!
PROOFS. The settling of the outputs (R35, R343, R395): the registers it can move, the state it leads to, and that a
settled state settles to itself. Every step leads to a settled state.
-/
namespace Sys2Proof.Machine

-- ---- agreeing register spaces ---------------------------------------------------------------------------------

/-- A field of a word on which two register spaces agree reads the same in both. -/
theorem RegMap.agree_at {m m' : RegMap} {out : Nat → Prop} (h : m.agree m' out) {f : Fld} {base : Nat}
    (ho : ¬ out (base + f.off)) : f.at m base = f.at m' base := by
  unfold Fld.at
  rw [h _ ho]

/-- The two words of the pending-bit array of the PCIE page (R343). -/
def inPending (a : Nat) : Prop := a = pageBase pgPcie + 0x9F8 ∨ a = pageBase pgPcie + 0x9FC

/-- A word of another page is no word of the pending-bit array. -/
theorem not_inPending_page {p off : Nat} (hp : p ≠ pgPcie) (ho : off < 0x1000) : ¬ inPending (pageBase p + off) := by
  unfold inPending pageBase pgPcie at *
  omega

/-- A word among the identity, control and event words of a page is no word of the pending-bit array. -/
theorem not_inPending_low {p off : Nat} (ho : off < 0x900) : ¬ inPending (pageBase p + off) := by
  unfold inPending pageBase pgPcie
  omega

-- ---- what the messages move -----------------------------------------------------------------------------------

/-- Sending messages: the pending-bit array moves, and messages are added to those sent. -/
def Dev.messaged (d d' : Dev) : Prop :=
  ∃ m new, d' = { d with regs := m, pcie := { d.pcie with sent := new ++ d.pcie.sent } } ∧ m.agree d.regs inPending

theorem Dev.messaged_refl (d : Dev) : d.messaged d := ⟨d.regs, [], rfl, RegMap.agree_refl _ _⟩

theorem Dev.messaged_trans {d e f : Dev} (h : d.messaged e) (h' : e.messaged f) : d.messaged f := by
  obtain ⟨m, new, rfl, hm⟩ := h
  obtain ⟨m', new', rfl, hm'⟩ := h'
  exact ⟨m', new' ++ new, by simp, RegMap.agree_trans hm' hm⟩

/-- The message of a vector, of which there are 64. -/
theorem Dev.msix_messaged (d : Dev) {v : Nat} (hv : v < 64) : d.messaged (d.msix v) := by
  rcases d.msix_cases v with h | ⟨w, h⟩ | h <;> rw [h]
  · exact d.messaged_refl
  · refine ⟨_, [], rfl, RegMap.agree_wr _ _ ?_⟩
    unfold inPending
    omega
  · exact ⟨d.regs, [v], rfl, RegMap.agree_refl _ _⟩

/-- The vector of a page's interrupt has six bits. -/
theorem irqRoute_vector_lt (m : RegMap) (n : Nat) : liv m pgDev (DEV.IRQ_ROUTE.VECTOR n) < 64 :=
  Nat.mod_lt _ (Nat.two_pow_pos 6)

/-- The vector of a DMA channel has six bits. -/
theorem chan_vector_lt (m : RegMap) (c : Nat) : act m pgDma (DMA.CH.VECTOR c) < 64 :=
  Nat.mod_lt _ (Nat.two_pow_pos 6)

theorem Dev.irqMessage_messaged (d : Dev) (e : Nat) : d.messaged (d.irqMessage e) := by
  unfold Dev.irqMessage
  split
  · exact d.msix_messaged (irqRoute_vector_lt _ _)
  · exact d.messaged_refl

theorem irqRises_messaged (d : Dev) (i : Nat) (ns os : List Bool) : d.messaged (irqRises d i ns os) := by
  fun_induction irqRises d i ns os with
  | case1 d => exact d.messaged_refl
  | case2 d => exact d.messaged_refl
  | case3 d i n ns o os ih =>
    refine Dev.messaged_trans ?_ ih
    split
    · exact d.irqMessage_messaged i
    · exact d.messaged_refl

/-- One after another, the messages of the channels that rose. -/
theorem chanMessages_messaged (rose : Nat → Bool) (cs : List Nat) (d : Dev) :
    d.messaged (cs.foldl (fun e c => if rose c then e.chanMessage c else e) d) := by
  induction cs generalizing d with
  | nil => exact d.messaged_refl
  | cons c cs ih =>
    refine Dev.messaged_trans ?_ (ih _)
    dsimp only
    split
    · exact d.msix_messaged (chan_vector_lt _ _)
    · exact d.messaged_refl

-- ---- the interrupts -------------------------------------------------------------------------------------------

theorem irqPendAny_iff {m : RegMap} {p en k : Nat} :
    irqPendAny m p en k = true ↔
      ∃ n < k, bitOf en n = true ∧ rd m (countAddr p n) ≠ rd m (countAddr p n + 4) := by
  induction k with
  | zero => simp [irqPendAny]
  | succ k ih =>
    rw [irqPendAny, Bool.or_eq_true, ih, Bool.and_eq_true, bne_iff_ne]
    constructor
    · rintro (h | ⟨n, hn, h⟩)
      · exact ⟨k, Nat.lt_succ_self k, h⟩
      · exact ⟨n, Nat.lt_succ_of_lt hn, h⟩
    · rintro ⟨n, hn, h⟩
      rcases Nat.lt_succ_iff_lt_or_eq.mp hn with hlt | rfl
      · exact .inr ⟨n, hlt, h⟩
      · exact .inl h

/-- The interrupt of a page is raised while its domain is on and an enabled event has COUNT apart from SEEN (R35). -/
theorem Dev.irqRaised_iff {d : Dev} {pg : Page} :
    d.irqRaised pg = true ↔
      d.domainOn pg.domain = true ∧
        ∃ n < pg.nEvents, bitOf (rd d.regs (pageBase pg.num + 0x014)).toNat n = true ∧
          rd d.regs (countAddr pg.num n) ≠ rd d.regs (countAddr pg.num n + 4) := by
  unfold Dev.irqRaised
  by_cases hen : (rd d.regs (pageBase pg.num + 0x014)).toNat = 0
  · simp [hen, bitOf]
  · simp only [hen, if_false, Bool.and_eq_true, irqPendAny_iff]

/-- No page of the directory has more than 24 event pairs. -/
theorem nEvents_le {pg : Page} (h : pg ∈ directory) : pg.nEvents ≤ 24 :=
  (show ∀ pg ∈ directory, pg.nEvents ≤ 24 by decide +kernel) pg h

/-- Messages leave the level of a page's interrupt as it was. -/
theorem Dev.irqRaised_congr {d e : Dev} (hp : d.pwr = e.pwr) (hm : d.regs.agree e.regs inPending) {pg : Page}
    (hpg : pg ∈ directory) : d.irqRaised pg = e.irqRaised pg := by
  have hcount : ∀ n < pg.nEvents, rd d.regs (countAddr pg.num n) = rd e.regs (countAddr pg.num n) ∧
      rd d.regs (countAddr pg.num n + 4) = rd e.regs (countAddr pg.num n + 4) := by
    intro n hn
    have hle := nEvents_le hpg
    unfold countAddr
    simp only [Nat.add_assoc]
    exact ⟨hm _ (not_inPending_low (by omega)), hm _ (not_inPending_low (by omega))⟩
  rw [Bool.eq_iff_iff, Dev.irqRaised_iff, Dev.irqRaised_iff, hm _ (not_inPending_low (by decide))]
  unfold Dev.domainOn
  rw [hp]
  refine and_congr_right fun _ => exists_congr fun n => and_congr_right fun hn => ?_
  obtain ⟨hc, hs⟩ := hcount n hn
  rw [hc, hs]

theorem Dev.irqLevels_congr {d e : Dev} (hp : d.pwr = e.pwr) (hm : d.regs.agree e.regs inPending) :
    d.irqLevels = e.irqLevels := List.map_congr_left fun _ => Dev.irqRaised_congr hp hm

/-- The levels of the DMA channels. -/
def Dev.chanLevels (d : Dev) : List Bool := (List.range 32).map d.chanRaised

/-- Messages leave the levels of the channels as they were. -/
theorem Dev.chanLevels_congr {d e : Dev} (hp : d.pwr = e.pwr) (hm : d.regs.agree e.regs inPending) :
    d.chanLevels = e.chanLevels := by
  refine List.map_congr_left fun c hc => ?_
  have hc := List.mem_range.mp hc
  have hpage : d.pageOn pgDma = e.pageOn pgDma := by simp [Dev.domainOn, hp]
  have hdma : ∀ off < 0x1000, ¬ inPending (pageBase pgDma + off) := fun _ => not_inPending_page (by decide)
  unfold Dev.chanRaised liv act
  rw [hpage, RegMap.agree_at hm (hdma _ (by simp only [DMA.COMP_COUNT]; omega)),
    RegMap.agree_at hm (hdma _ (by simp only [DMA.COMP_SEEN]; omega)),
    RegMap.agree_at hm (by rw [Nat.add_assoc]; exact hdma _ (by simp only [DMA.CH.IRQ_EN]; omega))]

/-- The settling of the channels: their messages, and their levels. -/
theorem settleChans_form (d : Dev) :
    ∃ e, d.messaged e ∧ settleChans d = { e with dma := { e.dma with irq := d.chanLevels } } :=
  ⟨_, chanMessages_messaged (fun c => d.chanLevels.getD c false && !d.dma.irq.getD c false) _ d, rfl⟩

-- ---- the balls and the alarms -----------------------------------------------------------------------------------

/-- The balls of a line as the clock-free paths or boundary scan drive them (R86, R87, R459). -/
def Dev.driven (d : Dev) (x : Line) (c : Cells) : Cells :=
  match d.scan with
  | none => c.drive d.clk.tick d.lightPath
  | some b => c.scanned (match x with | .a => b | .b => b.drop 4) (d.pins.interlock && d.domainOn 10)

theorem Dev.driven_idem (d : Dev) (x : Line) (c : Cells) : d.driven x (d.driven x c) = d.driven x c := by
  unfold Dev.driven
  cases d.scan <;> rfl

theorem settleBalls_eq (d : Dev) :
    settleBalls d = { d with lineA := { d.lineA with cells := d.driven .a d.lineA.cells },
                             lineB := { d.lineB with cells := d.driven .b d.lineB.cells } } := by
  unfold settleBalls Dev.driven
  cases d.scan <;> rfl

/-- The levels that the ALARM cells idle at (R442). -/
def Dev.idleLevels (d : Dev) : List Bool := (settleAlarms d).pins.alarmIdle

theorem settleAlarms_eq (d : Dev) :
    settleAlarms d = { d with pins := { d.pins with alarmIdle := d.idleLevels } } := rfl

/-- The idle levels follow the domains, the levels held and the POLARITY fields of TRIG. -/
theorem Dev.idleLevels_congr {d e : Dev} (hp : d.pwr = e.pwr) (hi : d.pins.alarmIdle = e.pins.alarmIdle)
    {out : Nat → Prop} (hm : d.regs.agree e.regs out) (ho : ∀ off < 0x1000, ¬ out (pageBase (pgTrig .a) + off)) :
    d.idleLevels = e.idleLevels := by
  have hpol : ∀ k ∈ List.range 4, act d.regs (pgTrig .a) (TRIG.ALARM_CFG.POLARITY k) =
      act e.regs (pgTrig .a) (TRIG.ALARM_CFG.POLARITY k) := by
    intro k hk
    have hk := List.mem_range.mp hk
    refine RegMap.agree_at hm ?_
    rw [Nat.add_assoc]
    exact ho _ (by simp only [TRIG.ALARM_CFG.POLARITY]; omega)
  unfold Dev.idleLevels settleAlarms Dev.domainOn
  simp only [hp, hi]
  rw [List.map_congr_left fun k hk => by rw [hpol k hk]]

/-- Idle levels that are in place stay. -/
theorem Dev.idleLevels_idem (d : Dev) :
    ({ d with pins := { d.pins with alarmIdle := d.idleLevels } } : Dev).idleLevels = d.idleLevels := by
  unfold Dev.idleLevels settleAlarms Dev.domainOn
  dsimp only
  split_ifs <;> rfl

-- ---- settled states -------------------------------------------------------------------------------------------

/-- No report of dropped trouble entries is due: none is dropped, or the input queue has no room (R395). -/
def Dev.noReport (d : Dev) : Prop := d.tr.dropped = 0 ∨ 64 < d.troubleFill

/-- The outputs follow the state already, and no interrupt has risen. -/
structure Dev.Settled (d : Dev) : Prop where
  noReport : d.noReport
  alarms : d.idleLevels = d.pins.alarmIdle
  ballsA : d.driven .a d.lineA.cells = d.lineA.cells
  ballsB : d.driven .b d.lineB.cells = d.lineB.cells
  chans : d.dma.irq = d.chanLevels
  pages : d.irq = d.irqLevels

theorem Dev.reportDropped_of_noReport {d : Dev} (h : d.noReport) : d.reportDropped = d := if_pos h

/-- Once the report is made, none is due. -/
theorem Dev.reportDropped_noReport (d : Dev) : d.reportDropped.noReport := by
  unfold Dev.reportDropped
  split
  · assumption
  · exact .inl rfl

/-- Levels that have not changed send no message. -/
theorem irqRises_self (d : Dev) (i : Nat) (ls : List Bool) : irqRises d i ls ls = d := by
  induction ls generalizing i with
  | nil => rfl
  | cons l ls ih =>
    rw [irqRises, Bool.and_not_self, if_neg Bool.false_ne_true]
    exact ih (i + 1)

/-- Levels of the channels that have not changed send no message. -/
theorem settleChans_of_levels {d : Dev} (h : d.dma.irq = d.chanLevels) : settleChans d = d := by
  have hnone : ∀ cs : List Nat, cs.foldl (fun e c =>
      if d.chanLevels.getD c false && !d.dma.irq.getD c false then e.chanMessage c else e) d = d := by
    intro cs
    induction cs with
    | nil => rfl
    | cons c cs ih => simp [h]
  calc settleChans d = { d with dma := { d.dma with irq := d.chanLevels } } :=
        congrArg (fun e : Dev => { e with dma := { e.dma with irq := d.chanLevels } }) (hnone (List.range 32))
    _ = d := by rw [← h]

/-- A settled state settles to itself. -/
theorem settle_of_settled {d : Dev} (h : d.Settled) : settle d = d := by
  have halarms : settleAlarms d = d := by rw [settleAlarms_eq, h.alarms]
  have hballs : settleBalls d = d := by rw [settleBalls_eq, h.ballsA, h.ballsB]
  unfold settle
  simp only [Dev.reportDropped_of_noReport h.noReport, halarms, hballs, settleChans_of_levels h.chans, ← h.pages,
    irqRises_self]

-- ---- what the settling leads to ---------------------------------------------------------------------------------

/-- The device after the report of dropped entries, the alarms and the balls: settled but for the interrupts. -/
def settleOutputs (d : Dev) : Dev := settleBalls (settleAlarms d.reportDropped)

/-- The other outputs move the trouble log and TROUBLE's registers, the idle levels and the balls. -/
theorem settleOutputs_eq (d : Dev) :
    settleOutputs d =
      { d.reportDropped with
        lineA := { d.reportDropped.lineA with
          cells := (settleAlarms d.reportDropped).driven .a d.reportDropped.lineA.cells },
        lineB := { d.reportDropped.lineB with
          cells := (settleAlarms d.reportDropped).driven .b d.reportDropped.lineB.cells },
        pins := { d.reportDropped.pins with alarmIdle := d.reportDropped.idleLevels } } := by
  unfold settleOutputs
  rw [settleBalls_eq]
  rfl

/-- The channels' messages leave the levels of the page interrupts as they were. -/
theorem settleChans_irqLevels (d : Dev) : (settleChans d).irqLevels = d.irqLevels := by
  obtain ⟨e, ⟨m, new, rfl, hm⟩, hc⟩ := settleChans_form d
  rw [hc]
  exact Dev.irqLevels_congr rfl hm

/-- The settling: after the other outputs the interrupts follow, and their messages are sent. -/
theorem settle_form (d : Dev) :
    ∃ e, (settleOutputs d).messaged e ∧
      settle d = { e with dma := { e.dma with irq := (settleOutputs d).chanLevels },
                          irq := (settleOutputs d).irqLevels } := by
  have hs : settle d = { irqRises (settleChans (settleOutputs d)) 0 (settleChans (settleOutputs d)).irqLevels
      (settleChans (settleOutputs d)).irq with irq := (settleChans (settleOutputs d)).irqLevels } := rfl
  rw [hs, settleChans_irqLevels]
  obtain ⟨m', new', hr, hm'⟩ := irqRises_messaged (settleChans (settleOutputs d)) 0 (settleOutputs d).irqLevels
    (settleChans (settleOutputs d)).irq
  obtain ⟨e, ⟨m, new, rfl, hm⟩, hc⟩ := settleChans_form (settleOutputs d)
  rw [hc] at hm'
  rw [hr, hc]
  exact ⟨_, ⟨m', new' ++ new, rfl, RegMap.agree_trans hm' hm⟩, by simp only [List.append_assoc]⟩

/-- The registers that the settling moves after the other outputs are the pending bits. -/
theorem settle_agree (d : Dev) : (settle d).regs.agree (settleOutputs d).regs inPending := by
  obtain ⟨e, ⟨m, new, rfl, hm⟩, hs⟩ := settle_form d
  rw [hs]
  exact hm

/-- The settling leads to a settled state. -/
theorem settle_settled (d : Dev) : (settle d).Settled := by
  have hregs := settle_agree d
  obtain ⟨e, ⟨m, new, rfl, -⟩, hs⟩ := settle_form d
  have hpwr : (settle d).pwr = (settleOutputs d).pwr := by rw [hs]
  have hpins : (settle d).pins = (settleOutputs d).pins := by rw [hs]
  have hout := settleOutputs_eq d
  exact {
    noReport := by rw [hs, hout]; exact d.reportDropped_noReport
    alarms := by
      rw [Dev.idleLevels_congr hpwr (congrArg _ hpins) hregs fun _ => not_inPending_page (by decide), hpins, hout]
      exact d.reportDropped.idleLevels_idem
    ballsA := by rw [hs, hout]; exact Dev.driven_idem _ .a _
    ballsB := by rw [hs, hout]; exact Dev.driven_idem _ .b _
    chans := by rw [Dev.chanLevels_congr hpwr hregs, hs]
    pages := by rw [Dev.irqLevels_congr hpwr hregs, hs] }

-- ---- steps ----------------------------------------------------------------------------------------------------

/-- Every command that answers a next state answers with its outputs settled. -/
theorem exec_next_settles {c : Instr} {s t : State} (h : exec c s = .next t) : ∃ d, t = { s with dev := settle d } := by
  have hdone : ∀ {d : Dev}, exec c s = done s d → ∃ d, t = { s with dev := settle d } := fun {d} hd =>
    ⟨d, Host.Outcome.next.inj (h.symm.trans hd)⟩
  cases c
  case railStep k good =>
    cases hgoal : s.dev.aonSt.goal with
    | none => exact hdone (exec_railStep_idle k good s hgoal)
    | some last =>
      by_cases hk : k.val = s.dev.aonSt.rail
      · exact hdone (exec_railStep_turn k good s hgoal hk)
      · rw [exec_railStep_stop k good s hgoal hk] at h
        exact absurd h (by simp)
  all_goals exact hdone rfl

/-- Every step leads to a settled state. -/
theorem step_settled {s t : State} (h : step s = .next t) : t.dev.Settled := by
  have hdev : ∃ d, t.dev = settle d := by
    unfold step at h
    split at h
    · exact ⟨_, congrArg State.dev (Host.Outcome.next.inj h).symm⟩
    · obtain ⟨d, rfl⟩ := exec_next_settles h
      exact ⟨d, rfl⟩
  obtain ⟨d, hd⟩ := hdev
  exact hd ▸ settle_settled d

/-- Settles O5: a step ends with the settling, whose result is settled; such a state settles to itself. -/
theorem interruptsFollowTheirEvents : Obligations.InterruptsFollowTheirEvents := by
  unfold Obligations.InterruptsFollowTheirEvents
  refine ⟨fun s t hstep => ?_, fun s t hstep => settle_of_settled (step_settled hstep)⟩
  have ht := step_settled hstep
  refine ⟨ht.pages, ht.chans, fun i pg hi => ?_⟩
  rw [ht.pages, Dev.irqLevels, List.getElem?_map, hi, Option.map_some, Option.some_inj]
  exact Dev.irqRaised_iff

-- ---- what the settling leaves as it was -------------------------------------------------------------------------

/-- The settling leaves every register outside TROUBLE and the pending bits as it was; those of TROUBLE too where no
report is due. -/
theorem settle_rd {d : Dev} {a : Nat} (h : rd d.reportDropped.regs a = rd d.regs a) (ha : ¬ inPending a) :
    rd (settle d).regs a = rd d.regs a := by
  rw [settle_agree d a ha, settleOutputs_eq]
  exact h

/-- The trouble log after the settling is that after the report of dropped entries. -/
theorem settle_tr (d : Dev) : (settle d).tr = d.reportDropped.tr := by
  obtain ⟨e, ⟨m, new, rfl, -⟩, hs⟩ := settle_form d
  rw [hs, settleOutputs_eq]

/-- The settling only adds to the messages sent. -/
theorem settle_sent (d : Dev) : ∃ new, (settle d).pcie.sent = new ++ d.pcie.sent := by
  obtain ⟨e, ⟨m, new, rfl, -⟩, hs⟩ := settle_form d
  obtain ⟨_, _, hr, -⟩ := d.reportDropped_form
  have hpcie : (settleOutputs d).pcie = d.pcie := by rw [settleOutputs_eq, hr]
  exact ⟨new, by rw [hs, hpcie]⟩

/-- Settles O7: by the form of the settling; the report of dropped entries is logging, and is made only where due. -/
theorem settlingOnlyMovesOutputs : Obligations.SettlingOnlyMovesOutputs := by
  unfold Obligations.SettlingOnlyMovesOutputs
  intro d
  refine ⟨settle_frame d, fun a htr hlo hhi => ?_, fun hnone => ⟨?_, fun a hlo hhi => ?_⟩, settle_sent d⟩
  · obtain ⟨_, _, hr, hm⟩ := d.reportDropped_form
    exact settle_rd (by rw [hr]; exact hm a htr) (not_or.mpr ⟨hlo, hhi⟩)
  · rw [settle_tr, Dev.reportDropped_of_noReport hnone]
  · exact settle_rd (by rw [Dev.reportDropped_of_noReport hnone]) (not_or.mpr ⟨hlo, hhi⟩)

end Sys2Proof.Machine
end

section
/-!
PROOFS. Failing accesses and reads of the register bus (R21, R42, R43, R45): a failing access leaves the device as it
was, the record of its error stays within DEV and TROUBLE, and a read moves only the latched high words.
-/
namespace Sys2Proof.Machine

-- ---- why an access fails ----------------------------------------------------------------------------------------

/-- The bar of an access depends on the domains only. -/
theorem busBar_congr {d e : Dev} (h : d.pwr = e.pwr) (a w : Nat) : busBar d a w = busBar e a w := by
  unfold busBar Dev.domainOn
  rw [h]

/-- An access of a place is not barred just where it is an aligned word, its domain is on and it is implemented. -/
theorem busBar_none_iff {d : Dev} {a w : Nat} {pl : Place} (hp : placeOf a = some pl) :
    busBar d a w = none ↔ w = 4 ∧ a % 4 = 0 ∧ d.domainOn pl.domain = true ∧ pl.implemented = true := by
  unfold busBar
  rw [hp]
  dsimp only
  split_ifs with hw hd hi
  · exact iff_of_false (by simp) fun ⟨h4, halign, _⟩ => hw.elim (· h4) (· halign)
  · exact iff_of_false (by simp) fun ⟨_, _, hon, _⟩ => by simp [hon] at hd
  · exact iff_of_false (by simp) fun ⟨_, _, _, himpl⟩ => by simp [himpl] at hi
  · simp_all

/-- An access that nothing bars names a place. -/
theorem placeOf_of_busBar {d : Dev} {a w : Nat} (h : busBar d a w = none) : ∃ pl, placeOf a = some pl := by
  unfold busBar at h
  split at h
  · exact absurd h (by simp)
  · exact ⟨_, ‹_›⟩

-- ---- failing accesses -------------------------------------------------------------------------------------------

/-- A failing write leaves the device as it was, until its error is recorded (R45). -/
theorem busPut_error {sys : Link → Nat → Word → Dev → Dev} {k : Link} {a w : Nat} {v : Word} {d : Dev} {e : BusErr}
    (h : (busPut sys k a w v d).2 = some e) : (busPut sys k a w v d).1 = d := by
  unfold busPut at h ⊢
  split
  · rfl
  · split
    · unfold queueAonWrite at h ⊢
      split
      · rfl
      · simp_all
    · split
      · rfl
      · simp_all
  · rfl

/-- A barred read leaves the device as it was and gives no word. -/
theorem busGet_bar {d : Dev} {a w : Nat} {e : BusErr} (h : busBar d a w = some e) : busGet a w d = (d, some e, 0) := by
  unfold busGet
  rw [h]

/-- A read that nothing bars reads its place. -/
theorem busGet_ok {d : Dev} {a w : Nat} {pl : Place} (h : busBar d a w = none) (hp : placeOf a = some pl) :
    busGet a w d = ((readPlace d a pl).1, none, (readPlace d a pl).2) := by
  unfold busGet
  rw [h, hp]

/-- A read fails just where it is barred. -/
theorem busGet_error {d : Dev} {a w : Nat} {e : BusErr} (h : (busGet a w d).2.1 = some e) : busBar d a w = some e := by
  cases hb : busBar d a w with
  | none =>
    obtain ⟨pl, hp⟩ := placeOf_of_busBar hb
    rw [busGet_ok hb hp] at h
    exact absurd h (by simp)
  | some e' =>
    rw [busGet_bar hb] at h
    exact h

/-- Settles O19: a failing access is one that its bar or the queue turns away; the record is an event with its entry. -/
theorem busErrorChangesNothing : Obligations.BusErrorChangesNothing := by
  unfold Obligations.BusErrorChangesNothing
  refine ⟨fun k a w v d e => ⟨fun h => ?_, fun h => ?_⟩, fun d a link e => ⟨fun hoff => ?_, ?_, ?_⟩⟩
  · have hd := busPut_error h
    refine ⟨hd, ?_⟩
    unfold busWrite
    simp only [h, hd]
  · have hget := busGet_bar (busGet_error h)
    refine ⟨congrArg Prod.fst hget, congrArg (·.2.2) hget, ?_⟩
    rw [busRead_bar (busGet_error h)]
  · exact Dev.busError_off hoff a e link
  · obtain ⟨_, _, h, -⟩ := d.busError_form a e link
    rw [h]
  · obtain ⟨_, _, h, hm⟩ := d.busError_form a e link
    intro b haddr hinfo hcount htrouble
    rw [h]
    exact hm b (by simp only [haddr, hinfo, hcount, htrouble, or_self, not_false_iff])

-- ---- the pairs of 64 bits ---------------------------------------------------------------------------------------

/-- The page of a number is one of the directory. -/
theorem pageOf_mem {p : Nat} {pg : Page} (h : pageOf p = some pg) : pg ∈ directory := List.mem_of_find?_eq_some h

/-- Each low word of a page has its high word four bytes above, implemented where it is, and no low word itself. -/
theorem lowWords_high : ∀ pg ∈ directory, pg.block ≠ .dev → ∀ off ∈ 0x024 :: lowWords pg.block,
    off + 4 < 0x1000 ∧ (pageHas pg off = true → pageHas pg (off + 4) = true) ∧ isLow pg (off + 4) = false := by
  decide +kernel

theorem isLow_high {pg : Page} {off : Nat} (hpg : pg ∈ directory) (h : isLow pg off = true) :
    off + 4 < 0x1000 ∧ (pageHas pg off = true → pageHas pg (off + 4) = true) ∧ isLow pg (off + 4) = false := by
  simp only [isLow, Bool.and_eq_true, Bool.or_eq_true, bne_iff_ne, beq_iff_eq, List.contains_iff_mem] at h
  exact lowWords_high pg hpg h.1 off (List.mem_cons.mpr h.2)

/-- The place of the high word of a pair. -/
theorem placeOf_high {a off : Nat} {pg : Page} (hp : placeOf a = some (.page pg off)) (h : isLow pg off = true) :
    placeOf (a + 4) = some (.page pg (off + 4)) := by
  obtain ⟨hpg, haddr⟩ := placeOf_eq_page hp
  obtain ⟨hoff, -⟩ := isLow_high (pageOf_mem hpg) h
  have hnum := pageOf_num hpg
  have hplace := placeOf_page (pageOf_lt hpg) hoff
  rw [hpg, ← hnum, ← Nat.add_assoc, ← haddr] at hplace
  exact hplace

/-- Where nothing bars the read of a low word, nothing bars that of its high word. -/
theorem busBar_high {d : Dev} {a w off : Nat} {pg : Page} (hp : placeOf a = some (.page pg off))
    (h : isLow pg off = true) (hb : busBar d a w = none) : busBar d (a + 4) w = none := by
  rw [busBar_none_iff hp] at hb
  obtain ⟨hw, halign, hdom, himpl⟩ := hb
  obtain ⟨-, hhas, -⟩ := isLow_high (pageOf_mem (placeOf_eq_page hp).1) h
  exact (busBar_none_iff (placeOf_high hp h)).mpr ⟨hw, by omega, hdom, hhas himpl⟩

-- ---- reads ------------------------------------------------------------------------------------------------------

/-- A read of a low word latches its high word (R21). -/
theorem readPlace_low {d : Dev} {a off : Nat} {pg : Page} (h : isLow pg off = true) :
    readPlace d a (.page pg off) =
      ({ d with bus := { d.bus with latch :=
          (a + 4, pageWord d pg (off + 4)) :: d.bus.latch.filter fun e => e.1 != a + 4 } }, pageWord d pg off) := by
  simp only [readPlace, h, if_true]

/-- A read of a latched word gives what was latched and forgets it (R21). -/
theorem readPlace_latched {d : Dev} {a off : Nat} {pg : Page} {e : Nat × Word} (h : isLow pg off = false)
    (hl : d.bus.latch.find? (fun e => e.1 == a) = some e) :
    readPlace d a (.page pg off) =
      ({ d with bus := { d.bus with latch := d.bus.latch.filter fun e => e.1 != a } }, e.2) := by
  simp only [readPlace, h, hl, Bool.false_eq_true, if_false]

/-- A read of a word that is neither a low word nor latched changes nothing. -/
theorem readPlace_plain {d : Dev} {a off : Nat} {pg : Page} (h : isLow pg off = false)
    (hl : d.bus.latch.find? (fun e => e.1 == a) = none) : readPlace d a (.page pg off) = (d, pageWord d pg off) := by
  simp only [readPlace, h, hl, Bool.false_eq_true, if_false]

/-- Forgetting one address's latch leaves the others'. -/
theorem find?_latch_filter {l : List (Nat × Word)} {a b : Nat} (h : b ≠ a) :
    (l.filter fun e => e.1 != a).find? (fun e => e.1 == b) = l.find? fun e => e.1 == b := by
  rw [List.find?_filter]
  congr 1
  funext e
  by_cases he : e.1 = b
  · simp [he, h]
  · simp [he]

/-- A read of a place moves the latches only: its own, and that of the high word where it reads a low one. -/
theorem readPlace_frame (d : Dev) (a : Nat) (pl : Place) :
    ∃ l, (readPlace d a pl).1 = { d with bus := { d.bus with latch := l } } ∧
      ∀ b, b ≠ a → (∀ pg off, pl = .page pg off → isLow pg off = true → b ≠ a + 4) →
        l.find? (fun e => e.1 == b) = d.bus.latch.find? fun e => e.1 == b := by
  cases pl with
  | page pg off =>
    cases hlow : isLow pg off with
    | true =>
      refine ⟨_, by rw [readPlace_low hlow], fun b _ hb => ?_⟩
      have hne := hb pg off rfl hlow
      rw [List.find?_cons_of_neg (by simpa using hne.symm), find?_latch_filter hne]
    | false =>
      cases hl : d.bus.latch.find? (fun e => e.1 == a) with
      | some e => exact ⟨_, by rw [readPlace_latched hlow hl], fun b hb _ => find?_latch_filter hb⟩
      | none => exact ⟨_, by rw [readPlace_plain hlow hl], fun _ _ _ => rfl⟩
  | desc | zone | trig | plan | tally => exact ⟨_, rfl, fun _ _ _ => rfl⟩

/-- So does a read of the bus. -/
theorem busGet_frame (d : Dev) (a w : Nat) :
    ∃ l, (busGet a w d).1 = { d with bus := { d.bus with latch := l } } ∧
      ∀ b, b ≠ a → (∀ pg off, placeOf a = some (.page pg off) → isLow pg off = true → b ≠ a + 4) →
        l.find? (fun e => e.1 == b) = d.bus.latch.find? fun e => e.1 == b := by
  cases hb : busBar d a w with
  | some e => exact ⟨_, by rw [busGet_bar hb], fun _ _ _ => rfl⟩
  | none =>
    obtain ⟨pl, hp⟩ := placeOf_of_busBar hb
    obtain ⟨l, hl, hother⟩ := readPlace_frame d a pl
    rw [busGet_ok hb hp]
    refine ⟨l, hl, fun b hne hhigh => hother b hne fun pg off hpl => hhigh pg off ?_⟩
    rw [hp, hpl]

/-- A read of a low word (R21). -/
theorem busGet_low {d : Dev} {a w off : Nat} {pg : Page} (hp : placeOf a = some (.page pg off))
    (hb : busBar d a w = none) (h : isLow pg off = true) :
    busGet a w d =
      ({ d with bus := { d.bus with latch :=
          (a + 4, pageWord d pg (off + 4)) :: d.bus.latch.filter fun e => e.1 != a + 4 } },
       none, pageWord d pg off) := by
  rw [busGet_ok hb hp, readPlace_low h]

-- ---- read requests ----------------------------------------------------------------------------------------------

/-- A read request whose words all read well: on PCIe it completes with its bytes. -/
theorem readRequest_ok {k : Link} {a n : Nat} {d : Dev} (h : (readWords n 0 a d).2.2 = []) :
    readRequest k a n d =
      if k = .pcie then
        bar2Reply (readWords n 0 a d).1 0 ((readWords n 0 a d).2.1.flatMap fun w => leBytes 4 w.toNat)
      else (readWords n 0 a d).1 := by
  unfold readRequest
  simp only [h, List.map_nil, busErrors]

/-- A read request with a failing word: one record, and on PCIe a Completer Abort for the whole (R43). -/
theorem readRequest_error {k : Link} {a n : Nat} {d : Dev} {e : Nat × Nat × BusErr} {rest : List (Nat × Nat × BusErr)}
    (h : (readWords n 0 a d).2.2 = e :: rest) :
    readRequest k a n d =
      if k = .pcie then
        bar2Reply (busErrors (readWords n 0 a d).1 (linkCode k) ((readWords n 0 a d).2.2.map (·.2)))
          (16 + e.2.2.code) []
      else busErrors (readWords n 0 a d).1 (linkCode k) ((readWords n 0 a d).2.2.map (·.2)) := by
  unfold readRequest
  simp only [h]

/-- The record of one failing word is that of its bus error. -/
theorem busErrors_one (d : Dev) (link a : Nat) (e : BusErr) : busErrors d link [(a, e)] = d.busError a e link := by
  simp only [busErrors, List.foldl_nil]
  split_ifs with hon
  · exact (Dev.busError_off (by simpa using hon) a e link).symm
  · rfl

/-- One barred word read. -/
theorem readWords_one_bar {a : Nat} {d : Dev} {e : BusErr} (h : busBar d a 4 = some e) :
    readWords 1 0 a d = (d, [0], [(0, a, e)]) := by
  simp only [readWords, Nat.mul_zero, Nat.add_zero, busGet_bar h]

/-- One word read that nothing bars. -/
theorem readWords_one_ok {a : Nat} {d e : Dev} {v : Word} (h : busGet a 4 d = (e, none, v)) :
    readWords 1 0 a d = (e, [v], []) := by
  simp only [readWords, Nat.mul_zero, Nat.add_zero, h]

/-- Settles O9: a read by its place, and a request of one word or of several by its failing words. -/
theorem readsLatchHighWords : Obligations.ReadsLatchHighWords := by
  unfold Obligations.ReadsLatchHighWords
  refine ⟨fun d a w => ⟨?_, fun pg off hp hb hlow => ?_, fun b hne hhigh => ?_⟩,
    fun s k a => ⟨fun e hb => ?_, fun pg off hp hb hlow => ?_, fun n => ⟨fun hok => ?_, fun e rest herr => ?_⟩⟩⟩
  · obtain ⟨l, hl, -⟩ := busGet_frame d a w
    simp only [hl]
  · obtain ⟨-, -, hnot⟩ := isLow_high (pageOf_mem (placeOf_eq_page hp).1) hlow
    simp only [busGet_low hp hb hlow]
    refine ⟨trivial, (busBar_congr rfl _ _).trans (busBar_high hp hlow hb), ⟨hnot, fun e hl hbe => ?_⟩, ?_⟩
    · rw [busGet_ok hbe (placeOf_high hp hlow), readPlace_latched hnot hl]
    · exact List.find?_cons_of_pos (by simp)
  · obtain ⟨l, hl, hother⟩ := busGet_frame d a w
    rw [hl]
    exact hother b hne hhigh
  · have hone := readWords_one_bar hb
    rw [State.lands_iff, exec_lowWordRead, readRequest_error (by rw [hone]), hone]
    simp only [List.map_cons, List.map_nil, busErrors_one]
  · have hone := readWords_one_ok (busGet_low hp hb hlow)
    rw [State.lands_iff, exec_lowWordRead, readRequest_ok (by rw [hone]), hone]
    simp only [List.flatMap_cons, List.flatMap_nil, List.append_nil]
  · rw [State.lands_iff, exec_lowWordRead, readRequest_ok hok]
  · rw [State.lands_iff, exec_lowWordRead, readRequest_error herr]

end Sys2Proof.Machine
end

section
/-!
PROOFS. Event pairs (R34, R35): counting by the count it finds, SEEN by the value written, and a write of a SEEN word of
a page and of AON.
-/
namespace Sys2Proof.Machine

-- ---- counting ---------------------------------------------------------------------------------------------------

/-- A word of a page is written in the register space, one of AON in the always-on domain. -/
theorem Dev.setHome_count (d : Dev) {p n : Nat} (hn : n < 500) (v : Word) :
    d.setHome (countAddr p n) v =
      if p = pgAon then { d with aon := wr d.aon (countAddr p n) v }
      else { d with regs := wr d.regs (countAddr p n) v } := by
  unfold Dev.setHome
  rw [countAddr_page hn]
  rfl

/-- COUNT reads as it was written. -/
theorem Dev.count_setHome (d : Dev) {p n v : Nat} (hn : n < 500) (hv : v < 2 ^ 32) :
    (d.setHome (countAddr p n) (Word.ofNat v)).count p n = v := by
  rw [d.setHome_count hn]
  unfold Dev.count
  split <;> rw [rd_wr_same, Word.toNat_ofNat hv]

/-- A page whose domain is off counts nothing. -/
theorem Dev.event_off {d : Dev} {p : Nat} (n : Nat) (h : d.pageOn p = false) : d.event p n = d := by
  simp [Dev.event, Dev.saturates, Dev.bump, h]

/-- An event that finds the pair saturated is not counted (R34). -/
theorem Dev.event_saturated {d : Dev} {p n : Nat} (h : d.count p n = 0xFFFFFFFF) : d.event p n = d := by
  simp [Dev.event, Dev.saturates, Dev.bump, h]

/-- An event that does not saturate its pair counts one. -/
theorem Dev.event_counts {d : Dev} {p n : Nat} (hon : d.pageOn p = true) (h : d.count p n < 0xFFFFFFFE) :
    d.event p n = d.setHome (countAddr p n) (Word.ofNat (d.count p n + 1)) := by
  have hsat : d.count p n ≠ 0xFFFFFFFE := by omega
  have hfull : d.count p n ≠ 0xFFFFFFFF := by omega
  simp [Dev.event, Dev.saturates, Dev.bump, hon, hsat, hfull]

/-- The event that saturates its pair logs EVENT_SATURATED (R34). -/
theorem Dev.event_saturates {d : Dev} {p n : Nat} (hon : d.pageOn p = true) (h : d.count p n = 0xFFFFFFFE) :
    d.event p n = (d.setHome (countAddr p n) (Word.ofNat 0xFFFFFFFF)).trouble p 0x7F sevNote n := by
  simp [Dev.event, Dev.saturates, Dev.bump, hon, h]

/-- A page of the directory is on while its domain is. -/
theorem Dev.pageOn_of_pageOf {d : Dev} {p : Nat} {pg : Page} (h : pageOf p = some pg) :
    d.pageOn p = d.domainOn pg.domain := by
  unfold Dev.pageOn
  rw [h]

-- ---- SEEN -------------------------------------------------------------------------------------------------------

/-- What a write of SEEN leaves (R34): a value above COUNT is stored as COUNT, a saturated pair is cleared by all ones,
and one more event leaves the pair pending. -/
theorem seenAfter_spec {c v : Nat} (hv : v ≤ 0xFFFFFFFF) :
    (c = 0xFFFFFFFF → v = 0xFFFFFFFF → seenAfter c v = (0, 0)) ∧
    (¬ (c = 0xFFFFFFFF ∧ v = 0xFFFFFFFF) →
      (seenAfter c v).1 = c ∧ (c < v → (seenAfter c v).2 = c) ∧ (v ≤ c → (seenAfter c v).2 = v)) ∧
    (if (seenAfter c v).1 = 0xFFFFFFFF then (seenAfter c v).1 ≠ (seenAfter c v).2
      else (seenAfter c v).1 + 1 ≠ (seenAfter c v).2) := by
  unfold seenAfter
  by_cases h : c = 0xFFFFFFFF ∧ v = 0xFFFFFFFF
  · rw [if_pos h]
    simp [h]
  · rw [if_neg h]
    refine ⟨fun h1 h2 => absurd ⟨h1, h2⟩ h, fun _ => ⟨rfl, min_eq_right ∘ le_of_lt, min_eq_left⟩, ?_⟩
    split <;> dsimp only at * <;> omega

/-- A SEEN word of a powered page other than AON is written by the rule of R34. -/
theorem putWord_seen {k : Link} {p n : Nat} {v : Word} {d : Dev} {pg : Page} (hpg : pageOf p = some pg)
    (hd : d.domainOn pg.domain = true) (hn : n < pg.nEvents) (ha : p ≠ pgAon) :
    putWord k (countAddr p n + 4) v d = writeSeen pg n v.toNat d := by
  have h24 := nEvents_le (pageOf_mem hpg)
  have haddr : countAddr p n + 4 = pageBase p + (0x044 + 8 * n) := by unfold countAddr; omega
  have hidx : (0x044 + 8 * n - 0x40) / 8 = n := by omega
  have hhas : pageHas pg (0x044 + 8 * n) = true := by
    unfold pageHas
    rw [if_neg (by omega), if_pos (by omega), hidx]
    exact decide_eq_true hn
  have hwrite : writePage noSys k pg (0x044 + 8 * n) v d = writeSeen pg n v.toNat d := by
    unfold writePage
    rw [if_neg (by omega), if_neg (by omega), if_neg (by omega), if_neg (by omega), if_pos (by omega),
      if_pos (by omega), hidx]
  unfold putWord
  rw [haddr, busWrite_page hpg (by omega) (by omega) hd hhas ha (.inr (by omega)), hwrite]

/-- The pair n of a page with COUNT and SEEN written. -/
def Dev.putSeen (d : Dev) (p n c v : Nat) : Dev :=
  (d.setWord (countAddr p n) (Word.ofNat c)).setWord (countAddr p n + 4) (Word.ofNat v)

/-- A write of SEEN writes the pair; the interrupt that stays raised sends its message again (R35). -/
theorem writeSeen_eq (pg : Page) (n v : Nat) (d : Dev) :
    let r := seenAfter (rd d.regs (countAddr pg.num n)).toNat v
    let t := d.putSeen pg.num n r.1 r.2
    (d.irqRaised pg = false ∨ t.irqRaised pg = false → writeSeen pg n v d = t) ∧
    (∀ e, entryOf pg.num = some e → d.irqRaised pg = true → t.irqRaised pg = true →
      writeSeen pg n v d = t.irqMessage e) := by
  intro r t
  have ht : writeSeen pg n v d = if d.irqRaised pg && t.irqRaised pg then
      (match entryOf pg.num with | some e => t.irqMessage e | none => t) else t := rfl
  rw [ht]
  refine ⟨fun h => ?_, fun e he hd htr => ?_⟩
  · rw [if_neg]
    rcases h with h | h <;> simp [h]
  · simp only [hd, htr, he, Bool.and_self, if_true]

-- ---- SEEN of AON ------------------------------------------------------------------------------------------------

/-- The directory entry of AON. -/
theorem entryOf_pgAon : entryOf pgAon = some 58 := by decide +kernel

/-- A write of SEEN n of AON, completing, writes the pair in the always-on domain (R34, R35). -/
theorem aonEffect_seen {w : AonWrite} {n : Nat} {d : Dev} (hn : n < 8) (hl : w.link ≠ linkHardware)
    (ho : w.off = 0x044 + 8 * n) :
    let r := seenAfter (d.count pgAon n) w.value.toNat
    let e : Dev := { d with aon := wr (wr d.aon (countAddr pgAon n) (Word.ofNat r.1)) (countAddr pgAon n + 4)
                               (Word.ofNat r.2) }
    aonEffect w d = if aonRaised d && aonRaised e then e.irqMessage 58 else e := by
  intro r e
  have hcount : pageBase pgAon + w.off - 4 = countAddr pgAon n := by unfold countAddr; omega
  have hseen : pageBase pgAon + w.off = countAddr pgAon n + 4 := by unfold countAddr; omega
  have heffect : aonEffect w d = match aonRaised d && aonRaised e, entryOf pgAon with
      | true, some e' => e.irqMessage e'
      | _, _ => e := by
    unfold aonEffect
    dsimp only
    rw [if_neg hl, if_neg (by omega), if_neg (by omega), if_neg (by omega), if_pos (by omega), if_pos (by omega),
      hcount, hseen]
    rfl
  rw [heffect, entryOf_pgAon]
  cases aonRaised d && aonRaised e <;> rfl

/-- What a write that leaves the queue does at its slow edge, an armed AON page applying there (R32). -/
def Dev.completes (d : Dev) (w : AonWrite) (rest : List AonWrite) : Dev :=
  applyAon (aonEffect w { d with bus := { d.bus with aonQueue := rest } })

/-- The oldest write of the queue, made by a link, completes and is acknowledged (R32). -/
theorem aonWriteComplete_link {d : Dev} {w : AonWrite} {rest : List AonWrite} (hq : d.bus.aonQueue = w :: rest)
    (hl : w.link ≠ linkHardware) :
    aonWriteComplete d =
      let f := (d.advanceSlow (min w.due (d.slow + 1))).completes w rest
      setAonWord f 0x910 0xFFFFFFFF (Word.ofNat (liv f.aon pgAon AON.WRITE_ACK + 1)) := by
  simp only [aonWriteComplete, hq, hl, if_false, Dev.completes]

/-- The completion of a write of SEEN n of AON. -/
theorem completes_seen {w : AonWrite} {rest : List AonWrite} {n : Nat} {d : Dev} (hn : n < 8)
    (hl : w.link ≠ linkHardware) (ho : w.off = 0x044 + 8 * n) :
    let r := seenAfter (d.count pgAon n) w.value.toNat
    let e : Dev := { d with bus := { d.bus with aonQueue := rest },
                            aon := wr (wr d.aon (countAddr pgAon n) (Word.ofNat r.1)) (countAddr pgAon n + 4)
                              (Word.ofNat r.2) }
    d.completes w rest = applyAon (if aonRaised d && aonRaised e then e.irqMessage 58 else e) :=
  congrArg applyAon (aonEffect_seen (d := { d with bus := { d.bus with aonQueue := rest } }) hn hl ho)

-- ---- event pairs ------------------------------------------------------------------------------------------------

/-- The pair after a write of SEEN, by the saturated case of R34. -/
theorem putSeen_seenAfter (d : Dev) (p n c v : Nat) :
    d.putSeen p n (seenAfter c v).1 (seenAfter c v).2 =
      if c = 0xFFFFFFFF ∧ v = 0xFFFFFFFF then d.putSeen p n 0 0 else d.putSeen p n c (min v c) := by
  unfold seenAfter
  split <;> rfl

/-- Settles O8: counting by the count found, SEEN by the value written, and the writes of SEEN words. -/
theorem eventPairsCountAndAcknowledge : Obligations.EventPairsCountAndAcknowledge := by
  unfold Obligations.EventPairsCountAndAcknowledge
  refine ⟨fun d p n pg hpg hn => ?_, ⟨fun c v hc hv => seenAfter_spec hv, fun s n v w rest hn hq hl ho hv => ?_⟩,
    fun s k p n v pg hpg hd hn ha => ?_⟩
  · have h24 := nEvents_le (pageOf_mem hpg)
    have hpage := Dev.pageOn_of_pageOf (d := d) hpg
    refine ⟨fun hoff => Dev.event_off n (hpage.trans hoff), fun hon => ⟨fun h => ?_, fun h => ?_, Dev.event_saturated⟩,
      fun v => d.setHome_count (by omega) v⟩
    · have hev := Dev.event_counts (hpage.trans hon) h
      exact ⟨hev, by rw [hev, d.count_setHome (by omega) (by omega)]⟩
    · exact ⟨Dev.event_saturates (hpage.trans hon) h, d.count_setHome (by omega) (by omega)⟩
  · simp only [State.lands_iff, exec_aonWriteComplete, aonWriteComplete_link hq hl, completes_seen hn hl ho, hv]
  · have h24 := nEvents_le (pageOf_mem hpg)
    have hexec : exec (.seenWrite k p n v) s = done s (writeSeen pg n v.toNat s.dev) := by
      rw [exec_seenWrite, if_pos (by omega), putWord_seen hpg hd hn ha]
    obtain ⟨hquiet, hagain⟩ := writeSeen_eq pg n v.toNat s.dev
    rw [pageOf_num hpg, putSeen_seenAfter] at hquiet hagain
    simp only [State.lands_iff, hexec]
    exact ⟨fun h => congrArg (done s) (hquiet h), fun e he hd ht => congrArg (done s) (hagain e he hd ht)⟩

end Sys2Proof.Machine
end

section
/-!
PROOFS. Arming by APPLY_SET, STROBE and UPD (R28 to R31), applies and their entries (R23 to R26).
-/
namespace Sys2Proof.Machine

-- ---- APPLY_SET (R28) --------------------------------------------------------------------------------------------

/-- An APPLY_SET whose pages are all of the directory and powered is not barred. -/
theorem applySetBar_none {d : Dev} (h : ∀ p ∈ listedPages d.regs, (pageOf p).isSome = true ∧ d.pageOn p = true) :
    applySetBar d = none := by
  have hoff : ((listedPages d.regs).any fun p => (pageOf p).isSome && !d.pageOn p) = false := by
    simpa using fun p hp _ => (h p hp).2
  have hnone : ((listedPages d.regs).any fun p => (pageOf p).isNone) = false := by
    rw [List.any_eq_false]
    intro p hp
    simpa using Option.isSome_iff_ne_none.mp (h p hp).1
  unfold applySetBar
  simp only [hoff, hnone, Bool.false_eq_true, if_false]

/-- One that names a page whose domain is off fails DOMAIN_OFF. -/
theorem applySetBar_off {d : Dev} {p : Nat} (hp : p ∈ listedPages d.regs) (h : (pageOf p).isSome = true)
    (hoff : d.pageOn p = false) : applySetBar d = some .domainOff := by
  have hany : ((listedPages d.regs).any fun p => (pageOf p).isSome && !d.pageOn p) = true :=
    List.any_eq_true.mpr ⟨p, hp, by simp [h, hoff]⟩
  unfold applySetBar
  simp only [hany, if_true]

/-- Else one that names no page of the directory fails RESERVED. -/
theorem applySetBar_reserved {d : Dev} {p : Nat}
    (hon : ∀ q ∈ listedPages d.regs, (pageOf q).isSome = true → d.pageOn q = true)
    (hp : p ∈ listedPages d.regs) (h : pageOf p = none) : applySetBar d = some .reserved := by
  have hoff : ((listedPages d.regs).any fun p => (pageOf p).isSome && !d.pageOn p) = false := by
    rw [List.any_eq_false]
    intro q hq
    cases hs : (pageOf q).isSome with
    | false => simp
    | true => simp [hon q hq hs]
  have hany : ((listedPages d.regs).any fun p => (pageOf p).isNone) = true :=
    List.any_eq_true.mpr ⟨p, hp, by simp [h]⟩
  unfold applySetBar
  simp only [hoff, hany, Bool.false_eq_true, if_true, if_false]

/-- A write to a page of DEV's domain, with CTRL on, takes effect. -/
theorem Dev.guarded_pgDev {d : Dev} (h : d.domainOn 1 = true) (k : Link) (off : Nat) (f : Dev → Dev) :
    d.guarded k pgDev off f = f d := if_pos h

-- ---- STROBE and UPD (R30, R31) ----------------------------------------------------------------------------------

/-- The pages in STROBE mode whose group is named (R30). -/
def strobed (d : Dev) (groups : Nat) : List Nat :=
  (directory.filter fun pg =>
    let m := if pg.num = pgAon then d.aon else d.regs
    pg.block != .dev && d.domainOn pg.domain && applyMode m pg.num == 2 && bitOf groups (applyGroupOf m pg.num)).map
      Page.num

/-- A strobe of some groups commits its entry and arms their pages with its SEQ (R30). -/
theorem strobe_groups {k : Link} {g : Nat} (hg : g ≠ 0) (d : Dev) :
    strobe k g d =
      let e := d.journal { link := linkCode (if k = .upd then .upd else .strobe), kind := kindStrobe, arg := g }
      (strobed e g).foldl (armPage (linkCode k) d.jr.nextSeq) e := by
  simp only [strobe, hg, if_false, strobed, List.foldl_map]

/-- A rising edge of UPD strobes the groups of UPD_CTRL four cycles later (R31). -/
theorem updEdge_enabled {d : Dev} (hon : (tiuEdge 14 true d).domainOn 1 = true)
    (hen : liv (tiuEdge 14 true d).regs pgDev DEV.UPD_CTRL.EN = 1) :
    updEdge d =
      strobe .upd (liv (tiuEdge 14 true d).regs pgDev DEV.UPD_CTRL.GROUPS) ((tiuEdge 14 true d).advance 4) := by
  simp only [updEdge, hon, hen, beq_self_eq_true, Bool.and_self, if_true]

/-- With UPD_CTRL.EN = 0 the edge only reaches the interval units (R31, R274). -/
theorem updEdge_disabled {d : Dev} (hen : liv (tiuEdge 14 true d).regs pgDev DEV.UPD_CTRL.EN = 0) :
    updEdge d = tiuEdge 14 true d := by
  simp [updEdge, hen]

/-- Settles O14: an APPLY_SET by the pages it names, a strobe by its groups, an edge of UPD by UPD_CTRL. -/
theorem setAndStrobeArmTogether : Obligations.SetAndStrobeArmTogether := by
  unfold Obligations.SetAndStrobeArmTogether
  intro s k tag groups hon hk
  simp only [State.lands_iff, exec_applySet, exec_strobe, exec_updEdge, Dev.guarded_pgDev hon, List.mem_dedup]
  refine ⟨fun h => ?_, fun ⟨p, hp, hsome, hoff⟩ => ?_, fun hall ⟨p, hp, hnone⟩ => ?_, fun hg => ?_,
    fun hu hen hgroups => ?_, fun hg => ?_, fun hen => ?_⟩
  · rw [applySet, applySetBar_none h, armSet]
  · rw [applySet, applySetBar_off hp hsome hoff]
  · rw [applySet, applySetBar_reserved hall hp hnone]
  · have hg0 : groups.toNat ≠ 0 := fun h0 => hg (BitVec.eq_of_toNat_eq h0)
    rw [strobe_groups hg0, if_neg hk]
    rfl
  · rw [updEdge_enabled hu hen, strobe_groups hgroups, if_pos rfl, Dev.advance_jr]
    rfl
  · rw [strobe, if_pos (by rw [hg]; rfl)]
  · rw [updEdge_disabled hen]

-- ---- APPLY (R23 to R25) -----------------------------------------------------------------------------------------

/-- The passing of time leaves a page armed as it was. -/
theorem Dev.advanceTo_armedAs (d : Dev) (t p : Nat) : (d.advanceTo t).armedAs p = d.armedAs p := by
  unfold Dev.armedAs
  rw [Dev.advanceTo_bus]

theorem Dev.advanceSlow_armedAs (d : Dev) (n p : Nat) : (d.advanceSlow n).armedAs p = d.armedAs p := by
  unfold Dev.armedAs
  rw [Dev.advanceSlow_bus]

/-- The candidate of a page that applies alone: its whole shadow copied, with the plan it shows. -/
def candidate (m : RegMap) (pg : Page) : RegMap := showPlan (copyPage m pg m) pg

/-- The armed pages that are left of a page alone: the page itself. -/
theorem filter_armed_one {d : Dev} {pg : Page} {a : Armed} (ha : d.armedAs pg.num = some a)
    (hd : d.domainOn pg.domain = true) :
    [pg].filter (fun q => (d.armedAs q.num).isSome && d.domainOn q.domain) = [pg] := by
  simp [ha, hd]

/-- A page that applies alone is accepted where nothing bars its candidate (R24, R25). -/
theorem applyPages_one_accepted {d : Dev} {pg : Page} {a : Armed} (b : Nat) (ha : d.armedAs pg.num = some a)
    (hd : d.domainOn pg.domain = true) (hbar : applyBar d d.regs (candidate d.regs pg) pg = none) :
    applyPages [pg] b d = acceptApply d.regs pg a b { d with regs := candidate d.regs pg } := by
  have harmed : ({ d with regs := candidate d.regs pg } : Dev).armedAs pg.num = some a := ha
  unfold candidate at hbar harmed ⊢
  simp only [applyPages, filter_armed_one ha hd, List.foldl_cons, List.foldl_nil, judge, hbar, Option.isSome_none,
    Bool.false_eq_true, if_false, harmed]

/-- One that is barred keeps its active copy and shows why (R25). -/
theorem applyPages_one_refused {d : Dev} {pg : Page} {a : Armed} {why : Option Nat} (b : Nat)
    (ha : d.armedAs pg.num = some a) (hd : d.domainOn pg.domain = true)
    (hbar : applyBar d d.regs (candidate d.regs pg) pg = some why) :
    applyPages [pg] b d =
      let e := refuseApply pg a b why { d with regs := revertPage d.regs pg (candidate d.regs pg) }
      if pg.block = .shot then e.putPlanResult pg.line (planCheck (candidate d.regs pg) pg.line) else e := by
  have harmed : ({ d with regs := revertPage d.regs pg (candidate d.regs pg) } : Dev).armedAs pg.num = some a := ha
  unfold candidate at hbar harmed ⊢
  simp only [applyPages, filter_armed_one ha hd, List.foldl_cons, List.foldl_nil, judge, judgedOn, hbar,
    Option.isSome_some, if_true, harmed, beq_iff_eq]

/-- A page that is not armed does not apply. -/
theorem applyPage_unarmed {d : Dev} {p : Nat} (delay : Nat) (ha : d.armedAs p = none) : applyPage p delay d = d := by
  unfold applyPage
  rw [ha]

/-- The pages that apply with one: those of its line's round class that were armed in its cycle and do not produce. -/
def appliesWith (d : Dev) (pg : Page) (a : Armed) : List Page :=
  (roundPages pg.line).filter fun q => (d.armedAs q.num).any (fun b => b.tick == a.tick) && !producing d q

/-- What becomes within the 8 cycles of an armed page that applies at a core cycle and as a whole (R23, R24, R339). -/
theorem applyPage_armed {d : Dev} {p delay : Nat} {pg : Page} {a : Armed} (hpg : pageOf p = some pg)
    (ha : d.armedAs p = some a) (hp : p ∉ [pgAon, pgDma, pgCodec]) (hdelay : delay ≤ 8) :
    applyPage p delay d =
      if pg.block = .eth ∧ producing d pg = true ∧ d.clk.tick < (d.port pg.unit).free then
        applyPages [pg] 4 (d.advanceTo (d.port pg.unit).free)
      else if producing d pg = true then d
      else applyPages (if pg.boundary = 1 then appliesWith d pg a else [pg]) 0 (d.advanceTo (a.tick + delay)) := by
  simp only [List.mem_cons, List.not_mem_nil, or_false, not_or] at hp
  obtain ⟨haon, hdma, hcodec⟩ := hp
  simp only [applyPage, hpg, ha, haon, hdma, hcodec, or_self, Nat.not_lt.mpr hdelay, if_false, appliesWith]

/-- Such a page whose block does not produce applies with the pages of its round class, or alone. -/
theorem applyPage_quiet {d : Dev} {p delay : Nat} {pg : Page} {a : Armed} (hpg : pageOf p = some pg)
    (ha : d.armedAs p = some a) (hp : p ∉ [pgAon, pgDma, pgCodec]) (hdelay : delay ≤ 8)
    (hquiet : producing d pg = false) :
    applyPage p delay d =
      applyPages (if pg.boundary = 1 then appliesWith d pg a else [pg]) 0 (d.advanceTo (a.tick + delay)) := by
  simp only [applyPage_armed hpg ha hp hdelay, hquiet, Bool.false_eq_true, false_and, and_false, if_false]

/-- The entry of an apply (R25, R26). -/
theorem applyEntryCommit_page {d : Dev} {p : Nat} {r : Applied} (hp : p ≠ pgAon) (hon : d.pageOn p = true)
    (hr : d.bus.applied.find? (fun r => r.page == p) = some r) :
    applyEntryCommit p d =
      let d := d.advanceTo (r.tick + 260)
      let e : JSource := { link := r.link, kind := kindApply, page := p, result := bit r.rejected,
                           digest := (cfgCheck d.regs p).toNat, arg := r.boundary + r.seq * 2 ^ 32 }
      let d' := { d with bus := { d.bus with applied := d.bus.applied.erase r } }
      let t := (d'.journal e).setWord (pageBase p + 0x034) (Word.ofNat d.jr.nextSeq)
      if r.rejected then t else t.event p 0 := by
  have hpage : (pageBase p + 0x034) / 4096 ≠ pgAon := by
    have : (pageBase p + 0x034) / 4096 = p := by unfold pageBase; omega
    rwa [this]
  have hstill : ∀ b, ({ d.advanceTo (r.tick + 260) with bus := b } : Dev).pageOn p = true := fun _ =>
    (Dev.advanceTo_pageOn d (r.tick + 260) p).trans hon
  simp only [applyEntryCommit, hr, hp, if_false, Dev.setHome, hpage, Dev.journal_pageOn, hstill, if_true]

/-- Settles O15: an apply by whether the page is armed, its page, its delay and whether its block produces; an entry by
whether its apply was accepted. -/
theorem appliesCopyTheWholeShadow : Obligations.AppliesCopyTheWholeShadow := by
  unfold Obligations.AppliesCopyTheWholeShadow
  refine ⟨fun s p delay pg a hpg => ?_, fun s p r hp hon hr => ?_⟩
  · have harmed : s.dev.armedAs p.toNat = some a →
        (s.dev.advanceTo (a.tick + delay)).armedAs pg.num = some a := fun ha => by
      rw [Dev.advanceTo_armedAs, pageOf_num hpg, ha]
    have htogether : (pg.boundary = 1 → appliesWith s.dev pg a = [pg]) →
        (if pg.boundary = 1 then appliesWith s.dev pg a else [pg]) = [pg] := fun h => by
      split
      · exact h ‹_›
      · rfl
    simp only [State.lands_iff, exec_applyPage]
    refine ⟨fun ha => by rw [applyPage_unarmed delay ha], fun ha => ⟨fun haon => ?_, fun haon hlong => ?_,
      fun hgroups hdelay => ?_, fun hp hdelay => ⟨fun hwire => ?_, fun hwire hbusy => ?_, fun hround hquiet => ?_,
        fun hquiet halone hd => ⟨fun hbar => ?_, fun why hbar => ?_⟩⟩⟩⟩
    · rw [haon] at ha ⊢
      simp only [applyPage, ha, pageOf_pgAon, if_true]
    · simp only [applyPage, hpg, ha, haon, hlong, if_true, if_false]
    · have haon : p.toNat ≠ pgAon := by rcases hgroups with h | h <;> rw [h] <;> decide
      simp only [applyPage, hpg, ha, haon, hgroups, Nat.not_lt.mpr hdelay, if_true, if_false]
    · rw [applyPage_armed hpg ha hp hdelay, if_pos hwire]
    · rw [applyPage_armed hpg ha hp hdelay, if_neg hwire, if_pos hbusy]
    · rw [applyPage_quiet hpg ha hp hdelay hquiet, if_pos hround, appliesWith]
    · rw [applyPage_quiet hpg ha hp hdelay hquiet, htogether halone,
        applyPages_one_accepted 0 (harmed ha) ((Dev.advanceTo_domainOn _ _ _).trans hd) hbar]
      rfl
    · rw [applyPage_quiet hpg ha hp hdelay hquiet, htogether halone,
        applyPages_one_refused 0 (harmed ha) ((Dev.advanceTo_domainOn _ _ _).trans hd) hbar]
      rfl
  · simp only [State.lands_iff, exec_applyEntryCommit, applyEntryCommit_page hp hon hr]

end Sys2Proof.Machine
end

section
/-!
PROOFS. The queue of writes to AON, the capture of the Tally and the parity sweep (R32, R36 to R38).
-/
namespace Sys2Proof.Machine

-- ---- the queue of AON (R32) -------------------------------------------------------------------------------------

/-- An address within AON's page. -/
theorem aonAddr_page {off : Nat} (h : off < 0x1000) :
    (pageBase pgAon + off) / 0x1000 = pgAon ∧ (pageBase pgAon + off) % 0x1000 = off := by
  unfold pageBase pgAon
  omega

/-- A write of an AON register that nothing bars waits in the queue, or meets it full. -/
theorem putWord_aon {k : Link} {off : Nat} {v : Word} {d : Dev} (ho : off < 0x1000)
    (hbar : busBar d (pageBase pgAon + off) 4 = none) :
    putWord k (pageBase pgAon + off) v d =
      if d.bus.aonQueue.length < 8 then
        { d with bus := { d.bus with aonQueue := d.bus.aonQueue ++ [⟨off, v, linkCode k, d.slow + 3⟩] } }
      else d.busError (pageBase pgAon + off) .aonBusy (linkCode k) := by
  obtain ⟨pl, hpl⟩ := placeOf_of_busBar hbar
  obtain ⟨hpage, hoff⟩ := aonAddr_page ho
  unfold putWord
  split
  · rw [busWrite_aon hbar hpl hpage ‹_›, hoff]
  · rw [busWrite_aonBusy hbar hpl hpage (by omega)]

/-- The completion of a write of IRQ_EN of AON, no apply waiting. -/
theorem completes_irqEn {d : Dev} {w : AonWrite} (rest : List AonWrite) (hl : w.link ≠ linkHardware)
    (ho : w.off = 0x014) (ha : d.armedAs pgAon = none) :
    d.completes w rest = setAonWord { d with bus := { d.bus with aonQueue := rest } } 0x014 0xFF w.value := by
  have heffect : ∀ e : Dev, aonEffect w e = setAonWord e 0x014 0xFF w.value := by
    intro e
    unfold aonEffect
    dsimp only
    rw [if_neg hl, ho, if_neg (by decide), if_neg (by decide), if_pos rfl]
  have happly : ∀ e : Dev, e.armedAs pgAon = none → applyAon e = e := by
    intro e he
    unfold applyAon
    rw [he]
  unfold Dev.completes
  rw [heffect]
  exact happly _ ha

-- ---- the Tally (R36, R37) ---------------------------------------------------------------------------------------

/-- With CTRL on a write of the Tally's CAPTURE captures. -/
theorem putWord_tally {k : Link} {v : Word} {d : Dev} (hd : d.domainOn 1 = true) :
    putWord k (pageBase pgTally + 0x980) v d = tallyCapture d := by
  unfold putWord
  rw [busWrite_page pageOf_pgTally (by decide) (by decide) hd (by decide) (by decide) (.inr (by decide))]
  rfl

-- ---- the parity sweep (R38) -------------------------------------------------------------------------------------

/-- A failing word of no powered page changes nothing. -/
theorem parityFault_unowned {d : Dev} {a : Nat} (h : parityOwners d a = []) : parityFault d a = d := by
  simp only [parityFault, h, List.isEmpty_nil, if_true]

/-- The device with a word known to fail its parity. -/
def Dev.withBad (d : Dev) (a : Nat) : Dev :=
  { d with bus := { d.bus with
      parityBad := if d.bus.parityBad.contains a then d.bus.parityBad else a :: d.bus.parityBad } }

/-- A failing word of one page sets its CFG_FAULT, with its event and entry, where it does not show yet. -/
theorem parityFault_owned {d : Dev} {a : Nat} {pg : Page} (h : parityOwners d a = [pg]) :
    parityFault d a =
      if d.statusHome pg.num 2 then d.withBad a
      else ((d.withBad a).setStatusHome pg.num 2 true).eventLog pg.num 1 sevError (a % 0x1000) := by
  simp only [parityFault, h, List.isEmpty_cons, Bool.false_eq_true, if_false, List.foldl_cons, List.foldl_nil]
  rfl

/-- Settles O16: a write of AON by the room of its queue, its completion, the capture, a sweep by the word's owners. -/
theorem queuesTalliesAndSweeps : Obligations.QueuesTalliesAndSweeps := by
  unfold Obligations.QueuesTalliesAndSweeps
  refine ⟨fun s k off v => ⟨fun e hbar => ?_, fun hbar hroom => ?_, fun hbar hfull => ?_, fun hq => ?_,
    fun w rest hq hl ho ha => ?_⟩, fun s k v hd => ?_,
    fun s a => ⟨?_, fun hnone => ?_, fun pg hone => ⟨fun hshown => ?_, fun hnew => ?_⟩⟩⟩
  · rw [State.lands_iff, exec_aonWrite, putWord, busWrite_bar hbar]
  · rw [State.lands_iff, exec_aonWrite, putWord_aon off.isLt hbar, if_pos hroom]
  · rw [State.lands_iff, exec_aonWrite, putWord_aon off.isLt hbar, if_neg (Nat.not_lt.mpr hfull)]
  · rw [State.lands_iff, exec_aonWriteComplete, aonWriteComplete, hq]
  · have hnone := (Dev.advanceSlow_armedAs s.dev (min w.due (s.dev.slow + 1)) pgAon).trans ha
    simp only [State.lands_iff, exec_aonWriteComplete, aonWriteComplete_link hq hl, completes_irqEn rest hl ho hnone]
  · rw [State.lands_iff, exec_tallyCapture, putWord_tally hd]
    rfl
  · rw [State.lands_iff, exec_paritySweep]
    rfl
  · rw [State.lands_iff, exec_paritySweep]
    exact done_eq_done (parityFault_unowned hnone)
  · rw [State.lands_iff, exec_paritySweep]
    refine done_eq_done ((parityFault_owned hone).trans ?_)
    rw [if_pos hshown]
    rfl
  · rw [State.lands_iff, exec_paritySweep]
    refine done_eq_done ((parityFault_owned hone).trans ?_)
    rw [if_neg (by simp [hnew])]
    rfl

end Sys2Proof.Machine
end

section
/-!
PROOFS. Calibration requests, returns to the factory set, and the passes of the dead time (R60, R71, R115, R119, R230,
R257).
-/
namespace Sys2Proof.Machine

-- ---- the commands of CTRL ---------------------------------------------------------------------------------------

/-- Every page but DEV implements CTRL. -/
theorem pageHas_ctrl {pg : Page} (h : pg.block ≠ .dev) : pageHas pg 0x008 = true := by
  simp [pageHas, h]

/-- A command in CTRL of a page that the bus bars leaves the record of its bus error (R42). -/
theorem ctrlCommand_bar {k : Link} {p : Nat} {f : Page → Dev → Dev} {d : Dev} {e : BusErr}
    (h : busBar d (pageBase p + 0x008) 4 = some e) :
    ctrlCommand k p f d = d.busError (pageBase p + 0x008) e (linkCode k) := by
  simp only [ctrlCommand, h]

/-- On a powered page other than DEV the command has its effect. -/
theorem ctrlCommand_on {k : Link} {p : Nat} {f : Page → Dev → Dev} {d : Dev} {pg : Page} (hpg : pageOf p = some pg)
    (hb : pg.block ≠ .dev) (hd : d.domainOn pg.domain = true) : ctrlCommand k p f d = f pg d := by
  have hbar : busBar d (pageBase p + 0x008) 4 = none :=
    busBar_page hpg (by decide) (by decide) hd (pageHas_ctrl hb)
  simp only [ctrlCommand, hbar, hpg]

/-- DEV has no calibration. -/
theorem block_ne_dev_of_calKindOf {b : Block} {c : CalKind} (h : calKindOf b = some c) : b ≠ .dev := by
  rintro rfl
  exact absurd h (by simp [calKindOf])

-- ---- calibrations in dead time ----------------------------------------------------------------------------------

/-- CAL_REQ on a page with a calibration in dead time requests it. -/
theorem calReqOn_kind {pg : Page} {c : CalKind} (h : calKindOf pg.block = some c) (d : Dev) :
    calReqOn pg d = requestCal d pg.line c := by
  simp only [calReqOn, h]

/-- CAL_FACTORY on such a page takes effect at the next boundary of its line, the idle one at once (R119). -/
theorem calFactoryOn_kind {pg : Page} {c : CalKind} (h : calKindOf pg.block = some c) (d : Dev) :
    calFactoryOn pg d =
      let f := d.onCal pg.line c fun r => { r with factory := true }
      if launching f pg.line then f else factoryBoundary f pg.line true := by
  simp only [calFactoryOn, h]

/-- A change of a calibration's state leaves the launching of the lines as it was. -/
theorem launching_onCal (d : Dev) (x y : Line) (c : CalKind) (f : CalRun → CalRun) :
    launching (d.onCal x c f) y = launching d y := by
  unfold launching Dev.onCal
  cases x <;> cases y <;> dsimp only [Dev.onLine, Dev.setLine, Dev.line] <;> split <;> rfl

/-- A request that is pending already takes another one in (R114). -/
theorem requestCal_pending {d : Dev} {x : Line} {c : CalKind} (h : (calRun d x c).pending = true) :
    requestCal d x c = d := by
  unfold requestCal
  rw [if_pos h]

-- ---- PFE --------------------------------------------------------------------------------------------------------

/-- CAL_REQ on PFE is a request for its visit. -/
theorem calReqOn_pfe {pg : Page} (h : pg.block = .pfe) (d : Dev) : calReqOn pg d = pfeCalReq d := by
  simp [calReqOn, h, calKindOf]

/-- CAL_FACTORY on PFE forgets its trims and clears CAL_TIME. -/
theorem calFactoryOn_pfe {pg : Page} (h : pg.block = .pfe) (d : Dev) :
    calFactoryOn pg d = (d.onPfe fun q => { q with trims := [] }).setPair pgPfe 0x024 0x028 0 := by
  simp [calFactoryOn, h, calKindOf]

/-- A request waits for the calibration or the visit in progress (R257). -/
theorem pfeCalReq_busy {d : Dev} (h : d.pfe.calEnd.isSome = true ∨ d.pfe.ch.isSome = true) :
    pfeCalReq d = d.onPfe fun q => { q with calReq := true } := by
  unfold pfeCalReq
  split
  · rfl
  · rw [if_pos (h.resolve_left ‹_›)]

/-- With neither in progress the calibration starts at once. -/
theorem pfeCalReq_idle {d : Dev} (hcal : d.pfe.calEnd = none) (hvisit : d.pfe.ch = none) :
    pfeCalReq d = pfeCalStart d d.clk.tick := by
  simp [pfeCalReq, hcal, hvisit]

-- ---- passes -----------------------------------------------------------------------------------------------------

/-- Whether a calibration that waits takes a pass from tick t: it fits the dead time, the page is on, no replay runs. -/
def takesPass (d : Dev) (x : Line) (t p : Nat) (waits : Bool) : Bool :=
  waits && passFits d x t && d.pageOn p && d.pwr.mode != 6

theorem takesPass_iff {d : Dev} {x : Line} {t p : Nat} {waits : Bool} :
    takesPass d x t p waits = true ↔
      waits = true ∧ (passFits d x t = true ∧ d.pwr.mode ≠ 6) ∧ d.pageOn p = true := by
  simp only [takesPass, Bool.and_eq_true, bne_iff_ne]
  tauto

theorem takesPass_eq_false_iff {d : Dev} {x : Line} {t p : Nat} {waits : Bool} :
    takesPass d x t p waits = false ↔
      waits = false ∨ ¬ (passFits d x t = true ∧ d.pwr.mode ≠ 6) ∨ d.pageOn p = false := by
  rw [← Bool.not_eq_true, takesPass_iff, ← Bool.not_eq_true waits, ← Bool.not_eq_true (d.pageOn p)]
  tauto

/-- The lane calibration waits for a pass: it is pending and TRIM tracks. -/
def laneWaits (d : Dev) (x : Line) : Bool := (calRun d x calLane).pending && trimMode d x trimKind == 0

/-- The DAC calibration waits for a pass: it is pending and the lane calibration, which goes first, does not wait. -/
def dacWaits (d : Dev) (x : Line) : Bool := (calRun d x calDac).pending && !laneWaits d x

/-- The Raman calibration waits for a pass: it is pending and RAML tracks. -/
def ramanWaits (d : Dev) (x : Line) : Bool := (calRun d x calRaman).pending && trimMode d x ramlKind == 0

theorem dacWaits_iff {d : Dev} {x : Line} :
    dacWaits d x = true ↔ laneWaits d x = false ∧ (calRun d x calDac).pending = true := by
  rw [dacWaits, Bool.and_eq_true, Bool.not_eq_true', and_comm]

theorem dacWaits_eq_false_iff {d : Dev} {x : Line} :
    dacWaits d x = false ↔ laneWaits d x = true ∨ (calRun d x calDac).pending = false := by
  rw [dacWaits, Bool.and_eq_false_iff, Bool.not_eq_false', or_comm]

theorem ramanWaits_iff {d : Dev} {x : Line} :
    ramanWaits d x = true ↔ (calRun d x calRaman).pending = true ∧ trimMode d x ramlKind = 0 := by
  rw [ramanWaits, Bool.and_eq_true, beq_iff_eq]

theorem ramanWaits_eq_false_iff {d : Dev} {x : Line} :
    ramanWaits d x = false ↔ (calRun d x calRaman).pending = false ∨ trimMode d x ramlKind ≠ 0 := by
  rw [ramanWaits, Bool.and_eq_false_iff, beq_eq_false_iff_ne]

/-- A pass that the lane calibration does not take changes nothing. -/
theorem laneCalPass_idle {x : Line} {cores : List (List Int)} {d : Dev}
    (h : takesPass d x (d.line x).passAt (pgTrim x) (laneWaits d x) = false) : laneCalPass x cores d = d :=
  if_neg (Bool.eq_false_iff.mp h)

/-- Nor does one that the DAC calibration does not take. -/
theorem dacCalPass_idle {x : Line} {xi xq : List Int} {d : Dev}
    (h : takesPass d x (d.line x).passAt (pgSyn x) (dacWaits d x) = false) : dacCalPass x xi xq d = d :=
  if_neg (Bool.eq_false_iff.mp h)

/-- Nor does one that the Raman calibration does not take. -/
theorem ramanCalPass_idle {x : Line} {as st : List Int} {d : Dev}
    (h : takesPass d x (d.line x).rpassAt (pgRaml x) (ramanWaits d x) = false) : ramanCalPass x as st d = d :=
  if_neg (Bool.eq_false_iff.mp h)

/-- Settles O17: a request by its page and what is pending, the factory command by whether the line launches, a pass by
whether its calibration takes it. -/
theorem calibrationIsRequestedAndRun : Obligations.CalibrationIsRequestedAndRun := by
  unfold Obligations.CalibrationIsRequestedAndRun
  refine ⟨fun s k p => ⟨fun e hbar => ?_, fun pg c hpg hd hc => ?_, fun pg hpg hb hd => ?_⟩, fun s x cores a b => ?_⟩
  · simp only [State.lands_iff, exec_calReq, exec_ctrlCalFactory, ctrlCommand_bar hbar, and_self]
  · have hdev := block_ne_dev_of_calKindOf hc
    simp only [State.lands_iff, exec_calReq, exec_ctrlCalFactory, ctrlCommand_on hpg hdev hd, calReqOn_kind hc,
      calFactoryOn_kind hc, launching_onCal]
    refine ⟨fun hpend => ?_, fun hfree => ?_, fun hrun => ?_, fun hidle => ?_⟩
    · rw [requestCal_pending hpend]
    · rw [requestCal, if_neg (by simp [hfree])]
    · rw [if_pos hrun]
    · rw [if_neg (by simp [hidle])]
  · have hdev : pg.block ≠ .dev := by simp [hb]
    simp only [State.lands_iff, exec_calReq, exec_ctrlCalFactory, ctrlCommand_on hpg hdev hd, calReqOn_pfe hb,
      calFactoryOn_pfe hb]
    refine ⟨fun hbusy => ?_, fun hcal hvisit => ?_, trivial⟩
    · rw [pfeCalReq_busy hbusy]
    · rw [pfeCalReq_idle hcal hvisit, pfeCalStart]
  · simp only [State.lands_iff, exec_laneCalPass, exec_dacCalPass, exec_ramanCalPass]
    refine ⟨fun hwaits hmay hon => ?_, fun hnot => ?_, fun hlane hpend hmay hon => ?_, fun hnot => ?_,
      fun hpend htrack hmay hon => ?_, fun hnot => ?_⟩
    · exact done_eq_done (if_pos (takesPass_iff.mpr ⟨hwaits, hmay, hon⟩))
    · rw [laneCalPass_idle (takesPass_eq_false_iff.mpr hnot)]
    · exact done_eq_done (if_pos (takesPass_iff.mpr ⟨dacWaits_iff.mpr ⟨hlane, hpend⟩, hmay, hon⟩))
    · have hdac := (or_assoc.mpr hnot).imp_left dacWaits_eq_false_iff.mpr
      rw [dacCalPass_idle (takesPass_eq_false_iff.mpr hdac)]
    · exact done_eq_done (if_pos (takesPass_iff.mpr ⟨ramanWaits_iff.mpr ⟨hpend, htrack⟩, hmay, hon⟩))
    · have hraman := (or_assoc.mpr hnot).imp_left ramanWaits_eq_false_iff.mpr
      rw [ramanCalPass_idle (takesPass_eq_false_iff.mpr hraman)]

end Sys2Proof.Machine
end

section
/-!
PROOFS. The launches of the shot sequencer (R57, R59, R62, R68, R82, R93, R274): when a slot, a held round and a Raman
pulse launch, and what a slot fires.
-/
namespace Sys2Proof.Machine

-- ---- what a slot fires ------------------------------------------------------------------------------------------

/-- The tones that slot g is to launch (R57, R58). -/
def plannedTones (d : Dev) (x : Line) (g : Nat) : Nat := if cohEn d.regs x then groupMask d.regs x g else 0

/-- Whether the slot is to fire a Raman pulse (R57). -/
def plannedPulse (d : Dev) (x : Line) : Bool :=
  ramanEn d.regs x && (d.seq x).slotCount % max (shotFld d.regs x SHOT.RAMAN_CTRL.EVERY) 1 == 0

/-- A slot of a calibration round and a taken one launch nothing (R59, R61). -/
theorem firing_blocked {d : Dev} {x : Line} (g : Nat) (h : (d.seq x).calRound = true ∨ (d.seq x).taken = true) :
    firing d x g = ⟨0, false, false⟩ := by
  rw [← Bool.or_eq_true] at h
  exact if_pos h

/-- With a permit the slot launches what is planned; in a probe a slot with tones keeps its pulse back (R82, R93). -/
theorem firing_lit {d : Dev} {x : Line} (g : Nat) (h : ((d.seq x).calRound || (d.seq x).taken) = false)
    (hp : slotPermit d x = true) :
    firing d x g =
      ⟨plannedTones d x g, plannedPulse d x && !(canState d x == 1 && cohEn d.regs x), false⟩ :=
  (if_neg (Bool.eq_false_iff.mp h)).trans (if_pos hp)

/-- Without a permit it is DARK where something was planned (R68). -/
theorem firing_unlit {d : Dev} {x : Line} (g : Nat) (h : ((d.seq x).calRound || (d.seq x).taken) = false)
    (hp : slotPermit d x = false) :
    firing d x g = ⟨0, false, plannedTones d x g != 0 || plannedPulse d x⟩ :=
  (if_neg (Bool.eq_false_iff.mp h)).trans (if_neg (Bool.eq_false_iff.mp hp))

theorem plannedTones_eq_zero {d : Dev} {x : Line} (g : Nat) (h : cohEn d.regs x = false) : plannedTones d x g = 0 :=
  if_neg (Bool.eq_false_iff.mp h)

theorem plannedTones_of_ne_zero {d : Dev} {x : Line} {g : Nat} (h : plannedTones d x g ≠ 0) :
    cohEn d.regs x = true ∧ plannedTones d x g = groupMask d.regs x g := by
  unfold plannedTones at h ⊢
  split
  · exact ⟨‹_›, rfl⟩
  · simp_all

theorem ramanEn_of_plannedPulse {d : Dev} {x : Line} (h : plannedPulse d x = true) : ramanEn d.regs x = true :=
  (Bool.and_eq_true_iff.mp h).1

/-- What a slot launches: nothing where it is blocked; light only with a permit; else it is DARK where it would have. -/
theorem firing_spec (d : Dev) (x : Line) (g : Nat) :
    let f := firing d x g
    ((d.seq x).calRound = true ∨ (d.seq x).taken = true → f = ⟨0, false, false⟩) ∧
    (f.tones ≠ 0 ∨ f.raman = true → slotPermit d x = true ∧ f.dark = false) ∧
    (f.dark = true → slotPermit d x = false ∧ (plannedTones d x g ≠ 0 ∨ plannedPulse d x = true)) ∧
    (f.tones = 0 ∨ f.tones = plannedTones d x g) ∧ (f.raman = true → plannedPulse d x = true) := by
  cases hb : (d.seq x).calRound || (d.seq x).taken with
  | true =>
    have hblocked := Bool.or_eq_true_iff.mp hb
    simp [firing_blocked g hblocked]
  | false =>
    obtain ⟨hround, htaken⟩ := Bool.or_eq_false_iff.mp hb
    cases hp : slotPermit d x with
    | true => simp +contextual [firing_lit g hb hp, hround, htaken]
    | false => simp [firing_unlit g hb hp, hround, htaken]

-- ---- slots and held rounds --------------------------------------------------------------------------------------

/-- With nothing scheduled, without a launch path, or during a hold SLOT_LAUNCH does nothing (R62, R68). -/
theorem slotLaunch_idle {x : Line} {d : Dev}
    (h : (d.seq x).nextEdge = none ∨ launchPath d x = false ∨ (d.seq x).holdTo.isSome = true) :
    slotLaunch x d = d := by
  cases ht : (d.seq x).nextEdge with
  | none => simp only [slotLaunch, ht]
  | some t =>
    have hstays : (!launchPath d x || (d.seq x).holdTo.isSome) = true := by simpa [ht] using h
    simp only [slotLaunch, ht, hstays, if_true]

/-- The scheduled slot launches at its gate edge; the first of a round is at the round boundary (R62, R68). -/
theorem slotLaunch_scheduled {x : Line} {d : Dev} {t : Nat} (ht : (d.seq x).nextEdge = some t)
    (hp : launchPath d x = true) (hh : (d.seq x).holdTo = none) :
    slotLaunch x d =
      if (d.seq x).nextSlot = 0 then roundBoundary (d.advanceTo t) x t false
      else slotAt (d.advanceTo t) x (d.seq x).nextSlot 0 false := by
  simp only [slotLaunch, ht, hp, hh, Option.isSome_none, Bool.not_true, Bool.or_self, Bool.false_eq_true, if_false]

/-- With nothing held, nothing scheduled or no launch path HOLD_END does nothing (R62). -/
theorem holdEnd_idle {x : Line} {d : Dev}
    (h : (d.seq x).nextEdge = none ∨ launchPath d x = false ∨ (d.seq x).holdTo = none) : holdEnd x d = d := by
  unfold holdEnd
  dsimp only
  split
  · next hs hb =>
    have hp : launchPath d x = false := by simpa [hs, hb] using h
    rw [hp, Bool.not_false, if_pos rfl]
  · rfl

/-- The held round launches at the end of its hold, with the held cycles in its record (R62, R73). -/
theorem holdEnd_held {x : Line} {d : Dev} {stop b : Nat} (hs : (d.seq x).holdTo = some stop)
    (hb : (d.seq x).nextEdge = some b) (hp : launchPath d x = true) :
    holdEnd x d =
      slotAt ((((d.advanceTo stop).onSeq x fun q => { q with holdTo := none })).setStatus (pgShot x) 10 false)
        x 0 (stop - b) false := by
  simp only [holdEnd, hs, hb, hp, Bool.not_true, Bool.false_eq_true, if_false]

-- ---- Raman pulses -----------------------------------------------------------------------------------------------

/-- With no pulse due or no span open RAMAN_PULSE does nothing (R57). -/
theorem ramanPulse_idle {x : Line} {d : Dev} (h : (d.seq x).ramanDue = none ∨ (d.line x).lane.spans = []) :
    ramanPulse x d = d := by
  unfold ramanPulse
  dsimp only
  split
  · next ht hs => simp [ht, hs] at h
  · rfl

/-- The pulse of a slot that fires none is an edge for the interval units only (R274). -/
theorem ramanPulse_edge {x : Line} {d : Dev} {t : Nat} {sp : SlotSpan} {rest : List SlotSpan}
    (ht : (d.seq x).ramanDue = some t) (hs : (d.line x).lane.spans = sp :: rest)
    (hf : bitOf sp.slot.shot.flags 1 = false) :
    ramanPulse x d = tiuEdge (6 + x.idx) true ((d.advanceTo t).onSeq x fun q => { q with ramanDue := none }) := by
  simp only [ramanPulse, ht, hs, hf, Bool.not_false, if_true]

/-- Settles O20: each launch by what is scheduled, what a slot fires by whether it is blocked and has a permit. -/
theorem slotsLaunchAtTheirEdges : Obligations.SlotsLaunchAtTheirEdges := by
  unfold Obligations.SlotsLaunchAtTheirEdges
  refine ⟨fun s x => ?_, fun d x g => ?_⟩
  · simp only [State.lands_iff, exec_slotLaunch, exec_holdEnd, exec_ramanPulse]
    refine ⟨fun h => ?_, fun h => ?_, fun t ht hp hh hslot => ?_, fun t ht hp hh hslot => ?_, fun stop b hs hb hp => ?_,
      fun h => ?_, fun t sp rest ht hs => ⟨fun hf => ?_, fun hf => ?_⟩⟩
    · rw [slotLaunch_idle h]
    · rw [holdEnd_idle h]
    · rw [slotLaunch_scheduled ht hp hh, if_neg hslot]
    · rw [slotLaunch_scheduled ht hp hh, if_pos hslot]
    · rw [holdEnd_held hs hb hp]
    · rw [ramanPulse_idle h]
    · rw [ramanPulse_edge ht hs hf]
    · simp only [ramanPulse, ht, hs, hf, Bool.not_true, Bool.false_eq_true, if_false]
  · obtain ⟨hblocked, hlight, hdark, htones, hpulse⟩ := firing_spec d x g
    refine ⟨hblocked, hlight, fun h => ?_, fun hcoh => ?_, fun hram => ?_, fun h => ?_⟩
    · obtain ⟨hpermit, hplan⟩ := hdark h
      refine ⟨hpermit, hplan.imp (fun ht => ?_) ramanEn_of_plannedPulse⟩
      obtain ⟨hcoh, hmask⟩ := plannedTones_of_ne_zero ht
      exact ⟨hcoh, hmask ▸ ht⟩
    · exact htones.elim id fun ht => ht.trans (plannedTones_eq_zero g hcoh)
    · exact Bool.eq_false_iff.mpr fun hr => by simp [ramanEn_of_plannedPulse (hpulse hr)] at hram
    · have ht := htones.resolve_left h
      rw [ht] at h ⊢
      exact (plannedTones_of_ne_zero h).2

end Sys2Proof.Machine
end

section
/-!
PROOFS. Edges of TRIG_IN (R65 to R67): how a line judges an edge, and that its judgement is the one the rules name.
-/
namespace Sys2Proof.Machine

/-- An edge that a line does not judge: no launch path, mode OFF, or the other polarity (R65, R66). -/
def trigOff (d : Dev) (rising : Bool) (x : Line) : Prop :=
  d.domainOn 10 = false ∨ d.clk.coreOn = false ∨ d.pwr.mode = 6 ∨ trigMode d.regs x = 0 ∨
    (shotFld d.regs x SHOT.TRIG_CTRL.POLARITY == 0) ≠ rising

/-- An edge accepted in cycle c launches its slot, or its round, 16 cycles later (R66, R67). -/
def launchedByEdge (d : Dev) (c : Nat) (x : Line) : Dev :=
  let e := (d.advanceTo (c + 16)).onSeq x fun q => { q with extWait := false, lastAccept := some c }
  let e := e.setStatus (pgShot x) 8 false
  if (d.seq x).nextSlot = 0 then roundBoundary e x (c + 16) true else slotAt e x (d.seq x).nextSlot 0 true

/-- What becomes of an edge sampled in cycle c on a line, case by case (R65 to R67). -/
def judgedEdge (d : Dev) (c : Nat) (rising : Bool) (x : Line) (e : Dev) : Prop :=
  (trigOff d rising x → e = d) ∧
  (¬ trigOff d rising x → enActive d.regs (pgShot x) = false → e = d.event (pgShot x) 5) ∧
  (¬ trigOff d rising x → enActive d.regs (pgShot x) = true → edgeAccepted d x c = false →
    e = d.event (pgShot x) 4) ∧
  (¬ trigOff d rising x → enActive d.regs (pgShot x) = true → edgeAccepted d x c = true → e = launchedByEdge d c x)

/-- The guard of the model's judgement. -/
theorem trigOff_iff {d : Dev} {rising : Bool} {x : Line} :
    trigOff d rising x ↔
      (!d.domainOn 10 || !d.clk.coreOn || d.pwr.mode == 6 || trigMode d.regs x == 0 ||
        (shotFld d.regs x SHOT.TRIG_CTRL.POLARITY == 0) != rising) = true := by
  simp only [trigOff, Bool.or_eq_true, Bool.not_eq_true', beq_iff_eq, bne_iff_ne, or_assoc]

/-- A line that does not judge the edge stays as it is. -/
theorem trigLine_off {d : Dev} {c : Nat} {rising : Bool} {x : Line} (h : trigOff d rising x) :
    trigLine c rising d x = d := if_pos (trigOff_iff.mp h)

/-- A line that does judges it by whether SHOT is enabled and the edge accepted (R66). -/
theorem trigLine_on {d : Dev} {c : Nat} {rising : Bool} {x : Line} (h : ¬ trigOff d rising x) :
    trigLine c rising d x =
      if !enActive d.regs (pgShot x) then d.event (pgShot x) 5
      else if edgeAccepted d x c then launchedByEdge d c x
      else d.event (pgShot x) 4 := if_neg (mt trigOff_iff.mpr h)

/-- The cases name one device: the one to which the line's judgement leads. -/
theorem judgedEdge_iff {d e : Dev} {c : Nat} {rising : Bool} {x : Line} :
    judgedEdge d c rising x e ↔ e = trigLine c rising d x := by
  unfold judgedEdge
  by_cases hoff : trigOff d rising x
  · simp [hoff, trigLine_off]
  · cases hen : enActive d.regs (pgShot x) with
    | false => simp [hoff, hen, trigLine_on]
    | true => cases hacc : edgeAccepted d x c <;> simp [hoff, hen, hacc, trigLine_on]

/-- Only a line that waits for an edge accepts one (R66). -/
theorem extWait_of_edgeAccepted {d : Dev} {x : Line} {c : Nat} (h : edgeAccepted d x c = true) :
    (d.seq x).extWait = true := (Bool.and_eq_true_iff.mp h).1

/-- Settles O21: each line's judgement is the one that the cases name; a line that is off keeps what the other leaves. -/
theorem triggerEdgesAreJudged : Obligations.TriggerEdgesAreJudged := by
  unfold Obligations.TriggerEdgesAreJudged
  intro s rising x d now off launches judged
  have hedge : trigInEdge rising s.dev = trigLine now rising (trigLine now rising d .a) .b := rfl
  simp only [State.lands_iff, exec_trigInEdge, hedge]
  refine ⟨fun hoff => ?_, fun e hjudged hoff => ?_, extWait_of_edgeAccepted⟩
  · exact ⟨trigLine now rising d .b, judgedEdge_iff.mpr rfl, done_eq_done (by rw [trigLine_off hoff])⟩
  · have he : e = trigLine now rising d .a := judgedEdge_iff.mp hjudged
    rw [← he, trigLine_off hoff]

end Sys2Proof.Machine
end

section
/-!
PROOFS. The prediction of a plan, the way of a shot record down the pipeline, and the dead time (R59 to R61, R72, R73,
R91).
-/
namespace Sys2Proof.Machine

-- ---- predictions (R72) ------------------------------------------------------------------------------------------

/-- With EMIT off SHOT_PREDICT does nothing. -/
theorem shotPredict_off {x : Line} {d : Dev} (h : d.domainOn 10 = false) : shotPredict x d = d := by
  unfold shotPredict
  split
  · rfl
  · rw [h, if_neg Bool.false_ne_true]

/-- With EMIT on the plan of the shadow shows in the prediction and plan check registers. -/
theorem shotPredict_on {x : Line} {d : Dev} {pg : Page} (hpg : pageOf (pgShot x) = some pg)
    (h : d.domainOn 10 = true) :
    shotPredict x d =
      let m := copyPage d.regs pg d.regs
      (((d.setLiv (pgShot x) SHOT.TCLEAR_MAX (toneClearMax m x)).setLiv (pgShot x) SHOT.PERIOD_PRED
        (planPeriod m x)).setLiv (pgShot x) SHOT.SLOT_PRED (planSlot m x)).putPlanResult x (planCheck m x) := by
  simp only [shotPredict, hpg, h, if_true]

-- ---- shot records (R73) -----------------------------------------------------------------------------------------

/-- With no slot whose record waits SHOT_RECORD does nothing. -/
theorem shotRecordOut_none {x : Line} {d : Dev} (h : (d.line x).slots = []) : shotRecordOut x d = d := by
  simp only [shotRecordOut, h]

/-- The oldest slot's record leaves 300 cycles after its gate edge. -/
theorem shotRecordOut_oldest {x : Line} {d : Dev} {q : Slot} {rest : List Slot} (h : (d.line x).slots = q :: rest) :
    shotRecordOut x d =
      passRecord (((d.advanceTo (q.shot.tick + 300)).onLine x fun l => { l with slots := rest }).setLiv (pgShot x)
        SHOT.SEQ q.shot.seq) x q := by
  simp only [shotRecordOut, h]

/-- With SENSE off a record goes no further. -/
theorem passRecord_off {d : Dev} (x : Line) (q : Slot) (h : d.domainOn 7 = false) : passRecord d x q = d := by
  unfold passRecord
  rw [h, Bool.not_false, if_pos rfl]

-- ---- the dead time (R59 to R61, R91) ------------------------------------------------------------------------------

/-- With EMIT on, a request pending and no dead time open, DEAD_AGE_EXPIRY forces the next round (R60). -/
theorem deadAgeExpiry_pending {x : Line} {d : Dev} (hd : d.domainOn 10 = true) (hp : calPending d x = true)
    (hi : (d.seq x).inDead = false) :
    deadAgeExpiry x d =
      (d.advanceSlow ((d.seq x).deadEnd + 327680)).onSeq x fun q => { q with calForced := true } := by
  unfold deadAgeExpiry
  rw [if_pos (by simp [hd, hp, hi])]

/-- Without a request it does nothing. -/
theorem deadAgeExpiry_none {x : Line} {d : Dev} (h : calPending d x = false) : deadAgeExpiry x d = d := by
  unfold deadAgeExpiry
  rw [if_neg (by simp [h])]

/-- Without a dead time that is placed DEAD_TIME_START does nothing. -/
theorem deadTimeStart_none {x : Line} {d : Dev} (h : (d.seq x).deadFrom = none) : deadTimeStart x d = d := by
  simp only [deadTimeStart, h]

/-- The device with the dead time of a line open from tick f, for its passes too (R59). -/
def Dev.deadOpen (d : Dev) (x : Line) (f : Nat) : Dev :=
  (d.advanceTo f).onLine x fun l => { l with shot := { l.shot with inDead := true }, passAt := f, rpassAt := f }

theorem Dev.deadOpen_can (d : Dev) (x : Line) (f : Nat) : ((d.deadOpen x f).line x).can = (d.line x).can := by
  rw [Dev.deadOpen, Dev.onLine_line, Dev.advanceTo_line]

/-- In a calibration round it opens the dead time, and serves a diagnostic request with 500 cycles left (R59, R61, R91). -/
theorem deadTimeStart_opens {x : Line} {d : Dev} {f : Nat} (hf : (d.seq x).deadFrom = some f)
    (hc : (d.seq x).calRound = true) (hi : (d.seq x).inDead = false) :
    deadTimeStart x d =
      if (d.line x).can.diagReq = true ∧ (d.seq x).taken = false ∧ f + 500 ≤ (d.seq x).deadTo then
        serveDiag (d.deadOpen x f) x f
      else d.deadOpen x f := by
  have hcan := Dev.deadOpen_can d x f
  unfold Dev.deadOpen at hcan ⊢
  simp only [deadTimeStart, hf, hc, hi, hcan, Bool.not_false, Bool.not_eq_true', and_self, if_true]

/-- Settles O22: a prediction by EMIT, a record by the slots that wait and SENSE, the dead time by its requests. -/
theorem shotsArePredictedAndRecorded : Obligations.ShotsArePredictedAndRecorded := by
  unfold Obligations.ShotsArePredictedAndRecorded
  refine ⟨fun s x pg hpg => ?_, fun s x => ⟨fun hnone => ?_, fun q rest hq => ?_⟩, fun s x => ?_⟩
  · simp only [State.lands_iff, exec_shotPredict]
    exact ⟨fun hoff => by rw [shotPredict_off hoff], fun hon => by rw [shotPredict_on hpg hon]⟩
  · rw [State.lands_iff, exec_shotRecord, shotRecordOut_none hnone]
  · simp only [State.lands_iff, exec_shotRecord, shotRecordOut_oldest hq, implies_true, and_true]
    intro hoff
    rw [passRecord_off x q (by simpa using hoff)]
  · simp only [State.lands_iff, exec_deadAgeExpiry, exec_deadTimeStart]
    refine ⟨fun hd hp hi => ?_, fun hp => ?_, fun hnone => ?_, fun f hf hc hi => ?_⟩
    · rw [deadAgeExpiry_pending hd hp hi]
    · rw [deadAgeExpiry_none hp]
    · rw [deadTimeStart_none hnone]
    · rw [deadTimeStart_opens hf hc hi]
      refine ⟨fun hno => ?_, fun hreq htaken hleft => ?_⟩
      · rw [if_neg]
        · rfl
        · rintro ⟨hreq, htaken, hleft⟩
          rcases hno with h | h | h
          · simp [hreq] at h
          · simp [htaken] at h
          · omega
      · rw [if_pos ⟨hreq, htaken, hleft⟩]
        rfl

end Sys2Proof.Machine
end

section
/-!
PROOFS. The light interlock (R75, R86, R87, R459): a ball that a cell drives has the cell's permit and the light path
behind it, one that boundary scan drives the interlock and the EMIT domain.
-/
namespace Sys2Proof.Machine

/-- A high ball that the cell drives has the permit and the light path behind it (R75). -/
theorem Cells.drive_lit {c : Cells} {tick : Nat} {ok : Bool} (h : (c.drive tick ok).lit = true) :
    c.permit = true ∧ ok = true := by
  simp only [Cells.lit, Cells.drive, Bool.or_eq_true, Bool.and_eq_true] at h
  rcases h with ((⟨⟨-, hp⟩, hok⟩ | ⟨⟨-, hp⟩, hok⟩) | ⟨⟨-, hp⟩, hok⟩) | ⟨⟨-, hp⟩, hok⟩ <;> exact ⟨hp, hok⟩

/-- A high ball that boundary scan drives has the interlock's path behind it (R459). -/
theorem Cells.scanned_lit {c : Cells} {b : List Bool} {ok : Bool} (h : (c.scanned b ok).lit = true) : ok = true := by
  simp only [Cells.lit, Cells.scanned, ← Bool.and_or_distrib_right, Bool.and_eq_true] at h
  exact h.2

/-- The balls as the device drives them are lawful, whatever the cells hold. -/
theorem Dev.driven_lawful (d : Dev) (x : Line) (c : Cells) : d.lawful (d.driven x c) := by
  intro hlit
  cases hs : d.scan with
  | none =>
    simp only [Dev.driven, hs] at hlit ⊢
    obtain ⟨hpermit, hpath⟩ := Cells.drive_lit hlit
    simp only [Dev.lightPath, Bool.and_eq_true] at hpath
    obtain ⟨⟨hlock, hclk⟩, hdom⟩ := hpath
    exact ⟨hlock, hdom, .inl ⟨hpermit, hclk⟩⟩
  | some b =>
    simp only [Dev.driven, hs] at hlit
    obtain ⟨hlock, hdom⟩ := Bool.and_eq_true_iff.mp (Cells.scanned_lit hlit)
    exact ⟨hlock, hdom, .inr rfl⟩

/-- In a settled state the balls of both lines are lawful. -/
theorem Dev.Settled.lawful {d : Dev} (h : d.Settled) (x : Line) : d.lawful (d.line x).cells := by
  cases x with
  | a => exact h.ballsA ▸ d.driven_lawful .a d.lineA.cells
  | b => exact h.ballsB ▸ d.driven_lawful .b d.lineB.cells

/-- Settles O4: a step leads to a settled state, whose balls are as the device drives them. -/
theorem lightNeedsItsPermit : Obligations.LightNeedsItsPermit := by
  unfold Obligations.LightNeedsItsPermit
  intro s t hstep
  have hlawful := (step_settled hstep).lawful
  refine ⟨⟨hlawful .a, hlawful .b⟩, fun hoff x => Bool.eq_false_iff.mpr fun hlit => ?_⟩
  obtain ⟨hlock, hdom, -⟩ := hlawful x hlit
  rcases hoff with h | h
  · simp [hlock] at h
  · simp [hdom] at h

end Sys2Proof.Machine
end

section
/-!
PROOFS. What a cause does to the lines (R83): what leaves CANARY.STATE as it is, what a line takes of a cause of each
scope, and a cause by its scope.
-/
namespace Sys2Proof.Machine

-- ---- CANARY.STATE -----------------------------------------------------------------------------------------------

/-- STATE of a line stands at 0x900 of a page other than TROUBLE. -/
theorem canState_of_agree {d : Dev} {m : RegMap} {out : Nat → Prop} {y : Line} (h : m.agree d.regs out)
    (ho : ¬ out (pageBase (pgCanary y) + CANARY.STATE.off)) : liv m (pgCanary y) CANARY.STATE = canState d y :=
  RegMap.agree_at h ho

theorem state_not_inTrouble (y : Line) : ¬ inTrouble (pageBase (pgCanary y) + CANARY.STATE.off) := by
  cases y <;> decide

/-- No COUNT word is a STATE word. -/
theorem state_ne_countAddr (y : Line) (p : Nat) {n : Nat} (hn : n < 24) :
    pageBase (pgCanary y) + CANARY.STATE.off ≠ countAddr p n := by
  unfold countAddr pageBase CANARY.STATE
  dsimp only
  omega

/-- An event leaves STATE. -/
theorem canState_event (d : Dev) (p : Nat) {n : Nat} (hn : n < 24) (y : Line) :
    canState (d.event p n) y = canState d y := by
  obtain ⟨m, a, t, h, hm⟩ := d.event_form p n
  rw [h]
  exact canState_of_agree hm (not_or.mpr ⟨state_ne_countAddr y p hn, state_not_inTrouble y⟩)

/-- A trouble entry leaves STATE. -/
@[simp] theorem canState_trouble (d : Dev) (p c s g : Nat) (y : Line) :
    canState (d.trouble p c s g) y = canState d y := by
  obtain ⟨m, t, h, hm⟩ := d.trouble_form p c s g
  rw [h]
  exact canState_of_agree hm (state_not_inTrouble y)

/-- A write of a register of another offset leaves STATE. -/
theorem canState_setLiv (d : Dev) (p : Nat) {f : Fld} (v : Nat) (y : Line) (h : f.off < 0x1000) (hf : f.off ≠ 0x900) :
    canState (d.setLiv p f v) y = canState d y := by
  refine Dev.liv_setLiv_other d v ?_
  unfold pageBase CANARY.STATE
  dsimp only
  omega

/-- A write of a word of another offset leaves STATE. -/
theorem canState_setWord (d : Dev) (p : Nat) {off : Nat} (v : Word) (y : Line) (h : off < 0x1000) (ho : off ≠ 0x900) :
    canState (d.setWord (pageBase p + off) v) y = canState d y := by
  refine Fld.at_wr_other _ _ v ?_
  unfold pageBase CANARY.STATE
  dsimp only
  omega

@[simp] theorem canState_setStatus (d : Dev) (p n : Nat) (b : Bool) (y : Line) :
    canState (d.setStatus p n b) y = canState d y := canState_setWord d p _ y (by decide) (by decide)

theorem canState_setPair (d : Dev) (p v : Nat) {lo hi : Nat} (y : Line) (hlo : lo < 0x1000 ∧ lo ≠ 0x900)
    (hhi : hi < 0x1000 ∧ hi ≠ 0x900) : canState (d.setPair p lo hi v) y = canState d y := by
  unfold Dev.setPair
  rw [canState_setWord _ p _ y hhi.1 hhi.2, canState_setWord _ p _ y hlo.1 hlo.2]

/-- A change of a line's own state leaves the registers, STATE among them. -/
@[simp] theorem canState_onCan (d : Dev) (x : Line) (f : Canary → Canary) (y : Line) :
    canState (d.onCan x f) y = canState d y := by
  unfold canState Dev.onCan
  rw [Dev.onLine_regs]

/-- The CANARY pages of the two lines are apart. -/
theorem pgCanary_inj {x y : Line} : pgCanary x = pgCanary y ↔ x = y := by
  cases x <;> cases y <;> decide

/-- STATE reads as the state that its line took; the other line's stays. -/
theorem canState_setCanState (d : Dev) (x y : Line) {st : Nat} (hst : st < 8) :
    canState (setCanState d x st) y = if y = x then st else canState d y := by
  unfold setCanState
  simp only [canState_onCan, canState_setStatus]
  split
  · next h =>
    subst h
    exact (Dev.liv_setLiv d (pgCanary y) CANARY.STATE st (by decide)).trans (Nat.mod_eq_of_lt hst)
  · next h =>
    have hp := mt pgCanary_inj.mp h
    refine Dev.liv_setLiv_other d st ?_
    unfold pageBase CANARY.STATE
    omega

-- ---- a line that goes dark --------------------------------------------------------------------------------------

theorem canState_goDark (d : Dev) (x y : Line) {st : Nat} (cause : Bool) (hst : st < 8) :
    canState (goDark d x st cause) y = if y = x then st else canState d y := by
  unfold goDark
  simp only [canState_onCan, canState_setStatus, canState_setCanState _ _ _ hst]

/-- The record of a cause leaves STATE. -/
@[simp] theorem canState_recordCause (d : Dev) (x y : Line) (code bits : Nat) :
    canState (recordCause d x code bits) y = canState d y := by
  unfold recordCause
  dsimp only
  rw [canState_setPair _ _ _ y (by decide) (by decide), canState_setPair _ _ _ y (by decide) (by decide),
    canState_setLiv _ _ _ y (by decide) (by decide), canState_setLiv _ _ _ y (by decide) (by decide)]

/-- A line takes a cause of scope line: it goes to LINE_OFF unless it is LATCHED (R83). -/
theorem canState_toLineOff (d : Dev) (x y : Line) (code bits : Nat) :
    canState (toLineOff d x code bits) y = if y = x then (if canState d x = 4 then 4 else 3) else canState d y := by
  unfold toLineOff
  split
  · next h =>
    split_ifs with hy h4
    · rw [hy, h4]
    · rw [hy]; exact h.resolve_right h4
    · rfl
  · next h =>
    rw [not_or] at h
    simp only [canState_event _ _ (show 4 < 24 by decide), canState_recordCause, canState_onCan,
      canState_goDark _ _ _ _ (show 3 < 8 by decide), if_neg h.2]

/-- A line takes an all-scope cause: it is LATCHED (R83). -/
theorem canState_toLatched (d : Dev) (x y : Line) (code bits : Nat) :
    canState (toLatched d x code bits) y = if y = x then 4 else canState d y := by
  unfold toLatched
  split
  · next h =>
    split_ifs with hy
    · rw [hy, h]
    · rfl
  · simp only [canState_event _ _ (show 5 < 24 by decide), canState_recordCause, canState_onCan,
      canState_goDark _ _ _ _ (show 4 < 8 by decide)]

-- ---- PAIRED -----------------------------------------------------------------------------------------------------

/-- The configuration of a line's copy 0 (R96). -/
def Dev.copyCfg (d : Dev) (y : Line) : RegMap := (d.line y).can.copy0.cfg

/-- A change of a Canary that keeps the configuration keeps that of both lines. -/
theorem copyCfg_onCan (d : Dev) (x : Line) (f : Canary → Canary) (hf : ∀ c, (f c).copy0.cfg = c.copy0.cfg) (y : Line) :
    (d.onCan x f).copyCfg y = d.copyCfg y := by
  cases x <;> cases y
  · exact hf _
  · rfl
  · rfl
  · exact hf _

/-- A line that takes a state keeps it. -/
theorem copyCfg_setCanState (d : Dev) (x y : Line) (st : Nat) : (setCanState d x st).copyCfg y = d.copyCfg y := by
  unfold setCanState
  rw [copyCfg_onCan] <;> intros <;> rfl

/-- So does a line that goes dark. -/
theorem copyCfg_goDark (d : Dev) (x y : Line) (st : Nat) (cause : Bool) :
    (goDark d x st cause).copyCfg y = d.copyCfg y := by
  unfold goDark
  rw [copyCfg_onCan]
  · exact copyCfg_setCanState d x y st
  · exact fun _ => rfl

/-- So does a line that takes a cause of scope line. -/
theorem copyCfg_toLineOff (d : Dev) (x y : Line) (code bits : Nat) :
    (toLineOff d x code bits).copyCfg y = d.copyCfg y := by
  unfold toLineOff
  split
  · rfl
  · rw [Dev.copyCfg, Dev.event_line, ← copyCfg_goDark d x y 3 true]
    refine copyCfg_onCan _ x _ ?_ y
    exact fun _ => rfl

/-- PAIRED stands in the copies' configuration. -/
theorem paired_congr {d e : Dev} (h : ∀ y, d.copyCfg y = e.copyCfg y) : paired d = paired e := by
  unfold paired canCfg
  exact congrArg₂ (fun a b => liv a (pgCanary .a) CANARY.PAIRED == 1 && liv b (pgCanary .b) CANARY.PAIRED == 1)
    (h .a) (h .b)

-- ---- a cause by its scope -----------------------------------------------------------------------------------------

/-- The pages of a cause's lines have counted it (R83). -/
theorem causePair_lt (code : Nat) : causePair code < 24 := by
  unfold causePair
  split <;> decide

theorem countCause_keeps {α : Type} (g : Dev → α) (hg : ∀ d p n, n < 24 → g (d.event p n) = g d) (d : Dev)
    (lines : List Line) (code : Nat) : g (countCause d lines code) = g d := by
  unfold countCause
  split
  · induction lines generalizing d with
    | nil => rfl
    | cons y ys ih => exact (ih _).trans (hg d _ _ (causePair_lt code))
  · rfl

/-- A cause is counted and logged, before any line takes it (R83). -/
def Dev.reported (d : Dev) (lines : List Line) (code : Nat) : Dev :=
  (countCause d lines code).trouble (pgCanary (lines.headD .a)) (causePair code) sevCritical
    (code + lineBits lines * 256)

@[simp] theorem canState_reported (d : Dev) (lines : List Line) (code : Nat) (y : Line) :
    canState (d.reported lines code) y = canState d y :=
  (canState_trouble _ _ _ _ _ y).trans
    (countCause_keeps (fun d => canState d y) (fun d p _ hn => canState_event d p hn y) d lines code)

@[simp] theorem line_reported (d : Dev) (lines : List Line) (code : Nat) (y : Line) :
    (d.reported lines code).line y = d.line y :=
  (Dev.trouble_line _ _ _ _ _ y).trans
    (countCause_keeps (fun d => d.line y) (fun d p n _ => Dev.event_line d p n y) d lines code)

/-- What a cause does once it is reported, with EMIT on, by its scope. -/
theorem raiseCause_on {d : Dev} (lines : List Line) (code : Nat) (hd : d.domainOn 10 = true) :
    raiseCause d lines code =
      let e := d.reported lines code
      let x := lines.headD .a
      let bits := lineBits lines
      if code = 15 then
        if canState e x = 1 ∨ canState e x = 2 then recordCause (goDark e x 0 true) x code bits else e
      else if lineScope code then
        if paired (toLineOff e x code bits) then toLineOff (toLineOff e x code bits) x.other code bits
        else toLineOff e x code bits
      else toLatched (toLatched e .a code bits) .b code bits := if_neg (by simp [hd])

/-- An all-scope cause reaches both lines. -/
theorem raiseCause_all {d : Dev} (lines : List Line) {code : Nat} (hd : d.domainOn 10 = true)
    (hs : lineScope code = false) :
    raiseCause d lines code =
      toLatched (toLatched (d.reported lines code) .a code (lineBits lines)) .b code (lineBits lines) := by
  have h15 : code ≠ 15 := by rintro rfl; exact absurd hs (by decide)
  rw [raiseCause_on lines code hd]
  dsimp only
  rw [if_neg h15, if_neg (by simp [hs])]

/-- BREAK and REFLECTION reach their own line, and the other where the two are paired. -/
theorem raiseCause_line {d : Dev} (x : Line) {code : Nat} (hd : d.domainOn 10 = true) (hc : code = 1 ∨ code = 2) :
    raiseCause d [x] code =
      let e := toLineOff (d.reported [x] code) x code (lineBits [x])
      if paired d then toLineOff e x.other code (lineBits [x]) else e := by
  have h15 : code ≠ 15 := by omega
  have hs : lineScope code = true := by rcases hc with rfl | rfl <;> rfl
  have hp : paired (toLineOff (d.reported [x] code) x code (lineBits [x])) = paired d :=
    paired_congr fun y => (copyCfg_toLineOff _ x y _ _).trans (by unfold Dev.copyCfg; rw [line_reported])
  rw [raiseCause_on [x] code hd]
  dsimp only [List.headD_cons]
  rw [if_neg h15, if_pos hs, hp]

/-- SERVICE_END takes its own line to OFF, where it is lit (R97). -/
theorem raiseCause_serviceEnd {d : Dev} (x : Line) (hd : d.domainOn 10 = true) :
    raiseCause d [x] 15 =
      if canState d x = 1 ∨ canState d x = 2 then
        recordCause (goDark (d.reported [x] 15) x 0 true) x 15 (lineBits [x])
      else d.reported [x] 15 := by
  rw [raiseCause_on [x] 15 hd, ← canState_reported d [x] 15 x]
  rfl

/-- The states of the lines after an all-scope cause. -/
theorem canState_raiseCause_all {d : Dev} (lines : List Line) {code : Nat} (y : Line) (hd : d.domainOn 10 = true)
    (hs : lineScope code = false) : canState (raiseCause d lines code) y = 4 := by
  rw [raiseCause_all lines hd hs]
  cases y <;> simp [canState_toLatched]

/-- The states of the lines after a cause of scope line. -/
theorem canState_raiseCause_line {d : Dev} (x y : Line) {code : Nat} (hd : d.domainOn 10 = true)
    (hc : code = 1 ∨ code = 2) :
    canState (raiseCause d [x] code) y =
      if y = x ∨ paired d = true then (if canState d y = 4 then 4 else 3) else canState d y := by
  rw [raiseCause_line x hd hc]
  cases hp : paired d <;> cases x <;> cases y <;> simp [canState_toLineOff, Line.other]

/-- A cause leaves a LATCHED line LATCHED. -/
theorem canState_raiseCause_latched {d : Dev} {y : Line} (z : Line) (code : Nat) (hd : d.domainOn 10 = true)
    (h : canState d y = 4) : canState (raiseCause d [z] code) y = 4 := by
  by_cases hc : code = 1 ∨ code = 2
  · rw [canState_raiseCause_line z y hd hc, h]
    simp
  · by_cases h15 : code = 15
    · subst h15
      rw [raiseCause_serviceEnd z hd]
      split
      · next hlit =>
        rw [canState_recordCause, canState_goDark _ _ _ _ (by decide), if_neg, canState_reported, h]
        rintro rfl
        omega
      · rw [canState_reported, h]
    · refine canState_raiseCause_all [z] y hd ?_
      simp only [lineScope, Bool.or_eq_false_iff, beq_eq_false_iff_ne]
      omega

/-- Settles O24: by the scope of the cause. -/
theorem causesLatchTheLines : Obligations.CausesLatchTheLines := by
  unfold Obligations.CausesLatchTheLines
  intro d x code hd
  refine ⟨fun hs => ⟨canState_raiseCause_all [x] .a hd hs, canState_raiseCause_all [x] .b hd hs⟩,
    fun hc => ⟨?_, fun hp => ?_, fun hp => ?_⟩, fun y z c' h => canState_raiseCause_latched z c' hd h⟩
  · rw [canState_raiseCause_line x x hd hc, if_pos (.inl rfl)]
  · rw [canState_raiseCause_line x x.other hd hc, if_neg]
    cases x <;> simp [Line.other, hp]
  · rw [canState_raiseCause_line x x.other hd hc, if_pos (.inr hp)]

end Sys2Proof.Machine
end

section
/-!
PROOFS. Gates and outputs that go off, and the causes of the interlock, the core clock and the two copies (R77, R83, R85
to R87, R96, R455).
-/
namespace Sys2Proof.Machine

/-- A command lands on a device to which its effect leads. -/
theorem State.lands_of_effect {s : State} {c : Instr} {d e : Dev} (h : exec c s = done s d) (he : d = e) :
    s.lands c e := h.trans (done_eq_done he)

-- ---- outputs off (R77, R85) -------------------------------------------------------------------------------------

/-- Every output of a line is low from 12 cycles after the decision in cycle t (R85). -/
def Dev.outputsOff (d : Dev) (y : Line) (t : Nat) : Dev :=
  ((d.advanceTo (t + 12)).onCells y fun c =>
    { c with permit := false, soaOn := false, ramOn := false, seedOn := false, boostOn := false }).onCan y fun c =>
      undrive { c with cut := none, diagSlot := none } (t + 12)

/-- What becomes of a line with a decision due, or none. -/
def Dev.cutLine (d : Dev) (y : Line) (e : Dev) : Prop :=
  ((d.line y).can.cut = none → e = d) ∧ ∀ t, (d.line y).can.cut = some t → e = d.outputsOff y t

theorem cutLine_iff {d e : Dev} {y : Line} : d.cutLine y e ↔ e = gatesOffLine d y := by
  unfold Dev.cutLine gatesOffLine
  cases h : (d.line y).can.cut with
  | none => simp
  | some t => simp [Dev.outputsOff]

-- ---- the interlock and the core clock (R86, R87) ------------------------------------------------------------------

/-- The level of INTERLOCK_n, from the present slow edge. -/
def Dev.interlocked (d : Dev) (high : Bool) : Dev :=
  { d with pins := { d.pins with interlock := high, interlockFrom := d.slow } }

/-- A low interlock that a core-clock edge captures shows on both pages, and two cycles later raises its cause (R86). -/
theorem interlockOpen_on {d : Dev} (hd : d.domainOn 10 = true) (hc : d.clk.coreOn = true) :
    interlockOpen d =
      raiseCause (((d.setStatus (pgCanary .a) 9 true).setStatus (pgCanary .b) 9 true).advance 2) [.a, .b] 12 :=
  if_pos (by simp [hd, hc])

/-- With EMIT off or no core clock nothing captures it. -/
theorem interlockOpen_off {d : Dev} (h : d.domainOn 10 = false ∨ d.clk.coreOn = false) : interlockOpen d = d :=
  if_neg (by rcases h with h | h <;> simp [h])

/-- The cause of a core clock that has returned (R87). -/
def Dev.clockBack (d : Dev) : Dev :=
  raiseCause { d with clk := { d.clk with coreOn := true, lost := false } } [.a, .b] 13

/-- A clock that returns raises CLOCK_LOSS, then captures an interlock that fell meanwhile (R86, R87). -/
theorem clockReturn_lost {d : Dev} (h : d.clk.lost = true) :
    clockReturn d =
      if !d.clockBack.pins.interlock && !d.clockBack.status (pgCanary .a) 9 then interlockOpen d.clockBack
      else d.clockBack := if_pos h

/-- An interlock that is high, shown already, or that nothing captures adds nothing. -/
theorem clockReturn_quiet {d : Dev} (h : d.clk.lost = true)
    (hr : d.clockBack.pins.interlock = true ∨ d.clockBack.status (pgCanary .a) 9 = true ∨
      d.clockBack.domainOn 10 = false ∨ d.clockBack.clk.coreOn = false) : clockReturn d = d.clockBack := by
  rw [clockReturn_lost h]
  split
  · next hlow =>
    rw [Bool.and_eq_true, Bool.not_eq_true', Bool.not_eq_true'] at hlow
    obtain ⟨hlock, hshown⟩ := hlow
    exact interlockOpen_off (by simpa [hlock, hshown] using hr)
  · rfl

/-- An interlock that fell while no edge captured it is captured with the clock's return. -/
theorem clockReturn_fallen {d : Dev} (h : d.clk.lost = true) (hlock : d.clockBack.pins.interlock = false)
    (hshown : d.clockBack.status (pgCanary .a) 9 = false) : clockReturn d = interlockOpen d.clockBack := by
  rw [clockReturn_lost h, if_pos (by simp [hlock, hshown])]

-- ---- the two copies (R96) -----------------------------------------------------------------------------------------

/-- A copy with a word found to hold v; offset 0x900 is its state. -/
def Copy.found (x : Line) (off : Nat) (v : Word) (c : Copy) : Copy :=
  if off = 0x900 then { c with state := v.toNat } else { c with cfg := wr c.cfg (pageBase (pgCanary x) + off) v }

/-- The device with a word of one of a line's copies found to hold v. -/
def Dev.copyFound (d : Dev) (x : Line) (second : Bool) (off : Nat) (v : Word) : Dev :=
  d.onCan x fun c =>
    if second then { c with copy1 := c.copy1.found x off v } else { c with copy0 := c.copy0.found x off v }

/-- The cycle after, with COPY_FAULT shown. -/
def Dev.copyFault (d : Dev) (x : Line) : Dev := (d.advance 1).setStatus (pgCanary x) 10 true

/-- With EMIT on a word found in a copy raises COPY_MISMATCH where the copies then differ; CFG_FAULT is counted and
logged as it sets. -/
theorem copyMismatch_on {x : Line} {second : Bool} {off : Nat} {v : Word} {d : Dev} (hd : d.domainOn 10 = true) :
    copyMismatch x second off v d =
      let e := d.copyFound x second off v
      let m := e.copyFault x
      if (e.line x).can.copy0 = (e.line x).can.copy1 then e
      else raiseCause (if m.status (pgCanary x) 2 then m
        else (m.setStatus (pgCanary x) 2 true).eventLog (pgCanary x) 1 sevError off) [x] 11 := if_neg (by simp [hd])

/-- Settles O23: each gate, decision and input by whether it is due, and by EMIT and the core clock. -/
theorem safetyInputsTurnOutputsOff : Obligations.SafetyInputsTurnOutputsOff := by
  unfold Obligations.SafetyInputsTurnOutputsOff
  refine ⟨fun s x => ⟨fun h => ?_, fun h => ?_, fun h => ?_, fun h => ?_, fun d' hafter => ?_, fun h => ?_, fun h => ?_,
    fun h => ?_, fun h => ?_⟩, fun s x second off v => ⟨fun hd hc => ?_, fun h => ?_, fun h => ?_,
      fun h => ⟨fun hr => ?_, fun hlock hshown hd hc => ?_⟩, fun h => ?_, fun hd => ⟨fun hsame => ?_,
        fun hdiff => ⟨fun hclear => ?_, fun hset => ?_⟩⟩⟩⟩
  · exact State.lands_of_effect (exec_gateEnd x .soa s) (if_pos h)
  · exact State.lands_of_effect (exec_gateEnd x .raman s) (if_pos h)
  · exact State.lands_of_effect (exec_gateEnd x .soa s) (if_neg (ne_true_of_eq_false h))
  · exact State.lands_of_effect (exec_gateEnd x .raman s) (if_neg (ne_true_of_eq_false h))
  · have hd' : d' = gatesOffLine s.dev .a := cutLine_iff.mp hafter
    refine ⟨gatesOffLine d' .b, cutLine_iff.mpr rfl, State.lands_of_effect (exec_gatesOff s) ?_⟩
    rw [hd', gatesOff]
  · exact State.lands_of_effect (exec_clockLoss s) (if_neg (ne_true_of_eq_false h))
  · exact State.lands_of_effect (exec_clockLoss s) (if_pos h)
  · exact State.lands_of_effect (exec_interlockRise s) (if_neg (ne_true_of_eq_false h))
  · exact State.lands_of_effect (exec_interlockRise s) (if_pos h)
  · exact State.lands_of_effect (exec_interlockFall s) (interlockOpen_on (d := s.dev.interlocked false) hd hc)
  · exact State.lands_of_effect (exec_interlockFall s) (interlockOpen_off (d := s.dev.interlocked false) h)
  · exact State.lands_of_effect (exec_clockReturn s) (if_neg (ne_true_of_eq_false h))
  · exact State.lands_of_effect (exec_clockReturn s) (clockReturn_quiet h hr)
  · exact State.lands_of_effect (exec_clockReturn s)
      ((clockReturn_fallen h hlock hshown).trans (interlockOpen_on hd hc))
  · exact State.lands_of_effect (exec_copyMismatch x second off v s) (if_pos (by simp [h]))
  · exact State.lands_of_effect (exec_copyMismatch x second off v s) ((copyMismatch_on hd).trans (if_pos hsame))
  · refine State.lands_of_effect (exec_copyMismatch x second off v s)
      ((copyMismatch_on hd).trans ((if_neg hdiff).trans ?_))
    exact congrArg (raiseCause · [x] 11) (if_neg (ne_true_of_eq_false hclear))
  · refine State.lands_of_effect (exec_copyMismatch x second off v s)
      ((copyMismatch_on hd).trans ((if_neg hdiff).trans ?_))
    exact congrArg (raiseCause · [x] 11) (if_pos hset)

end Sys2Proof.Machine
end

section
/-!
PROOFS. The colour loops (R79 to R81): thermistor codes, loss of lock, and a run of a loop by whether it is in fault.
-/
namespace Sys2Proof.Machine

-- ---- a loop changed ------------------------------------------------------------------------------------------------

@[simp] theorem Dev.onLoop_regs (d : Dev) (x : Line) (l : Laser) (f : ColourLoop → ColourLoop) :
    (d.onLoop x l f).regs = d.regs := Dev.onLine_regs _ _ _

@[simp] theorem loopOf_onLoop (d : Dev) (x : Line) (l : Laser) (f : ColourLoop → ColourLoop) :
    loopOf (d.onLoop x l f) x l = f (loopOf d x l) := by
  cases x <;> cases l <;> rfl

/-- A change of the Canary leaves the loops. -/
@[simp] theorem loopOf_onCan (d : Dev) (x : Line) (l : Laser) (f : Canary → Canary) :
    loopOf (d.onCan x f) x l = loopOf d x l := by
  cases x <;> cases l <;> rfl

@[simp] theorem Dev.onCan_regs (d : Dev) (x : Line) (f : Canary → Canary) : (d.onCan x f).regs = d.regs :=
  Dev.onLine_regs _ _ _

/-- A change that is made or not is a change. -/
theorem Dev.ite_onCan (c : Prop) [Decidable c] (d : Dev) (x : Line) (f : Canary → Canary) :
    (if c then d.onCan x f else d) = d.onCan x (if c then f else id) := by
  split
  · rfl
  · cases x <;> rfl

-- ---- a run (R80, R81) -------------------------------------------------------------------------------------------

/-- A run of a loop at its cycle: the readings are taken, the next run is due 312,500 cycles later. -/
def Dev.runStarts (d : Dev) (x : Line) (l : Laser) : Dev :=
  (d.advanceTo (loopOf d x l).nextRun).onLoop x l fun r =>
    { r with sum := 0, count := 0, nextRun := (d.advanceTo (loopOf d x l).nextRun).clk.tick + 312500 }

theorem Dev.runStarts_regs (d : Dev) (x : Line) (l : Laser) :
    (d.runStarts x l).regs = (d.advanceTo (loopOf d x l).nextRun).regs := Dev.onLoop_regs _ _ _ _

theorem Dev.runStarts_status (d : Dev) (x : Line) (l : Laser) (p n : Nat) :
    (d.runStarts x l).status p n = (d.advanceTo (loopOf d x l).nextRun).status p n := by
  unfold Dev.status
  rw [Dev.runStarts_regs]

theorem Dev.runStarts_pwr (d : Dev) (x : Line) (l : Laser) : (d.runStarts x l).pwr = d.pwr :=
  (Dev.onLine_pwr _ _ _).trans (Dev.advanceTo_pwr d _)

theorem loopOf_runStarts (d : Dev) (x : Line) (l : Laser) :
    loopOf (d.runStarts x l) x l =
      { loopOf d x l with
        sum := 0, count := 0, nextRun := (d.advanceTo (loopOf d x l).nextRun).clk.tick + 312500 } := by
  rw [Dev.runStarts, loopOf_onLoop]
  cases l <;> simp only [loopOf, Dev.advanceTo_line]

/-- A run of a loop in fault, or of a hot device, only zeroes the drive (R79, R80). -/
theorem colourLoopRun_zeroes {x : Line} {l : Laser} {d : Dev} (hd : d.domainOn 10 = true)
    (h : d.pwr.hot = true ∨ (d.advanceTo (loopOf d x l).nextRun).status (pgEmit x) (12 + laserIdx l) = true) :
    colourLoopRun x l d = (d.runStarts x l).setLiv (pgEmit x) (EMIT.DUTY (laserIdx l)) 0 := by
  refine (if_neg (by simp [hd])).trans (if_pos (Bool.or_eq_true_iff.mpr ?_))
  refine h.symm.imp (fun h => ?_) (fun h => ?_)
  · exact (Dev.runStarts_status d x l _ _).trans h
  · exact (congrArg (·.hot) (Dev.runStarts_pwr d x l)).trans h

/-- What a run shows: T, the set point in force, the drive, the compensation temperature and whether it is stale. -/
def Dev.loopShows (d : Dev) (x : Line) (l : Laser) (t set duty : Int) (comp : Int × Bool) : Dev :=
  ((((d.setLivS (pgEmit x) (EMIT.TEMP (laserIdx l)) t).setLivS (pgEmit x) (EMIT.SET_EFF (laserIdx l)) set).setLivS
    (pgEmit x) (EMIT.DUTY (laserIdx l)) duty).setLivS (pgEmit x) (EMIT.T_COMP (laserIdx l)) comp.1).setStatus (pgEmit x)
      (10 + laserIdx l) comp.2

/-- What a run shows leaves LOCKED. -/
theorem laserLocked_loopShows (d : Dev) (x : Line) (l : Laser) (t set duty : Int) (comp : Int × Bool) :
    laserLocked (d.loopShows x l t set duty comp) x (laserIdx l) = laserLocked d x (laserIdx l) := by
  have hstatus : ∀ (e : Dev) (f : Fld) (v : Int), f.off ≠ 0x010 →
      (e.setLivS (pgEmit x) f v).status (pgEmit x) (8 + laserIdx l) = e.status (pgEmit x) (8 + laserIdx l) :=
    fun e f v hf => Dev.status_setLiv e _ (by omega)
  unfold laserLocked Dev.loopShows
  rw [Dev.status_setStatus_apart, hstatus, hstatus, hstatus, hstatus]
  all_goals cases l <;> decide

/-- What a run shows leaves the loop. -/
theorem loopOf_loopShows (d : Dev) (x : Line) (l : Laser) (t set duty : Int) (comp : Int × Bool) :
    loopOf (d.loopShows x l t set duty comp) x l = loopOf d x l := by
  cases x <;> cases l <;> rfl

/-- The drive that a run shows (R80). -/
theorem livS_duty_loopShows (d : Dev) (x : Line) (l : Laser) (t set duty : Int) (comp : Int × Bool) :
    livS (d.loopShows x l t set duty comp).regs (pgEmit x) (EMIT.DUTY (laserIdx l)) =
      signed 32 (unsigned 32 duty) := by
  have hword : liv (d.loopShows x l t set duty comp).regs (pgEmit x) (EMIT.DUTY (laserIdx l)) =
      unsigned 32 duty % 2 ^ 32 := by
    unfold Dev.loopShows
    refine (Fld.at_wr_other _ _ _ ?_).trans
      ((Dev.liv_setLiv_other _ _ ?_).trans (Dev.liv_setLiv _ _ _ _ (show 31 < 32 by decide)))
    · simp only [EMIT.DUTY, pageBase]
      omega
    · simp only [EMIT.DUTY, EMIT.T_COMP, pageBase]
      omega
  unfold livS
  rw [hword]
  simp only [signed, EMIT.DUTY, Fld.width, Nat.mod_mod]

/-- The drive of a run without compensation, of a loop with reading `r` taken and the registers `m`: u of R80 within
±DUTY_MAX. -/
def driveOf (m : RegMap) (x : Line) (l : Laser) (r : ColourLoop) : Int :=
  let i := laserIdx l
  let e := roundHalfAway r.sum r.count - actS m (pgEmit x) (EMIT.TEC_SET.SET i)
  let dmax : Int := act m (pgEmit x) (EMIT.LIMIT.DUTY_MAX i)
  clamp (-dmax) dmax (asr ((act m (pgEmit x) (EMIT.LOOP.KP i) : Int) * e + asr r.integ 16) 8)

/-- A run that ends short of the 2,000 runs of a lock does not lock (R81). -/
theorem not_locks {n : Nat} {inWin : Prop} [Decidable inWin] (h : n + 1 < 2000) :
    decide (2000 ≤ if inWin then n + 1 else 0) = false := by
  rw [decide_eq_false_iff_not]
  split <;> omega

/-- A run of a loop that is neither in fault nor locked, with readings taken and no compensation, shows its drive;
beyond that only the loop's counts and the probe's wait for the lock move. -/
theorem colourLoopRun_drives {x : Line} {l : Laser} {d : Dev} (hd : d.domainOn 10 = true) (hhot : d.pwr.hot = false)
    (hfault : (d.advanceTo (loopOf d x l).nextRun).status (pgEmit x) (12 + laserIdx l) = false)
    (hcount : (loopOf d x l).count ≠ 0)
    (hsrc : act (d.advanceTo (loopOf d x l).nextRun).regs (pgEmit x) (EMIT.TEC_COMP.COMP_SRC (laserIdx l)) = 31)
    (hlock : laserLocked (d.advanceTo (loopOf d x l).nextRun) x (laserIdx l) = false)
    (hruns : (loopOf d x l).inRuns + 1 < 2000) (hwas : (loopOf d x l).wasLocked = false) :
    ∃ t set g h,
      colourLoopRun x l d =
        (((d.runStarts x l).loopShows x l t set (driveOf (d.runStarts x l).regs x l (loopOf d x l))
          (6400, false)).onLoop x l g).onCan x h ∧
      ∀ r, (g r).nextRun = r.nextRun ∧ (g r).count = r.count := by
  rw [← Dev.runStarts_status] at hfault
  rw [← Dev.runStarts_regs] at hsrc
  replace hlock := fun t set duty => (laserLocked_loopShows (d.runStarts x l) x l t set duty (6400, false)).trans
    ((Dev.runStarts_status d x l _ _).trans hlock)
  rw [← Dev.runStarts_pwr d x l] at hhot
  have hcomp : compTemp (d.runStarts x l) x l = (6400, false) := if_pos hsrc
  unfold Dev.loopShows at hlock ⊢
  generalize he : d.runStarts x l = e at *
  unfold Dev.runStarts at he
  simp only [colourLoopRun, hd, he, hfault, hhot, hcount, hcomp, hsrc, hlock, hwas, not_locks hruns, decide_eq_true_eq,
    add_zero, Bool.or_self, Bool.not_true, Bool.not_false, Bool.and_false, Bool.false_and, Bool.false_eq_true, if_true,
    if_false, if_neg (show ¬ (0 : Nat) = 200 by decide), Dev.ite_onCan]
  exact ⟨_, _, _, _, rfl, fun r => ⟨rfl, rfl⟩⟩

-- ---- the settling leaves the loops ----------------------------------------------------------------------------------

/-- The settling of the outputs leaves the registers of EMIT. -/
theorem settle_livS_emit (d : Dev) (x : Line) {f : Fld} (hf : f.off < 0x1000) :
    livS (settle d).regs (pgEmit x) f = livS d.regs (pgEmit x) f := by
  obtain ⟨m, t, hr, hm⟩ := d.reportDropped_form
  have hpage : (pageBase (pgEmit x) + f.off) / 4096 = pgEmit x := by
    unfold pageBase
    omega
  have hrd : rd (settle d).regs (pageBase (pgEmit x) + f.off) = rd d.regs (pageBase (pgEmit x) + f.off) := by
    refine settle_rd ?_ (not_inPending_page (by cases x <;> decide) hf)
    rw [hr]
    refine hm _ ?_
    unfold inTrouble
    rw [hpage]
    cases x <;> decide
  unfold livS liv Fld.at
  rw [hrd]

/-- The settling of the outputs leaves the colour loops. -/
theorem settle_loopOf (d : Dev) (x : Line) (l : Laser) : loopOf (settle d) x l = loopOf d x l := by
  obtain ⟨e, ⟨m, new, rfl, -⟩, hs⟩ := settle_form d
  obtain ⟨m', t, hr, -⟩ := d.reportDropped_form
  rw [hs, settleOutputs_eq, hr]
  cases x <;> cases l <;> rfl

-- ---- thermistors and locks (R79, R81) -------------------------------------------------------------------------------

/-- Settles O25: a sample by its code and the fault, a run by the fault and the heat, LOCK_FAIL by the lock. -/
theorem colourLoopsRun : Obligations.ColourLoopsRun := by
  unfold Obligations.ColourLoopsRun
  refine ⟨fun s x l code => ⟨fun hoff => ⟨?_, ?_⟩, fun hd hok => ?_, fun hd hbad hset => ?_, fun hd hbad hclear => ?_,
    fun hd h => ?_, fun h => ?_, fun n hn => ⟨fun h => ?_, fun h => ?_⟩⟩,
    fun s x l hd hhot hfault hcount hsrc hlock hruns hwas => ?_⟩
  · exact State.lands_of_effect (exec_thermistorSample x l code s) (if_pos (by simpa using hoff))
  · exact State.lands_of_effect (exec_colourLoopRun x l s) (if_pos (by simpa using hoff))
  · exact State.lands_of_effect (exec_thermistorSample x l code s) ((if_neg (by simp [hd])).trans (if_neg hok))
  · exact State.lands_of_effect (exec_thermistorSample x l code s)
      ((if_neg (by simp [hd])).trans ((if_pos hbad).trans (if_pos hset)))
  · exact State.lands_of_effect (exec_thermistorSample x l code s)
      ((if_neg (by simp [hd])).trans ((if_pos hbad).trans (if_neg (ne_true_of_eq_false hclear))))
  · exact State.lands_of_effect (exec_colourLoopRun x l s) (colourLoopRun_zeroes hd h)
  · refine State.lands_of_effect (exec_lockFail x l s) ?_
    simp only [lockFail, h]
  · refine State.lands_of_effect (exec_lockFail x l s) ?_
    simp only [lockFail, hn]
    exact if_neg (ne_true_of_eq_false h)
  · refine State.lands_of_effect (exec_lockFail x l s) ?_
    simp only [lockFail, hn]
    exact if_pos h
  · obtain ⟨t, set, g, h, hrun, hkeeps⟩ := colourLoopRun_drives hd hhot hfault hcount hsrc hlock hruns hwas
    refine ⟨_, exec_colourLoopRun x l s, ?_⟩
    dsimp only
    rw [settle_livS_emit _ _ (by cases l <;> decide), settle_loopOf, hrun, Dev.onCan_regs, Dev.onLoop_regs,
      livS_duty_loopShows, Dev.runStarts_regs, loopOf_onCan, loopOf_onLoop, loopOf_loopShows]
    obtain ⟨hnext, htaken⟩ := hkeeps (loopOf (s.dev.runStarts x l) x l)
    rw [hnext, htaken, loopOf_runStarts]
    exact ⟨rfl, rfl, rfl⟩

end Sys2Proof.Machine
end

section
/-!
PROOFS. The sense checks and the checks of lit slots (R78, R83, R85, R88 to R90, R92, R96): each by the thresholds of
the two copies.
-/
namespace Sys2Proof.Machine

-- ---- the two copies decide (R96) ----------------------------------------------------------------------------------

/-- The configurations of a line's two copies. -/
def Dev.copies (d : Dev) (x : Line) : List RegMap := [(d.line x).can.copy0.cfg, (d.line x).can.copy1.cfg]

/-- A verdict that either copy forms. -/
theorem eitherCopy_eq (d : Dev) (x : Line) (verdict : RegMap → Bool) :
    eitherCopy d x verdict = (d.copies x).any verdict := by
  simp [eitherCopy, Dev.copies]

/-- Time that passes leaves the copies. -/
theorem copies_advanceTo (d : Dev) (x : Line) (t : Nat) : (d.advanceTo t).copies x = d.copies x := by
  unfold Dev.copies
  rw [Dev.advanceTo_line]

/-- So does a change of the Canary that does not touch them. -/
theorem copies_onCan (d : Dev) (x : Line) (f : Canary → Canary)
    (h : ∀ c, (f c).copy0 = c.copy0 ∧ (f c).copy1 = c.copy1) : (d.onCan x f).copies x = d.copies x := by
  obtain ⟨h0, h1⟩ := h (d.line x).can
  unfold Dev.copies Dev.onCan
  simp only [Dev.onLine_line, h0, h1]

-- ---- sense checks (R78) -------------------------------------------------------------------------------------------

/-- A driven emitter's reading against its window in some configurations. -/
def windowBy (ms : List RegMap) (x : Line) (i mV : Nat) (d : Dev) : Dev :=
  if ms.any fun m => mV < liv m (pgCanary x) (CANARY.SENSE.SNS_MIN i) then senseFails d x 5
  else if ms.any fun m => liv m (pgCanary x) (CANARY.SENSE.SNS_MAX i) < mV then senseFails d x 6
  else d

theorem windowCheck_eq (d : Dev) (x : Line) (i mV : Nat) : windowCheck d x i mV = windowBy (d.copies x) x i mV d := by
  simp only [windowCheck, senseLow, senseHigh, eitherCopy_eq, windowBy]

/-- Whether an emitter has been driven, or not driven, for 32,768 cycles with EMIT on (R78). -/
def steadyReading (d : Dev) (x : Line) (e : Emitter) : Prop :=
  d.domainOn 10 = true ∧ ((d.line x).can.drive.getD (emitterIdx e) (false, 0)).2 + 32768 ≤ d.clk.tick

/-- Before that a reading is not judged. -/
theorem senseCheck_early {x : Line} {e : Emitter} {mV : Nat} {d : Dev}
    (h : d.domainOn 10 = false ∨ d.clk.tick < ((d.line x).can.drive.getD (emitterIdx e) (false, 0)).2 + 32768) :
    senseCheck x e mV d = d := by
  unfold senseCheck
  split
  · rfl
  · next hd => exact if_pos (h.resolve_left (by simpa using hd))

/-- After it a driven emitter is judged by its window where it is steady, and one that is not driven is looked for as
stuck on. -/
theorem senseCheck_steady {x : Line} {e : Emitter} {mV : Nat} {d : Dev} (h : steadyReading d x e) :
    senseCheck x e mV d =
      let i := emitterIdx e
      let high := senseAbove d x i mV
      let d' := d.onCan x fun c => { c with stuckOn := c.stuckOn.set i high }
      if ((d.line x).can.drive.getD i (false, 0)).1 then if i = 0 ∨ i = 2 then windowCheck d x i mV else d
      else if high && !(d.line x).can.stuckOn.getD i false then raiseAtBall d' x 7 else d' := by
  obtain ⟨hd, ht⟩ := h
  exact (if_neg (by simp [hd])).trans (if_neg (Nat.not_lt.mpr ht))

/-- The check of a gate is due where the gate is open, no diagnostic pulse, and of at least 125 cycles (R78). -/
theorem gateChecked_iff {on diag : Bool} {start stop : Nat} :
    (on && !diag && decide (start + 125 ≤ stop)) = true ↔ ¬ (on = false ∨ diag = true ∨ stop < start + 125) := by
  cases on <;> cases diag <;> simp

/-- A gate's reading against the window of its emitter. -/
theorem windowCheck_gated (d : Dev) (x : Line) (t i mV : Nat) (clear : Canary → Canary)
    (h : ∀ c, (clear c).copy0 = c.copy0 ∧ (clear c).copy1 = c.copy1) :
    windowCheck ((d.advanceTo t).onCan x clear) x i mV =
      windowBy (d.copies x) x i mV ((d.advanceTo t).onCan x clear) := by
  rw [windowCheck_eq, copies_onCan _ x clear h, copies_advanceTo]

-- ---- diagnostic pulses (R92) --------------------------------------------------------------------------------------

/-- No pulse of a gate in the diagnostic slot, no check. -/
theorem diagSample_none {x : Line} {g : Gate} {mV : Nat} {d : Dev} (h : (d.line x).can.diagSlot = none) :
    diagSample x g mV d = d := by
  simp only [diagSample, h]

/-- The SOA's pulse is checked 120 cycles into the slot. -/
theorem diagSample_soa {x : Line} {mV t : Nat} {d : Dev} (ht : (d.line x).can.diagSlot = some t) :
    diagSample x .soa mV d =
      if (d.line x).can.diagSoa then
        if (d.copies x).any fun m => mV < liv m (pgCanary x) CANARY.DIAG_SNS.DIAG_SNS_SOA then
          raiseAtBall (d.advanceTo (t + 120)) x 8
        else d.advanceTo (t + 120)
      else d := by
  simp only [diagSample, ht, eitherCopy_eq, copies_advanceTo]

/-- The Raman laser's, 120 cycles into the pulse that follows. -/
theorem diagSample_raman {x : Line} {mV t : Nat} {d : Dev} (ht : (d.line x).can.diagSlot = some t) :
    diagSample x .raman mV d =
      if (d.line x).can.diagRam then
        if (d.copies x).any fun m => mV < liv m (pgCanary x) CANARY.DIAG_SNS.DIAG_SNS_RAM then
          raiseAtBall (d.advanceTo (t + 370)) x 8
        else d.advanceTo (t + 370)
      else d := by
  simp only [diagSample, ht, eitherCopy_eq, copies_advanceTo]

-- ---- MON_OUT and the witness (R83, R88) ---------------------------------------------------------------------------

/-- MON_OUT at a level, with EMIT on: STUCK_LIGHT is looked for, then OVERPOWER (R83). -/
theorem monOutCrossing_on {x : Line} {mV : Nat} {d : Dev} (hd : d.domainOn 10 = true) :
    monOutCrossing x mV d =
      let stuck : Bool := !canLit d x && (d.line x).can.darkFrom + 6250000 ≤ d.clk.tick &&
        (d.copies x).any fun m => liv m (pgCanary x) CANARY.OUT.DARK_MAX < mV
      let e := d.onCan x fun c => { c with stuckLight := stuck }
      if (d.copies x).any fun m => liv m (pgCanary x) CANARY.OUT.OUT_MAX < mV then raiseAtBall e x 3
      else if stuck then raiseAtBall e x 4
      else e := by
  simp only [monOutCrossing, hd, Bool.not_true, Bool.false_eq_true, if_false, eitherCopy_eq]
  rw [copies_onCan]
  exact fun _ => ⟨rfl, rfl⟩

/-- A slot with its witness verdict fallen and its count shown (R88). -/
def Dev.witnessed (d : Dev) (x : Line) (steps : List (Nat × Nat)) (l : LitSlot) : Dev :=
  ((d.advanceTo (l.launch + witnessEnd x l (d.line x).can.copy0.cfg + 3)).onCan x
    (onLit l.launch fun l => { l with judged := true })).setLiv (pgCanary x) CANARY.WIT_SEEN
      (witnessCount x l steps (d.line x).can.copy0.cfg)

/-- The device with a bit of VERDICT shown. -/
def Dev.verdict (d : Dev) (x : Line) (v : Nat) : Dev :=
  d.setLiv (pgCanary x) CANARY.VERDICT (liv d.regs (pgCanary x) CANARY.VERDICT ||| v)

theorem witnessVerdict_none {x : Line} {steps : List (Nat × Nat)} {d : Dev}
    (h : (d.line x).can.lit.find? (fun l => !l.judged) = none) : witnessVerdict x steps d = d := by
  simp only [witnessVerdict, h]

/-- The oldest slot without a verdict fails where the line is lit, the witness counts and either copy counts too few. -/
theorem witnessVerdict_oldest {x : Line} {steps : List (Nat × Nat)} {d : Dev} {l : LitSlot}
    (h : (d.line x).can.lit.find? (fun l => !l.judged) = some l) :
    witnessVerdict x steps d =
      let e := d.witnessed x steps l
      if canLit e x = true ∧ (e.line x).can.noWitness = false ∧
          ((e.copies x).any fun m => witnessCount x l steps m < liv m (pgCanary x) CANARY.WIT_COUNT) = true then
        slotFails (e.verdict x 2) x l 1
      else e := by
  simp only [witnessVerdict, h, eitherCopy_eq, Bool.and_eq_true, Bool.not_eq_true', and_assoc]
  rfl

-- ---- reflections (R88, R90) ---------------------------------------------------------------------------------------

/-- A window cycle is inside a slot's windows where it comes before the next slot's launch (R90). -/
theorem LitSlot.inside_iff {l : LitSlot} {k : Nat} :
    l.inside k = true ↔ ∀ t, l.next = some t → l.launch + k < t := by
  unfold LitSlot.inside
  cases l.next <;> simp

/-- With no lit slot a level of MON_BACK only reaches the interval units (R274). -/
theorem monBackCrossing_none {x : Line} {cycle mV : Nat} {d : Dev} (h : (d.line x).can.lit = []) :
    monBackCrossing x cycle mV d = tiuTap x mV d.clk.tick d := by
  simp only [monBackCrossing, h, List.getLast?_nil]

/-- The first crossing inside the windows of the newest lit slot is a reflection, unless the line is dark (R88). -/
theorem monBackCrossing_newest {x : Line} {cycle mV : Nat} {d : Dev} {l : LitSlot}
    (h : (d.line x).can.lit.getLast? = some l) :
    monBackCrossing x cycle mV d =
      let u := tiuTap x mV (l.launch + cycle) d
      let e := u.advanceTo (l.launch + cycle + 3)
      if (u.copies x).any (reflects x cycle mV) = true ∧ (∀ t, l.next = some t → l.launch + cycle < t) ∧
          l.reflFail = false then
        if canLit e x then
          slotFails ((e.onCan x (onLit l.launch fun l => { l with reflFail := true })).verdict x 4) x l 2
        else e
      else u := by
  simp only [monBackCrossing, h, eitherCopy_eq, Bool.and_eq_true, Bool.not_eq_true', and_assoc, LitSlot.inside_iff]
  rfl

/-- Settles O26: each reading by how long its emitter has been driven or not, each check by the thresholds of the
copies. -/
theorem senseReadingsAndLitSlots : Obligations.SenseReadingsAndLitSlots := by
  unfold Obligations.SenseReadingsAndLitSlots
  refine ⟨fun s x mV => ⟨fun e h => ?_, fun e hd ht => ⟨fun hon => ⟨fun he => ?_, fun he => ?_⟩, fun hoff => ?_⟩,
      ⟨fun h => ?_, fun h => ?_⟩, ⟨fun h => ?_, fun h => ?_⟩, fun h g => ?_,
      fun t ht => ⟨fun h => ?_, fun h => ?_, fun h => ?_, fun h => ?_⟩⟩,
    fun s x cycle mV steps => ⟨fun hd => ?_, fun hd => ?_, fun h => ?_, fun l hl => ⟨fun h => ?_, fun h => ?_⟩,
      fun h => ?_, fun l hl => ⟨fun h => ?_, fun h hdark => ?_, fun h hlit => ?_⟩⟩⟩
  · exact State.lands_of_effect (exec_senseCheck x e mV s) (senseCheck_early h)
  · refine State.lands_of_effect (exec_senseCheck x e mV s) ((senseCheck_steady ⟨hd, ht⟩).trans ((if_pos hon).trans ?_))
    refine (if_pos ?_).trans (windowCheck_eq s.dev x (emitterIdx e) mV)
    rcases he with rfl | rfl <;> decide
  · refine State.lands_of_effect (exec_senseCheck x e mV s) ((senseCheck_steady ⟨hd, ht⟩).trans ((if_pos hon).trans ?_))
    refine if_neg ?_
    rcases he with rfl | rfl <;> decide
  · refine State.lands_of_effect (exec_senseCheck x e mV s) ((senseCheck_steady ⟨hd, ht⟩).trans
      ((if_neg (ne_true_of_eq_false hoff)).trans ?_))
    simp only [senseAbove, eitherCopy_eq, Bool.and_eq_true, Bool.not_eq_true']
    rfl
  · exact State.lands_of_effect (exec_gatedSenseCheck x .soa mV s) (if_neg (mt gateChecked_iff.mp (not_not.mpr h)))
  · exact State.lands_of_effect (exec_gatedSenseCheck x .soa mV s)
      ((if_pos (gateChecked_iff.mpr h)).trans (windowCheck_gated s.dev x _ 1 mV _ fun _ => ⟨rfl, rfl⟩))
  · exact State.lands_of_effect (exec_gatedSenseCheck x .raman mV s) (if_neg (mt gateChecked_iff.mp (not_not.mpr h)))
  · exact State.lands_of_effect (exec_gatedSenseCheck x .raman mV s)
      ((if_pos (gateChecked_iff.mpr h)).trans (windowCheck_gated s.dev x _ 3 mV _ fun _ => ⟨rfl, rfl⟩))
  · exact State.lands_of_effect (exec_diagSample x g mV s) (diagSample_none h)
  · exact State.lands_of_effect (exec_diagSample x .soa mV s)
      ((diagSample_soa ht).trans (if_neg (ne_true_of_eq_false h)))
  · exact State.lands_of_effect (exec_diagSample x .raman mV s)
      ((diagSample_raman ht).trans (if_neg (ne_true_of_eq_false h)))
  · exact State.lands_of_effect (exec_diagSample x .soa mV s) ((diagSample_soa ht).trans (if_pos h))
  · exact State.lands_of_effect (exec_diagSample x .raman mV s) ((diagSample_raman ht).trans (if_pos h))
  · exact State.lands_of_effect (exec_monOutCrossing x mV s) (if_pos (by simp [hd]))
  · exact State.lands_of_effect (exec_monOutCrossing x mV s) (monOutCrossing_on hd)
  · exact State.lands_of_effect (exec_witnessVerdict x steps s) (witnessVerdict_none h)
  · exact State.lands_of_effect (exec_witnessVerdict x steps s) ((witnessVerdict_oldest hl).trans (if_pos h))
  · exact State.lands_of_effect (exec_witnessVerdict x steps s) ((witnessVerdict_oldest hl).trans (if_neg h))
  · exact State.lands_of_effect (exec_monBackCrossing x cycle mV s) (monBackCrossing_none h)
  · exact State.lands_of_effect (exec_monBackCrossing x cycle mV s) ((monBackCrossing_newest hl).trans (if_neg h))
  · exact State.lands_of_effect (exec_monBackCrossing x cycle mV s)
      ((monBackCrossing_newest hl).trans ((if_pos h).trans (if_neg (ne_true_of_eq_false hdark))))
  · exact State.lands_of_effect (exec_monBackCrossing x cycle mV s)
      ((monBackCrossing_newest hl).trans ((if_pos h).trans (if_pos hlit)))

end Sys2Proof.Machine
end

section
/-!
PROOFS. Probes, restarts and diagnostic requests (R82, R91, R93 to R95), service sessions (R97).
-/
namespace Sys2Proof.Machine

-- ---- a write to a CANARY page -----------------------------------------------------------------------------------

/-- With EMIT on a write to a CANARY page takes effect. -/
theorem Dev.guarded_pgCanary {d : Dev} {x : Line} (h : d.domainOn 10 = true) (k : Link) (off : Nat) (f : Dev → Dev) :
    d.guarded k (pgCanary x) off f = f d := if_pos ((Dev.pageOn_pgCanary d x).trans h)

/-- With EMIT off it is a bus error (R42). -/
theorem Dev.guarded_pgCanary_off {d : Dev} {x : Line} (h : ¬ d.domainOn 10 = true) (k : Link) (off : Nat)
    (f : Dev → Dev) :
    d.guarded k (pgCanary x) off f = d.busError (pageBase (pgCanary x) + off) .domainOff (linkCode k) :=
  if_neg (by rwa [Dev.pageOn_pgCanary])

-- ---- probes (R82, R93, R95) -------------------------------------------------------------------------------------

/-- Whether a line may emit: an emitting mode, or a service session in Service mode (R82). -/
def mayEmit (d : Dev) (x : Line) : Prop :=
  emittingMode d = true ∨ (d.pwr.mode = 7 ∧ (d.line x).can.session.isSome = true)

/-- A line in OFF with CANARY enabled that may emit enters PROBE (R82). -/
theorem probeStart_enters {x : Line} {d : Dev} (hd : d.domainOn 10 = true) (hs : canState d x = 0)
    (he : enActive d.regs (pgCanary x) = true) (hm : mayEmit d x) : probeStart x d = enterProbe d x :=
  if_pos (by simpa [hd, hs, he, mayEmit] using hm)

/-- Any other stays as it is. -/
theorem probeStart_stays {x : Line} {d : Dev}
    (h : d.domainOn 10 = false ∨ canState d x ≠ 0 ∨ enActive d.regs (pgCanary x) = false ∨ ¬ mayEmit d x) :
    probeStart x d = d := by
  refine if_neg fun hgo => ?_
  simp only [Bool.and_eq_true, Bool.or_eq_true, beq_iff_eq] at hgo
  obtain ⟨⟨⟨hd, hs⟩, he⟩, hm⟩ := hgo
  rcases h with h | h | h | h
  · exact ne_true_of_eq_false h hd
  · exact h hs
  · exact ne_true_of_eq_false h he
  · exact h hm

/-- Without a settled seed of a probe's first step the booster does not rise. -/
theorem seedSettled_stays {x : Line} {d : Dev}
    (h : (d.line x).can.settle = none ∨ canState d x ≠ 1 ∨ (d.line x).can.step ≠ 1 ∨ laserLocked d x 0 = false) :
    seedSettled x d = d := by
  unfold seedSettled
  dsimp only
  split
  · rfl
  · next n hn =>
    refine if_neg fun ⟨hs, hstep, hlock⟩ => ?_
    rcases h with h | h | h | h
    · simp [hn] at h
    · exact h hs
    · exact h hstep
    · exact ne_true_of_eq_false h hlock

/-- Without a due probe of a line in LINE_OFF with AUTO set, in an emitting mode, none begins of itself (R95). -/
theorem autoProbe_stays {x : Line} {d : Dev}
    (h : (d.line x).can.probeDue = none ∨ canState d x ≠ 3 ∨ canCfg d x CANARY.PROBES.AUTO ≠ 1 ∨
      emittingMode d = false) : autoProbe x d = d := by
  unfold autoProbe
  split
  · rfl
  · next n hn =>
    refine if_neg fun ⟨hs, hauto, hm⟩ => ?_
    rcases h with h | h | h | h
    · simp [hn] at h
    · exact h hs
    · exact h hauto
    · exact ne_true_of_eq_false h hm

-- ---- restarts (R94) ---------------------------------------------------------------------------------------------

/-- An accepted RESTART enters PROBE where CANARY is enabled and the mode emits. -/
theorem restart_enters {x : Line} {key : Nat} {d : Dev} (h : restartOk d x key = true)
    (he : enActive d.regs (pgCanary x) = true) (hm : emittingMode d = true) : restart x key d = enterProbe d x :=
  (if_pos h).trans (if_pos (by simp [he, hm]))

/-- Elsewhere it goes to OFF. -/
theorem restart_off {x : Line} {key : Nat} {d : Dev} (h : restartOk d x key = true)
    (hn : enActive d.regs (pgCanary x) = false ∨ emittingMode d = false) : restart x key d = toOff d x :=
  (if_pos h).trans (if_neg (by rcases hn with hn | hn <;> simp [hn]))

-- ---- diagnostic requests (R91) ------------------------------------------------------------------------------------

/-- An aged line asks for a diagnostic slot, once. -/
theorem diagRequest_asks {x : Line} {d : Dev} (hd : d.domainOn 10 = true)
    (hage : 1024 ≤ liv d.regs (pgCanary x) CANARY.DIAG_AGE) (hreq : (d.line x).can.diagReq = false) :
    diagRequest x d =
      (d.onCan x fun c => { c with diagReq := true }).onSeq x fun q =>
        { q with taken := !(trigMode d.regs x == 0 && calDue d x) } := if_pos (by simp [hd, hage, hreq])

theorem diagRequest_stays {x : Line} {d : Dev}
    (h : d.domainOn 10 = false ∨ liv d.regs (pgCanary x) CANARY.DIAG_AGE < 1024 ∨ (d.line x).can.diagReq = true) :
    diagRequest x d = d := by
  refine if_neg fun hgo => ?_
  simp only [Bool.and_eq_true, decide_eq_true_eq, Bool.not_eq_true'] at hgo
  obtain ⟨⟨hd, hage⟩, hreq⟩ := hgo
  rcases h with h | h | h
  · exact ne_true_of_eq_false h hd
  · omega
  · exact ne_true_of_eq_false hreq h

/-- Settles O27: each command by the state of its line and of its probe. -/
theorem probesReachPermit : Obligations.ProbesReachPermit := by
  unfold Obligations.ProbesReachPermit
  intro s k x key
  refine ⟨fun hd hs he hm => ?_, fun h => ?_, fun h => ?_, fun n hn hs hstep hlock => ?_, fun hs hstep => ?_,
    fun h => ?_, fun n hn hs hauto hm => ?_, fun h => ?_, fun hd => ?_,
    fun hd => ⟨fun hno => ?_, fun hok he hm => ?_, fun hok h => ?_⟩, fun hd hage hreq => ?_, fun h => ?_⟩
  · exact State.lands_of_effect (exec_probeStart x s) (probeStart_enters hd hs he hm)
  · exact State.lands_of_effect (exec_probeStart x s) (probeStart_stays h)
  · exact State.lands_of_effect (exec_seedSettled x s) (seedSettled_stays h)
  · refine State.lands_of_effect (exec_seedSettled x s) ?_
    simp only [seedSettled, hn]
    exact if_pos ⟨hs, hstep, hlock⟩
  · exact State.lands_of_effect (exec_probePass x s) (if_pos ⟨hs, hstep⟩)
  · exact State.lands_of_effect (exec_probePass x s) (if_neg (not_and_or.mpr h))
  · refine State.lands_of_effect (exec_autoProbe x s) ?_
    simp only [autoProbe, hn]
    exact if_pos ⟨hs, hauto, hm⟩
  · exact State.lands_of_effect (exec_autoProbe x s) (autoProbe_stays h)
  · exact State.lands_of_effect (exec_restart k x key s) (Dev.guarded_pgCanary_off (ne_true_of_eq_false hd) k _ _)
  · exact State.lands_of_effect (exec_restart k x key s)
      ((Dev.guarded_pgCanary hd k _ _).trans (if_neg (ne_true_of_eq_false hno)))
  · exact State.lands_of_effect (exec_restart k x key s)
      ((Dev.guarded_pgCanary hd k _ _).trans (restart_enters hok he hm))
  · exact State.lands_of_effect (exec_restart k x key s) ((Dev.guarded_pgCanary hd k _ _).trans (restart_off hok h))
  · exact State.lands_of_effect (exec_diagRequest x s) (diagRequest_asks hd hage hreq)
  · exact State.lands_of_effect (exec_diagRequest x s) (diagRequest_stays h)

-- ---- service sessions (R97) ---------------------------------------------------------------------------------------

/-- Whether SERVICE_OPEN opens a session: its key and seconds, Service mode, a high interlock, a line that is OFF or in
LINE_OFF (R97). -/
def sessionOpens (d : Dev) (x : Line) (key : BitVec 16) (sec : BitVec 6) : Bool :=
  key == 0x5356 && 1 ≤ sec.toNat && sec.toNat ≤ 60 && d.pwr.mode == 7 && d.pins.interlock &&
    (canState d x == 0 || canState d x == 3)

/-- The device with a session of a line open for a number of seconds. -/
def Dev.sessionOpen (d : Dev) (x : Line) (nw : Bool) (sec : BitVec 6) : Dev :=
  ((toOff d x).onCan x fun c =>
    { c with session := some (d.slow + sec.toNat * 32768), noWitness := nw }).setStatus (pgCanary x) 11 true

/-- The key of SERVICE is compared by its value. -/
theorem key_beq (key : BitVec 16) : (key == 0x5356) = (key.toNat == 0x5356) :=
  Bool.eq_iff_iff.mpr (by rw [beq_iff_eq, beq_iff_eq, ← BitVec.toNat_inj]; rfl)

/-- CTRL stands apart from what a line that goes to OFF and opens its session writes. -/
theorem enActive_sessionOpen (d : Dev) (x : Line) (nw : Bool) (sec : BitVec 6) :
    enActive (d.sessionOpen x nw sec).regs (pgCanary x) = enActive d.regs (pgCanary x) := by
  have hstatus : ∀ (e : Dev) (p n : Nat) (b : Bool),
      rd (e.setStatus p n b).regs (pageBase (pgCanary x) + 8) = rd e.regs (pageBase (pgCanary x) + 8) := by
    intro e p n b
    refine rd_wr_other _ ?_
    unfold pageBase
    omega
  unfold enActive Dev.sessionOpen toOff setCanState Dev.onCan
  simp only [hstatus, Dev.onLine_regs]
  rw [Dev.setLiv_regs, Fld.rd_put_other]
  unfold CANARY.STATE
  dsimp only
  omega

/-- SERVICE_OPEN by whether it opens a session, and whether CANARY is enabled. -/
theorem serviceOpen_eq (x : Line) (key : BitVec 16) (nw : Bool) (sec : BitVec 6) (d : Dev) :
    serviceOpen x key.toNat nw sec.toNat d =
      if sessionOpens d x key sec then
        if enActive d.regs (pgCanary x) then enterProbe (d.sessionOpen x nw sec) x else d.sessionOpen x nw sec
      else d := by
  unfold sessionOpens
  rw [key_beq, ← enActive_sessionOpen d x nw sec]
  rfl

/-- SERVICE_STOP without its key, Service mode or a session changes nothing. -/
theorem serviceStop_stays {x : Line} {key : Nat} {d : Dev}
    (h : key ≠ 0x5356 ∨ d.pwr.mode ≠ 7 ∨ (d.line x).can.session = none) : serviceStop x key d = d := by
  refine if_neg fun ⟨hkey, hmode, hopen⟩ => ?_
  rcases h with h | h | h
  · exact h hkey
  · exact h hmode
  · simp [h] at hopen

/-- Settles O28: each command by EMIT, its key and the session of its line. -/
theorem serviceSessionsOpenAndEnd : Obligations.ServiceSessionsOpenAndEnd := by
  unfold Obligations.ServiceSessionsOpenAndEnd
  intro s k x key nw sec
  have hopen := fun hd : s.dev.domainOn 10 = true =>
    (Dev.guarded_pgCanary (x := x) hd k 0x984 _).trans (serviceOpen_eq x key nw sec s.dev)
  refine ⟨fun hoff => ⟨?_, ?_⟩, fun hd hno => ?_, fun hd hok he => ?_, fun hd hok he => ?_, fun hd h => ?_,
    fun hd hkey hmode hsession => ?_, fun hnone => ?_, fun n hn => ?_⟩
  · exact State.lands_of_effect (exec_serviceOpen k x key nw sec s) (Dev.guarded_pgCanary_off hoff k _ _)
  · exact State.lands_of_effect (exec_serviceStop k x key s) (Dev.guarded_pgCanary_off hoff k _ _)
  · exact State.lands_of_effect (exec_serviceOpen k x key nw sec s)
      ((hopen hd).trans (if_neg (ne_true_of_eq_false hno)))
  · exact State.lands_of_effect (exec_serviceOpen k x key nw sec s)
      ((hopen hd).trans ((if_pos hok).trans (if_neg (ne_true_of_eq_false he))))
  · exact State.lands_of_effect (exec_serviceOpen k x key nw sec s)
      ((hopen hd).trans ((if_pos hok).trans (if_pos he)))
  · exact State.lands_of_effect (exec_serviceStop k x key s)
      ((Dev.guarded_pgCanary hd k _ _).trans (serviceStop_stays h))
  · exact State.lands_of_effect (exec_serviceStop k x key s)
      ((Dev.guarded_pgCanary hd k _ _).trans (if_pos ⟨hkey, hmode, hsession⟩))
  · refine State.lands_of_effect (exec_serviceEnd x s) ?_
    simp only [serviceEnd, hnone]
  · refine State.lands_of_effect (exec_serviceEnd x s) ?_
    simp only [serviceEnd, hn, endSession]

end Sys2Proof.Machine
end

section
/-!
PROOFS. What the receive pages refuse, and what a refused page keeps (R103, R258, R25).
-/
namespace Sys2Proof.Machine

-- ---- words put back -----------------------------------------------------------------------------------------------

/-- The keys of a canonical map stand above its bound. -/
theorem Sparse.wfFrom_above {α : Type} [DecidableEq α] {dflt : Nat → α} {m : List (Nat × α)} :
    ∀ {l : Nat}, Sparse.wfFrom dflt (some l) m = true → ∀ e ∈ m, l < e.1 := by
  induction m with
  | nil => simp
  | cons e r ih =>
    intro l h
    simp only [Sparse.wfFrom, Bool.and_eq_true, decide_eq_true_eq] at h
    obtain ⟨⟨hl, -⟩, hr⟩ := h
    exact List.forall_mem_cons.mpr ⟨hl, fun f hf => hl.trans (ih hr f hf)⟩

/-- A canonical map names each key once. -/
theorem Sparse.wfFrom_pairwise_ne {α : Type} [DecidableEq α] {dflt : Nat → α} {m : List (Nat × α)} :
    ∀ {lo : Option Nat}, Sparse.wfFrom dflt lo m = true → m.Pairwise fun e f => e.1 ≠ f.1 := by
  induction m with
  | nil => simp
  | cons e r ih =>
    intro lo h
    simp only [Sparse.wfFrom, Bool.and_eq_true] at h
    obtain ⟨-, hr⟩ := h
    exact List.pairwise_cons.mpr ⟨fun f hf => (Sparse.wfFrom_above hr f hf).ne, ih hr⟩

/-- A key whose entries all stay reads as before. -/
theorem Sparse.get_filter_kept {α : Type} {dflt : Nat → α} {m : List (Nat × α)} {p : Nat × α → Bool} {k : Nat}
    (h : ∀ w, p (k, w) = true) : Sparse.get dflt (m.filter p) k = Sparse.get dflt m k := by
  induction m with
  | nil => rfl
  | cons e r ih =>
    obtain ⟨j, w⟩ := e
    by_cases hj : j = k
    · subst hj
      simp [h w, Sparse.get_cons]
    · by_cases hp : p (j, w) = true <;> simp [hp, Sparse.get_cons, hj, ih]

/-- A key whose entries all go reads as the default. -/
theorem Sparse.get_filter_gone {α : Type} {dflt : Nat → α} {m : List (Nat × α)} {p : Nat × α → Bool} {k : Nat}
    (h : ∀ w, p (k, w) = false) : Sparse.get dflt (m.filter p) k = dflt k := by
  induction m with
  | nil => rfl
  | cons e r ih =>
    obtain ⟨j, w⟩ := e
    by_cases hj : j = k
    · subst hj
      simpa [List.filter_cons, h w] using ih
    · by_cases hp : p (j, w) = true <;> simp [hp, Sparse.get_cons, hj, ih]

/-- Writes of other words leave a word as it was. -/
theorem rd_foldl_wr_other {g : Nat → Nat} {l : RegMap} {b : Nat} :
    ∀ {m : RegMap}, (∀ e ∈ l, g e.1 ≠ b) → rd (l.foldl (fun m e => wr m (g e.1) e.2) m) b = rd m b := by
  induction l with
  | nil => intro m _; rfl
  | cons e r ih =>
    intro m h
    obtain ⟨he, hr⟩ := List.forall_mem_cons.mp h
    exact (ih hr).trans (rd_wr_other _ he.symm)

/-- A list that names each key once, written over a map in which a word has its reset value, shows at that word what it
lists. -/
theorem rd_foldl_wr {g : Nat → Nat} {l : RegMap} {b : Nat} (hnd : l.Pairwise fun e f => e.1 ≠ f.1)
    (hg : ∀ e ∈ l, g e.1 = e.1) :
    ∀ {m : RegMap}, rd m b = Layout.reset b → rd (l.foldl (fun m e => wr m (g e.1) e.2) m) b = rd l b := by
  induction l with
  | nil => intro m h; exact h
  | cons e r ih =>
    intro m h
    obtain ⟨j, w⟩ := e
    obtain ⟨hne, hnd⟩ := List.pairwise_cons.mp hnd
    obtain ⟨hj, hg⟩ := List.forall_mem_cons.mp hg
    dsimp only at hj
    rw [List.foldl_cons, hj]
    change _ = if j = b then w else rd r b
    split
    · next he =>
      subst he
      exact (rd_foldl_wr_other fun e he => by rw [hg e he]; exact (hne e he).symm).trans (rd_wr_same _ _ _)
    · next he => exact ih hnd hg ((rd_wr_other _ (Ne.symm he)).trans h)

/-- Words of a canonical map put back where they stood read as there. -/
theorem rd_copyWords_back {m0 m : RegMap} {a size b : Nat} {keep : Nat → Bool} (h0 : m0.wf = true)
    (hb : inRange a size keep b = true) : rd (copyWords m0 a a size keep m) b = rd m0 b := by
  refine (rd_foldl_wr (g := fun k => k - a + a) (Sparse.wfFrom_pairwise_ne (Sparse.filter_wfFrom _ h0)) ?_ ?_).trans
    (Sparse.get_filter_kept fun _ => hb)
  · intro e he
    have hin := (List.mem_filter.mp he).2
    simp only [inRange, Bool.and_eq_true, decide_eq_true_eq] at hin
    obtain ⟨⟨hlo, -⟩, -⟩ := hin
    exact Nat.sub_add_cancel hlo
  · exact Sparse.get_filter_gone fun _ => by simp [hb]

-- ---- refusals of RAML and LANE ------------------------------------------------------------------------------------

/-- A candidate that its page's check refuses does not apply. -/
theorem applyBar_refused {d : Dev} {m0 m : RegMap} {pg : Page} (h : pageCheck d m0 m pg ≠ none) :
    applyBar d m0 m pg ≠ none := by
  obtain ⟨c, hc⟩ := Option.ne_none_iff_exists'.mp h
  unfold applyBar
  rw [hc]
  split <;> simp

/-- A fault answers its code. -/
theorem faultCode_ne_none {bad : Bool} {code : Nat} : faultCode bad code ≠ none ↔ bad = true := by
  cases bad <;> simp [faultCode]

/-- Outside Service mode RAML refuses MANUAL and every input other than BALLS (R258). -/
theorem ramlCheck_outside_service {m : RegMap} {mode : Nat} {x : Line} (hmode : mode ≠ 7)
    (h : act m (pgRaml x) RAML.MODE = 2 ∨ ∃ j < 2, act m (pgRaml x) (RAML.INPUT.SEL j) ≠ 0) :
    ramlCheck m mode x ≠ none := by
  refine faultCode_ne_none.mpr ?_
  simp only [Bool.or_eq_true, Bool.and_eq_true, bne_iff_ne, beq_iff_eq, List.any_eq_true, List.mem_range]
  exact .inl (.inl ⟨hmode, h⟩)

/-- LANE refuses a gain code above 12, an input other than BALLS outside Service mode, and a statistics window that ends
beyond 2^24, and nothing else (R103). -/
theorem laneCheck_iff {m : RegMap} {mode : Nat} {x : Line} :
    laneCheck m mode x ≠ none ↔
      (∃ j < 4, 12 < act m (pgLane x) (LANE.GAIN.CODE j)) ∨
      (mode ≠ 7 ∧ ∃ j < 4, act m (pgLane x) (LANE.INPUT.SEL j) ≠ 0) ∨
      2 ^ 24 < act m (pgLane x) LANE.STAT_START + act m (pgLane x) LANE.STAT_LEN := by
  unfold laneCheck
  rw [faultCode_ne_none]
  simp only [Bool.or_eq_true, Bool.and_eq_true, bne_iff_ne, List.any_eq_true, List.mem_range, decide_eq_true_eq, or_assoc]

theorem applyBar_raml {d : Dev} {m0 m : RegMap} {pg : Page} {x : Line} (hpg : pageOf (pgRaml x) = some pg)
    (h : ramlCheck m d.pwr.mode x ≠ none) : applyBar d m0 m pg ≠ none := by
  refine applyBar_refused ?_
  cases x <;> cases hpg <;> exact h

theorem applyBar_lane {d : Dev} {m0 m : RegMap} {pg : Page} {x : Line} (hpg : pageOf (pgLane x) = some pg)
    (h : laneCheck m d.pwr.mode x ≠ none) : applyBar d m0 m pg ≠ none := by
  refine applyBar_refused ?_
  cases x <;> cases hpg <;> exact h

/-- A refused LANE page keeps every setting in force that the map in force, in canonical form, holds (R25). -/
theorem act_revertPage_lane {m0 m : RegMap} {pg : Page} {x : Line} {f : Fld} (h0 : m0.wf = true)
    (hpg : pageOf (pgLane x) = some pg) (hf : 0x100 ≤ f.off ∧ f.off < 0x500) :
    act (revertPage m0 pg m) (pgLane x) f = act m0 (pgLane x) f := by
  have hback : rd (copyWords m0 (pageBase (pgLane x) + 0x500) (pageBase (pgLane x) + 0x500) 0x400 (fun _ => true) m)
      (pageBase (pgLane x) + 0x400 + f.off) = rd m0 (pageBase (pgLane x) + 0x400 + f.off) := by
    refine rd_copyWords_back h0 ?_
    simp only [inRange, Bool.and_eq_true, decide_eq_true_eq]
    exact ⟨⟨by omega, by omega⟩, trivial⟩
  unfold act Fld.at
  rw [← hback]
  refine congrArg (fun w : Word => bitsOf w.toNat f.hi f.lo) ?_
  cases x <;> cases hpg <;> exact rd_wr_other _ (by unfold pageBase; omega)

/-- What O11 says, of a map in force that is in canonical form, as the reset map is and every write keeps it. -/
theorem frontEndRefusals_of_wf {d : Dev} {m0 m : RegMap} {pg : Page} {x : Line} (h0 : m0.wf = true) :
    (pageOf (pgRaml x) = some pg → d.pwr.mode ≠ 7 →
      (act m (pgRaml x) RAML.MODE = 2 ∨ ∃ j < 2, act m (pgRaml x) (RAML.INPUT.SEL j) ≠ 0) →
      applyBar d m0 m pg ≠ none) ∧
    (pageOf (pgLane x) = some pg →
      ((∃ j < 4, 12 < act m (pgLane x) (LANE.GAIN.CODE j)) ∨
        (d.pwr.mode ≠ 7 ∧ ∃ j < 4, act m (pgLane x) (LANE.INPUT.SEL j) ≠ 0) ∨
        2 ^ 24 < act m (pgLane x) LANE.STAT_START + act m (pgLane x) LANE.STAT_LEN) →
      applyBar d m0 m pg ≠ none ∧
      ∀ j < 4, act (revertPage m0 pg m) (pgLane x) (LANE.GAIN.CODE j) = act m0 (pgLane x) (LANE.GAIN.CODE j)) :=
  ⟨fun hpg hmode h => applyBar_raml hpg (ramlCheck_outside_service hmode h), fun hpg h =>
    ⟨applyBar_lane hpg (laneCheck_iff.mpr h), fun _ _ =>
      act_revertPage_lane h0 hpg (show 0x100 ≤ 0x104 ∧ 0x104 < 0x500 by decide)⟩⟩

/-- A map, not in canonical form, that lists the active GAIN word of line A's LANE page twice: a read takes the first. -/
def gainListedTwice : RegMap := [(pageBase (pgLane .a) + 0x504, 1), (pageBase (pgLane .a) + 0x504, 2)]

/-- A candidate of that page with a gain code above 12. -/
def gainTooHigh : RegMap := [(pageBase (pgLane .a) + 0x504, 13)]

/-- Refutes O11: its map in force need not be in canonical form. One that lists the GAIN word twice reads as gain code 1,
and the refused page falls back to the last entry, code 2. In canonical form each word is listed once, and what O11 says
holds: `frontEndRefusals_of_wf`. -/
theorem not_frontEndRefusals : ¬ Obligations.FrontEndRefusals := by
  unfold Obligations.FrontEndRefusals
  intro h
  obtain ⟨-, hlane⟩ := h State.reset.dev gainListedTwice gainTooHigh _ .a
  obtain ⟨-, hkept⟩ := hlane pageOf_pgLane_a (.inl ⟨0, by decide, by decide⟩)
  have hbefore : act gainListedTwice (pgLane .a) (LANE.GAIN.CODE 0) = 1 := by decide
  have hafter : act (revertPage gainListedTwice ⟨0x300, .lane, 0, 0x3001, 0, 5, 1⟩ gainTooHigh) (pgLane .a)
      (LANE.GAIN.CODE 0) = 2 := by decide
  exact absurd ((hafter.symm.trans (hkept 0 (by decide))).trans hbefore) (by decide)

end Sys2Proof.Machine
end

section
/-!
PROOFS. Slot words, stuck cores, the lane clock (R105 to R108) and the die temperatures of TRIM and RAML (R112, R229).
-/
namespace Sys2Proof.Machine

-- ---- slot words (R107, R108) --------------------------------------------------------------------------------------

/-- In Replay, or without a slot that has ended, no slot word passes. -/
theorem slotWord_idle {x : Line} {v : Lanes} {d : Dev}
    (h : d.pwr.mode = 6 ∨ oldestOpen (d.line x).lane.spans = none) : slotWord x v d = d := by
  unfold slotWord
  split
  · rfl
  · next hmode => rw [h.resolve_left hmode]

-- ---- stuck cores (R105) -------------------------------------------------------------------------------------------

/-- Whether a core of lane j of a line is watched: its page is on, the clock locked, the lane enabled and on an input that
is not constant (R105). -/
def coreWatched (d : Dev) (x : Line) (j : Nat) : Bool :=
  d.pageOn (pgLane x) && d.pll.locked && laneEnabled d.regs x j && laneInput d.regs x j % 2 == 0

theorem coreWatched_iff {d : Dev} {x : Line} {j : Nat} :
    coreWatched d x j = true ↔ d.pageOn (pgLane x) = true ∧ d.pll.locked = true ∧ laneEnabled d.regs x j = true ∧
      laneInput d.regs x j % 2 = 0 := by
  simp only [coreWatched, Bool.and_eq_true, beq_iff_eq, and_assoc]

theorem not_coreWatched_iff {d : Dev} {x : Line} {j : Nat} :
    ¬ coreWatched d x j = true ↔ d.pageOn (pgLane x) = false ∨ d.pll.locked = false ∨
      laneEnabled d.regs x j = false ∨ laneInput d.regs x j % 2 ≠ 0 := by
  simp only [coreWatched_iff, not_and_or, Bool.not_eq_true]

-- ---- the lane clock (R106) ------------------------------------------------------------------------------------------

/-- A clock that is locked, or has no reference or no EMIT, does not lock. -/
theorem lanePllLock_idle {d : Dev} (h : d.pll.locked = true ∨ d.pins.refPresent = false ∨ d.domainOn 10 = false) :
    (if d.pins.refPresent && d.domainOn 10 then lanePllLock d else d) = d := by
  split
  · next hgo =>
    obtain ⟨href, hemit⟩ := (Bool.and_eq_true _ _).mp hgo
    exact if_pos (h.resolve_right (by simp [href, hemit]))
  · rfl

-- ---- die temperatures (R112, R229) --------------------------------------------------------------------------------

/-- Whether HK's mirror of a line holds a reading that a trim page has not taken yet (R112). -/
def freshTemp (d : Dev) (x : Line) (k : TrimKind) : Prop :=
  ∃ c t, d.hk.mirror.getD (1 + x.idx) none = some (c, t) ∧ ∀ t0, (trimSt d x k).lastTick = some t0 → t0 < t

/-- A page that is on shows a stale reading by a status bit, whose rise is an event (R112). -/
def Dev.showsStale (d : Dev) (p b e : Nat) : Dev :=
  if d.pageOn p = false ∨ d.status p b = true then d else (d.setStatus p b true).event p e

/-- A trim page with a new reading: DIE_TEMP shows the mean of the last eight, and the targets follow (R111, R112). -/
def Dev.takesTemp (d : Dev) (x : Line) (k : TrimKind) (c t : Nat) : Dev :=
  let temps := (hkDieTemp c :: (trimSt d x k).temps).take 8
  let mean := (2 * temps.sum + (temps.length : Int)).fdiv (2 * (temps.length : Int))
  let e := (d.onTrim x k fun r => { r with temps := temps, lastTick := some t }).setStatus (k.page x)
    (if k.raman then 14 else 9) false
  let e := if k.raman then e.setLivS (k.page x) RAML.DIE_TEMP mean else e.setLivS (k.page x) TRIM.DIE_TEMP mean
  showAdvised (computeTargets e x k) x k

/-- A page that is off takes no reading. -/
theorem readDieTemp_off {d : Dev} {x : Line} {k : TrimKind} (h : d.pageOn (k.page x) = false) :
    readDieTemp d x k = d := if_pos (by rw [h]; rfl)

/-- A page that is on takes a fresh reading. -/
theorem readDieTemp_fresh {d : Dev} {x : Line} {k : TrimKind} {c t : Nat} (hon : d.pageOn (k.page x) = true)
    (hc : d.hk.mirror.getD (1 + x.idx) none = some (c, t)) (ht : ∀ t0, (trimSt d x k).lastTick = some t0 → t0 < t) :
    readDieTemp d x k = d.takesTemp x k c t := by
  unfold readDieTemp
  simp only [hon, hc, Bool.not_true, Bool.false_eq_true, if_false]
  cases hl : (trimSt d x k).lastTick with
  | none => rfl
  | some t0 =>
    simp only [if_pos (ht t0 hl)]
    rfl

/-- A stale reading is held and shown. -/
theorem readDieTemp_stale {d : Dev} {x : Line} {k : TrimKind} (h : ¬ freshTemp d x k) :
    readDieTemp d x k = d.showsStale (k.page x) (if k.raman then 14 else 9) (if k.raman then 7 else 6) := by
  cases hon : d.pageOn (k.page x) with
  | false => exact (readDieTemp_off hon).trans (if_pos (.inl hon)).symm
  | true =>
    unfold readDieTemp Dev.showsStale
    simp only [hon, Bool.not_true, Bool.false_eq_true, if_false, Bool.true_eq_false, false_or]
    cases hc : d.hk.mirror.getD (1 + x.idx) none with
    | none => rfl
    | some r =>
      obtain ⟨c, t⟩ := r
      cases hl : (trimSt d x k).lastTick with
      | none => exact absurd ⟨c, t, hc, fun t0 h0 => by simp [hl] at h0⟩ h
      | some t0 =>
        have hle : ¬ t0 < t := fun hlt => h ⟨c, t, hc, fun t1 h1 => by rw [hl] at h1; cases h1; exact hlt⟩
        simp only [if_neg hle]

theorem Dev.onTrim_pageOn (d : Dev) (x : Line) (k : TrimKind) (f : TrimSt → TrimSt) (p : Nat) :
    (d.onTrim x k f).pageOn p = d.pageOn p := by
  cases x <;> rfl

theorem computeTargets_pageOn (d : Dev) (x : Line) (k : TrimKind) (p : Nat) :
    (computeTargets d x k).pageOn p = d.pageOn p := by
  unfold computeTargets
  rw [Dev.setStatus_pageOn]
  exact List.foldlRecOn (motive := fun e : Dev => e.pageOn p = d.pageOn p) _ _ rfl fun _ he _ _ => he

theorem showAdvised_pageOn (d : Dev) (x : Line) (k : TrimKind) (p : Nat) :
    (showAdvised d x k).pageOn p = d.pageOn p := by
  unfold showAdvised
  split <;> rfl

theorem Dev.takesTemp_pageOn (d : Dev) (x : Line) (k : TrimKind) (c t p : Nat) :
    (d.takesTemp x k c t).pageOn p = d.pageOn p := by
  unfold Dev.takesTemp
  dsimp only
  rw [showAdvised_pageOn, computeTargets_pageOn]
  split <;> exact Dev.onTrim_pageOn d x k _ p

/-- A stale reading of one trim page leaves another's as fresh as it was. -/
theorem freshTemp_showsStale (d : Dev) (p b e : Nat) (x : Line) (k : TrimKind) :
    freshTemp (d.showsStale p b e) x k ↔ freshTemp d x k := by
  unfold Dev.showsStale
  split
  · rfl
  · obtain ⟨m, a, t, h, -⟩ := (d.setStatus p b true).event_form p e
    rw [h]
    cases x <;> rfl

/-- Settles O29: each command by the branches of its effect. -/
theorem lanesShowTheirSlots : Obligations.LanesShowTheirSlots := by
  unfold Obligations.LanesShowTheirSlots
  refine ⟨fun s x v core => ⟨fun h => ?_, fun sp hmode hsp => ?_, fun hon hlock hen hin => ?_, fun h => ?_,
      fun hoff => ?_, fun hon => ?_⟩,
    fun s x => ⟨fun hlock => ?_, fun hlock href hemit => ?_, fun hlock => ?_, fun h => ?_, fun htrim hraml => ?_,
      fun htrim hraml => ?_, fun c t hc => ⟨fun htrim hraml ht => ?_, fun htrim hraml ht => ?_⟩⟩⟩
  · exact State.lands_of_effect (exec_slotWord x v s) (slotWord_idle h)
  · intro stop d lost codes ovr w counted last sums sums' shown e
    have hword : slotWord x v s.dev = if last then publishStats e x else e := by
      simp only [slotWord, if_neg hmode, hsp, Dev.advanceTo_line, beq_iff_eq]
      rfl
    exact ⟨fun hlast => State.lands_of_effect (exec_slotWord x v s) (hword.trans (if_pos hlast)),
      fun hlast => State.lands_of_effect (exec_slotWord x v s) (hword.trans (if_neg hlast))⟩
  · exact State.lands_of_effect (exec_coreStuck x core s) (if_pos (coreWatched_iff.mpr ⟨hon, hlock, hen, hin⟩))
  · exact State.lands_of_effect (exec_coreStuck x core s) (if_neg (not_coreWatched_iff.mpr h))
  · exact State.lands_of_effect (exec_stuckCleared x core s) (if_neg (ne_true_of_eq_false hoff))
  · exact State.lands_of_effect (exec_stuckCleared x core s) (if_pos hon)
  · exact State.lands_of_effect (exec_lanePllLoss s) (if_pos hlock)
  · refine State.lands_of_effect (exec_lanePllLock s) ((if_pos (by rw [href, hemit]; rfl)).trans ?_)
    exact if_neg (ne_true_of_eq_false hlock)
  · exact State.lands_of_effect (exec_lanePllLoss s) (if_neg (ne_true_of_eq_false hlock))
  · exact State.lands_of_effect (exec_lanePllLock s) (lanePllLock_idle h)
  · refine State.lands_of_effect (exec_trimTempRead x s) ?_
    rw [trimTempRead, readDieTemp_off (k := trimKind) htrim, readDieTemp_off (k := ramlKind) hraml]
  · refine State.lands_of_effect (exec_trimTempRead x s) ?_
    rw [trimTempRead, readDieTemp_stale htrim]
    exact readDieTemp_stale (mt (freshTemp_showsStale _ _ _ _ _ _).mp hraml)
  · refine State.lands_of_effect (exec_trimTempRead x s) ?_
    rw [trimTempRead, readDieTemp_fresh htrim hc ht]
    exact readDieTemp_off ((Dev.takesTemp_pageOn _ _ _ _ _ _).trans hraml)
  · refine State.lands_of_effect (exec_trimTempRead x s) ?_
    rw [trimTempRead, readDieTemp_off (k := trimKind) htrim]
    exact readDieTemp_fresh hraml hc ht

end Sys2Proof.Machine
end

section
/-!
PROOFS. The amplitude of a bin (R133): the integer square root is the floor of the real one, and the amplitude of a bin
is that of the squares of its clamped components.
-/
namespace Sys2Proof.Machine

-- ---- the integer square root ------------------------------------------------------------------------------------

/-- The search keeps the root between r and r + 2^n, and halves that range with each bit. -/
theorem isqrtAux_floor {v n r : Nat} (hlo : r * r ≤ v) (hhi : v < (r + 2 ^ n) * (r + 2 ^ n)) :
    isqrtAux v n r * isqrtAux v n r ≤ v ∧ v < (isqrtAux v n r + 1) * (isqrtAux v n r + 1) := by
  induction n generalizing r with
  | zero => exact ⟨hlo, hhi⟩
  | succ n ih =>
    rw [isqrtAux]
    split
    case isTrue hbit =>
      refine ih hbit ?_
      rwa [Nat.add_assoc, ← Nat.two_mul, ← Nat.pow_succ']
    case isFalse hbit => exact ih hlo (Nat.lt_of_not_le hbit)

/-- Half the bits of v, rounded up, hold its root. -/
theorem lt_sq_two_pow_half_log2 (v : Nat) : v < 2 ^ (v.log2 / 2 + 1) * 2 ^ (v.log2 / 2 + 1) :=
  calc v < 2 ^ (v.log2 + 1) := Nat.lt_log2_self
    _ ≤ 2 ^ (v.log2 / 2 + 1 + (v.log2 / 2 + 1)) := Nat.pow_le_pow_right (by decide) (by omega)
    _ = _ := Nat.pow_add _ _ _

/-- The integer square root is the floor of the square root. -/
theorem isqrt_floor (v : Nat) : isqrt v * isqrt v ≤ v ∧ v < (isqrt v + 1) * (isqrt v + 1) :=
  isqrtAux_floor (Nat.zero_le v) (by simpa only [Nat.zero_add] using lt_sq_two_pow_half_log2 v)

/-- The same of an integer that is the natural number v. -/
theorem isqrt_floor_int {v : Nat} {w : Int} (h : (v : Int) = w) :
    (isqrt v : Int) * isqrt v ≤ w ∧ w < ((isqrt v : Int) + 1) * ((isqrt v : Int) + 1) := by
  subst h
  exact_mod_cast isqrt_floor v

-- ---- a bin ------------------------------------------------------------------------------------------------------

/-- A clamped value lies in its range. -/
theorem clamp_mem {lo hi : Int} (h : lo ≤ hi) (v : Int) : lo ≤ clamp lo hi v ∧ clamp lo hi v ≤ hi := by
  unfold clamp
  split_ifs <;> omega

/-- Both components of a bin lie within ±32,767 (R132). -/
def BinVal.inRange (b : BinVal) : Prop := (-32767 ≤ b.rr ∧ b.rr ≤ 32767) ∧ -32767 ≤ b.ri ∧ b.ri ≤ 32767

/-- The components of a bin of a block are clamped ones, and its amplitude is the root of their squares (R132, R133). -/
theorem polBins_mem {m : RegMap} {x : Line} {t pol b0 count : Nat} {cov : List Covered} {xi xq : List Int} {b : BinVal}
    (h : b ∈ polBins m x t pol b0 count cov xi xq) :
    b.inRange ∧ b.amp = isqrt (b.rr.natAbs * b.rr.natAbs + b.ri.natAbs * b.ri.natAbs) := by
  obtain ⟨i, -, rfl⟩ := List.mem_map.mp h
  exact ⟨⟨clamp_mem (by decide) _, clamp_mem (by decide) _⟩, rfl⟩

/-- A component in range has a square of at most 32,767². -/
theorem natAbs_mul_self_le_of_clamped {v : Int} (h : -32767 ≤ v ∧ v ≤ 32767) : v.natAbs * v.natAbs ≤ 32767 * 32767 :=
  have hle : v.natAbs ≤ 32767 := by omega
  Nat.mul_le_mul hle hle

/-- The root of the squares of a bin's components is at most 46,339 (R133). -/
theorem BinVal.isqrt_squares_le {b : BinVal} (h : b.inRange) :
    isqrt (b.rr.natAbs * b.rr.natAbs + b.ri.natAbs * b.ri.natAbs) ≤ 46339 := by
  obtain ⟨hrr, hri⟩ := h
  have hsum := Nat.add_le_add (natAbs_mul_self_le_of_clamped hrr) (natAbs_mul_self_le_of_clamped hri)
  by_contra hlarge
  have hroot := Nat.lt_of_not_le hlarge
  have hsq := Nat.mul_le_mul hroot hroot
  have hfloor := (isqrt_floor (b.rr.natAbs * b.rr.natAbs + b.ri.natAbs * b.ri.natAbs)).1
  omega

/-- Settles O10: the search for the root keeps it in range to the last bit; a bin's components are clamped. -/
theorem amplitudeIsTheRoot : Obligations.AmplitudeIsTheRoot := by
  unfold Obligations.AmplitudeIsTheRoot
  refine ⟨isqrt_floor, fun m x t pol b0 count cov xi xq b hb => ?_⟩
  obtain ⟨hrange, hamp⟩ := polBins_mem hb
  have hsquares : ((b.rr.natAbs * b.rr.natAbs + b.ri.natAbs * b.ri.natAbs : Nat) : Int) =
      b.rr * b.rr + b.ri * b.ri := by
    rw [Nat.cast_add, Int.natAbs_mul_self, Int.natAbs_mul_self]
  have hfloor := isqrt_floor_int hsquares
  have hle := BinVal.isqrt_squares_le hrange
  rw [← hamp] at hfloor hle
  obtain ⟨⟨hrlo, hrhi⟩, hilo, hihi⟩ := hrange
  exact ⟨hfloor, hle, hrlo, hrhi, hilo, hihi⟩

end Sys2Proof.Machine
end

section
/-!
PROOFS. CHAN, PHASE and GAUGE have nothing to calibrate (R139, R165): the calibration commands of CTRL, and a write of
the words of CAL_TIME and CAL_COUNT.
-/
namespace Sys2Proof.Machine

/-- A block whose calibrations neither run in dead time nor in visits of PFE: the calibration commands pass it by. -/
theorem calCommands_of_uncalibrated {pg : Page} (hkind : calKindOf pg.block = none) (hpfe : pg.block ≠ .pfe) (d : Dev) :
    calReqOn pg d = d ∧ calFactoryOn pg d = d := by
  simp only [calReqOn, calFactoryOn, hkind, if_neg hpfe, and_self]

/-- An identity word of a page is not written (R19). -/
theorem writePage_identity {sys : Link → Nat → Word → Dev → Dev} {k : Link} {pg : Page} {off : Nat} {v : Word} {d : Dev}
    (hlo : 0x014 < off) (hhi : off < 0x040) : writePage sys k pg off v d = d := by
  have hctrl : off ≠ 0x008 := by omega
  have happly : off ≠ 0x00C := by omega
  have hirq : off ≠ 0x014 := by omega
  simp only [writePage, hctrl, happly, hirq, hhi, if_true, if_false]

/-- A write of a word of a page other than AON and DEV, its error apart, fails or does what the page does with it. -/
theorem busPut_page {sys : Link → Nat → Word → Dev → Dev} {k : Link} {p off : Nat} {v : Word} {d : Dev} {pg : Page}
    (h : pageOf p = some pg) (ho : off < 0x1000) (haon : pg.block ≠ .aon) (hdev : pg.block ≠ .dev) :
    (busPut sys k (pageBase p + off) 4 v d).1 = d ∨
      (busPut sys k (pageBase p + off) 4 v d).1 = writePage sys k pg off v d := by
  have hp := placeOf_page (pageOf_lt h) ho
  rw [h, Option.map_some] at hp
  have hnum : (pageBase p + off) / 0x1000 = p := by unfold pageBase; omega
  have hset : setBar (pageBase p + off) v d = none := setBar_none (by rw [hnum]; exact pageOf_ne_pgDev h hdev)
  unfold busPut
  cases busBar d (pageBase p + off) 4 with
  | some e => exact .inl rfl
  | none => simp only [hp, hnum, pageOf_ne_pgAon h haon, hset, if_false, writePlace, or_true]

/-- A line has a calibration pending where one of its three is (R60). -/
theorem calPending_iff {d : Dev} {x : Line} :
    calPending d x = true ↔
      (calRun d x calLane).pending = true ∨ (calRun d x calDac).pending = true ∨
        (calRun d x calRaman).pending = true := by
  rw [calPending, Bool.or_eq_true, Bool.or_eq_true, or_assoc]

/-- Settles O18: the blocks have no calibration, their commands no effect, and CAL_COUNT is no word that is written. -/
theorem pagesWithNothingToCalibrate : Obligations.PagesWithNothingToCalibrate := by
  unfold Obligations.PagesWithNothingToCalibrate
  intro s k p pg hpg hblock hd
  have hblocks : calKindOf pg.block = none ∧ pg.block ≠ .pfe ∧ pg.block ≠ .dev ∧ pg.block ≠ .aon := by
    rcases hblock with h | h | h <;> rw [h] <;> decide
  obtain ⟨hkind, hpfe, hdev, haon⟩ := hblocks
  obtain ⟨hreq, hfactory⟩ := calCommands_of_uncalibrated hkind hpfe s.dev
  refine ⟨?_, ?_, fun w sys => ?_, fun x => calPending_iff⟩
  · exact State.lands_of_effect (exec_calReq k p s) ((ctrlCommand_on hpg hdev hd).trans hreq)
  · exact State.lands_of_effect (exec_ctrlCalFactory k p s) ((ctrlCommand_on hpg hdev hd).trans hfactory)
  · rcases busPut_page (sys := sys) (k := k) (v := w) (d := s.dev) hpg (show 0x020 < 0x1000 by decide) haon hdev
      with h | h
    · exact h
    · exact h.trans (writePage_identity (by decide) (by decide))

end Sys2Proof.Machine
end

section
/-!
PROOFS. CHAN_BLOCK (R135, R136), POINT_WORD (R155, R163) and the out-of-service map (R158, R160): each command by what
it finds.
-/
namespace Sys2Proof.Machine

-- ---- blocks of a trace ------------------------------------------------------------------------------------------

/-- A tone without an unfinished trace has no block to deliver (R136). -/
theorem chanBlock_idle {d : Dev} {x : Line} {t : Nat} (h : traceShot d x t = none) (v : Lanes) :
    chanBlock x t v d = d := by
  simp only [chanBlock, h]

-- ---- point words ------------------------------------------------------------------------------------------------

/-- A SEQ that is not in flight has no word. -/
theorem pointWord_unknown {d : Dev} {x : Line} {seq : Nat} (h : findShot d x seq = none) (e1 e2 : SramEcc) :
    pointWord x seq e1 e2 d = d := by
  simp only [pointWord, h]

/-- The shots in flight ahead of the one with SEQ `seq`. -/
def Dev.shotsBefore (d : Dev) (x : Line) (seq : Nat) : List PhaseShot :=
  (d.line x).phase.shots.takeWhile fun r => r.slot.shot.seq != seq

/-- Whether a shot's next word has to wait: a gap shot and a complete one have none, others wait for their bins and
for the shots before them (R163). -/
def pointHeld (x : Line) (before : List PhaseShot) (q : PhaseShot) : Bool :=
  q.gap || decide (pointCount q.slot.cfg x ≤ q.next) || !binsReady q x q.next || waitsBehind before x q.next

theorem pointHeld_iff {x : Line} {before : List PhaseShot} {q : PhaseShot} :
    pointHeld x before q = true ↔ q.gap = true ∨ pointCount q.slot.cfg x ≤ q.next ∨ binsReady q x q.next = false ∨
      waitsBehind before x q.next = true := by
  simp only [pointHeld, Bool.or_eq_true, decide_eq_true_eq, Bool.not_eq_true', or_assoc]

theorem pointHeld_eq_false {x : Line} {before : List PhaseShot} {q : PhaseShot} (hgap : q.gap = false)
    (hnext : q.next < pointCount q.slot.cfg x) (hbins : binsReady q x q.next = true)
    (hbehind : waitsBehind before x q.next = false) : pointHeld x before q = false := by
  simp only [pointHeld, hgap, hbins, hbehind, decide_eq_false (Nat.not_le_of_lt hnext), Bool.not_true, Bool.or_self]

/-- POINT_WORD of a shot in flight: nothing while it is held; else the shots before it that are gaps catch up, and the
word of its next point leaves. -/
theorem pointWord_known {d : Dev} {x : Line} {seq : Nat} {q : PhaseShot} (h : findShot d x seq = some q)
    (e1 e2 : SramEcc) :
    pointWord x seq e1 e2 d =
      if pointHeld x (d.shotsBefore x seq) q then d
      else
        settleShots
          (pointWordOf (catchUp x q.next (d.shotsBefore x seq) (d.reach (lastBinCycle q x q.next + 40))) x q q.next e1 e2)
          x := by
  simp only [pointWord, h]
  rfl

/-- A point beyond the capacity: its word is NOT VALID for OVERLOAD, and no phase state is processed (R155). -/
theorem pointWordOf_beyond {q : PhaseShot} {x : Line} {p : Nat} (h : capacityOf q.slot.cfg x ≤ p) (d : Dev)
    (e1 e2 : SramEcc) :
    pointWordOf d x q p e1 e2 =
      let r : PtResult := { pt := {}, cause := 1 }
      let w := gaugeWord r (scaledValue q x r)
      let q' : PhaseShot := { q with next := p + 1, clipped := q.clipped + bit (scaledValue q x r).2 }
      let d := (pfPoint (sendWord (tapPhase d x q.slot.shot.seq p) x q p w) x q p (classOf w) e2).onShot x
        q.slot.shot.seq fun _ => q'
      if p + 1 = pointCount q.slot.cfg x then shotComplete d x q' else d := by
  simp only [pointWordOf, decide_eq_true h, Bool.not_true, Bool.false_and, if_true, if_false, Bool.false_eq_true]
  rfl

-- ---- out of service ---------------------------------------------------------------------------------------------

/-- A point takes the pending command; back in service, it restarts when it is next processed (R157, R158). -/
def Dev.oosPoint (x : Line) (set : Bool) (d : Dev) (p : Nat) : Dev :=
  let e := setOosBit d x p set
  if oosBit d x p && !set then
    writePt e x p { readPt e x p with epoch := (liv e.regs (pgPhase x) PHASE.EPOCH + 2 ^ 16 - 1) % 2 ^ 16 }
  else e

/-- The pending command goes through the points of its clipped range. -/
theorem oosTake_pending {d : Dev} {x : Line} {set : Bool} {first count : Nat}
    (h : (d.line x).phase.oos = some (set, first, count)) :
    oosTake x d =
      (showOos ((((oosRange d.regs x first count).foldl (Dev.oosPoint x set) d).onPhase x fun q =>
        { q with oos := none }).setStatus (pgPhase x) 10 false) x).event (pgPhase x) 7 := by
  simp only [oosTake, h]
  rfl

/-- Without a pending command, and on a line that launches, OOS_APPLIED does nothing. -/
theorem oosApplied_idle {d : Dev} {x : Line} (h : (d.line x).phase.oos = none ∨ launching d x = true) :
    oosApplied x d = d := by
  unfold oosApplied
  split
  case isTrue => rfl
  case isFalse hidle => simp only [oosTake, h.resolve_right hidle]

/-- Settles O30: a block by its trace and whether it is the last, a word by whether it is held and its point's place,
each command of the map by the power of PHASE and what is pending. -/
theorem binsPointsAndOutOfService : Obligations.BinsPointsAndOutOfService := by
  unfold Obligations.BinsPointsAndOutOfService
  refine ⟨fun s x t v => ⟨fun hnone => ?_, fun q r hq hr => ?_⟩,
    fun s x seq e1 e2 => ⟨fun hnone => ?_, fun q hq => ⟨fun hheld => ?_, fun hgap hnext hbins hbehind => ?_,
      fun hgap hnext hbins hfirst hcap => ?_⟩⟩,
    fun s k x => ⟨fun hon => ⟨?_, ?_⟩, fun hoff => ⟨?_, ?_⟩, fun hidle => ?_, fun set first count hoos hlaunch => ?_,
      fun hkept => ?_, fun hclear => ?_⟩⟩
  · exact State.lands_of_effect (exec_chanBlock x t v s) (chanBlock_idle hnone v)
  · intro m len b0 count lk zo a n start cov code bins passed shown
    have hblock : ∀ last, decide (len ≤ b0 + count) = last → chanBlock x t.val v s.dev =
        let e := shown (s.dev.reach (if last then start + count - 1 else start)) last
        if last then traceDone e x m q.slot.shot.seq (passed last) else e := by
      rintro _ rfl
      simp only [chanBlock, hq, hr]
      rfl
    exact ⟨fun hmore => State.lands_of_effect (exec_chanBlock x t v s)
        (hblock false (decide_eq_false (Nat.not_le_of_lt hmore))),
      fun hlast => State.lands_of_effect (exec_chanBlock x t v s) (hblock true (decide_eq_true hlast))⟩
  · exact State.lands_of_effect (exec_pointWord x seq e1 e2 s) (pointWord_unknown hnone e1 e2)
  · exact State.lands_of_effect (exec_pointWord x seq e1 e2 s)
      ((pointWord_known hq e1 e2).trans (if_pos (pointHeld_iff.mpr hheld)))
  · exact State.lands_of_effect (exec_pointWord x seq e1 e2 s) ((pointWord_known hq e1 e2).trans
      (if_neg (ne_true_of_eq_false (pointHeld_eq_false hgap hnext hbins hbehind))))
  · have hbefore : s.dev.shotsBefore x seq.toNat = [] := hfirst
    have hheld := pointHeld_eq_false hgap hnext hbins (show waitsBehind [] x q.next = false from rfl)
    refine State.lands_of_effect (exec_pointWord x seq e1 e2 s) ?_
    rw [pointWord_known hq, hbefore, hheld, if_neg Bool.false_ne_true, catchUp, pointWordOf_beyond hcap]
  · exact State.lands_of_effect (exec_oosSet k x s) (Dev.guarded_on hon)
  · exact State.lands_of_effect (exec_oosClear k x s) (Dev.guarded_on hon)
  · exact State.lands_of_effect (exec_oosSet k x s) (Dev.guarded_off hoff)
  · exact State.lands_of_effect (exec_oosClear k x s) (Dev.guarded_off hoff)
  · exact State.lands_of_effect (exec_oosApplied x s) (oosApplied_idle hidle)
  · intro epoch point d
    have hpoint : Dev.oosPoint x set = point := by
      funext e p
      simp only [Dev.oosPoint, point, epoch, Bool.and_eq_true, Bool.not_eq_true']
      rfl
    refine State.lands_of_effect (exec_oosApplied x s) ?_
    rw [oosApplied, if_neg (ne_true_of_eq_false hlaunch), oosTake_pending hoos, hpoint]
  · exact State.lands_of_effect (exec_oosMapClear x s) (if_neg (ne_true_of_eq_false hkept))
  · exact State.lands_of_effect (exec_oosMapClear x s) (if_pos hclear)

end Sys2Proof.Machine
end

section
/-!
PROOFS. FRAME_RELEASE and the freezes (R173 to R176, R185, R188), ZONE_REDUCTION and TRIGGER_RECORD (R201, R207 to R209):
each command by what it finds.
-/
namespace Sys2Proof.Machine

-- ---- release of frames (R185, R188) -----------------------------------------------------------------------------

/-- Whether a shot of a frame is still on its way to its last point. -/
def shotOnItsWay (d : Dev) (x : Line) (f : PFrame) : Bool :=
  (d.line x).phase.shots.any fun q => q.frame == some f.seq && q.next < pointCount q.slot.cfg x

/-- With SENSE off or no frame in flight nothing is released. -/
theorem frameRelease_idle {x : Line} {d : Dev} (h : d.domainOn 7 = false ∨ (d.line x).pf.frames = []) :
    frameRelease x d = d := by
  unfold frameRelease
  split
  case isTrue hon => rw [h.resolve_left (ne_false_of_eq_true hon), releaseNext]
  case isFalse => rfl

/-- With SENSE on the oldest frame is looked at first. -/
theorem frameRelease_oldest {x : Line} {d : Dev} {f : PFrame} {rest : List PFrame} (hon : d.domainOn 7 = true)
    (hf : (d.line x).pf.frames = f :: rest) : frameRelease x d = releaseNext x (f :: rest) d :=
  (if_pos hon).trans (congrArg (releaseNext x · d) hf)

/-- A frame cut short waits for its shots, and is then dropped for the cause that cut it (R188). -/
theorem releaseNext_abandoned {x : Line} {f : PFrame} (hcut : f.abandon = true) (rest : List PFrame) (d : Dev) :
    releaseNext x (f :: rest) d =
      if shotOnItsWay d x f then d else releaseNext x rest (dropFrame d x f f.endCause false) := by
  simp only [releaseNext, hcut, if_true]
  rfl

/-- A frame that is not ready holds up those behind it. -/
theorem releaseNext_unready {x : Line} {f : PFrame} (hcut : f.abandon = false) (hready : f.ready = none)
    (rest : List PFrame) (d : Dev) : releaseNext x (f :: rest) d = d := by
  simp only [releaseNext, hcut, hready, Bool.false_eq_true, if_false]

/-- A ready frame of gap shots alone is dropped for NO SHOTS, one that a configuration fault holds for CFG_FAULT; any
other is released (R39, R185, R188). -/
theorem releaseNext_ready {x : Line} {f : PFrame} {t : Nat} (hcut : f.abandon = false) (hready : f.ready = some t)
    (rest : List PFrame) (d : Dev) :
    releaseNext x (f :: rest) d =
      if f.traced = false then releaseNext x rest (dropFrame (d.advanceTo (t + 64)) x f 5 true)
      else if bitOf f.held 0 = true then releaseNext x rest (dropFrame (d.advanceTo (t + 64)) x f 8 false)
      else releaseFrame d x f t := by
  simp only [releaseNext, hcut, hready, Bool.false_eq_true, if_false, Bool.not_eq_true']

-- ---- freezes (R173 to R176) -------------------------------------------------------------------------------------

/-- Whether a request asks for the range of the freeze that still runs in its condition's slot (R174). -/
def freezeExtends (d : Dev) (x : Line) (r : FreezeReq) : Bool :=
  freezeOpen d x r.cond r.frame && (freezeWord d x r.cond 0 == r.first && freezeWord d x r.cond 1 == r.count)

/-- Without a request on its way FREEZE_REQ does nothing. -/
theorem freezeReq_idle {x : Line} {d : Dev} (h : (d.line x).pf.freezes = []) : freezeReq x d = d := by
  simp only [freezeReq, h]

/-- The words of a freeze slot are registers, which a change of PFILT's state leaves. -/
@[simp] theorem freezeWord_onPf (d : Dev) (x y : Line) (g : PfSt → PfSt) (i w : Nat) :
    freezeWord (d.onPf y g) x i w = freezeWord d x i w := by
  cases y <;> rfl

@[simp] theorem freezeOpen_onPf (d : Dev) (x y : Line) (g : PfSt → PfSt) (i f : Nat) :
    freezeOpen (d.onPf y g) x i f = freezeOpen d x i f := by
  simp only [freezeOpen, freezeWord_onPf]

/-- The oldest request has taken its condition's slot for the frames from `start` to `stop`. -/
def takeFreeze (d : Dev) (x : Line) (r : FreezeReq) (rest : List FreezeReq) (start stop : Nat) : Dev :=
  showFrozen ((setFreeze (d.onPf x fun q => { q with freezes := rest }) x r.cond
    [r.first, r.count, start, stop]).event (pgPfilt x) 6) x

/-- The oldest request takes its slot from LAG_EFF frames on for TRIG_FRAMES frames (R174, R175). -/
theorem freezeReq_new {x : Line} {d : Dev} {r : FreezeReq} {rest : List FreezeReq}
    (h : (d.line x).pf.freezes = r :: rest) (hnew : freezeExtends d x r = false) :
    let start := seqAdd r.frame (d.line x).pf.lag
    freezeReq x d = takeFreeze d x r rest start (seqAdd start (trigFrames d.regs x)) := by
  rw [freezeExtends] at hnew
  simp only [freezeReq, h, freezeOpen_onPf, hnew, Bool.false_eq_true, if_false, takeFreeze]

/-- A freeze that the oldest request extends keeps its start, and ends no earlier than it would have (R174). -/
theorem freezeReq_extending {x : Line} {d : Dev} {r : FreezeReq} {rest : List FreezeReq}
    (h : (d.line x).pf.freezes = r :: rest) (hext : freezeExtends d x r = true) :
    let stop := seqAdd (seqAdd r.frame (d.line x).pf.lag) (trigFrames d.regs x)
    let old := freezeWord d x r.cond 3
    freezeReq x d =
      takeFreeze d x r rest (freezeWord d x r.cond 2) (if seqLt old stop = true then stop else old) := by
  rw [freezeExtends] at hext
  simp only [freezeReq, h, freezeOpen_onPf, freezeWord_onPf, hext, if_true, takeFreeze]

/-- HOST_FREEZE_CLEAR of a slot that has not started empties it. -/
theorem hostFreezeClear_ahead {x : Line} {i : Nat} {d : Dev}
    (h : seqLe (d.line x).pf.nextSeq (freezeWord d x (64 + i) 2) = true) :
    hostFreezeClear x i d = endReel (showFrozen (setFreeze d x (64 + i)
      [freezeWord d x (64 + i) 0, freezeWord d x (64 + i) 1, (d.line x).pf.nextSeq, (d.line x).pf.nextSeq]) x) x 3 := by
  simp only [hostFreezeClear, h, if_true]

/-- HOST_FREEZE_CLEAR of a slot that runs ends it at the next frame. -/
theorem hostFreezeClear_running {x : Line} {i : Nat} {d : Dev}
    (hstart : seqLe (d.line x).pf.nextSeq (freezeWord d x (64 + i) 2) = false)
    (hstop : seqLt (d.line x).pf.nextSeq (freezeWord d x (64 + i) 3) = true) :
    hostFreezeClear x i d = endReel (showFrozen (setFreeze d x (64 + i)
      [freezeWord d x (64 + i) 0, freezeWord d x (64 + i) 1, freezeWord d x (64 + i) 2,
        (d.line x).pf.nextSeq]) x) x 3 := by
  simp only [hostFreezeClear, hstart, hstop, Bool.false_eq_true, if_false, if_true]

/-- HOST_FREEZE_CLEAR of a slot that has ended leaves it. -/
theorem hostFreezeClear_over {x : Line} {i : Nat} {d : Dev}
    (hstart : seqLe (d.line x).pf.nextSeq (freezeWord d x (64 + i) 2) = false)
    (hstop : seqLt (d.line x).pf.nextSeq (freezeWord d x (64 + i) 3) = false) :
    hostFreezeClear x i d = endReel (showFrozen d x) x 3 := by
  simp only [hostFreezeClear, hstart, hstop, Bool.false_eq_true, if_false]

-- ---- reductions (R201, R207, R224) ------------------------------------------------------------------------------

/-- The check of a zone's accumulators, which clears and logs an upset one, and whether it was upset (R224). -/
def checkZone (d : Dev) (x : Line) (n : Nat) (ecc : SramEcc) : Dev × Bool :=
  let c := d.sramCheck 281 (n * 16) 16 ecc
  (if c.2 then (c.1.sramSet 281 (n * 16) 0).eventLog (pgZone x) 4 sevError (n + x.idx * 2 ^ 24) else c.1, c.2)

/-- The probed zone shows its record (R202). -/
def probeZone (d : Dev) (x : Line) (f : ZFrame) (n : Nat) (g : ZoneRec) : Dev :=
  if liv d.regs (pgZone x) ZONE.PROBE_ZONE = n then
    (leWords (g.bytes f.settling)).zipIdx.foldl
      (fun d e => d.setWord (pageBase (pgZone x) + 0x910 + 4 * e.2) e.1) d
  else d

/-- A frame's next zone reduced: its record, the conditions on it, the probe. -/
def reduceNext (d : Dev) (x : Line) (f : ZFrame) (n : Nat) (rest : List Nat) (ecc : SramEcc) : Dev :=
  let r := f.rel + 24 + f.rank / 16
  let c := checkZone ((tapConds d x f).advanceTo r) x n ecc
  let g := reduceZone f n c.2
  let d := c.1.onZFrame x f.frame.seq fun f =>
    { f with zones := rest, rank := f.rank + 1, recs := f.recs ++ [g] }
  probeZone (if trigRuns x f then decideZone d x f g r else d) x f n g

/-- Without a frame to reduce ZONE_REDUCTION does nothing. -/
theorem zoneReduction_idle {x : Line} {d : Dev} (h : (d.line x).zone.frames.find? (fun f => !f.combined) = none)
    (ecc : SramEcc) : zoneReduction x ecc d = d := by
  simp only [zoneReduction, h]

/-- A frame without enabled zones goes to its combinations. -/
theorem zoneReduction_noZones {x : Line} {d : Dev} {f : ZFrame}
    (h : (d.line x).zone.frames.find? (fun f => !f.combined) = some f) (hz : f.zones = []) (ecc : SramEcc) :
    zoneReduction x ecc d = combine (tapConds d x f) x f.frame.seq := by
  simp only [zoneReduction, h, hz]

/-- The oldest frame to reduce has its next zone reduced; its combinations follow the last. -/
theorem zoneReduction_next {x : Line} {d : Dev} {f : ZFrame} {n : Nat} {rest : List Nat}
    (h : (d.line x).zone.frames.find? (fun f => !f.combined) = some f) (hz : f.zones = n :: rest) (ecc : SramEcc) :
    zoneReduction x ecc d =
      if rest = [] then combine (reduceNext d x f n rest ecc) x f.frame.seq
      else showActive (reduceNext d x f n rest ecc) x := by
  cases rest with
  | nil => simp only [zoneReduction, h, hz, if_true]; rfl
  | cons m ms => simp only [zoneReduction, h, hz, reduceCtorEq, if_false]; rfl

-- ---- records (R208, R209) ---------------------------------------------------------------------------------------

/-- The freezes that the conditions met in a frame ask for (R174). -/
def freezesAsked (f : ZFrame) : List FreezeReq :=
  (f.met.filter fun e => trigFld f.frame.cfg (TRIG.W4.FREEZE e.1) == 1).map fun e =>
    ⟨e.1, f.frame.seq, (condPoints f e.1).1, (condPoints f e.1).2⟩

/-- The conditions released in a frame that ask for a record. -/
def releasesTold (f : ZFrame) : List (Nat × Int) :=
  f.released.filter fun e => trigFld f.frame.cfg (TRIG.W0.RELEASE_EVENT e.1) == 1

/-- The record of the conditions met in a frame, with their capture and their freezes. -/
def recordMet (d : Dev) (x : Line) (f : ZFrame) : Dev :=
  let seq := (d.line x).zone.nextTrig
  let c := actCapture d x f seq
  sendRecord (((takeTrigSeq c.dev x).event (pgTrig x) 4).onPf x fun q =>
    { q with freezes := q.freezes ++ freezesAsked f }) x f f.met (recordBytes' x f seq 0 f.met c)

/-- The record of the conditions released in a frame. -/
def recordReleased (d : Dev) (x : Line) (f : ZFrame) : Dev :=
  sendRecord ((takeTrigSeq d x).event (pgTrig x) 5) x f (releasesTold f)
    (recordBytes' x f (d.line x).zone.nextTrig 1 (releasesTold f) { dev := d })

/-- Without a frame TRIGGER_RECORD does nothing. -/
theorem triggerRecord_idle {x : Line} {d : Dev} (h : (d.line x).zone.frames = []) : triggerRecord x d = d := by
  simp only [triggerRecord, h]

/-- The oldest frame stays until its combinations are decided (R207). -/
theorem triggerRecord_undecided {x : Line} {d : Dev} {f : ZFrame} {rest : List ZFrame}
    (h : (d.line x).zone.frames = f :: rest) (hc : f.combined = false) : triggerRecord x d = d := by
  simp only [triggerRecord, h, hc, Bool.false_eq_true, if_false]

/-- A decided frame leaves at REL + 64, with a record of its met and one of its released conditions (R208, R209). -/
theorem triggerRecord_decided {x : Line} {d : Dev} {f : ZFrame} {rest : List ZFrame}
    (h : (d.line x).zone.frames = f :: rest) (hc : f.combined = true) :
    let left := (d.advanceTo (f.rel + 64)).onZone x fun z => { z with frames := rest }
    let e := if f.met = [] then left else recordMet left x f
    triggerRecord x d = if releasesTold f = [] then e else recordReleased e x f := by
  simp only [triggerRecord, h, hc, if_true, List.isEmpty_iff]
  rfl

/-- Settles O31: a release by the state of the oldest frame, each freeze by its slot, a reduction by the zones left, a
record by what was met and released. -/
theorem framesAndZones : Obligations.FramesAndZones := by
  unfold Obligations.FramesAndZones
  refine ⟨fun s k x i => ⟨fun hidle => ?_, fun f rest hon hf => ⟨fun hcut hbusy => ?_, fun hcut hbusy => ?_,
      fun hcut hready => ?_, fun t hcut hready => ⟨fun hgap => ?_, fun htraced hheld => ?_, fun htraced hheld => ?_⟩⟩,
      fun hnone => ?_, fun r rest hr => ⟨fun hnew => ?_, fun hext => ?_⟩, fun hoff => ⟨?_, ?_⟩, fun hon => ?_,
      fun hon => ⟨fun hahead => ?_, fun hstart hstop => ?_, fun hstart hstop => ?_⟩⟩,
    fun s x ecc => ⟨fun hnone => ?_, fun f hf hz => ?_, fun f n rest hf hz => ⟨fun hlast => ?_, fun hmore => ?_⟩,
      fun hnone => ?_, fun f rest hf hc => ?_, fun f rest hf hc => ⟨fun hrel => ?_, fun hrel => ?_⟩⟩⟩
  · exact State.lands_of_effect (exec_frameRelease x s) (frameRelease_idle hidle)
  · exact State.lands_of_effect (exec_frameRelease x s)
      ((frameRelease_oldest hon hf).trans ((releaseNext_abandoned hcut rest _).trans (if_pos hbusy)))
  · exact State.lands_of_effect (exec_frameRelease x s) ((frameRelease_oldest hon hf).trans
      ((releaseNext_abandoned hcut rest _).trans (if_neg (ne_true_of_eq_false hbusy))))
  · exact State.lands_of_effect (exec_frameRelease x s)
      ((frameRelease_oldest hon hf).trans (releaseNext_unready hcut hready rest _))
  · exact State.lands_of_effect (exec_frameRelease x s)
      ((frameRelease_oldest hon hf).trans ((releaseNext_ready hcut hready rest _).trans (if_pos hgap)))
  · exact State.lands_of_effect (exec_frameRelease x s) ((frameRelease_oldest hon hf).trans
      ((releaseNext_ready hcut hready rest _).trans ((if_neg (ne_false_of_eq_true htraced)).trans (if_pos hheld))))
  · exact State.lands_of_effect (exec_frameRelease x s) ((frameRelease_oldest hon hf).trans
      ((releaseNext_ready hcut hready rest _).trans
        ((if_neg (ne_false_of_eq_true htraced)).trans (if_neg (ne_true_of_eq_false hheld)))))
  · exact State.lands_of_effect (exec_freezeReq x s) (freezeReq_idle hnone)
  · have hfresh : freezeExtends s.dev x r = false := by rwa [freezeExtends, ← freezeOpen_onPf]
    exact State.lands_of_effect (exec_freezeReq x s) (freezeReq_new hr hfresh)
  · have hruns : freezeExtends s.dev x r = true := by rwa [freezeExtends, ← freezeOpen_onPf]
    exact State.lands_of_effect (exec_freezeReq x s) ((freezeReq_extending hr hruns).trans
      (by rw [freezeWord_onPf]; rfl))
  · exact State.lands_of_effect (exec_hostFreezeSet k x i s) (Dev.guarded_off hoff)
  · exact State.lands_of_effect (exec_hostFreezeClear k x i s) (Dev.guarded_off hoff)
  · exact State.lands_of_effect (exec_hostFreezeSet k x i s) (Dev.guarded_on hon)
  · exact State.lands_of_effect (exec_hostFreezeClear k x i s)
      ((Dev.guarded_on hon).trans (hostFreezeClear_ahead hahead))
  · exact State.lands_of_effect (exec_hostFreezeClear k x i s)
      ((Dev.guarded_on hon).trans (hostFreezeClear_running hstart hstop))
  · exact State.lands_of_effect (exec_hostFreezeClear k x i s)
      ((Dev.guarded_on hon).trans (hostFreezeClear_over hstart hstop))
  · exact State.lands_of_effect (exec_zoneReduction x ecc s) (zoneReduction_idle hnone ecc)
  · exact State.lands_of_effect (exec_zoneReduction x ecc s) (zoneReduction_noZones hf hz ecc)
  · exact State.lands_of_effect (exec_zoneReduction x ecc s) ((zoneReduction_next hf hz ecc).trans (if_pos hlast))
  · exact State.lands_of_effect (exec_zoneReduction x ecc s) ((zoneReduction_next hf hz ecc).trans (if_neg hmore))
  · exact State.lands_of_effect (exec_triggerRecord x s) (triggerRecord_idle hnone)
  · exact State.lands_of_effect (exec_triggerRecord x s) (triggerRecord_undecided hf hc)
  · exact State.lands_of_effect (exec_triggerRecord x s) ((triggerRecord_decided hf hc).trans (if_pos hrel))
  · exact State.lands_of_effect (exec_triggerRecord x s) ((triggerRecord_decided hf hc).trans (if_neg hrel))

end Sys2Proof.Machine
end

section
/-!
PROOFS. The alarm balls (R210, R211), and the descriptors and segments of CAPT (R215 to R222): each command by what it
finds.
-/
namespace Sys2Proof.Machine

-- ---- alarm balls (R210, R211) -----------------------------------------------------------------------------------

/-- An edge on its way has left in its cycle. -/
def Dev.takeEdge (d : Dev) (e : AlarmEdge) : Dev :=
  let d := d.advanceTo e.tick
  { d with alarm := { d.alarm with edges := d.alarm.edges.erase e } }

/-- A rise acts on ball k: it asserts it unless it is held, and counts where the ball is enabled and was not
asserted. -/
def raiseBall (d : Dev) (k : Nat) : Dev :=
  let r := { d with alarm := { d.alarm with raised := d.alarm.raised.set k (some d.clk.tick) } }
  let u := if alarmHeld r k then r else setAlarm r k true
  if alarmFld u (TRIG.ALARM_CFG.EN k) == 1 && u.domainOn 7 && !d.alarm.on.getD k false then
    u.event (pgTrig .a) (7 + k)
  else u

/-- The pulse of ball k ends its width after the present cycle. -/
def timePulse (d : Dev) (k : Nat) : Dev :=
  { d with alarm := { d.alarm with
    stops := d.alarm.stops.set k (some (d.clk.tick + max (alarmFld d (TRIG.ALARM_CFG.WIDTH k)) 1)) } }

/-- Without an edge of the ball on its way ALARM_EDGE does nothing. -/
theorem alarmEdge_idle {k : Nat} {d : Dev} (h : d.alarm.edges.find? (fun e => e.ball == k) = none) :
    alarmEdge k d = d := by
  simp only [alarmEdge, h]

/-- A fall deasserts the ball. -/
theorem alarmEdge_fall {k : Nat} {d : Dev} {e : AlarmEdge}
    (h : d.alarm.edges.find? (fun e => e.ball == k) = some e) (hfall : e.raise = false) :
    alarmEdge k d = setAlarm (d.takeEdge e) k false := by
  simp only [alarmEdge, h, hfall, Bool.false_eq_true, if_false]
  rfl

/-- A rise acts on the ball and, in PULSE mode, times its pulse. -/
theorem alarmEdge_rise {k : Nat} {d : Dev} {e : AlarmEdge}
    (h : d.alarm.edges.find? (fun e => e.ball == k) = some e) (hrise : e.raise = true) :
    alarmEdge k d =
      let u := raiseBall (d.takeEdge e) k
      if alarmMode u k = 1 then timePulse u k else u := by
  simp only [alarmEdge, h, hrise, if_true]
  rfl

/-- Without a pulse under way ALARM_PULSE_END does nothing. -/
theorem alarmPulseEnd_idle {k : Nat} {d : Dev} (h : d.alarm.stops.getD k none = none) : alarmPulseEnd k d = d := by
  simp only [alarmPulseEnd, h]

/-- A pulse ends in its cycle, and deasserts the ball while its mode is PULSE. -/
theorem alarmPulseEnd_due {k t : Nat} {d : Dev} (h : d.alarm.stops.getD k none = some t) :
    alarmPulseEnd k d =
      let d := d.advanceTo t
      let d := { d with alarm := { d.alarm with stops := d.alarm.stops.set k none } }
      if alarmMode d k = 1 then setAlarm d k false else d := by
  simp only [alarmPulseEnd, h]

/-- ALARM_CLEAR reaches ball n: one that it names is deasserted in LATCH mode, but where its condition meets now. -/
def clearBall (balls : Nat) (d : Dev) (n : Nat) : Dev :=
  if bitOf balls n = true ∧ alarmMode d n = 2 ∧ meetsNow d n = false then setAlarm d n false else d

/-- ALARM_CLEAR reaches the four balls in turn. -/
theorem alarmClear_eq (balls : Nat) (d : Dev) : alarmClear balls d = (List.range 4).foldl (clearBall balls) d := by
  have hball : clearBall balls = fun d k =>
      if bitOf balls k && alarmMode d k == 2 && !meetsNow d k then setAlarm d k false else d := by
    funext d k
    simp only [clearBall, Bool.and_eq_true, beq_iff_eq, Bool.not_eq_true', and_assoc]
  rw [hball, alarmClear]

-- ---- descriptors (R215, R216) -----------------------------------------------------------------------------------

/-- A write to an open descriptor is discarded and counted. -/
theorem descWrite_open {n : Nat} {d : Dev} (h : descFld d.regs (CAPT.W0.STATE n) = 2) (w : Nat) (v : Word) :
    descWrite n w v d = d.event (pgCapt (descLine d n)) 8 :=
  if_pos h

/-- W0 gives a descriptor that is not open its stream and, with STATE = 1, arms it. -/
theorem descWrite_w0 {n : Nat} {d : Dev} (h : descFld d.regs (CAPT.W0.STATE n) ≠ 2) (v : Word) :
    descWrite n 0 v d =
      let d := (d.setDesc (CAPT.W0.STREAM_EN n) (bitsOf v.toNat 29 29)).setDesc (CAPT.W0.STREAM n) (bitsOf v.toNat 15 0)
      if bitsOf v.toNat 31 30 = 1 then d.setDesc (CAPT.W0.STATE n) 1 else d :=
  if_neg h

/-- W1 gives a descriptor that is not open its address. -/
theorem descWrite_w1 {n : Nat} {d : Dev} (h : descFld d.regs (CAPT.W0.STATE n) ≠ 2) (v : Word) :
    descWrite n 1 v d = d.setDesc (CAPT.W1.ADDR n) v.toNat :=
  if_neg h

/-- W2 gives a descriptor that is not open its size. -/
theorem descWrite_w2 {n : Nat} {d : Dev} (h : descFld d.regs (CAPT.W0.STATE n) ≠ 2) (v : Word) :
    descWrite n 2 v d = d.setDesc (CAPT.W2.ALLOC n) v.toNat :=
  if_neg h

/-- The result words of a descriptor are not written. -/
theorem descWrite_result {n w : Nat} {d : Dev} (h : descFld d.regs (CAPT.W0.STATE n) ≠ 2) (hw : 2 < w) (v : Word) :
    descWrite n w v d = d := by
  obtain ⟨m, rfl⟩ : ∃ m, w = m + 3 := ⟨w - 3, by omega⟩
  exact if_neg h

-- ---- copies of segments (R219 to R222) --------------------------------------------------------------------------

/-- The check of the context of a class's segment. -/
def Dev.contextCheck (d : Dev) (x : Line) (c : Nat) : Dev × Bool := d.sramCheck 283 (16 * (4 * x.idx + c)) 16 .clean

/-- A frame of a segment's span is to be copied, and stands in the ring. -/
def copyDue (d : Dev) (x : Line) (g : Seg) : Prop :=
  (∃ f, (d.line x).capt.newest = some f ∧ seqLe g.next f = true) ∧ seqLe g.next g.stop = true

/-- Whether a segment's next frame is a gap frame, of which the ring holds a header alone. -/
def nextIsGap (d : Dev) (x : Line) (g : Seg) : Bool := (d.line x).capt.gapped.contains g.next

/-- The bytes that a segment reads of its next frame: the header of a gap frame, else the frame to the segment's last
point. -/
def readLen (d : Dev) (x : Line) (g : Seg) : Nat := if nextIsGap d x g then 48 else 48 + 2 * (g.point + g.points)

/-- The read of a segment's next frame in the ring. -/
def readNext (d : Dev) (x : Line) (g : Seg) (ecc : Ecc) : Dev × MemStatus × Option Nat × List Byte :=
  d.memRead (ringAddr d x g.next) (readLen d x g) ecc

/-- The record that a segment makes of a frame as it stands in the ring (R219). -/
def Seg.recordOf (g : Seg) (gap : Bool) (raw : List Byte) : List Byte :=
  if gap then raw
  else (raw.take 24 ++ leBytes 4 g.points ++ (raw.drop 28).take 20) ++
    padTo 8 ((raw.drop (48 + 2 * g.point)).take (2 * g.points))

/-- A segment's next frame is passed. -/
def Seg.pass (g : Seg) : Seg := { g with next := seqAdd g.next 1 }

/-- A segment has no room for a record: one was already too long for it, or this one is. -/
def Seg.full (g : Seg) (body : List Byte) : Bool :=
  bitOf g.flags segTruncated || decide (g.alloc * 64 < g.offset + body.length)

theorem Seg.full_iff {g : Seg} {body : List Byte} :
    g.full body = true ↔ bitOf g.flags segTruncated = true ∨ g.alloc * 64 < g.offset + body.length := by
  simp only [Seg.full, Bool.or_eq_true, decide_eq_true_eq]

theorem Seg.full_eq_false_iff {g : Seg} {body : List Byte} :
    g.full body = false ↔ bitOf g.flags segTruncated = false ∧ g.offset + body.length ≤ g.alloc * 64 := by
  simp only [Seg.full, Bool.or_eq_false_iff, decide_eq_false_iff_not, Nat.not_lt]

/-- A record is stored behind the others of its segment. -/
def storeRecord (d : Dev) (x : Line) (c : Nat) (g : Seg) (body : List Byte) : Dev :=
  setSeg (d.memWrite (g.addr + g.offset) body).1 x c
    (some { g with stored := g.stored + 1, offset := g.offset + body.length })

/-- A record goes to the segment's stream, and into its buffer where there is room. -/
def putRecord (d : Dev) (x : Line) (c : Nat) (g : Seg) (gap : Bool) (body : List Byte) : Dev :=
  let d := segMessage d x g (if gap then 1 else 0) body
  if g.full body = true then setSeg d x c (some (g.mark segTruncated)) else storeRecord d x c g body

/-- A segment passes its next frame, whose record it keeps where the ring can be read. -/
def copyFrame (d : Dev) (x : Line) (c : Nat) (g : Seg) (ecc : Ecc) : Dev :=
  let gap := nextIsGap d x g
  let r := readNext d x g ecc
  if d.touchesDegraded (ringAddr d x g.next) (readLen d x g) = true then setSeg d x c (some g.pass)
  else if r.2.1 ≠ .ok then setSeg r.1 x c (some g.pass)
  else putRecord r.1 x c g.pass gap (g.recordOf gap r.2.2.2)

/-- Without an open segment of the class SEGMENT_COPY does nothing. -/
theorem segmentCopy_idle {x : Line} {c : Nat} {d : Dev} (h : segOf d x c = none) (ecc : Ecc) :
    segmentCopy x c ecc d = d := by
  simp only [segmentCopy, h]

/-- Without an open segment of the class SEGMENT_END does nothing. -/
theorem segmentEnd_idle {x : Line} {c : Nat} {d : Dev} (h : segOf d x c = none) : segmentEnd x c d = d := by
  simp only [segmentEnd, h]

/-- A segment ends once its END frame is passed (R218). -/
theorem segmentEnd_open {x : Line} {c : Nat} {d : Dev} {g : Seg} (h : segOf d x c = some g) :
    segmentEnd x c d = if seqLt g.stop g.next = true then endSegment d x c g else d := by
  simp only [segmentEnd, h]

section
variable {x : Line} {c : Nat} {d : Dev} {g : Seg}

/-- An upset context is cleared and logged, and ends its segment as ABORTED. -/
theorem segmentCopy_upset (h : segOf d x c = some g) (hupset : (d.contextCheck x c).2 = true) (ecc : Ecc) :
    segmentCopy x c ecc d =
      endSegment (((d.contextCheck x c).1.sramSet 283 (16 * (4 * x.idx + c)) 0).eventLog (pgCapt x) 9 sevError
        (c + x.idx * 16777216)) x c (g.mark segAborted) := by
  rw [Dev.contextCheck] at hupset
  simp only [segmentCopy, h, hupset, if_true]
  rfl

/-- A segment whose next frame is not due waits. -/
theorem segmentCopy_waiting (h : segOf d x c = some g) (hsound : (d.contextCheck x c).2 = false)
    (hwait : ¬ copyDue d x g) (ecc : Ecc) : segmentCopy x c ecc d = d := by
  rw [Dev.contextCheck] at hsound
  cases hnew : (d.line x).capt.newest with
  | none =>
    simp only [segmentCopy, h, hsound, hnew, Bool.false_and, Bool.not_false, Bool.false_eq_true, if_true, if_false]
  | some f =>
    have hlate : (seqLe g.next f && seqLe g.next g.stop) = false := by
      rw [← Bool.not_eq_true, Bool.and_eq_true]
      exact fun hle => hwait ⟨⟨f, hnew, hle.1⟩, hle.2⟩
    simp only [segmentCopy, h, hsound, hnew, hlate, Bool.not_false, Bool.false_eq_true, if_true, if_false]

/-- A segment whose next frame is due ends as ABORTED over a degraded buffer, and copies the frame otherwise (R222). -/
theorem segmentCopy_due (h : segOf d x c = some g) (hsound : (d.contextCheck x c).2 = false) (hdue : copyDue d x g)
    (ecc : Ecc) :
    segmentCopy x c ecc d =
      if d.touchesDegraded g.addr (g.alloc * 64) = true then endSegment d x c (g.mark segAborted)
      else copyFrame d x c g ecc := by
  rw [Dev.contextCheck] at hsound
  obtain ⟨⟨f, hnew, hthere⟩, hspan⟩ := hdue
  simp only [segmentCopy, h, hsound, hnew, hthere, hspan, Bool.and_self, Bool.not_true, Bool.false_eq_true, if_false]
  rfl

/-- A segment whose next frame is due copies it into a buffer that is not degraded. -/
theorem segmentCopy_copies (h : segOf d x c = some g) (hsound : (d.contextCheck x c).2 = false) (hdue : copyDue d x g)
    (hbuffer : d.touchesDegraded g.addr (g.alloc * 64) = false) (ecc : Ecc) :
    segmentCopy x c ecc d = copyFrame d x c g ecc :=
  (segmentCopy_due h hsound hdue ecc).trans (if_neg (ne_true_of_eq_false hbuffer))

/-- Nothing is copied of a frame on a degraded sub-channel. -/
theorem copyFrame_degraded (hring : d.touchesDegraded (ringAddr d x g.next) (readLen d x g) = true) (ecc : Ecc) :
    copyFrame d x c g ecc = setSeg d x c (some g.pass) :=
  if_pos hring

/-- Nothing is copied of a frame that cannot be read. -/
theorem copyFrame_unread {ecc : Ecc} (hring : d.touchesDegraded (ringAddr d x g.next) (readLen d x g) = false)
    (hread : (readNext d x g ecc).2.1 ≠ .ok) :
    copyFrame d x c g ecc = setSeg (readNext d x g ecc).1 x c (some g.pass) :=
  (if_neg (ne_true_of_eq_false hring)).trans (if_pos hread)

/-- A frame that is read gives its record to the segment. -/
theorem copyFrame_read {ecc : Ecc} (hring : d.touchesDegraded (ringAddr d x g.next) (readLen d x g) = false)
    (hread : (readNext d x g ecc).2.1 = .ok) :
    copyFrame d x c g ecc =
      putRecord (readNext d x g ecc).1 x c g.pass (nextIsGap d x g)
        (g.recordOf (nextIsGap d x g) (readNext d x g ecc).2.2.2) :=
  (if_neg (ne_true_of_eq_false hring)).trans (if_neg (not_not_intro hread))

end

/-- Settles O32: an edge by its direction and the ball's mode, a descriptor by whether it is open, a copy by the
segment's context, its frame, the memory under both and the room left. -/
theorem alarmsAndSegments : Obligations.AlarmsAndSegments := by
  unfold Obligations.AlarmsAndSegments
  refine ⟨fun s k b balls => ⟨fun hnone => ?_,
      fun e he => ⟨fun hfall => ?_, fun hrise => ⟨fun hmode => ?_, fun hmode => ?_⟩⟩,
      fun hnone => ?_, fun t ht => ?_, fun hoff => ?_, fun hon => ?_⟩,
    fun s k x c n w v ecc => ⟨fun hoff => ?_, fun hon hopen => ?_,
      fun hon hclosed => ⟨?_, ?_, fun hw => ?_, ?_⟩, fun hnone => ⟨?_, ?_⟩,
      fun g hg => ⟨fun hupset => ?_, fun hsound hwait => ?_, fun hsound hdue hbad => ?_,
        fun hsound hdue hgood => ⟨fun hring => ?_, fun hring hread => ?_,
          fun hring hread => ⟨fun hfull => ?_, fun hmark hroom => ?_⟩⟩, fun hpast => ?_, fun hspan => ?_⟩, ?_⟩⟩
  · exact State.lands_of_effect (exec_alarmEdge b s) (alarmEdge_idle hnone)
  · exact State.lands_of_effect (exec_alarmEdge b s) (alarmEdge_fall he hfall)
  · exact State.lands_of_effect (exec_alarmEdge b s) ((alarmEdge_rise he hrise).trans (if_neg hmode))
  · exact State.lands_of_effect (exec_alarmEdge b s) ((alarmEdge_rise he hrise).trans (if_pos hmode))
  · exact State.lands_of_effect (exec_alarmPulseEnd b s) (alarmPulseEnd_idle hnone)
  · exact State.lands_of_effect (exec_alarmPulseEnd b s) (alarmPulseEnd_due ht)
  · exact State.lands_of_effect (exec_alarmClear k balls s) (Dev.guarded_off hoff)
  · exact State.lands_of_effect (exec_alarmClear k balls s) ((Dev.guarded_on hon).trans (alarmClear_eq _ _))
  · exact State.lands_of_effect (exec_descWrite k n w v s) (if_neg (ne_true_of_eq_false hoff))
  · exact State.lands_of_effect (exec_descWrite k n w v s) ((if_pos hon).trans (descWrite_open hopen w.val v))
  · exact State.lands_of_effect (exec_descWrite k n 1 v s) ((if_pos hon).trans (descWrite_w1 hclosed v))
  · exact State.lands_of_effect (exec_descWrite k n 2 v s) ((if_pos hon).trans (descWrite_w2 hclosed v))
  · exact State.lands_of_effect (exec_descWrite k n w v s) ((if_pos hon).trans (descWrite_result hclosed hw v))
  · exact State.lands_of_effect (exec_descWrite k n 0 v s) ((if_pos hon).trans (descWrite_w0 hclosed v))
  · exact State.lands_of_effect (exec_segmentCopy x c ecc s) (segmentCopy_idle hnone ecc)
  · exact State.lands_of_effect (exec_segmentEnd x c s) (segmentEnd_idle hnone)
  · exact State.lands_of_effect (exec_segmentCopy x c ecc s) (segmentCopy_upset hg hupset ecc)
  · exact State.lands_of_effect (exec_segmentCopy x c ecc s) (segmentCopy_waiting hg hsound hwait ecc)
  · exact State.lands_of_effect (exec_segmentCopy x c ecc s) ((segmentCopy_due hg hsound hdue ecc).trans (if_pos hbad))
  · exact State.lands_of_effect (exec_segmentCopy x c ecc s)
      ((segmentCopy_copies hg hsound hdue hgood ecc).trans (copyFrame_degraded hring ecc))
  · exact State.lands_of_effect (exec_segmentCopy x c ecc s)
      ((segmentCopy_copies hg hsound hdue hgood ecc).trans (copyFrame_unread hring hread))
  · exact State.lands_of_effect (exec_segmentCopy x c ecc s)
      ((segmentCopy_copies hg hsound hdue hgood ecc).trans
        ((copyFrame_read hring hread).trans (if_pos (Seg.full_iff.mpr hfull))))
  · exact State.lands_of_effect (exec_segmentCopy x c ecc s)
      ((segmentCopy_copies hg hsound hdue hgood ecc).trans
        ((copyFrame_read hring hread).trans
          (if_neg (ne_true_of_eq_false (Seg.full_eq_false_iff.mpr ⟨hmark, hroom⟩)))))
  · exact State.lands_of_effect (exec_segmentEnd x c s) ((segmentEnd_open hg).trans (if_pos hpast))
  · exact State.lands_of_effect (exec_segmentEnd x c s)
      ((segmentEnd_open hg).trans (if_neg (ne_true_of_eq_false hspan)))
  · exact State.lands_of_effect (exec_descRead x c s) rfl

end Sys2Proof.Machine
end

section
/-!
PROOFS. Raman traces (R228, R231, R233, R242), the readout, PASS_2 and PROFILE_RELEASE of a profile (R234, R237 to
R248): each command by what it finds.
-/
namespace Sys2Proof.Machine

/-- An ended profile is gone from its line. -/
def Dev.dropEnded (d : Dev) (y : Line) (seq : Nat) : Dev :=
  d.onRaman y fun r => { r with ended := r.ended.filter fun p => p.seq != seq }

-- ---- traces (R228, R231, R233, R242) ----------------------------------------------------------------------------

/-- Whether a trace is only shown: RAMAN is not enabled by its configuration, has no power, or the device replays. -/
def traceBarred (d : Dev) (m : RegMap) (x : Line) : Bool :=
  !enActive m (pgRaman x) || !d.pageOn (pgRaman x) || d.pwr.mode == 6

theorem traceBarred_eq_false_iff {d : Dev} {m : RegMap} {x : Line} :
    traceBarred d m x = false ↔ enActive m (pgRaman x) = true ∧ d.pageOn (pgRaman x) = true ∧ d.pwr.mode ≠ 6 := by
  simp only [traceBarred, Bool.or_eq_false_iff, Bool.not_eq_false', beq_eq_false_iff_ne, and_assoc]

/-- What a pulse's trace comes to under a configuration: shown, joined to the profile in progress, or the first of one
that begins. -/
def judgePulse (d : Dev) (m : RegMap) (x : Line) (q : RamPulse) (begins : Bool) (shown joined begun : Dev) : Dev :=
  if traceBarred d m x = true then shown
  else
    match skipOf d m x q with
    | some f => skipPulse shown x f
    | none => if (d.line x).raman.prof.isSome = true then joined else if begins = true then begun else shown

section
variable {d : Dev} {m : RegMap} {x : Line} {q : RamPulse} {begins : Bool} {shown joined begun : Dev}

/-- A barred trace is shown, and its pulse not judged. -/
theorem judgePulse_barred (h : traceBarred d m x = true) : judgePulse d m x q begins shown joined begun = shown :=
  if_pos h

/-- A pulse that is not counted raises the counter of its reason (R231). -/
theorem judgePulse_skipped (h : traceBarred d m x = false) {f : Fld} (hskip : skipOf d m x q = some f) :
    judgePulse d m x q begins shown joined begun = skipPulse shown x f := by
  simp only [judgePulse, h, hskip, Bool.false_eq_true, if_false]

/-- A counted pulse joins the profile in progress, else begins one where it may (R233). -/
theorem judgePulse_counted (h : traceBarred d m x = false) (hskip : skipOf d m x q = none) :
    judgePulse d m x q begins shown joined begun =
      if (d.line x).raman.prof.isSome = true then joined else if begins = true then begun else shown := by
  simp only [judgePulse, h, hskip, Bool.false_eq_true, if_false]

end

/-- Without a pulse whose trace is still to come RAMAN_TRACE does nothing. -/
theorem ramanTrace_idle {ap : Nat → Dev → Dev} {x : Line} {as st darkAs darkS : List Int} {d : Dev}
    (h : (d.line x).raman.pulses = []) : ramanTrace ap x as st darkAs darkS d = d := by
  simp only [ramanTrace, h]

-- ---- readout (R234, R237) ---------------------------------------------------------------------------------------

/-- Without an ended profile to read out READOUT does nothing. -/
theorem readout_idle {x : Line} {bad : List Nat} {d : Dev}
    (h : (d.line x).raman.ended.find? (fun q => !q.read) = none) : readout x bad d = d := by
  simp only [readout, h]

/-- The oldest ended profile is read out in its cycle, and stores its values unless it was aborted. -/
theorem readout_oldest {x : Line} {bad : List Nat} {d : Dev} {q : Profile}
    (h : (d.line x).raman.ended.find? (fun q => !q.read) = some q) :
    readout x bad d =
      let o := readSamples x q bad (ramFld q.cfg x RAMAN.RLEN) 0 (d.advanceTo q.readAt)
      let d := if q.abort.isSome then o.1 else (o.1.memWrite (workAddr q.cfg x 0) (o.2.2.flatMap (leBytes 4))).1
      d.onEnded x q.seq fun p => { p with read := true, nonpos := o.2.1 } := by
  simp only [readout, h]

/-- Without a readout under way READOUT_END does nothing. -/
theorem readoutEnd_idle {x : Line} {d : Dev}
    (h : (d.line x).raman.ended.find? (fun q => q.read && !q.readEnd) = none) : readoutEnd x d = d := by
  simp only [readoutEnd, h]

/-- A readout lasts a cycle for every eight samples; with it an aborted profile is gone (R234). -/
theorem readoutEnd_oldest {x : Line} {d : Dev} {q : Profile}
    (h : (d.line x).raman.ended.find? (fun q => q.read && !q.readEnd) = some q) :
    readoutEnd x d =
      let d := d.advanceTo (q.readAt + ceilDiv (ramFld q.cfg x RAMAN.RLEN) 8)
      if q.abort.isSome = true then d.dropEnded x q.seq
      else d.onEnded x q.seq fun p => { p with readEnd := true, ready := d.clk.tick } := by
  simp only [readoutEnd, h]
  rfl

-- ---- the second pass (R238, R242, R248) -------------------------------------------------------------------------

/-- The oldest profile of a line that is read out and has no frame yet. -/
def nextPass2 (d : Dev) (x : Line) : Option Profile :=
  (d.line x).raman.ended.find? fun q => q.readEnd && q.frame.isNone

/-- Line B's profile of a pair, its readout over. -/
def readPartner (d : Dev) (seq : Nat) : Option Profile :=
  (d.line .b).raman.ended.find? fun o => o.readEnd && o.seq == seq

/-- Without a profile that is read out PASS_2 does nothing. -/
theorem pass2_idle {x : Line} {bad : List Nat} {d : Dev} (h : nextPass2 d x = none) : pass2 x bad d = d := by
  rw [nextPass2] at h
  simp only [pass2, h]

section
variable {d : Dev} {q : Profile}

/-- A single-ended profile runs its second pass 64 cycles after its readout. -/
theorem pass2_single {x : Line} {bad : List Nat} (h : nextPass2 d x = some q) (hsingle : q.double = false) :
    pass2 x bad d = pass2Of (d.advanceTo (q.ready + 64)) x q none bad := by
  rw [nextPass2] at h
  simp only [pass2, h, hsingle, Bool.false_eq_true, if_false]

/-- The pair's second pass is line A's. -/
theorem pass2_lineB {bad : List Nat} (h : nextPass2 d .b = some q) (hpair : q.double = true) :
    pass2 .b bad d = d := by
  rw [nextPass2] at h
  simp only [pass2, h, hpair, if_true]

/-- A pair whose readout on line B is not over waits. -/
theorem pass2_waits {bad : List Nat} (h : nextPass2 d .a = some q) (hpair : q.double = true)
    (hpartner : readPartner d q.seq = none) : pass2 .a bad d = d := by
  rw [nextPass2] at h
  rw [readPartner] at hpartner
  simp only [pass2, h, hpair, hpartner, if_true]

/-- A pair runs its second pass 64 cycles after the later of its readouts. -/
theorem pass2_pair {bad : List Nat} {o : Profile} (h : nextPass2 d .a = some q) (hpair : q.double = true)
    (hpartner : readPartner d q.seq = some o) :
    pass2 .a bad d = pass2Of (d.advanceTo (max q.ready o.ready + 64)) .a q (some o) bad := by
  rw [nextPass2] at h
  rw [readPartner] at hpartner
  simp only [pass2, h, hpair, hpartner, if_true]

end

-- ---- release (R244, R247) ---------------------------------------------------------------------------------------

/-- Without an ended profile PROFILE_RELEASE does nothing. -/
theorem profileRelease_none {x : Line} {d : Dev} (h : (d.line x).raman.ended = []) : profileRelease x d = d := by
  simp only [profileRelease, h]

/-- The oldest ended profile waits for its frame. -/
theorem profileRelease_unformed {x : Line} {d : Dev} {q : Profile} {rest : List Profile}
    (h : (d.line x).raman.ended = q :: rest) (hframe : q.frame = none) : profileRelease x d = d := by
  simp only [profileRelease, h, hframe]

/-- A formed profile is released 64 cycles after its frame, and goes to its stream where it has one. -/
theorem profileRelease_formed {x : Line} {d : Dev} {q : Profile} {rest : List Profile} {bytes : List Byte} {t : Nat}
    (h : (d.line x).raman.ended = q :: rest) (hframe : q.frame = some (bytes, t)) :
    profileRelease x d =
      let d := (d.advanceTo (t + 64)).dropEnded x q.seq
      let d := (if q.double = true then d.dropEnded .b q.seq else d).event (pgRaman x) 4
      if ramFld q.cfg x RAMAN.OUT.STREAM_EN = 1 then d.handOver (ramFld q.cfg x RAMAN.OUT.STREAM) 0x08 bytes
      else d := by
  simp only [profileRelease, h, hframe]
  rfl

/-- Settles O33: a trace by its pulse's judgement, a readout and the second pass by the profile that is due, a release
by the oldest profile's frame. -/
theorem ramanTracesAndProfiles : Obligations.RamanTracesAndProfiles := by
  unfold Obligations.RamanTracesAndProfiles
  refine ⟨fun s x a b da db bad => ⟨fun hnone => ?_, fun q rest hq => ?_, fun hnone => ?_, fun q hq => ?_,
      fun hnone => ?_, fun q hq => ⟨fun habort => ?_, fun hwhole => ?_⟩⟩,
    fun s x bad => ⟨fun hnone => ?_, fun q hq hsingle => ?_, ?_, ?_, fun hnone => ?_, fun q rest hq hframe => ?_, ?_,
      fun q rest bytes t hq hframe => ?_⟩⟩
  · exact State.lands_of_effect (exec_ramanTrace x a b da db s) (ramanTrace_idle hnone)
  · intro _ begins _ m span d next k trace dark shown gives runs
    have hjudge : ramanTrace (fun p d => applyOne p 3 d) x a b da db s.dev =
        judgePulse d m x q begins (shown d) (countPulse (shown d) x q (trace a) (trace b) (dark da) (dark db))
          (startProfile (shown next) m x q (trace a) (trace b) (dark da) (dark db)) := by
      unfold ramanTrace
      rw [hq]
      rfl
    have hland {e : Dev} := State.lands_of_effect (e := e) (exec_ramanTrace x a b da db s)
    refine ⟨fun hbarred => hland (hjudge.trans (judgePulse_barred ?_)), fun hruns f hskip => ?_,
      fun hruns hskip => ?_⟩
    · exact Bool.eq_true_of_not_eq_false fun h => hbarred (traceBarred_eq_false_iff.mp h)
    · exact hland (hjudge.trans (judgePulse_skipped (traceBarred_eq_false_iff.mpr hruns) hskip))
    · have hcounted := hjudge.trans (judgePulse_counted (traceBarred_eq_false_iff.mpr hruns) hskip)
      exact ⟨fun hsome => hland (hcounted.trans (if_pos hsome)),
        fun hnone hbegins => hland ((hcounted.trans (if_neg (ne_true_of_eq_false hnone))).trans (if_pos hbegins)),
        fun hnone hstays =>
          hland ((hcounted.trans (if_neg (ne_true_of_eq_false hnone))).trans (if_neg (ne_true_of_eq_false hstays)))⟩
  · exact State.lands_of_effect (exec_readout x bad s) (readout_idle hnone)
  · exact State.lands_of_effect (exec_readout x bad s) (readout_oldest hq)
  · exact State.lands_of_effect (exec_readoutEnd x s) (readoutEnd_idle hnone)
  · exact State.lands_of_effect (exec_readoutEnd x s) ((readoutEnd_oldest hq).trans (if_pos habort))
  · exact State.lands_of_effect (exec_readoutEnd x s)
      ((readoutEnd_oldest hq).trans (if_neg (by rw [hwhole]; exact Bool.false_ne_true)))
  · exact State.lands_of_effect (exec_pass2 x bad s) (pass2_idle hnone)
  · exact State.lands_of_effect (exec_pass2 x bad s) (pass2_single hq hsingle)
  · rintro q rfl hq hpair
    exact State.lands_of_effect (exec_pass2 .b bad s) (pass2_lineB hq hpair)
  · rintro q o rfl hq hpair ho
    exact State.lands_of_effect (exec_pass2 .a bad s) (pass2_pair hq hpair ho)
  · exact State.lands_of_effect (exec_profileRelease x s) (profileRelease_none hnone)
  · exact State.lands_of_effect (exec_profileRelease x s) (profileRelease_unformed hq hframe)
  · rintro rfl hpartner hpairs
    refine State.lands_of_effect (exec_pass2 .a bad s) ?_
    cases hnext : nextPass2 s.dev .a with
    | none => exact pass2_idle hnext
    | some q =>
      rw [show (s.dev.line .a).raman.ended.find? _ = some q from hnext] at hpartner
      exact pass2_waits hnext (hpairs q hnext) hpartner
  · exact State.lands_of_effect (exec_profileRelease x s) (profileRelease_formed hq hframe)

end Sys2Proof.Machine
end

section
/-!
PROOFS. The platinum front end (R251 to R257) and the housekeeping converter (R264 to R272): each command by what it
finds.
-/
namespace Sys2Proof.Machine

-- ---- the platinum front end: conversions and checks (R251, R254) ------------------------------------------------

/-- With no channel visited, and during a calibration visit, no conversion ends. -/
theorem pfeConversion_idle {q : Int} {ov : Bool} {d : Dev} (h : d.pfe.ch = none ∨ d.pfe.calEnd.isSome = true) :
    pfeConversion q ov d = d := by
  unfold pfeConversion
  split
  case h_1 => rfl
  case h_2 k hk => exact if_pos (h.resolve_left (by rw [hk]; exact Option.some_ne_none k))

/-- A conversion of the visited channel gives its code, and the channel goes on. -/
theorem pfeConversion_visited {q : Int} {ov : Bool} {d : Dev} {k : Nat} (hk : d.pfe.ch = some k)
    (hcal : d.pfe.calEnd = none) :
    pfeConversion q ov d =
      let d := d.advanceTo d.pfe.endAt
      pfeGoOn (pfeCode d k q ov) k d.clk.tick := by
  simp only [pfeConversion, hk, hcal, Option.isSome_none, Bool.false_eq_true, if_false]

/-- The passing and the failing checks in a row of channel k, with one more. -/
def complianceRun (d : Dev) (k : Nat) (pass : Bool) : Nat × Nat :=
  let c := d.pfe.comply.getD k (0, 0)
  if pass then (c.1 + 1, 0) else (0, c.2 + 1)

/-- A check of channel k is counted. -/
def Dev.countCheck (d : Dev) (k : Nat) (pass : Bool) : Dev :=
  d.onPfe fun p => { p with comply := p.comply.set k (complianceRun d k pass) }

/-- Channel k is OPEN, and its conversion marked (R254). -/
def Dev.channelOpens (d : Dev) (k : Nat) : Dev :=
  (((d.onPfe fun p => { p with openNow := true }).setStatus pgPfe (8 + k) true).event pgPfe 6).wakeEdge 3

/-- Channel k is OPEN no more, and its next four conversions settle (R252, R254). -/
def Dev.channelCloses (d : Dev) (k : Nat) : Dev :=
  (d.onPfe fun p => { p with settle := 4, small := 0 }).setStatus pgPfe (8 + k) false

/-- Only the channel visited is excited. -/
theorem pfeComplianceCheck_other {k : Nat} {pass : Bool} {d : Dev} (h : d.pfe.ch ≠ some k) :
    pfeComplianceCheck k pass d = d :=
  if_pos (bne_iff_ne.mpr h)

/-- The second failing check in a row opens the visited channel, the second passing one closes it (R254). -/
theorem pfeComplianceCheck_visited {k : Nat} {pass : Bool} {d : Dev} (h : d.pfe.ch = some k) :
    pfeComplianceCheck k pass d =
      let c := complianceRun d k pass
      let e := d.countCheck k pass
      if d.status pgPfe (8 + k) = false ∧ 2 ≤ c.2 then e.channelOpens k
      else if d.status pgPfe (8 + k) = true ∧ 2 ≤ c.1 then e.channelCloses k
      else e := by
  simp only [pfeComplianceCheck, h, bne_self_eq_false, Bool.false_eq_true, if_false, Bool.and_eq_true,
    Bool.not_eq_true', decide_eq_true_eq]
  rfl

-- ---- calibration visits (R256, R257) ----------------------------------------------------------------------------

/-- A calibration visit ends at tick t: its trims replace the factory's, and CAL_DONE counts. -/
def Dev.calVisited (d : Dev) (shorted divider : List (List Int)) (t : Nat) : Dev :=
  calDoneOn (((d.advanceTo t).onPfe fun p =>
    { p with calEnd := none, trims := (List.range 8).map fun g => some (calFound shorted divider g) }).setStatus
      pgPfe 4 false) pgPfe

/-- The visits go on: with the channel after the one left, else with the first one enabled. -/
def pfeResume (d : Dev) : Dev :=
  match d.pfe.ch with
  | some k => pfeMove d k d.clk.tick
  | none => match (pfeChans d.regs).head? with
    | some k => pfeVisit d k d.clk.tick
    | none => d

theorem pfeResume_left {d : Dev} {k : Nat} (h : d.pfe.ch = some k) : pfeResume d = pfeMove d k d.clk.tick := by
  simp only [pfeResume, h]

theorem pfeResume_first {d : Dev} {k : Nat} (h : d.pfe.ch = none) (hk : (pfeChans d.regs).head? = some k) :
    pfeResume d = pfeVisit d k d.clk.tick := by
  simp only [pfeResume, h, hk]

theorem pfeResume_disabled {d : Dev} (h : d.pfe.ch = none) (hnone : pfeChans d.regs = []) : pfeResume d = d := by
  simp only [pfeResume, h, hnone, List.head?_nil]

/-- A calibration visit that was asked for meanwhile starts at once. -/
def calAgain (d : Dev) : Dev := if d.pfe.calReq = true then pfeCalStart d d.clk.tick else d

/-- Without a calibration visit PFE_CAL_VISIT does nothing. -/
theorem pfeCalVisit_idle {sh dv : List (List Int)} {d : Dev} (h : d.pfe.calEnd = none) : pfeCalVisit sh dv d = d := by
  simp only [pfeCalVisit, h]

/-- A calibration visit ends in its cycle, and the front end goes on. -/
theorem pfeCalVisit_ends {sh dv : List (List Int)} {d : Dev} {t : Nat} (h : d.pfe.calEnd = some t) :
    pfeCalVisit sh dv d = calAgain (pfeResume (d.calVisited sh dv t)) := by
  simp only [pfeCalVisit, h]
  rfl

-- ---- the housekeeping converter: passes and conversions (R264, R265) --------------------------------------------

/-- With HK off, and during a pass, none starts. -/
theorem hkPassStart_idle {ap : Nat → Dev → Dev} {d : Dev} (h : d.pageOn pgHk = false ∨ d.hk.slot.isSome = true) :
    hkPassStart ap d = d :=
  if_pos (by rw [Bool.or_eq_true, Bool.not_eq_true']; exact h)

/-- The device in the cycle in which the next pass is due (R265): the present one where there was none before. -/
def Dev.hkAtPass (d : Dev) : Dev :=
  match d.hk.passAt with
  | none => d
  | some t => d.advanceTo (max (d.hk.passEnd + 1) (hkDue d t))

/-- A pass that is due starts, with its first conversion where the converter is free. -/
theorem hkPassStart_due {ap : Nat → Dev → Dev} {d : Dev} (hon : d.pageOn pgHk = true) (hslot : d.hk.slot = none) :
    hkPassStart ap d =
      let e := hkNewPass d.hkAtPass
      if e.hk.conv.isSome = true then e else hkBegin ap e := by
  simp only [hkPassStart, hon, hslot, Option.isSome_none, Bool.not_true, Bool.or_self, Bool.false_eq_true, if_false]
  rfl

/-- Without a conversion HK_CONVERSION does nothing. -/
theorem hkConversion_idle {ap : Nat → Dev → Dev} {code : Nat} {d : Dev} (h : d.hk.conv = none) :
    hkConversion ap code d = d := by
  simp only [hkConversion, h]

/-- A conversion of the sequence is over: the pass goes to its next slot, or ends with it. -/
def Dev.hkSlotOver (d : Dev) (c : HkConv) : Dev :=
  let more : Bool := decide (c.slot + 1 < hkFld d.regs HK.SEQ_CTRL.LEN)
  hkPassOver (d.onHk fun h =>
    { h with shield := false, slot := if more then some (c.slot + 1) else none,
             passEnd := if more then h.passEnd else c.stop })

/-- A conversion ends, and the next begins a cycle later; an urgent one leaves the pass as it is. -/
def Dev.hkTurn (ap : Nat → Dev → Dev) (d : Dev) (c : HkConv) : Dev :=
  let d := (d.advanceTo (c.stop + 1)).onHk fun h => { h with conv := none }
  (hkBegin ap (if c.urgent = true then d else d.hkSlotOver c)).advanceTo (c.stop + 2)

/-- A conversion ends, and is delivered unless a parity fault of the page holds it back (R39, R264). -/
theorem hkConversion_ends {ap : Nat → Dev → Dev} {code : Nat} {d : Dev} {c : HkConv} (h : d.hk.conv = some c) :
    hkConversion ap code d =
      if c.held = true then Dev.hkTurn ap d c else hkDeliver (Dev.hkTurn ap d c) c code := by
  simp only [hkConversion, h, Dev.hkTurn, Dev.hkSlotOver, decide_eq_true_eq]
  cases c.urgent <;> rfl

-- ---- urgent requests (R268) -------------------------------------------------------------------------------------

/-- An urgent request joins the queue. -/
def Dev.hkQueued (d : Dev) (input : Nat) : Dev := showHk (d.onHk fun h => { h with queue := h.queue ++ [input] })

/-- A request of an input that is none, or beyond the queue of four, counts as refused. -/
theorem hkUrgent_refused {ap : Nat → Dev → Dev} {input : Nat} {d : Dev} (h : 23 < input ∨ 4 ≤ d.hk.queue.length) :
    hkUrgent ap input d = d.event pgHk 7 :=
  if_pos h

section
variable {ap : Nat → Dev → Dev} {input : Nat} {d : Dev} (hin : input ≤ 23) (hroom : d.hk.queue.length < 4)
include hin hroom

/-- A request begins after three cycles where the converter is free. -/
theorem hkUrgent_free (h : (d.hkQueued input).hk.conv = none) :
    hkUrgent ap input d = hkBegin ap ((d.hkQueued input).advance 3) := by
  rw [Dev.hkQueued] at h
  rw [hkUrgent, if_neg (by omega)]
  simp only [h, Dev.hkQueued]

/-- A request breaks into an unprotected conversion of the sequence that would not end before, and waits otherwise. -/
theorem hkUrgent_busy {c : HkConv} (h : (d.hkQueued input).hk.conv = some c) :
    hkUrgent ap input d =
      let e := d.hkQueued input
      if (!c.urgent && !e.hk.shield && decide (e.clk.tick + 2 ≤ c.stop)) = true then
        hkBegin ap (((e.advance 2).event pgHk 6).advance 1)
      else e := by
  rw [Dev.hkQueued] at h
  rw [hkUrgent, if_neg (by omega)]
  simp only [h, Dev.hkQueued]
  rfl

end

-- ---- telemetry (R272) -------------------------------------------------------------------------------------------

/-- The device at its next telemetry, from which the period after it counts. -/
def Dev.telemetryDue (d : Dev) : Dev :=
  let d := d.advanceTo (d.hk.telAt + hkFld d.regs HK.TELEM.PERIOD * 625000)
  d.onHk fun h => { h with telAt := d.clk.tick }

/-- The telemetry of the 24 inputs leaves, and their statistics start again. -/
def Dev.sendTelemetry (d : Dev) : Dev :=
  let payload := leBytes 4 24 ++ leBytes 4 0 ++ (List.range 24).flatMap (telRecord d)
  let d := { d with freeCtr := d.freeCtr + 24 }
  (d.handOver (hkFld d.regs HK.TELEM.STREAM) 0x0B payload).onHk fun h => { h with tel := List.replicate 24 (0, 0, 0) }

/-- The free values that telemetry takes leave the configuration of its stream. -/
theorem Dev.sendTelemetry_eq (d : Dev) :
    d.sendTelemetry =
      (({ d with freeCtr := d.freeCtr + 24 } : Dev).handOver (hkFld d.regs HK.TELEM.STREAM) 0x0B
        (leBytes 4 24 ++ leBytes 4 0 ++ (List.range 24).flatMap (telRecord d))).onHk fun h =>
          { h with tel := List.replicate 24 (0, 0, 0) } := rfl

/-- With HK off or TELEM.EN = 0 no telemetry leaves. -/
theorem telemetry_idle {d : Dev} (h : d.pageOn pgHk = false ∨ hkFld d.regs HK.TELEM.EN = 0) : telemetry d = d :=
  if_pos (by rw [Bool.or_eq_true, Bool.not_eq_true', beq_iff_eq]; exact h)

/-- Telemetry leaves in its cycle where the Foreman runs. -/
theorem telemetry_due {d : Dev} (hon : d.pageOn pgHk = true) (hen : hkFld d.regs HK.TELEM.EN = 1) :
    telemetry d = if (!d.telemetryDue.foremanRuns) = true then d.telemetryDue else d.telemetryDue.sendTelemetry := by
  have hleaves : ¬ (!d.pageOn pgHk || hkFld d.regs HK.TELEM.EN == 0) = true := by
    rw [hon, hen]
    decide
  rw [telemetry, if_neg hleaves]
  rfl

/-- Settles O34: a conversion, a check and a calibration visit by the channel visited; a pass, a conversion and a
request of HK by what the converter does, its telemetry by TELEM.EN and the Foreman. -/
theorem platinumAndHousekeeping : Obligations.PlatinumAndHousekeeping := by
  unfold Obligations.PlatinumAndHousekeeping
  refine ⟨fun s q ov pass ch sh dv => ⟨fun hidle => ?_, fun k hk hcal => ?_, fun hother => ?_, fun hch => ?_,
      fun hnone => ?_, fun t ht => ?_⟩,
    fun s k code i => ⟨fun hidle => ?_, fun hon hslot => ?_, fun hnone => ?_, fun c hc => ?_, fun hoff => ?_,
      fun hon hbad => ?_, fun hon hin hroom => ⟨fun hfree => ?_, fun c hc => ?_⟩, fun hoff => ?_, fun hen => ?_,
      fun hon hen => ?_⟩⟩
  · exact State.lands_of_effect (exec_pfeConversion q ov s) (congrArg _ (pfeConversion_idle hidle))
  · exact State.lands_of_effect (exec_pfeConversion q ov s) (congrArg _ (pfeConversion_visited hk hcal))
  · exact State.lands_of_effect (exec_pfeComplianceCheck ch pass s) (pfeComplianceCheck_other hother)
  · have hland {e : Dev} (he : pfeComplianceCheck ch.val pass s.dev = e) : s.lands (.pfeComplianceCheck ch pass) e :=
      State.lands_of_effect (exec_pfeComplianceCheck ch pass s) he
    have hcheck := pfeComplianceCheck_visited (pass := pass) hch
    refine ⟨fun hshut hfail => ?_, fun hopen hpass => ?_, fun hkept hkept' => ?_⟩
    · exact hland (hcheck.trans (if_pos ⟨hshut, hfail⟩))
    · have hnew : ¬ (s.dev.status pgPfe (8 + ch.val) = false ∧ 2 ≤ (complianceRun s.dev ch.val pass).2) :=
        fun h => ne_true_of_eq_false h.1 hopen
      exact hland ((hcheck.trans (if_neg hnew)).trans (if_pos ⟨hopen, hpass⟩))
    · exact hland ((hcheck.trans (if_neg hkept)).trans (if_neg hkept'))
  · exact State.lands_of_effect (exec_pfeCalVisit sh dv s) (congrArg _ (pfeCalVisit_idle hnone))
  · have hland {e : Dev} (he : pfeResume (s.dev.calVisited sh dv t) = e) :
        s.lands (.pfeCalVisit sh dv) (applyNow pgPfe (calAgain e)) :=
      State.lands_of_effect (exec_pfeCalVisit sh dv s)
        (congrArg _ ((pfeCalVisit_ends ht).trans (congrArg calAgain he)))
    exact ⟨fun k hk => hland (pfeResume_left hk), fun hleft k hk => hland (pfeResume_first hleft hk),
      fun hleft hnone => hland (pfeResume_disabled hleft hnone)⟩
  · exact State.lands_of_effect (exec_hkPassStart s) (hkPassStart_idle hidle)
  · have hpass := hkPassStart_due (ap := applyNow) hon hslot
    exact ⟨fun hbusy => State.lands_of_effect (exec_hkPassStart s) (hpass.trans (if_pos hbusy)),
      fun hfree => State.lands_of_effect (exec_hkPassStart s) (hpass.trans (if_neg (ne_true_of_eq_false hfree)))⟩
  · exact State.lands_of_effect (exec_hkConversion code s) (hkConversion_idle hnone)
  · have hends := hkConversion_ends (ap := applyNow) (code := code.toNat) hc
    exact ⟨fun hheld => State.lands_of_effect (exec_hkConversion code s) (hends.trans (if_pos hheld)),
      fun hsound => State.lands_of_effect (exec_hkConversion code s)
        (hends.trans (if_neg (ne_true_of_eq_false hsound)))⟩
  · exact State.lands_of_effect (exec_urgent k i s) (Dev.guarded_off hoff)
  · exact State.lands_of_effect (exec_urgent k i s) ((Dev.guarded_on hon).trans (hkUrgent_refused hbad))
  · exact State.lands_of_effect (exec_urgent k i s) ((Dev.guarded_on hon).trans (hkUrgent_free hin hroom hfree))
  · have hurgent := (Dev.guarded_on (k := k) (off := 0x980) hon).trans (hkUrgent_busy (ap := applyNow) hin hroom hc)
    exact ⟨fun hbreaks => State.lands_of_effect (exec_urgent k i s) (hurgent.trans (if_pos hbreaks)),
      fun hwaits => State.lands_of_effect (exec_urgent k i s)
        (hurgent.trans (if_neg (ne_true_of_eq_false hwaits)))⟩
  · exact State.lands_of_effect (exec_telemetry s) (telemetry_idle (.inl hoff))
  · exact State.lands_of_effect (exec_telemetry s) (telemetry_idle (.inr hen))
  · have hdue := telemetry_due hon hen
    refine ⟨fun hhalted => ?_, fun hruns => ?_⟩
    · exact State.lands_of_effect (exec_telemetry s) (hdue.trans (if_pos ((Bool.not_eq_true' _).mpr hhalted)))
    · have hsent := hdue.trans (if_neg (by rw [Bool.not_eq_true', Bool.not_eq_false]; exact hruns))
      exact State.lands_of_effect (exec_telemetry s) (hsent.trans s.dev.telemetryDue.sendTelemetry_eq)

end Sys2Proof.Machine
end

section
/-!
PROOFS. The interval units (R274 to R277): what arming, an edge, the timeout and the showing of a result do, by the
state of the unit.
-/
namespace Sys2Proof.Machine

-- ---- a unit as state --------------------------------------------------------------------------------------------

/-- A unit reads as it was set. -/
@[simp] theorem tiu_setTiu (d : Dev) (u : Nat) (t : Tiu) : (setTiu d u t).tiu u = t := by
  unfold setTiu Dev.tiu
  split <;> rfl

@[simp] theorem setTiu_clk (d : Dev) (u : Nat) (t : Tiu) : (setTiu d u t).clk = d.clk := by
  unfold setTiu
  split <;> rfl

@[simp] theorem Dev.advanceTo_tiu (d : Dev) (n u : Nat) : (d.advanceTo n).tiu u = d.tiu u := by
  simp only [Dev.tiu, Dev.advanceTo_tiu0, Dev.advanceTo_tiu1]

/-- The settling of the outputs leaves the units. -/
theorem settle_tiu (d : Dev) (u : Nat) : (settle d).tiu u = d.tiu u := by
  obtain ⟨e, ⟨m, new, rfl, -⟩, hs⟩ := settle_form d
  obtain ⟨m', t', hr, -⟩ := d.reportDropped_form
  rw [hs, settleOutputs_eq, hr]
  rfl

-- ---- arming (R275) ----------------------------------------------------------------------------------------------

/-- ARM arms an idle unit in SINGLE and CONTINUOUS mode. -/
theorem tiuArm_arms {u : Nat} {d : Dev} (hidle : tiuIdle (d.tiu u) = true)
    (hmode : tiuFld d.regs u TIU.MODE = 1 ∨ tiuFld d.regs u TIU.MODE = 2) : tiuArm u d = armFrom d u d.clk.tick :=
  if_pos ⟨hmode, hidle⟩

/-- ARM leaves a unit that is not idle, and one in another mode. -/
theorem tiuArm_stays {u : Nat} {d : Dev} (h : tiuIdle (d.tiu u) = false ∨ tiuFld d.regs u TIU.MODE = 0 ∨
    tiuFld d.regs u TIU.MODE = 3) : tiuArm u d = d := by
  refine if_neg ?_
  rintro ⟨hmode, hidle⟩
  rcases h with hbusy | hmode'
  · exact ne_true_of_eq_false hbusy hidle
  · omega

-- ---- stop edges of a measurement (R275) -------------------------------------------------------------------------

/-- A measurement that expires ends with TIMEOUT cycles, or at the counter's end where TIMEOUT is 0. -/
theorem tiuExpire_measuring {d : Dev} {u b n : Nat} (h : (d.tiu u).start = some (b, n)) :
    tiuExpire d u =
      let lim := tiuFld (d.tiu u).cfg u TIU.TIMEOUT
      let n := if lim = 0 then 281474976710655 else lim
      tiuEnd (d.event (pgTiu u) 5) u (b + n) n true false := by
  simp only [tiuExpire, h]
  rfl

/-- Without a measurement TIU_TIMEOUT does nothing. -/
theorem tiuTimeout_idle {u : Nat} {d : Dev} (h : (d.tiu u).start = none) : tiuTimeout u d = d := by
  simp only [tiuTimeout, h]

/-- TIU_TIMEOUT ends a measurement in the cycle in which it expires. -/
theorem tiuTimeout_measuring {u : Nat} {d : Dev} {b n : Nat} (h : (d.tiu u).start = some (b, n)) :
    tiuTimeout u d =
      let lim := tiuFld (d.tiu u).cfg u TIU.TIMEOUT
      let n := if lim = 0 then 281474976710655 else lim
      tiuEnd ((d.advanceTo (b + n)).event (pgTiu u) 5) u (b + n) n true false := by
  have hexpires (t : Nat) := tiuExpire_measuring ((congrArg Tiu.start (d.advanceTo_tiu t u)).trans h)
  simp only [tiuTimeout, h, hexpires, Dev.advanceTo_tiu]
  rfl

/-- A stop edge after TIMEOUT finds the measurement expired. -/
theorem stopStarted_late {d : Dev} {u b n : Nat} (h : (d.tiu u).start = some (b, n))
    (hlim : tiuFld (d.tiu u).cfg u TIU.TIMEOUT ≠ 0) (hlate : tiuFld (d.tiu u).cfg u TIU.TIMEOUT < d.clk.tick - b) :
    stopStarted d u b =
      let lim := tiuFld (d.tiu u).cfg u TIU.TIMEOUT
      tiuEnd (d.event (pgTiu u) 5) u (b + lim) lim true false := by
  refine (if_pos ⟨hlim, hlate⟩).trans ((tiuExpire_measuring h).trans ?_)
  simp only [hlim, if_false]

/-- A stop edge within TIMEOUT ends the measurement, unless it comes before HOLDOFF. -/
theorem stopStarted_within {d : Dev} {u b : Nat} (h : tiuFld (d.tiu u).cfg u TIU.TIMEOUT = 0 ∨
    d.clk.tick - b ≤ tiuFld (d.tiu u).cfg u TIU.TIMEOUT) :
    stopStarted d u b =
      if d.clk.tick - b < tiuFld (d.tiu u).cfg u TIU.HOLDOFF then d
      else tiuEnd d u d.clk.tick (d.clk.tick - b) false (d.clk.tick == b) :=
  if_neg (by omega)

-- ---- start and stop edges by the state of the unit (R275, R276) -------------------------------------------------

/-- A unit's measurement starts in the present cycle. -/
def Dev.tiuBegun (d : Dev) (u : Nat) : Dev :=
  setTiu d u { d.tiu u with start := some (d.clk.tick, d.timeNs) }

section
variable {d : Dev} {u : Nat} {same : Bool}

/-- A start edge during a measurement is its stop edge where the two have one source, and is ignored otherwise. -/
theorem tiuStartEdge_measuring {b n : Nat} (h : (d.tiu u).start = some (b, n)) :
    tiuStartEdge u same d =
      if oneSource (d.tiu u).cfg u = true then stopStarted d u b else d.event (pgTiu u) 7 := by
  simp only [tiuStartEdge, h]

/-- A stop edge during a measurement meets it. -/
theorem tiuStopEdge_measuring {b n : Nat} (h : (d.tiu u).start = some (b, n)) :
    tiuStopEdge u d = stopStarted d u b := by
  simp only [tiuStopEdge, h]

variable (hstart : (d.tiu u).start = none)
include hstart

/-- A start edge of a unit that is not armed counts only before a result in CONTINUOUS mode. -/
theorem tiuStartEdge_unarmed (h : (d.tiu u).armed = none) :
    tiuStartEdge u same d =
      if (d.tiu u).result.isSome = true ∧ tiuFld d.regs u TIU.MODE = 2 then d.event (pgTiu u) 7 else d := by
  simp only [tiuStartEdge, hstart, h, Bool.and_eq_true, beq_iff_eq]

/-- A start edge before the cycle from which the unit is armed is ignored. -/
theorem tiuStartEdge_early {a : Nat} (h : (d.tiu u).armed = some a) (hearly : d.clk.tick < a) :
    tiuStartEdge u same d = d.event (pgTiu u) 7 := by
  simp only [tiuStartEdge, hstart, h, if_pos hearly]

/-- A start edge of an armed unit starts its measurement, and a stop of another source in the same cycle ends it where
HOLDOFF is 0 (R276). -/
theorem tiuStartEdge_armed {a : Nat} (h : (d.tiu u).armed = some a) (hfrom : a ≤ d.clk.tick) :
    tiuStartEdge u same d =
      if (same = true ∧ tiuFld (d.tiu u).cfg u TIU.SOURCES.START_SRC ≠ tiuFld (d.tiu u).cfg u TIU.SOURCES.STOP_SRC) ∧
          tiuFld (d.tiu u).cfg u TIU.HOLDOFF = 0 then
        tiuEnd (d.tiuBegun u) u d.clk.tick 0 false true
      else d.tiuBegun u := by
  simp only [tiuStartEdge, Dev.tiuBegun, hstart, h, if_neg (Nat.not_lt.mpr hfrom), Bool.and_eq_true, bne_iff_ne,
    beq_iff_eq, setTiu_clk]

/-- A start edge alone starts the measurement of an armed unit. -/
theorem tiuStartEdge_begins {a : Nat} (h : (d.tiu u).armed = some a) (hfrom : a ≤ d.clk.tick) :
    tiuStartEdge u false d = d.tiuBegun u :=
  (tiuStartEdge_armed hstart h hfrom).trans (if_neg (by simp))

/-- A stop edge of a unit that is not armed does nothing. -/
theorem tiuStopEdge_unarmed (h : (d.tiu u).armed = none) : tiuStopEdge u d = d := by
  simp only [tiuStopEdge, hstart, h]

/-- A stop edge of an armed unit is its start edge where the two have one source; otherwise it is a stop without a
start, and counts from the cycle from which the unit is armed. -/
theorem tiuStopEdge_armed {a : Nat} (h : (d.tiu u).armed = some a) :
    tiuStopEdge u d =
      if oneSource (d.tiu u).cfg u = true then tiuStartEdge u false d
      else if d.clk.tick < a then d else d.event (pgTiu u) 6 := by
  simp only [tiuStopEdge, hstart, h]

end

-- ---- where an edge lands ----------------------------------------------------------------------------------------

section
variable (d : Dev) (u : Nat) (lands : Dev → Prop)

/-- An edge that stops a measurement: it lands on the measurement expired, held off or ended. -/
def edgeStops : Prop :=
  let t := d.tiu u
  let lim := tiuFld t.cfg u TIU.TIMEOUT
  let hold := tiuFld t.cfg u TIU.HOLDOFF
  let now := d.clk.tick
  ∀ b n, t.start = some (b, n) →
    (lim ≠ 0 → lim < now - b → lands (tiuEnd (d.event (pgTiu u) 5) u (b + lim) lim true false)) ∧
    (lim = 0 ∨ now - b ≤ lim →
      (now - b < hold → lands d) ∧ (hold ≤ now - b → lands (tiuEnd d u now (now - b) false (now == b))))

/-- An edge that starts a measurement: it lands on the edge ignored or the measurement begun. -/
def edgeBegins : Prop :=
  ∀ a, (d.tiu u).start = none → (d.tiu u).armed = some a →
    (d.clk.tick < a → lands (d.event (pgTiu u) 7)) ∧ (a ≤ d.clk.tick → lands (d.tiuBegun u))

/-- A start edge, by the state of the unit. -/
def edgeStarts : Prop :=
  let t := d.tiu u
  let mode := tiuFld d.regs u TIU.MODE
  edgeBegins d u lands ∧ (oneSource t.cfg u = true → edgeStops d u lands) ∧
    (oneSource t.cfg u = false → t.start.isSome = true → lands (d.event (pgTiu u) 7)) ∧
    (t.start = none → t.armed = none →
      (t.result.isSome = true ∧ mode = 2 → lands (d.event (pgTiu u) 7)) ∧
      (t.result = none ∨ mode ≠ 2 → lands d))

/-- A stop edge, by the state of the unit. -/
def edgeEnds : Prop :=
  let t := d.tiu u
  edgeStops d u lands ∧ (oneSource t.cfg u = true → edgeBegins d u lands) ∧
    (t.start = none → t.armed = none → lands d) ∧
    (∀ a, oneSource t.cfg u = false → t.start = none → t.armed = some a →
      (d.clk.tick < a → lands d) ∧ (a ≤ d.clk.tick → lands (d.event (pgTiu u) 6)))

end

section
variable {d : Dev} {u : Nat} {lands : Dev → Prop}

/-- What meets a measurement as a stop edge stops it. -/
theorem edgeStops_of_stopStarted (h : ∀ b n, (d.tiu u).start = some (b, n) → lands (stopStarted d u b)) :
    edgeStops d u lands := by
  intro b n hstart
  have hland := h b n hstart
  refine ⟨fun hlim hlate => stopStarted_late hstart hlim hlate ▸ hland, fun hwithin => ?_⟩
  rw [stopStarted_within hwithin] at hland
  exact ⟨fun hearly => by rwa [if_pos hearly] at hland,
    fun hheld => by rwa [if_neg (Nat.not_lt.mpr hheld)] at hland⟩

/-- What lands as a start edge of an armed unit begins its measurement. -/
theorem edgeBegins_of_startEdge
    (h : ∀ a, (d.tiu u).start = none → (d.tiu u).armed = some a → lands (tiuStartEdge u false d)) :
    edgeBegins d u lands := fun a hstart harmed =>
  ⟨fun hearly => tiuStartEdge_early hstart harmed hearly ▸ h a hstart harmed,
    fun hfrom => tiuStartEdge_begins hstart harmed hfrom ▸ h a hstart harmed⟩

/-- TIU_START_EDGE is a start edge. -/
theorem edgeStarts_of_startEdge (h : lands (tiuStartEdge u false d)) : edgeStarts d u lands := by
  refine ⟨edgeBegins_of_startEdge fun _ _ _ => h, fun hone => edgeStops_of_stopStarted fun b n hstart => ?_,
    fun hother hmeasures => ?_, fun hstart harmed => ?_⟩
  · rwa [tiuStartEdge_measuring hstart, if_pos hone] at h
  · obtain ⟨⟨b, n⟩, hstart⟩ := Option.isSome_iff_exists.mp hmeasures
    rwa [tiuStartEdge_measuring hstart, if_neg (ne_true_of_eq_false hother)] at h
  · rw [tiuStartEdge_unarmed hstart harmed] at h
    refine ⟨fun howes => by rwa [if_pos howes] at h, fun hnone => ?_⟩
    rwa [if_neg fun howes => hnone.elim (Option.isSome_iff_ne_none.mp howes.1) (· howes.2)] at h

/-- TIU_STOP_EDGE is a stop edge. -/
theorem edgeEnds_of_stopEdge (h : lands (tiuStopEdge u d)) : edgeEnds d u lands := by
  refine ⟨edgeStops_of_stopStarted fun b n hstart => tiuStopEdge_measuring hstart ▸ h,
    fun hone => edgeBegins_of_startEdge fun a hstart harmed => ?_,
    fun hstart harmed => tiuStopEdge_unarmed hstart harmed ▸ h, fun a hother hstart harmed => ?_⟩
  · rwa [tiuStopEdge_armed hstart harmed, if_pos hone] at h
  · rw [tiuStopEdge_armed hstart harmed, if_neg (ne_true_of_eq_false hother)] at h
    exact ⟨fun hearly => by rwa [if_pos hearly] at h, fun hfrom => by rwa [if_neg (Nat.not_lt.mpr hfrom)] at h⟩

end

-- ---- results (R277) ---------------------------------------------------------------------------------------------

/-- Without a result to show TIU_RESULT does nothing. -/
theorem tiuResult_none {u : Nat} {d : Dev} (h : (d.tiu u).result = none) : tiuResult u d = d := by
  simp only [tiuResult, h]

/-- The registers of a unit show a measurement's count, start and flags, and RESULT counts. -/
def Dev.tiuShown (d : Dev) (u stop count : Nat) (timeout same : Bool) : Dev :=
  let t := d.tiu u
  let p := pgTiu u
  let d := d.advanceTo (stop + 2)
  let ovr : Bool := rd d.regs (countAddr p 4) != rd d.regs (countAddr p 4 + 4)
  let d := (d.setLiv p TIU.COUNT_LO (count % 4294967296)).setLiv p TIU.COUNT_HI (count / 4294967296)
  let d := (d.setPair p 0x908 0x90C t.resStart.1).setPair p 0x910 0x914 t.resStart.2
  let d := d.setLiv p TIU.FLAGS (bit ovr * 8 + bit same * 4 + bit timeout * 2 + 1)
  let d := (if ovr then d.event p 8 else d).event p 4
  setTiu d u { d.tiu u with result := none }

/-- A result is shown, and a unit in CONTINUOUS mode that does not measure is armed again from the next cycle. -/
theorem tiuResult_shows {u : Nat} {d : Dev} {stop count : Nat} {timeout same : Bool}
    (h : (d.tiu u).result = some (stop, count, timeout, same)) :
    tiuResult u d =
      let e := d.tiuShown u stop count timeout same
      if (e.tiu u).start = none ∧ tiuFld e.regs u TIU.MODE = 2 then armFrom e u (e.clk.tick + 1) else e := by
  simp only [tiuResult, h, Bool.and_eq_true, Option.isNone_iff_eq_none, beq_iff_eq]
  rfl

/-- Settles O35: ARM by the unit's mode and state, an edge by `edgeStarts` and `edgeEnds`, the timeout by the
measurement, a result by the mode after it. -/
theorem intervalUnitsMeasure : Obligations.IntervalUnitsMeasure := by
  unfold Obligations.IntervalUnitsMeasure
  refine ⟨fun s k u => ⟨fun hoff c hc => ?_, fun hon => ⟨fun hidle hmode => ?_, fun hstays => ?_, fun hcmd => ?_,
      fun hother => ?_, fun hcmd => ?_, fun hother => ?_, ?_⟩, ?_, ?_, fun hnone => ?_, fun b n hstart => ?_⟩,
    fun s u => ⟨fun hnone => ?_, fun stop count timeout same hres => ?_⟩⟩
  · simp only [List.mem_cons, List.not_mem_nil, or_false] at hc
    rcases hc with rfl | rfl | rfl | rfl
    · exact State.lands_of_effect (exec_tiuArm k u s) (Dev.guarded_off hoff)
    · exact State.lands_of_effect (exec_tiuStart k u s) (Dev.guarded_off hoff)
    · exact State.lands_of_effect (exec_tiuStop k u s) (Dev.guarded_off hoff)
    · exact State.lands_of_effect (exec_tiuCancel k u s) (Dev.guarded_off hoff)
  · exact State.lands_of_effect (exec_tiuArm k u s) ((Dev.guarded_on hon).trans (tiuArm_arms hidle hmode))
  · exact State.lands_of_effect (exec_tiuArm k u s) ((Dev.guarded_on hon).trans (tiuArm_stays hstays))
  · exact edgeStarts_of_startEdge
      (State.lands_of_effect (exec_tiuStart k u s) ((Dev.guarded_on hon).trans (if_pos hcmd)))
  · exact State.lands_of_effect (exec_tiuStart k u s) ((Dev.guarded_on hon).trans (if_neg hother))
  · exact edgeEnds_of_stopEdge
      (State.lands_of_effect (exec_tiuStop k u s) ((Dev.guarded_on hon).trans (if_pos hcmd)))
  · exact State.lands_of_effect (exec_tiuStop k u s) ((Dev.guarded_on hon).trans (if_neg hother))
  · exact State.lands_of_effect (exec_tiuCancel k u s) (Dev.guarded_on hon)
  · exact edgeStarts_of_startEdge (State.lands_iff.mpr (exec_tiuStartEdge u false s))
  · exact edgeEnds_of_stopEdge (State.lands_iff.mpr (exec_tiuStopEdge u s))
  · exact State.lands_of_effect (exec_tiuTimeout u s) (tiuTimeout_idle hnone)
  · exact State.lands_of_effect (exec_tiuTimeout u s) (tiuTimeout_measuring hstart)
  · exact State.lands_of_effect (exec_tiuResult u s) (tiuResult_none hnone)
  · have hshows := tiuResult_shows hres
    exact ⟨fun hagain => State.lands_of_effect (exec_tiuResult u s) (hshows.trans (if_pos hagain)),
      fun hrests => State.lands_of_effect (exec_tiuResult u s) (hshows.trans (if_neg hrests))⟩

-- ---- edges in one cycle (R276) ----------------------------------------------------------------------------------

/-- In CONTINUOUS mode with one source a stop edge leaves its result and the next measurement, which starts in the
present cycle. -/
theorem tiuEnd_chains {d : Dev} {u stop count : Nat} {same : Bool} (hcfg : oneSource (d.tiu u).cfg u = true)
    (hmode : tiuFld d.regs u TIU.MODE = 2) (hone : oneSource d.regs u = true) :
    (tiuEnd d u stop count false same).tiu u =
      { d.tiu u with
        cfg := d.regs
        start := some (d.clk.tick, d.timeNs)
        result := some (stop, count, false, same)
        resStart := (d.tiu u).start.getD (0, 0) } := by
  simp only [tiuEnd, tiu_setTiu, hcfg, hmode, hone, Bool.not_false, beq_self_eq_true, Bool.and_self, if_true]

/-- Settles O36: a start edge of an armed unit by the sources and HOLDOFF, one of a measurement as its stop that
chains. -/
theorem edgesInOneCycle : Obligations.EdgesInOneCycle := by
  unfold Obligations.EdgesInOneCycle
  refine fun s u a => ⟨fun hstart harmed hfrom => ?_, fun b n hstart hcfg _ hmode hone hwithin hheld => ?_⟩
  · have hland (same : Bool) {e : Dev} := State.lands_of_effect (e := e) (exec_tiuStartEdge u same s)
    have hedge (same : Bool) := tiuStartEdge_armed (same := same) hstart harmed hfrom
    exact ⟨fun hdiffer hhold => hland true ((hedge true).trans (if_pos ⟨⟨rfl, hdiffer⟩, hhold⟩)),
      fun _ hhold => hland true ((hedge true).trans (if_neg fun h => hhold.ne' h.2)),
      fun hsame same => hland same ((hedge same).trans (if_neg fun h => h.1.2 hsame))⟩
  · have hends := ((tiuStartEdge_measuring (same := true) hstart).trans (if_pos hcfg)).trans
      ((stopStarted_within hwithin).trans (if_neg (Nat.not_lt.mpr hheld)))
    refine ⟨_, (exec_tiuStartEdge u true s).trans (done_eq_done hends), ?_, ?_⟩ <;>
      simp only [settle_tiu, tiuEnd_chains hcfg hmode hone, Option.map_some]

end Sys2Proof.Machine
end

section
/-!
PROOFS. The lines of the DRAM (R297, R298): a line written reads back, clean, and every other line reads as before.
-/
namespace Sys2Proof.Machine

-- ---- runs of a sparse map ---------------------------------------------------------------------------------------

/-- A key outside the run written reads as before. -/
theorem Sparse.get_setList_other {α : Type} [DecidableEq α] {dflt : Nat → α} {a : Nat} (vs : List α) :
    ∀ {m : List (Nat × α)} {k : Nat}, a < k ∨ k + vs.length ≤ a →
      Sparse.get dflt (Sparse.setList dflt m k vs) a = Sparse.get dflt m a := by
  induction vs with
  | nil => exact fun _ => rfl
  | cons v vs ih =>
    intro m k h
    rw [List.length_cons] at h
    exact (ih (by omega)).trans (Sparse.get_set_other v (by omega))

/-- A key of the run written reads as the list has it. -/
theorem Sparse.get_setList_run {α : Type} [DecidableEq α] {dflt : Nat → α} (vs : List α) :
    ∀ {m : List (Nat × α)} {k i : Nat} (h : i < vs.length),
      Sparse.get dflt (Sparse.setList dflt m k vs) (k + i) = vs[i] := by
  induction vs with
  | nil => exact fun h => absurd h (Nat.not_lt_zero _)
  | cons v vs ih =>
    intro m k i h
    cases i with
    | zero => exact (Sparse.get_setList_other vs (.inl (Nat.lt_succ_self k))).trans (Sparse.get_set_same m k v)
    | succ i =>
      rw [show k + (i + 1) = k + 1 + i by omega]
      exact ih (Nat.lt_of_succ_lt_succ h)

-- ---- a line's bytes and its poison ------------------------------------------------------------------------------

/-- The bytes of a line are bytes of the memory. -/
theorem Dev.lineData_congr {d e : Dev} (h : d.mem.cells = e.mem.cells) (p l : Nat) :
    d.lineData p l = e.lineData p l := by
  simp only [Dev.lineData, h]

/-- A line put reads as it was put. -/
theorem Dev.lineData_putLine_same {d : Dev} {p l : Nat} {bytes : List Byte} (h : bytes.length = 64) :
    (d.putLine p l bytes).lineData p l = bytes := by
  refine List.ext_getElem (by simp [Dev.lineData, h]) fun i _ hi => ?_
  simp only [Dev.lineData, List.getElem_map, List.getElem_range]
  exact Sparse.get_setList_run bytes hi

/-- A line put leaves the bytes of every other line: lines of different keys share no address. -/
theorem Dev.lineData_putLine_other {d : Dev} {p l p' l' : Nat} {bytes : List Byte} (h : bytes.length = 64)
    (hkey : lineKey p' l' ≠ lineKey p l) : (d.putLine p l bytes).lineData p' l' = d.lineData p' l' := by
  refine List.map_congr_left fun i hi => Sparse.get_setList_other bytes ?_
  have hlt : i < 64 := List.mem_range.mp hi
  omega

/-- A line cleaned is not poisoned. -/
theorem Dev.isPoisoned_setPoison_clean (d : Dev) (p l : Nat) : (d.setPoison p l false).isPoisoned p l = false := by
  simp [Dev.isPoisoned, Dev.setPoison]

/-- A line cleaned leaves the poison of every other line. -/
theorem Dev.isPoisoned_setPoison_other {d : Dev} {p l p' l' : Nat} (hkey : lineKey p' l' ≠ lineKey p l) :
    (d.setPoison p l false).isPoisoned p' l' = d.isPoisoned p' l' := by
  rw [Bool.eq_iff_iff]
  simp [Dev.isPoisoned, Dev.setPoison, hkey]

/-- The tracking of full writes leaves the poison as it is. -/
@[simp] theorem Dev.trackLine_poison (d : Dev) (line : Nat) : (d.trackLine line).mem.poison = d.mem.poison := by
  unfold Dev.trackLine
  simp only
  split
  · rfl
  · split
    · split <;> rfl
    · split
      · rfl
      · rw [Dev.event_mem]

-- ---- a write of a whole line ------------------------------------------------------------------------------------

/-- A write of a whole line in service puts it, cleans it and tracks it. -/
theorem Dev.writeLine_whole {d : Dev} {line p l : Nat} {bytes : List Byte} (hline : d.physLine line = some (p, l))
    (hon : d.domainOn 4 = true) (hup : d.subUp p = true) (hlen : bytes.length = 64) (ecc : Ecc) :
    d.writeLine line (bytes.map some) ecc = (((d.putLine p l bytes).setPoison p l false).trackLine line, .ok) := by
  have hwhole : ((bytes.map some).all Option.isSome && (bytes.map some).length == 64) = true := by simp [hlen]
  have hbytes : (bytes.map some).map (fun b => b.getD 0) = bytes := by simp
  simp only [Dev.writeLine, hline, hon, hup, hwhole, hbytes, Bool.not_true, Bool.or_self, Bool.false_eq_true, if_false,
    if_true]

/-- Settles O38: a write of a whole line puts its bytes and cleans it; the tracking touches neither bytes nor poison. -/
theorem linesReadBackTheirWrites : Obligations.LinesReadBackTheirWrites := by
  unfold Obligations.LinesReadBackTheirWrites
  intro d line p l bytes hline hon hup hlen
  rw [Dev.writeLine_whole hline hon hup hlen]
  have hdata (p' l' : Nat) : (((d.putLine p l bytes).setPoison p l false).trackLine line).lineData p' l' =
      (d.putLine p l bytes).lineData p' l' := Dev.lineData_congr (by simp) p' l'
  have hpoison (p' l' : Nat) : (((d.putLine p l bytes).setPoison p l false).trackLine line).isPoisoned p' l' =
      (d.setPoison p l false).isPoisoned p' l' :=
    congrArg (·.contains (lineKey p' l')) (Dev.trackLine_poison _ _)
  refine ⟨rfl, ?_, ?_, fun p' l' hkey => ⟨?_, ?_⟩⟩
  · exact (hdata p l).trans (Dev.lineData_putLine_same hlen)
  · exact (hpoison p l).trans (d.isPoisoned_setPoison_clean p l)
  · exact (hdata p' l').trans (Dev.lineData_putLine_other hlen hkey)
  · exact (hpoison p' l').trans (Dev.isPoisoned_setPoison_other hkey)

end Sys2Proof.Machine
end

section
/-!
PROOFS. Requests to the memory and their service (R286 to R289, R294, R300), refresh, the polls of the DRAM's
temperature and self-refresh entry (R290 to R292): each command by what it finds.
-/
namespace Sys2Proof.Machine

-- ---- requests (R286 to R289, R300) ------------------------------------------------------------------------------

/-- The 64 bytes of a write request, each given or left as it is. -/
def reqBytes (w : Option (List (Option Byte))) : Option (List (Option Byte)) :=
  w.map fun b => (List.range 64).map fun i => b.getD i none

/-- Whether the bytes of a request are a whole line. -/
def wholeWrite (bytes : Option (List (Option Byte))) : Bool :=
  match bytes with
  | none => false
  | some b => b.all Option.isSome

/-- A rank that still accepts commands gives up its entry into self-refresh (R292). -/
def Dev.keptAwake (d : Dev) (p : Nat) : Dev :=
  if srEntering d p then (d.event (pgDdr (p / 2)) 5).onMem fun m => { m with idleFrom := m.idleFrom.set p d.clk.tick }
  else d

/-- The newest write of a line that waits in a queue. -/
def newestWrite (q : List MemReq) (line : Nat) : Option MemReq :=
  (q.filter fun r => r.line == line && r.bytes.isSome).getLast?

/-- What the newest waiting write of a line answers to a request for it: a read, with a whole line (R289). -/
def heldBytes (bytes : Option (List (Option Byte))) (newest : Option MemReq) : Option (List Byte) :=
  match bytes, newest with
  | none, some r =>
    match r.bytes with
    | some b => if b.all Option.isSome then some (b.map fun v => v.getD 0) else none
    | none => none
  | _, _ => none

/-- A request that its queue has room for: answered from a waiting write, or taken into the queue. -/
def Dev.admitReq (d : Dev) (port line p : Nat) (bytes : Option (List (Option Byte))) : Dev :=
  let e := d.keptAwake p
  let q := d.memQueue (p / 2)
  match heldBytes bytes (newestWrite q line) with
  | some data => e.answer port line 0 data
  | none => e.setQueue (p / 2) (q ++ [{ port := port, line := line, tick := e.clk.tick, bytes := bytes }])

section
variable {port line p : Nat} {bytes : Option (List (Option Byte))} {d : Dev}

/-- A write joins the queue, as does a read of a line that no waiting write holds. -/
theorem Dev.admitReq_joins (h : bytes.isSome = true ∨ newestWrite (d.memQueue (p / 2)) line = none) :
    d.admitReq port line p bytes =
      let e := d.keptAwake p
      e.setQueue (p / 2)
        (d.memQueue (p / 2) ++ [{ port := port, line := line, tick := e.clk.tick, bytes := bytes }]) := by
  have hnone : heldBytes bytes (newestWrite (d.memQueue (p / 2)) line) = none := by
    rcases h with hw | hfree
    · obtain ⟨b, rfl⟩ := Option.isSome_iff_exists.mp hw
      rfl
    · rw [hfree]
      cases bytes <;> rfl
  simp only [Dev.admitReq, hnone]

/-- A read of a line that a waiting write holds is answered from it where it is whole, and joins the queue otherwise. -/
theorem Dev.admitReq_behindWrite {r : MemReq} {b : List (Option Byte)}
    (hr : newestWrite (d.memQueue (p / 2)) line = some r) (hb : r.bytes = some b) :
    d.admitReq port line p none =
      let e := d.keptAwake p
      if b.all Option.isSome = true then e.answer port line 0 (b.map fun v => v.getD 0)
      else e.setQueue (p / 2)
        (d.memQueue (p / 2) ++ [{ port := port, line := line, tick := e.clk.tick, bytes := none }]) := by
  by_cases hall : b.all Option.isSome = true <;>
    simp only [Dev.admitReq, heldBytes, hr, hb, hall, if_true, Bool.false_eq_true, if_false]

end

section
variable {port line : Nat} {w : Option (List (Option Byte))} {d : Dev}

/-- With MEM off a request is not answered. -/
theorem memRequest_off (h : d.domainOn 4 = false) : memRequest port line w d = d := if_pos (by rw [h]; rfl)

variable (hon : d.domainOn 4 = true)
include hon

/-- A request to a line that is not mapped is UNMAPPED. -/
theorem memRequest_unmapped (h : d.fillStep.physLine line = none) :
    memRequest port line w d = d.fillStep.answer port line 3 [] := by
  simp only [memRequest, hon, h, Bool.not_true, Bool.false_eq_true, if_false]

variable {p q : Nat} (hp : d.fillStep.physLine line = some (p, q))
include hp

/-- A request to a mapped line: answered where the sub-channel is out of service, and where it reads an uninitialised
region, which counts (R300); else it needs room among the 64 of its rank. -/
theorem memRequest_mapped :
    memRequest port line w d =
      let f := d.fillStep
      if f.subUp p = false then f.answer port line 4 []
      else if wholeWrite (reqBytes w) = false ∧ f.initialised (line / 16384) = false then
        (f.event pgMemx 7).answer port line 2 []
      else if 64 ≤ ((f.memQueue (p / 2)).filter fun r => reqRank f r == p).length then f
      else f.admitReq port line p (reqBytes w) := by
  simp only [memRequest, hon, hp, Bool.not_true, Bool.false_eq_true, if_false, Bool.and_eq_true, Bool.not_eq_true']
  rfl

/-- A request that may be served is taken while fewer than 64 wait for its rank. -/
theorem memRequest_served (hup : d.fillStep.subUp p = true)
    (hmay : wholeWrite (reqBytes w) = true ∨ d.fillStep.initialised (line / 16384) = true) :
    memRequest port line w d =
      let f := d.fillStep
      if 64 ≤ ((f.memQueue (p / 2)).filter fun r => reqRank f r == p).length then f
      else f.admitReq port line p (reqBytes w) := by
  have hserved : ¬ (wholeWrite (reqBytes w) = false ∧ d.fillStep.initialised (line / 16384) = false) :=
    fun ⟨hpart, hinit⟩ => hmay.elim (ne_true_of_eq_false hpart) (ne_true_of_eq_false hinit)
  exact (memRequest_mapped hon hp).trans ((if_neg (ne_false_of_eq_true hup)).trans (if_neg hserved))

end

-- ---- misses and reads (R287, R288, R294) ------------------------------------------------------------------------

/-- Without a request that has yet to miss its target MISS does nothing. -/
theorem miss_idle {s : Nat} {d : Dev} (h : nextMiss d (d.memQueue s) = none) : miss s d = d := by
  simp only [miss, h]

/-- The next request to miss its port's target counts in that cycle, once. -/
theorem miss_due {s : Nat} {d : Dev} {r : MemReq} (h : nextMiss d (d.memQueue s) = some r) :
    miss s d =
      ((d.advanceTo (missAt d r)).setQueue s
        ((d.memQueue s).map fun y => if y = r then { y with missed := true } else y)).event pgMemx (13 + r.port) := by
  simp only [miss, h]

/-- Without a request to issue, and during a training, nothing is served. -/
theorem memReadData_idle {s : Nat} {ecc : Ecc} {d : Dev}
    (h : nextReq d s = none ∨ (d.mem.retrain.getD s none).isSome = true) : memReadData s ecc d = d := by
  rcases h with hnone | htrains
  · simp only [memReadData, hnone, ite_self]
  · exact if_pos htrains

/-- The next request in the arbiter's order is served once its rank accepts commands. -/
theorem memReadData_next {s : Nat} {ecc : Ecc} {d : Dev} {r : MemReq} (htrained : d.mem.retrain.getD s none = none)
    (h : nextReq d s = some r) :
    memReadData s ecc d =
      let p := reqRank d r
      let e := (d.fillStep.advanceTo (d.mem.busy.getD p 0)).setQueue s ((d.memQueue s).erase r)
      payRefresh (serveReq (openRow e (reqRow d r)) r ecc) p := by
  simp only [memReadData, htrained, h, Option.isSome_none, Bool.false_eq_true, if_false]

-- ---- refresh and self-refresh entry (R290, R292) ----------------------------------------------------------------

/-- Whether requests wait for a rank. -/
def rankBusy (d : Dev) (p : Nat) : Bool := (d.memQueue (p / 2)).any fun r => reqRank d r == p

/-- The refreshes that a rank is owed. -/
def owedTo (d : Dev) (p : Nat) : Nat := liv d.regs (pgDdr (p / 2)) (DDR.REF_OWED.RANK (p % 2))

/-- The device in the cycle in which the next refresh of a rank falls due, from which the one after it counts. -/
def Dev.atRefresh (d : Dev) (p : Nat) : Dev :=
  let e := d.advanceTo (d.mem.refAt.getD p 0 + (if doubled d p then 609 else 1218))
  e.onMem fun m => { m with refAt := m.refAt.set p e.clk.tick }

/-- A rank that is not refreshed is left alone. -/
theorem refreshDue_unrefreshed {p : Nat} {d : Dev} (h : refreshed d p = false) : refreshDue p d = d :=
  if_pos (by rw [h]; rfl)

section
variable {p : Nat} {d : Dev} (h : refreshed d p = true)
include h

/-- A refresh that falls due for a rank with requests waiting is owed, up to the allowance, and issued beyond it. -/
theorem refreshDue_busy (hbusy : rankBusy (d.atRefresh p) p = true) :
    refreshDue p d =
      let e := d.atRefresh p
      if owedTo e p < (if doubled e p = true then 4 else 8) then
        e.setLiv (pgDdr (p / 2)) (DDR.REF_OWED.RANK (p % 2)) (owedTo e p + 1)
      else e.issueRefreshes p 0 1 :=
  (if_neg (by rw [h]; decide)).trans (if_pos hbusy)

/-- One that falls due for a rank without requests is issued with those owed. -/
theorem refreshDue_free (hfree : rankBusy (d.atRefresh p) p = false) :
    refreshDue p d =
      let e := d.atRefresh p
      (e.setLiv (pgDdr (p / 2)) (DDR.REF_OWED.RANK (p % 2)) 0).issueRefreshes p 0 (owedTo e p + 1) :=
  (if_neg (by rw [h]; decide)).trans (if_neg (ne_true_of_eq_false hfree))

end

/-- A rank stays out of self-refresh where it is not refreshed, SR_IDLE is 0, or requests wait for it. -/
theorem srEntry_stays {p : Nat} {d : Dev}
    (h : refreshed d p = false ∨ act d.regs (pgDdr (p / 2)) DDR.SR_IDLE = 0 ∨ rankBusy d p = true) :
    srEntry p d = d :=
  if_pos (by simpa only [rankBusy, Bool.or_eq_true, Bool.not_eq_true', beq_iff_eq, or_assoc] using h)

/-- An idle rank pays the refreshes it is owed and enters self-refresh, which counts. -/
theorem srEntry_enters {p : Nat} {d : Dev} (h : refreshed d p = true)
    (hidle : act d.regs (pgDdr (p / 2)) DDR.SR_IDLE ≠ 0) (hfree : rankBusy d p = false) :
    srEntry p d =
      (enterSr (d.advanceTo (d.mem.idleFrom.getD p 0 + act d.regs (pgDdr (p / 2)) DDR.SR_IDLE + 10 +
        owedTo d p * refreshCycles d)) p).event (pgDdr (p / 2)) 4 := by
  rw [rankBusy] at hfree
  refine if_neg ?_
  simp only [h, hfree, hidle, beq_iff_eq, Bool.not_true, Bool.or_eq_true, Bool.false_eq_true, or_self,
    not_false_eq_true]

-- ---- the polls of the temperature (R291) ------------------------------------------------------------------------

/-- The device in the cycle of a rank's poll, from which the next counts, with the code read. -/
def Dev.atPoll (d : Dev) (p code : Nat) : Dev :=
  let e := d.advanceTo (d.mem.mr4At.getD p 0 + 32768)
  (e.onMem fun m => { m with mr4At := m.mr4At.set p e.clk.tick }).setLiv (pgDdr (p / 2)) (DDR.DRAM_TEMP.RANK (p % 2))
    code

/-- A rank shows whether it is hot, and one that turns hot is logged. -/
def Dev.showHot (d : Dev) (p : Nat) (hot : Bool) : Dev :=
  let g := pgDdr (p / 2)
  if hot = true ∧ d.status g (12 + p % 2) = false then (d.setStatus g (12 + p % 2) hot).eventWarn g 7
  else d.setStatus g (12 + p % 2) hot

/-- A rank that is not polled is left alone. -/
theorem mr4Poll_unpolled {p code : Nat} {wide hot : Bool} {d : Dev} (h : polled d p = false) :
    mr4Poll p wide hot code d = d := if_pos (by rw [h]; rfl)

/-- A poll shows the code, the range and the alarm; a rank that enters the doubled range pulls in the refreshes it is
owed above four. -/
theorem mr4Poll_due {p code : Nat} {wide hot : Bool} {d : Dev} (h : polled d p = true) :
    mr4Poll p wide hot code d =
      let g := pgDdr (p / 2)
      let e := d.atPoll p code
      let f := e.setStatus g (10 + p % 2) wide
      Dev.showHot
        (if (wide && !doubled e p) = true ∧ 4 < owedTo e p then
          ((f.setLiv g (DDR.REF_OWED.RANK (p % 2)) 4).event g 6).issueRefreshes p 10 (owedTo e p - 4)
        else f) p hot := by
  simp only [mr4Poll, h, Bool.not_true, Bool.false_eq_true, if_false, Dev.showHot, Bool.and_eq_true, Bool.not_eq_true',
    decide_eq_true_eq]
  rfl

/-- Settles O37: a request by its line, its region and its queue, a miss and a read by the next request; a refresh, an
entry into self-refresh and a poll by the state of the rank. -/
theorem memoryRequestsAndRefresh : Obligations.MemoryRequestsAndRefresh := by
  unfold Obligations.MemoryRequestsAndRefresh
  refine ⟨fun s port u l w ecc => ⟨fun hoff => ?_, fun hon hnone => ?_,
      fun p q hon hp => ⟨fun hdown => ?_, fun hup hpart hinit => ?_, fun hup hmay => ?_⟩,
      fun hnone => ?_, fun r hr => ?_, fun hidle => ?_, fun r htrained hr => ?_⟩,
    fun s p wide hot code => ⟨fun hnone => ⟨?_, ?_⟩, fun hnone => ?_,
      fun hrank => ⟨⟨fun hbusy howed => ?_, fun hbusy howed => ?_, fun hfree => ?_⟩, fun hstays => ?_,
        fun hidle hfree => ?_⟩, fun hpolled => ⟨fun hkeeps => ?_, fun hpulls => ?_⟩⟩⟩
  · exact State.lands_of_effect (exec_memRequest port l w s) (memRequest_off hoff)
  · exact State.lands_of_effect (exec_memRequest port l w s) (memRequest_unmapped hon hnone)
  · exact State.lands_of_effect (exec_memRequest port l w s) ((memRequest_mapped hon hp).trans (if_pos hdown))
  · exact State.lands_of_effect (exec_memRequest port l w s)
      ((memRequest_mapped hon hp).trans ((if_neg (ne_false_of_eq_true hup)).trans (if_pos ⟨hpart, hinit⟩)))
  · have hland {e : Dev} := State.lands_of_effect (e := e) (exec_memRequest port l w s)
    have hserved := memRequest_served (port := port.val) (w := w) hon hp hup hmay
    refine ⟨fun hfull => hland (hserved.trans (if_pos (Nat.not_lt.mp hfull))), fun hroom hjoins => ?_,
      fun r b hroom hread hr hb => ?_⟩
    · have hadmit := hserved.trans (if_neg (Nat.not_le.mpr hroom))
      exact hland (hadmit.trans (Dev.admitReq_joins (hjoins.imp_left fun hw => (Option.isSome_map ..).trans hw)))
    · subst hread
      have hadmit := (hserved.trans (if_neg (Nat.not_le.mpr hroom))).trans (Dev.admitReq_behindWrite hr hb)
      exact ⟨fun hwhole => hland (hadmit.trans (if_pos hwhole)),
        fun hpart => hland (hadmit.trans (if_neg (ne_true_of_eq_false hpart)))⟩
  · exact State.lands_of_effect (exec_miss u s) (miss_idle hnone)
  · exact State.lands_of_effect (exec_miss u s) (miss_due hr)
  · exact State.lands_of_effect (exec_memReadData u ecc s) (memReadData_idle hidle)
  · exact State.lands_of_effect (exec_memReadData u ecc s) (memReadData_next htrained hr)
  · exact State.lands_of_effect (exec_refreshDue p s) (refreshDue_unrefreshed hnone)
  · exact State.lands_of_effect (exec_srEntry p s) (srEntry_stays (.inl hnone))
  · exact State.lands_of_effect (exec_mr4Poll p wide hot code s) (mr4Poll_unpolled hnone)
  · exact State.lands_of_effect (exec_refreshDue p s) ((refreshDue_busy hrank hbusy).trans (if_pos howed))
  · exact State.lands_of_effect (exec_refreshDue p s)
      ((refreshDue_busy hrank hbusy).trans (if_neg (Nat.not_lt.mpr howed)))
  · exact State.lands_of_effect (exec_refreshDue p s) (refreshDue_free hrank hfree)
  · exact State.lands_of_effect (exec_srEntry p s) (srEntry_stays (.inr hstays))
  · exact State.lands_of_effect (exec_srEntry p s) (srEntry_enters hrank hidle hfree)
  · exact State.lands_of_effect (exec_mr4Poll p wide hot code s)
      ((mr4Poll_due hpolled).trans (congrArg (Dev.showHot · p.val hot) (if_neg hkeeps)))
  · exact State.lands_of_effect (exec_mr4Poll p wide hot code s)
      ((mr4Poll_due hpolled).trans (congrArg (Dev.showHot · p.val hot) (if_pos hpulls)))

end Sys2Proof.Machine
end

section
/-!
PROOFS. Self-refresh exit and training (R291 to R293), fills, queries and the scrubber of the DRAM (R299 to R302),
migrations (R304, R305) and the scrubber of the SRAM (R310): each command by what it finds.
-/
namespace Sys2Proof.Machine

-- ---- self-refresh exit (R292) -----------------------------------------------------------------------------------

section
variable {ap : Dev → Dev} {p : Nat} {d : Dev}

/-- A rank that is awake, on a sub-channel whose page does not wait for it, is left alone. -/
theorem srExit_awake (hsr : d.mem.srFrom.getD p none = none) (h : d.mem.woken.contains (p / 2) = false) :
    srExit ap p d = d := by
  simp only [srExit, hsr, h, Bool.false_eq_true, if_false]

/-- A rank that an access has woken lets the page apply that waited for it. -/
theorem srExit_woken (hsr : d.mem.srFrom.getD p none = none) (h : d.mem.woken.contains (p / 2) = true) :
    srExit ap p d = ap (d.onMem fun m => { m with woken := m.woken.filter (· != p / 2) }) := by
  simp only [srExit, hsr, h, if_true]

/-- A rank in self-refresh stays there while it is FAILED or its sub-channel trains; else it leaves it, 24 cycles after
its entry at the earliest. -/
theorem srExit_asleep {t : Nat} (hsr : d.mem.srFrom.getD p none = some t) :
    srExit ap p d =
      if d.rankState p = 6 ∨ (d.mem.retrain.getD (p / 2) none).isSome = true then d
      else
        let e := ap (d.advanceTo (t + 24))
        leaveSr (e.advance (exitCycles e)) p := by
  simp only [srExit, hsr, Bool.or_eq_true, decide_eq_true_eq]

end

-- ---- training (R291, R293) --------------------------------------------------------------------------------------

/-- Whether a sub-channel has fitted ranks, or is to have them by its armed page. -/
def ranksFit (d : Dev) (s : Nat) : Bool :=
  act d.regs (pgDdr s) DDR.CONFIG.RANK_FIT != 0 ||
    (d.status (pgDdr s) 1 && liv d.regs (pgDdr s) DDR.CONFIG.RANK_FIT != 0)

/-- Whether a ring, a work region or the buffer of an open segment lies on a sub-channel. -/
def subInUse (d : Dev) (s : Nat) : Bool :=
  (ringsAndWork d.regs ++ segRanges d .a ++ segRanges d .b).any (rangeOnSub d s)

section
variable {ap : Dev → Dev} {s : Nat} {d : Dev}

/-- Without ranks to train RETRAIN is BAD_ARGUMENT. -/
theorem retrain_unfit (h : ranksFit d s = false) : retrain ap s d = d.cmdResult 5 :=
  if_pos ((Bool.not_eq_true' _).mpr h)

variable (hfit : ranksFit d s = true)
include hfit

/-- A sub-channel in use, during a migration or in training is BUSY. -/
theorem retrain_busy (h : subInUse d s = true ∨ d.migrating = true ∨ (d.mem.retrain.getD s none).isSome = true) :
    retrain ap s d = d.cmdResult 4 :=
  (if_neg (by rw [Bool.not_eq_true', Bool.not_eq_false]; exact hfit)).trans
    (if_pos (by simpa only [subInUse, Bool.or_eq_true, or_assoc] using h))

/-- Any other enters self-refresh, applies its page and trains. -/
theorem retrain_trains (hfree : subInUse d s = false) (hmig : d.migrating = false)
    (htrained : d.mem.retrain.getD s none = none) :
    retrain ap s d = startTraining (ap (enterSr (enterSr (d.cmdResult 0) (2 * s)) (2 * s + 1))) s := by
  rw [subInUse] at hfree
  refine (if_neg (by rw [Bool.not_eq_true', Bool.not_eq_false]; exact hfit)).trans (if_neg ?_)
  simp only [hfree, hmig, htrained, Option.isSome_none, Bool.or_self, Bool.false_eq_true, not_false_eq_true]

end

/-- Without a training RETRAIN_DONE does nothing. -/
theorem retrainDone_idle {s eye : Nat} {good : Bool} {d : Dev} (h : d.mem.retrain.getD s none = none) :
    retrainDone s good eye d = d := by
  simp only [retrainDone, h]

/-- The device at the end of a training at tick t, with its eye and its result shown. -/
def Dev.trainingOver (d : Dev) (s t eye : Nat) (good : Bool) : Dev :=
  let e := (d.advanceTo t).onMem fun m => { m with retrain := m.retrain.set s none }
  ((e.setLiv (pgDdr s) DDR.TRAIN.EYE eye).setLiv (pgDdr s) DDR.TRAIN.TRAINED (bit good)).setStatus (pgDdr s) 9 good

/-- A rank leaves self-refresh at the end of a training, unless it is FAILED. -/
def wakeTrained (d : Dev) (p : Nat) : Dev := if d.rankState p = 6 then d else leaveSr d p

/-- A training that succeeds wakes both ranks. -/
theorem retrainDone_trained {s t eye : Nat} {d : Dev} (h : d.mem.retrain.getD s none = some t) :
    retrainDone s true eye d = wakeTrained (wakeTrained (d.trainingOver s t eye true) (2 * s)) (2 * s + 1) := by
  simp only [retrainDone, h, if_true]
  rfl

/-- One that fails is counted and logged, and the requests of the sub-channel are answered so. -/
theorem retrainDone_failed {s t eye : Nat} {d : Dev} (h : d.mem.retrain.getD s none = some t) :
    retrainDone s false eye d =
      let f := (d.trainingOver s t eye false).eventLog (pgDdr s) 8 sevError (2 * s * 68719476736)
      (f.memQueue s).foldl (fun d r => d.answer r.port r.line 4 []) (f.setQueue s []) := by
  simp only [retrainDone, h, Bool.false_eq_true, if_false]
  rfl

-- ---- fills (R302) -----------------------------------------------------------------------------------------------

/-- The first region that FILL names. -/
def fillFirst (d : Dev) : Nat := liv d.regs pgMemx MEMX.FILL_FIRST

/-- The number of regions that FILL names. -/
def fillCount (d : Dev) : Nat := liv d.regs pgMemx MEMX.FILL_COUNT

/-- Whether the regions that FILL names meet a ring or a work region. -/
def fillMeets (d : Dev) : Bool :=
  (ringsAndWork d.regs).any (Range.meets (fillFirst d * 1048576, fillCount d * 1048576))

section
variable {d : Dev}

/-- A fill beyond the capacity is BAD_ARGUMENT. -/
theorem fillCmd_beyond (h : d.capacity < fillFirst d + fillCount d) : fillCmd d = d.cmdResult 5 := if_pos h

variable (hin : fillFirst d + fillCount d ≤ d.capacity)
include hin

/-- A fill during another, and one over a buffer in use, is FILL_BUSY. -/
theorem fillCmd_busy (h : d.mem.fill.isSome = true ∨ fillMeets d = true) : fillCmd d = d.cmdResult 1 :=
  (if_neg (Nat.not_lt.mpr hin)).trans (if_pos ((Bool.or_eq_true _ _).mpr h))

/-- Any other is accepted and shows its regions left. -/
theorem fillCmd_starts (hnone : d.mem.fill = none) (hfree : fillMeets d = false) :
    fillCmd d =
      ((((d.cmdResult 0).onMem fun m => { m with fill := some (fillFirst d, fillCount d) }).setLiv pgMemx
        MEMX.FILL_LEFT (fillCount d)).setStatus pgMemx 10 true) := by
  refine (if_neg (Nat.not_lt.mpr hin)).trans (if_neg fun hbusy => ?_)
  rcases (Bool.or_eq_true _ _).mp hbusy with hfill | hmeets
  · rw [hnone] at hfill
    exact Bool.false_ne_true hfill
  · exact ne_true_of_eq_false hfree hmeets

end

/-- Without a fill FILL_DONE does nothing. -/
theorem fillDone_idle {d : Dev} (h : d.mem.fill = none) : fillDone d = d := by
  simp only [fillDone, h]

/-- The end of a fill marks its last regions initialised and counts. -/
theorem fillDone_ends {d : Dev} {first n : Nat} (h : d.mem.fill = some (first, n)) :
    fillDone d =
      (((((d.fillRegions first n).onMem fun m => { m with fill := none }).setLiv pgMemx MEMX.FILL_LEFT 0).setStatus
        pgMemx 10 false).event pgMemx 9) := by
  simp only [fillDone, h]

-- ---- the scrubber of the DRAM (R299) ----------------------------------------------------------------------------

/-- The scrubber reads the line at position o of a sub-channel, behind the older requests of its row. -/
def scrubLine (d : Dev) (s o : Nat) (ecc : Ecc) : Dev :=
  let p := 2 * s + o / d.rankLines
  let l := o % d.rankLines
  let e := d.onMem fun m => { m with scrub := m.scrub.set s (o + 1), scrubAt := m.scrubAt.set s d.clk.tick }
  let row := (bankOf e p l, rowOf e l)
  let f := openRow (e.serveOlder s fun r => reqRow e r == row) row
  (f.codeLine ((f.lineOf p l).getD 0) p l ecc).1

/-- The scrubber in the cycle of its next read: the next line, else the end of the pass and the first line of the next
pass. -/
def scrubFrom (d : Dev) (s : Nat) (ecc : Ecc) : Dev :=
  let n := 2 * d.rankLines / 16384 + 1
  let o := d.mem.scrub.getD s 0
  let next := scrubNext d s n o
  let e := if next.isNone && o != 0 then scrubPass d s else d
  match (match next with
    | some k => some k
    | none => scrubNext e s n 0) with
  | none => e
  | some k => scrubLine e s k ecc

/-- What holds of the scrubber's read holds of the next line read, or of the pass ended and the first line after it. -/
theorem scrubFrom_cases {d : Dev} {s : Nat} {ecc : Ecc} {P : Dev → Prop} (h : P (scrubFrom d s ecc)) :
    let n := 2 * d.rankLines / 16384 + 1
    (∀ o, scrubNext d s n (d.mem.scrub.getD s 0) = some o → P (scrubLine d s o ecc)) ∧
    (scrubNext d s n (d.mem.scrub.getD s 0) = none →
      let f := if d.mem.scrub.getD s 0 = 0 then d else scrubPass d s
      (scrubNext f s n 0 = none → P f) ∧ (∀ o, scrubNext f s n 0 = some o → P (scrubLine f s o ecc))) := by
  refine ⟨fun o hnext => ?_, fun hover => ?_⟩
  · simpa only [scrubFrom, hnext, Option.isNone_some, Bool.false_and, Bool.false_eq_true, if_false] using h
  · simp only [scrubFrom, hover, Option.isNone_none, Bool.true_and, bne_iff_ne, ne_eq, ite_not] at h
    exact ⟨fun hnone => by simpa only [hnone] using h, fun o hfirst => by simpa only [hfirst] using h⟩

/-- The scrubber leaves a sub-channel that is off, not trained or in training. -/
theorem scrubRead_idle {s : Nat} {ecc : Ecc} {d : Dev} (h : d.domainOn 4 = false ∨ d.status (pgDdr s) 9 = false ∨
    (d.mem.retrain.getD s none).isSome = true) : scrubRead s ecc d = d :=
  if_pos (by simpa only [Bool.or_eq_true, Bool.not_eq_true', or_assoc] using h)

/-- The cycles from one read of a sub-channel's scrubber to the next: SCRUB_INTERVAL while no request of higher urgency
waits, 1,250 at the latest. -/
def scrubEvery (d : Dev) (s : Nat) : Nat :=
  if act d.regs pgMemx MEMX.SCRUB.SCRUB_EN = 1 && topUrgency d s == 0 then
    min (act d.regs pgMemx MEMX.SCRUB.SCRUB_INTERVAL) 1250
  else 1250

theorem scrubEvery_fast {d : Dev} {s : Nat} (hen : act d.regs pgMemx MEMX.SCRUB.SCRUB_EN = 1)
    (hcalm : topUrgency d s = 0) : scrubEvery d s = min (act d.regs pgMemx MEMX.SCRUB.SCRUB_INTERVAL) 1250 :=
  if_pos (by rw [hen, hcalm]; decide)

theorem scrubEvery_slow {d : Dev} {s : Nat}
    (h : ¬ (act d.regs pgMemx MEMX.SCRUB.SCRUB_EN = 1 ∧ topUrgency d s = 0)) : scrubEvery d s = 1250 :=
  if_neg (by simpa only [Bool.and_eq_true, decide_eq_true_eq, beq_iff_eq] using h)

/-- The scrubber of a sub-channel in service goes on in the cycle of its next read. -/
theorem scrubRead_due {s : Nat} {ecc : Ecc} {d : Dev} (hon : d.domainOn 4 = true) (hup : d.status (pgDdr s) 9 = true)
    (htrained : d.mem.retrain.getD s none = none) :
    scrubRead s ecc d =
      scrubFrom (d.fillStep.advanceTo (d.fillStep.mem.scrubAt.getD s 0 + scrubEvery d.fillStep s)) s ecc :=
  if_neg (by simp only [hon, hup, htrained]; decide)

-- ---- migrations (R304, R305) ------------------------------------------------------------------------------------

/-- Whether a rank is in the map. -/
def inTheMap (d : Dev) (p : Nat) : Bool := (List.range d.inMap).any fun j => d.mapSlot j == p

/-- The rank that a migration copies from. -/
def migSource (d : Dev) : Nat := liv d.regs pgMemx MEMX.MIG_STATE.SOURCE

/-- The rank that a migration copies to. -/
def migTarget (d : Dev) : Nat := liv d.regs pgMemx MEMX.MIG_STATE.TARGET

section
variable {p : Nat} {d : Dev}

/-- A migration of a rank that is not mapped is BAD_ARGUMENT. -/
theorem migrate_unmapped (h : inTheMap d p = false) : migrate p d = d.cmdResult 5 :=
  if_pos ((Bool.not_eq_true' _).mpr h)

variable (hmap : inTheMap d p = true)
include hmap

/-- One during another is MIG_BUSY. -/
theorem migrate_busy (h : d.migrating = true) : migrate p d = d.cmdResult 2 :=
  (if_neg (by rw [Bool.not_eq_true', Bool.not_eq_false]; exact hmap)).trans (if_pos h)

variable (hfree : d.migrating = false)
include hfree

/-- One without a spare is NO_SPARE. -/
theorem migrate_noSpare (h : d.spare = none) : migrate p d = d.cmdResult 3 := by
  rw [inTheMap] at hmap
  simp only [migrate, hmap, hfree, h, Bool.not_true, Bool.false_eq_true, if_false]

/-- Any other starts, to the spare. -/
theorem migrate_starts {t : Nat} (h : d.spare = some t) : migrate p d = (d.cmdResult 0).startMigration p t := by
  rw [inTheMap] at hmap
  simp only [migrate, hmap, hfree, h, Bool.not_true, Bool.false_eq_true, if_false]

end

/-- The device in the cycle of the next copy, from which the one after it counts. -/
def Dev.atCopy (d : Dev) : Dev :=
  let f := d.fillStep
  let e := f.advanceTo (f.mem.migAt + copyEvery f (migSource d) (migTarget d))
  e.onMem fun m => { m with migAt := e.clk.tick }

/-- The line of rank `src` that is next to copy. -/
def nextCopied (d : Dev) (src : Nat) : Nat :=
  migNext d src (d.rankLines / 16384 + 1) (liv d.regs pgMemx MEMX.MIG_PTR)

/-- Line l of rank `src` is read through the line code, behind the older requests of its row, and whether it is bad. -/
def readToCopy (d : Dev) (src dst l : Nat) (ecc : Ecc) : Dev × Bool :=
  let line := (d.regionOf src l).getD 0 * 16384 + l % 16384
  ((d.awaitRank dst).reachLine line).codeLine line src l ecc

section
variable {ecc : Ecc} {d : Dev}

/-- Without a migration nothing is copied. -/
theorem migCopy_idle (h : d.migrating = false) : migCopy ecc d = d := if_pos ((Bool.not_eq_true' _).mpr h)

variable (hmig : d.migrating = true)
include hmig

/-- Past the last line of the source the pointer alone moves. -/
theorem migCopy_over (h : d.atCopy.rankLines ≤ nextCopied d.atCopy (migSource d)) :
    migCopy ecc d = d.atCopy.setLiv pgMemx MEMX.MIG_PTR (nextCopied d.atCopy (migSource d)) :=
  (if_neg (by rw [hmig]; decide)).trans (if_pos h)

/-- A line of the source is copied and the pointer moves behind it, unless its read has ended the migration. -/
theorem migCopy_copies (h : nextCopied d.atCopy (migSource d) < d.atCopy.rankLines) :
    migCopy ecc d =
      let e := d.atCopy
      let l := nextCopied e (migSource d)
      let r := readToCopy e (migSource d) (migTarget d) l ecc
      if r.1.migrating = false then r.1
      else (((r.1.putLine (migTarget d) l (r.1.lineData (migSource d) l)).setPoison (migTarget d) l r.2)).setLiv pgMemx
        MEMX.MIG_PTR (l + 1) := by
  refine ((if_neg (by rw [hmig]; decide)).trans (if_neg (Nat.not_le.mpr h))).trans ?_
  simp only [Bool.not_eq_true']
  rfl

end

/-- A migration before its last line, and none at all, does not end. -/
theorem migDone_idle {d : Dev} (h : d.migrating = false ∨ nextCopied d (migSource d) < d.rankLines) : migDone d = d :=
  if_pos (by simpa only [nextCopied, migSource, Bool.or_eq_true, Bool.not_eq_true', decide_eq_true_eq] using h)

/-- A migration from rank `src` to rank `dst` is over: MAP takes `dst` in the place of `src`, which is FAILED and
held in self-refresh (R304). -/
def Dev.spareMapped (d : Dev) (src dst : Nat) : Dev :=
  let e := (List.range 8).foldl (fun d j => if d.mapSlot j = src then d.setLiv pgMemx (MEMX.MAP.SLOT j) dst else d) d
  let e := ((e.setLiv pgMemx MEMX.MIG_STATE.RUNNING 0).setRankState src 6).setRankState dst 1
  e.onMem fun m => { m with failing := m.failing.filter (· != src), srFrom := m.srFrom.set src (some e.clk.tick) }

/-- AON is to keep the map, and the ranks without a spare (R285). -/
def Dev.mapSaved (d : Dev) : Dev :=
  let e := d.queueAon 0x918 (rd d.regs (pageBase pgMemx + 0x928))
  let cfg := (List.range 4).foldl (fun v s => putBits v (8 * s + 3) (8 * s + 2) 0) (dramCfgOf e.regs)
  e.queueAon 0x144 (Word.ofNat cfg)

/-- A migration past its last line maps the spare in the source's place, counts and saves the map. -/
theorem migDone_ends {d : Dev} (hmig : d.migrating = true) (h : d.rankLines ≤ nextCopied d (migSource d)) :
    migDone d = ((d.spareMapped (migSource d) (migTarget d)).showSpare.event pgMemx 11).mapSaved := by
  rw [nextCopied, migSource] at h
  refine if_neg ?_
  simpa only [hmig, Bool.not_true, Bool.false_or, decide_eq_true_eq, Nat.not_lt] using h

-- ---- the scrubber of the SRAM (R310) ----------------------------------------------------------------------------

/-- The scrubber of the SRAM reads its next word of every powered bank, 64 cycles after the last. -/
def sweepWord (d : Dev) (faults : List (Fin 288 × SramEcc)) : Dev :=
  let e := d.advanceTo (d.sram.sweptAt + 64)
  let w := e.sram.swept
  let banks := (List.range 288).filter fun b =>
    bankOn e b && (e.sram.bad.contains (sramKey b w) || faults.any fun f => f.1.val == b)
  banks.foldl (scrubWord w faults)
    { e with sram := { e.sram with swept := (w + 1) % 65536, sweptAt := e.clk.tick } }

section
variable {faults : List (Fin 288 × SramEcc)} {d : Dev}

/-- With SRAM off, SCRUB.EN = 0 or no bank powered nothing is read. -/
theorem sramScrub_idle (h : d.pageOn pgSram = false ∨ act d.regs pgSram SRAM.SCRUB.EN = 0 ∨ banksOn d = 0) :
    sramScrub faults d = d :=
  if_pos (by simpa only [Bool.or_eq_true, Bool.not_eq_true', beq_iff_eq, or_assoc] using h)

/-- The next word is read, and PASSES counts after the last word of the banks. -/
theorem sramScrub_sweeps (hon : d.pageOn pgSram = true) (hen : act d.regs pgSram SRAM.SCRUB.EN ≠ 0)
    (hbanks : banksOn d ≠ 0) :
    sramScrub faults d =
      let e := sweepWord d faults
      if (d.advanceTo (d.sram.sweptAt + 64)).sram.swept + 1 < 65536 then e
      else e.setLiv pgSram SRAM.PASSES (liv e.regs pgSram SRAM.PASSES + 1) := by
  refine if_neg ?_
  simp only [hon, hen, hbanks, beq_iff_eq, Bool.not_true, Bool.or_eq_true, Bool.false_eq_true, or_self,
    not_false_eq_true]

end

/-- Settles O39: an exit, a training and its end by the rank and its sub-channel; a fill, a query and a scrub by MEM's
state; a migration, its copies and its end by the map and the pointer; the SRAM's scrub by SCRUB.EN and its banks. -/
theorem retrainingFillsAndMigration : Obligations.RetrainingFillsAndMigration := by
  unfold Obligations.RetrainingFillsAndMigration
  refine ⟨fun s k p u good eye => ⟨fun hawake => ⟨fun hnone => ?_, fun hwoken => ?_⟩,
      fun t hsr => ⟨fun hwaits => ?_, fun hgoes => ?_⟩, fun hoff => ?_, fun hon hunfit => ?_,
      fun hon hfit => ⟨fun hbusy => ?_, fun hfree hmig htrained => ?_⟩, fun hnone => ?_,
      fun t ht => ⟨fun hgood => ?_, fun hfail => ?_⟩⟩,
    fun s k r u ecc => ⟨fun hoff => ⟨?_, ?_⟩, fun hon hbeyond => ?_, fun hon hin hbusy => ?_,
      fun hon hin hnone hfree => ?_, fun hnone => ?_, fun a c hfill => ?_, fun hon => ?_, fun hidle => ?_,
      fun hon hup htrained => ⟨fun hfast => ?_, fun hslow => ?_⟩⟩,
    fun s k p ecc data check double => ⟨fun hoff => ?_, fun hon hmap => ?_, fun hon hmap hmig => ?_,
      fun hon hmap hmig hnone => ?_, fun t hon hmap hmig ht => ?_, fun hnone => ⟨?_, ?_⟩,
      fun hmig => ⟨fun hover => ?_, fun hline hended => ?_, fun hline hgoes => ?_⟩,
      fun hmig => ⟨fun hline => ?_, fun hover => ?_⟩, fun hidle => ?_,
      fun hon hen hbanks => ⟨fun hword => ?_, fun hlast => ?_⟩⟩⟩
  · exact State.lands_of_effect (exec_srExit p s) (srExit_awake hawake hnone)
  · exact State.lands_of_effect (exec_srExit p s) (srExit_woken hawake hwoken)
  · exact State.lands_of_effect (exec_srExit p s) ((srExit_asleep hsr).trans (if_pos hwaits))
  · exact State.lands_of_effect (exec_srExit p s) ((srExit_asleep hsr).trans (if_neg hgoes))
  · exact State.lands_of_effect (exec_retrain k u s) (Dev.guarded_off hoff)
  · exact State.lands_of_effect (exec_retrain k u s) ((Dev.guarded_on hon).trans (retrain_unfit hunfit))
  · exact State.lands_of_effect (exec_retrain k u s) ((Dev.guarded_on hon).trans (retrain_busy hfit hbusy))
  · exact State.lands_of_effect (exec_retrain k u s)
      ((Dev.guarded_on hon).trans (retrain_trains hfit hfree hmig htrained))
  · exact State.lands_of_effect (exec_retrainDone u good eye s) (retrainDone_idle hnone)
  · subst hgood
    exact State.lands_of_effect (exec_retrainDone u true eye s) (retrainDone_trained ht)
  · subst hfail
    exact State.lands_of_effect (exec_retrainDone u false eye s) (retrainDone_failed ht)
  · exact State.lands_of_effect (exec_fillCmd k s) (Dev.guarded_off (Bool.eq_false_of_not_eq_true hoff))
  · exact State.lands_of_effect (exec_initQuery k r s) (Dev.guarded_off (Bool.eq_false_of_not_eq_true hoff))
  · exact State.lands_of_effect (exec_fillCmd k s) ((Dev.guarded_on hon).trans (fillCmd_beyond hbeyond))
  · exact State.lands_of_effect (exec_fillCmd k s) ((Dev.guarded_on hon).trans (fillCmd_busy hin hbusy))
  · exact State.lands_of_effect (exec_fillCmd k s) ((Dev.guarded_on hon).trans (fillCmd_starts hin hnone hfree))
  · exact State.lands_of_effect (exec_fillDone s) (fillDone_idle hnone)
  · exact State.lands_of_effect (exec_fillDone s) (fillDone_ends hfill)
  · exact State.lands_of_effect (exec_initQuery k r s) (Dev.guarded_on hon)
  · exact State.lands_of_effect (exec_scrubRead u ecc s) (scrubRead_idle hidle)
  · obtain ⟨hen, hcalm⟩ := hfast
    have hscrub := scrubRead_due (ecc := ecc) hon hup htrained
    rw [scrubEvery_fast hen hcalm] at hscrub
    exact scrubFrom_cases (State.lands_of_effect (exec_scrubRead u ecc s) hscrub)
  · have hscrub := scrubRead_due (ecc := ecc) hon hup htrained
    rw [scrubEvery_slow hslow] at hscrub
    exact scrubFrom_cases (State.lands_of_effect (exec_scrubRead u ecc s) hscrub)
  · exact State.lands_of_effect (exec_migrate k p s) (Dev.guarded_off (Bool.eq_false_of_not_eq_true hoff))
  · exact State.lands_of_effect (exec_migrate k p s) ((Dev.guarded_on hon).trans (migrate_unmapped hmap))
  · exact State.lands_of_effect (exec_migrate k p s) ((Dev.guarded_on hon).trans (migrate_busy hmap hmig))
  · exact State.lands_of_effect (exec_migrate k p s) ((Dev.guarded_on hon).trans (migrate_noSpare hmap hmig hnone))
  · exact State.lands_of_effect (exec_migrate k p s) ((Dev.guarded_on hon).trans (migrate_starts hmap hmig ht))
  · exact State.lands_of_effect (exec_migCopy ecc s) (migCopy_idle hnone)
  · exact State.lands_of_effect (exec_migDone s) (migDone_idle (.inl hnone))
  · exact State.lands_of_effect (exec_migCopy ecc s) (migCopy_over hmig hover)
  · exact State.lands_of_effect (exec_migCopy ecc s) ((migCopy_copies hmig hline).trans (if_pos hended))
  · exact State.lands_of_effect (exec_migCopy ecc s)
      ((migCopy_copies hmig hline).trans (if_neg (ne_false_of_eq_true hgoes)))
  · exact State.lands_of_effect (exec_migDone s) (migDone_idle (.inr hline))
  · exact State.lands_of_effect (exec_migDone s) (migDone_ends hmig hover)
  · exact State.lands_of_effect (exec_sramScrub data check double s) (sramScrub_idle hidle)
  · exact State.lands_of_effect (exec_sramScrub data check double s)
      ((sramScrub_sweeps hon hen hbanks).trans (if_pos hword))
  · exact State.lands_of_effect (exec_sramScrub data check double s)
      ((sramScrub_sweeps hon hen hbanks).trans (if_neg (Nat.not_lt.mpr hlast)))

end Sys2Proof.Machine
end

section
/-!
PROOFS. A journal entry (R387, R389): its bytes, what committing it leaves, and its frame.
-/
namespace Sys2Proof.Machine

/-- The bytes of a number are as many as asked for. -/
@[simp] theorem leBytes_length (n : Nat) : ∀ v, (leBytes n v).length = n := by
  induction n with
  | zero => exact fun _ => rfl
  | succ n ih => exact fun v => congrArg (· + 1) (ih (v / 256))

/-- An entry has 32 bytes. -/
theorem JEntry.bytes_length (e : JEntry) : e.bytes.length = 32 := by
  simp only [JEntry.bytes, List.length_append, leBytes_length]

/-- The entry that the device commits next (R387, R389). -/
def Dev.nextEntry (d : Dev) (j : JSource) : JEntry :=
  ⟨d.jr.nextSeq, d.timeAt (max d.clk.tick d.jr.freeAt), j.link, j.kind, j.code, j.page, j.result,
    j.flags + (if d.pwr.mode = 6 then 2 else 0), j.digest, j.arg % 2 ^ 64⟩

/-- The journal with an entry more, and the sequence numbers that show it. -/
def Dev.entryStored (d : Dev) (e : JEntry) : Dev :=
  let streams := d.domainOn 2 && act d.regs pgSahf SAHF.LOGS.JOURNAL != 0
  let j : Journal := { d.jr with
    freeAt := max d.clk.tick d.jr.freeAt + 1, entries := (e :: d.jr.entries).take 4096,
    nextSeq := (d.jr.nextSeq + 1) % 2 ^ 32, uncopied := d.jr.uncopied ++ [e],
    outFrom := if streams && d.jr.outbox.isEmpty then d.clk.tick else d.jr.outFrom,
    outbox := if streams then d.jr.outbox ++ [e] else d.jr.outbox }
  (({ d with jr := j } : Dev).setLiv pgJournal JOURNAL.NEXT_SEQ j.nextSeq).setLiv pgJournal JOURNAL.OLDEST_SEQ j.oldest

/-- With CTRL off nothing is committed. -/
theorem Dev.journal_off {d : Dev} (j : JSource) (h : d.domainOn 1 = false) : d.journal j = d := by
  simp only [Dev.journal, h, Bool.not_false, if_true]

/-- With CTRL on an entry is stored and counted. -/
theorem Dev.journal_on {d : Dev} (j : JSource) (h : d.domainOn 1 = true) :
    d.journal j = (d.entryStored (d.nextEntry j)).event pgJournal 4 := by
  simp only [Dev.journal, h, Bool.not_true, Bool.false_eq_true, if_false]
  rfl

/-- Storing an entry writes registers of JOURNAL only. -/
theorem Dev.entryStored_regs (d : Dev) (e : JEntry) :
    (d.entryStored e).regs.agree d.regs fun a => a / 0x1000 = pgJournal :=
  RegMap.agree_trans (RegMap.agree_put _ _ _ (by decide)) (RegMap.agree_put _ _ _ (by decide))

/-- Storing an entry does not count one. -/
theorem Dev.entryStored_saturates (d : Dev) (e : JEntry) :
    (d.entryStored e).saturates pgJournal 4 = d.saturates pgJournal 4 := by
  have hcount : (d.entryStored e).count pgJournal 4 = d.count pgJournal 4 := by
    unfold Dev.count
    refine congrArg BitVec.toNat ?_
    exact (Fld.rd_put_other _ _ (by decide)).trans (Fld.rd_put_other _ _ (by decide))
  unfold Dev.saturates
  rw [hcount]
  rfl

/-- An event of a page other than AON that does not saturate its pair changes registers only, those of its page. -/
theorem Dev.event_unsaturated {d : Dev} {p n : Nat} (hn : n < 500) (hp : p ≠ pgAon) (h : d.saturates p n = false) :
    ∃ m, d.event p n = { d with regs := m } ∧ m.agree d.regs fun a => a / 0x1000 = p := by
  obtain ⟨m, hm, hagree⟩ := d.bump_form hn hp
  refine ⟨m, ?_, RegMap.agree_mono hagree fun a ha => ha ▸ countAddr_page hn⟩
  simp only [Dev.event, h, Bool.false_eq_true, if_false, hm]

/-- Settles O12: the entry is stored, then counted; an event that does not saturate its pair moves registers of its page
only. -/
theorem journalCommitsInOrder : Obligations.JournalCommitsInOrder := by
  unfold Obligations.JournalCommitsInOrder
  refine fun d j => ⟨Dev.journal_off j, fun hon => ?_⟩
  have hjr : (d.journal j).jr = (d.entryStored (d.nextEntry j)).jr := by
    rw [Dev.journal_on j hon, Dev.event_jr]
  refine ⟨by rw [hjr]; rfl, ⟨d.nextEntry j, ?_⟩, fun hsat => ?_⟩
  · rw [hjr]
    exact ⟨rfl, rfl, rfl, rfl, rfl, rfl, rfl, rfl, rfl, rfl, rfl, rfl, JEntry.bytes_length _⟩
  · rw [← d.entryStored_saturates (d.nextEntry j)] at hsat
    obtain ⟨m, hm, hagree⟩ := Dev.event_unsaturated (by decide) (by decide) hsat
    rw [Dev.journal_on j hon, hm]
    exact ⟨rfl, RegMap.agree_trans hagree (d.entryStored_regs _)⟩

end Sys2Proof.Machine
end

section
/-!
PROOFS. Every command but RAIL_STEP completes with the outputs settled and the queue kept; RAIL_STEP stops out of the
order of the rails (R446). The step as the command at the front of the queue, and as time that passes.
-/
namespace Sys2Proof.Machine

/-- A command other than RAIL_STEP is done, whatever its operands and the state. -/
theorem exec_completes {c : Instr} (h : ∀ k good, c ≠ .railStep k good) (s : State) : ∃ d, exec c s = done s d := by
  cases c with
  | railStep k good => exact absurd rfl (h k good)
  | _ => exact ⟨_, rfl⟩

/-- RAIL_STEP with no rail coming up, or of the rail whose turn it is, is done. -/
theorem exec_railStep_completes {k : Fin 6} {s : State} (good : Bool)
    (h : s.dev.aonSt.goal = none ∨ k.val = s.dev.aonSt.rail) : ∃ d, exec (.railStep k good) s = done s d := by
  cases hgoal : s.dev.aonSt.goal with
  | none => exact ⟨_, exec_railStep_idle k good s hgoal⟩
  | some last => exact ⟨_, exec_railStep_turn k good s hgoal (h.resolve_left (by simp [hgoal]))⟩

/-- A command either is done or stops. -/
theorem exec_done_or_stops (c : Instr) (s : State) : (∃ d, exec c s = done s d) ∨ exec c s = .fault .railOutOfOrder := by
  by_cases hrail : ∃ k good, c = .railStep k good
  · obtain ⟨k, good, rfl⟩ := hrail
    cases hgoal : s.dev.aonSt.goal with
    | none => exact .inl (exec_railStep_completes good (.inl hgoal))
    | some last =>
      by_cases hk : k.val = s.dev.aonSt.rail
      · exact .inl (exec_railStep_completes good (.inr hk))
      · exact .inr (exec_railStep_stop k good s hgoal hk)
  · exact .inl (exec_completes (fun k good he => hrail ⟨k, good, he⟩) s)

/-- Settles O3: a command is done, which keeps the queue, but for a RAIL_STEP of another rail than the one that comes up. -/
theorem commandsCompleteAndKeepTheQueue : Obligations.CommandsCompleteAndKeepTheQueue := by
  unfold Obligations.CommandsCompleteAndKeepTheQueue
  refine ⟨fun c s t ht => ?_, fun c s => ⟨fun hturn => ?_, fun k good hc hgoal hk => ?_⟩⟩
  · rcases exec_done_or_stops c s with ⟨d, hd⟩ | hstop
    · rw [hd] at ht
      injection ht with ht
      exact ht ▸ rfl
    · rw [hstop] at ht
      exact absurd ht (by simp)
  · by_cases hrail : ∃ k good, c = .railStep k good
    · obtain ⟨k, good, rfl⟩ := hrail
      exact exec_railStep_completes good (hturn k good rfl)
    · exact exec_completes (fun k good he => hrail ⟨k, good, he⟩) s
  · obtain ⟨last, hlast⟩ := Option.isSome_iff_exists.mp hgoal
    subst hc
    exact exec_railStep_stop k good s hlast hk

/-- Settles O1: by the step of a queue with a front. -/
theorem stepRunsFrontCommand : Obligations.StepRunsFrontCommand := fun _ _ _ => rfl

/-- With no command waiting a step lets time pass. -/
theorem step_idle {s : State} (h : s.pending = []) : step s = execIdle s := by
  unfold step
  rw [h]

/-- Settles O2: with the core clock on a core cycle passes, with it off a slow edge. -/
theorem emptyQueueLetsTimePass : Obligations.EmptyQueueLetsTimePass := by
  unfold Obligations.EmptyQueueLetsTimePass
  intro s hempty
  rw [step_idle hempty]
  unfold execIdle
  cases s.dev.clk.coreOn with
  | true => rfl
  | false => rfl

end Sys2Proof.Machine
end

section
/-!
PROOFS. The DMA channels (R314 to R324): the doorbells by the state of the channel, a fetch, a completion and a link by
what they find, a burst by its grant.
-/
namespace Sys2Proof.Machine

-- ---- doorbells (R317, R318, R324) -------------------------------------------------------------------------------

section
variable {d : Dev} {c : Nat}

/-- A channel that runs, or waits for its tail, ignores START. -/
theorem dmaStart_ignored (h : dmaState d c = 1 ∨ dmaState d c = 2) : dmaStart c d = d := if_pos h

/-- Any other channel starts at HEAD. -/
theorem dmaStart_fetches (h : dmaState d c = 0 ∨ dmaState d c = 3) :
    dmaStart c d =
      setDmaState (((d.onChan c fun _ => { fetch := some (act d.regs pgDma (DMA.HEAD c) * 32) }).setLiv pgDma
        (DMA.FETCHED c) 0).setLiv pgDma (DMA.STATE.DB_PENDING c) 0) c 1 :=
  if_neg (by omega)

theorem dmaStop_running (h : dmaState d c = 1) : dmaStop c d = dmaHalt d c 9 true := by simp only [dmaStop, h]
theorem dmaStop_waiting (h : dmaState d c = 2) : dmaStop c d = dmaHalt d c 9 false := by simp only [dmaStop, h]
theorem dmaStop_halted (h : dmaState d c = 3) : dmaStop c d = setDmaState d c 0 := by simp only [dmaStop, h]
theorem dmaStop_idle (h : dmaState d c = 0) : dmaStop c d = d := by simp only [dmaStop, h]

theorem dmaRing_running (h : dmaState d c = 1) : dmaRing c d = d.setLiv pgDma (DMA.STATE.DB_PENDING c) 1 := by
  simp only [dmaRing, h]
theorem dmaRing_waiting (h : dmaState d c = 2) : dmaRing c d = issueLink d c := by simp only [dmaRing, h]

/-- A channel that is halted or idle ignores RING. -/
theorem dmaRing_ignored (h : dmaState d c = 0 ∨ dmaState d c = 3) : dmaRing c d = d := by
  rcases h with h | h <;> simp only [dmaRing, h]

end

-- ---- a fetch (R314, R315, R317) ---------------------------------------------------------------------------------

/-- The device that shows the descriptor at address a as the channel's current one. -/
def Dev.atDesc (d : Dev) (c a : Nat) : Dev := d.setLiv pgDma (DMA.CUR_DESC c) (a / 32)

/-- The descriptor at address a whose bytes were read. -/
def descOf (a : Nat) (b : List Byte) : DmaDesc :=
  let len := fieldAt b 16 4
  ⟨a, fieldAt b 0 8, fieldAt b 8 8, if len % 2 ^ 24 = 0 then 2 ^ 24 else len % 2 ^ 24, fieldAt b 20 4⟩

/-- The channel takes the descriptor fetched, its n-th since START. -/
def Dev.takeDesc (d : Dev) (c n : Nat) (g : DmaDesc) : Dev :=
  ((d.setLiv pgDma (DMA.FETCHED c) n).setLiv pgDma (DMA.MOVED c) 0).onChan c fun _ => { desc := some g }

section
variable {ap : Nat → Dev → Dev} {c a : Nat} {d : Dev} {ecc : Ecc}

/-- With nothing to fetch nothing happens. -/
theorem dmaFetch_idle (h : (d.chan c).fetch = none) : dmaFetch ap c ecc d = d := by simp only [dmaFetch, h]

variable (h : (d.chan c).fetch = some a)
include h

/-- Under a parity fault the channel halts with CFG_FAULT (R39). -/
theorem dmaFetch_upset (hupset : ((ap c d).atDesc c a).status pgDma 2 = true) :
    dmaFetch ap c ecc d = dmaHalt ((ap c d).atDesc c a) c 8 false := by
  simp only [dmaFetch, h]
  exact if_pos hupset

variable (hcalm : ¬ ((ap c d).atDesc c a).status pgDma 2 = true)
include hcalm

/-- At the limit of its chain it halts with LOOP. -/
theorem dmaFetch_limit (hlimit : act (ap c d).regs pgDma DMA.CHAIN_LIMIT ≠ 0)
    (hn : liv (ap c d).regs pgDma (DMA.FETCHED c) = act (ap c d).regs pgDma DMA.CHAIN_LIMIT) :
    dmaFetch ap c ecc d = dmaHalt ((ap c d).atDesc c a) c 1 false := by
  simp only [dmaFetch, h]
  exact (if_neg hcalm).trans (if_pos ⟨hlimit, hn⟩)

variable (hbelow : act (ap c d).regs pgDma DMA.CHAIN_LIMIT = 0 ∨
  liv (ap c d).regs pgDma (DMA.FETCHED c) ≠ act (ap c d).regs pgDma DMA.CHAIN_LIMIT)
include hbelow

/-- A read of the descriptor that fails halts it. -/
theorem dmaFetch_unread (hst : (((ap c d).atDesc c a).memRead a 32 ecc).2.1 ≠ .ok) :
    let r := ((ap c d).atDesc c a).memRead a 32 ecc
    dmaFetch ap c ecc d = fetchHalt r.1 c r.2.1 := by
  simp only [dmaFetch, h]
  exact (if_neg hcalm).trans ((if_neg (by tauto)).trans (if_pos hst))

/-- A descriptor that was read is the channel's; one that breaks the rules of R315 halts it. -/
theorem dmaFetch_read (hst : (((ap c d).atDesc c a).memRead a 32 ecc).2.1 = .ok) :
    let r := ((ap c d).atDesc c a).memRead a 32 ecc
    let f := r.1.takeDesc c (liv (ap c d).regs pgDma (DMA.FETCHED c) + 1) (descOf a r.2.2.2)
    dmaFetch ap c ecc d =
      if descOk f (descOf a r.2.2.2) (fieldAt r.2.2.2 16 4) then f else dmaHalt f c 3 true := by
  simp only [dmaFetch, h]
  exact (if_neg hcalm).trans ((if_neg (by tauto)).trans (if_neg (not_not_intro hst)))

end

-- ---- completion and links (R317, R318, R321) --------------------------------------------------------------------

/-- The descriptor of a channel is complete: its STATUS is written, and counted where IRQ asks. -/
def Dev.descDone (d : Dev) (c code : Nat) (g : DmaDesc) : Dev :=
  let e := writeStatus d c true code
  (if bitOf g.ctrl 20 then compCount e c else e).onChan c fun h => { h with done := none }

section
variable {c : Nat} {d : Dev} {g : DmaDesc}

/-- Without a descriptor that is through nothing completes. -/
theorem dmaComplete_idle (h : (d.chan c).done = none ∨ (d.chan c).desc = none) : dmaComplete c d = d := by
  unfold dmaComplete
  split
  · simp_all
  · rfl

/-- One that is through reads its link; under a parity fault the channel halts. -/
theorem dmaComplete_ends {code : Nat} (hdone : (d.chan c).done = some code) (hdesc : (d.chan c).desc = some g) :
    dmaComplete c d =
      if (d.descDone c code g).status pgDma 2 = true then dmaHalt (d.descDone c code g) c 8 true
      else issueLink (d.descDone c code g) c := by
  simp only [dmaComplete, hdone, hdesc]
  rfl

/-- Without a link to read LINK_READ does nothing. -/
theorem linkRead_idle {ecc : Ecc} (h : (d.chan c).link = false ∨ (d.chan c).desc = none) : linkRead c ecc d = d := by
  unfold linkRead
  split
  · simp_all
  · rfl

/-- A channel that reads its link goes on by the word read: to the next descriptor, waiting at the tail, or halted. -/
theorem linkRead_reads {ecc : Ecc} (hlink : (d.chan c).link = true) (hdesc : (d.chan c).desc = some g) :
    let r := d.memRead (g.addr + 24) 4 ecc
    let w := leNat r.2.2.2
    linkRead c ecc d =
      if r.2.1 ≠ .ok then fetchHalt r.1 c r.2.1
      else if w % 2 = 0 then
        if w / 2 * 32 = g.addr then dmaHalt r.1 c 1 true else fetchNext r.1 c (w / 2 * 32)
      else if liv r.1.regs pgDma (DMA.STATE.DB_PENDING c) = 1 then issueLink r.1 c
      else setDmaState (r.1.onChan c fun h => { h with link := false }) c 2 := by
  simp only [linkRead, hlink, hdesc]

/-- Without a descriptor no access of the host is waited for. -/
theorem noresp_idle (h : (d.chan c).desc = none) : noresp c d = d := by simp only [noresp, h]

/-- An access of the host that waits halts the channel with NORESP, 4,096 cycles on. -/
theorem noresp_desc (h : (d.chan c).desc = some g) :
    noresp c d =
      if dmaState d c = 1 ∧ (d.chan c).done = none ∧ (g.srcSpace = 1 ∨ g.dstSpace = 1) then
        dmaHalt (d.advance 4096) c 2 true
      else d := by
  simp only [noresp, h, Option.isNone_iff_eq_none]

end

-- ---- bursts (R320) ----------------------------------------------------------------------------------------------

/-- The channels that wait for a burst. -/
def burstsWaiting (d : Dev) : List Nat := (List.range 32).filter (burstWaits d)

section
variable {sys : Link → Nat → Word → Dev → Dev} {host : HostReply} {ecc out : Ecc} {d : Dev}

/-- With no level to grant there is no burst. -/
theorem dmaBurst_idle (h : grantLevel d (burstsWaiting d) = none) : dmaBurst sys host ecc out d = d := by
  unfold burstsWaiting at h
  simp only [dmaBurst, h]

/-- The channel granted moves a burst of its descriptor. -/
theorem dmaBurst_grants {level c : Nat} {g : DmaDesc} (hlevel : grantLevel d (burstsWaiting d) = some level)
    (hc : grantAt d (burstsWaiting d) level = some c)
    (hg : ((noteGrant d (burstsWaiting d) level c).chan c).desc = some g) :
    dmaBurst sys host ecc out d = burstOf sys c g host ecc out (noteGrant d (burstsWaiting d) level c) := by
  unfold burstsWaiting at hlevel hc hg ⊢
  simp only [dmaBurst, hlevel, hc, hg]

end

/-- The three doorbells where DMA is off. -/
theorem doorbells_off {s : State} (k : Link) (c : Fin 32) (h : s.dev.pageOn pgDma = false) :
    ∀ i ∈ ([.dmaStart k c, .dmaStop k c, .dmaRing k c] : List Instr),
      s.lands i (s.dev.busError (pageBase pgDma + (0xC00 + 4 * c.val)) .domainOff (linkCode k)) := by
  intro i hi
  simp only [List.mem_cons, List.not_mem_nil, or_false] at hi
  rcases hi with rfl | rfl | rfl
  · exact State.lands_of_effect (exec_dmaStart k c s) (Dev.guarded_off h)
  · exact State.lands_of_effect (exec_dmaStop k c s) (Dev.guarded_off h)
  · exact State.lands_of_effect (exec_dmaRing k c s) (Dev.guarded_off h)

section
variable {s : State} {d : Dev}

theorem lands_dmaStart (k : Link) (c : Fin 32) (hon : s.dev.pageOn pgDma = true) (h : dmaStart c.val s.dev = d) :
    s.lands (.dmaStart k c) d := State.lands_of_effect (exec_dmaStart k c s) ((Dev.guarded_on hon).trans h)
theorem lands_dmaStop (k : Link) (c : Fin 32) (hon : s.dev.pageOn pgDma = true) (h : dmaStop c.val s.dev = d) :
    s.lands (.dmaStop k c) d := State.lands_of_effect (exec_dmaStop k c s) ((Dev.guarded_on hon).trans h)
theorem lands_dmaRing (k : Link) (c : Fin 32) (hon : s.dev.pageOn pgDma = true) (h : dmaRing c.val s.dev = d) :
    s.lands (.dmaRing k c) d := State.lands_of_effect (exec_dmaRing k c s) ((Dev.guarded_on hon).trans h)

end

/-- Settles O40: each doorbell by the channel's state; a fetch, a completion, a link and a host access by what the
channel holds and reads; a burst by its grant. -/
theorem dmaChannelsRun : Obligations.DmaChannelsRun := by
  unfold Obligations.DmaChannelsRun
  refine ⟨fun s k c ecc => ⟨doorbells_off k c, fun hon => ⟨fun h => ?_, fun h => ?_, fun h => ⟨?_, ?_⟩,
      fun h => ⟨?_, ?_⟩, fun h => ⟨?_, ?_⟩, fun h => ⟨?_, ?_⟩⟩, fun hnone => ?_,
      fun a ha => ⟨fun hupset => ?_, fun hcalm hlimit hn => ?_, fun hcalm hbelow => ⟨fun hst => ?_, fun hst => ?_⟩⟩,
      fun hnone => ?_, fun code g hcode hg => ⟨fun hcalm => ?_, fun hupset => ?_⟩⟩,
    fun s c host ecc out => ⟨fun hnone => ?_, fun level c' g hlevel hc hg => ?_, fun hnone => ?_,
      fun g hlink hg => ⟨fun hst => ?_, fun hst heven hother => ?_, fun hst heven hself => ?_, fun hst hodd hdb => ?_,
        fun hst hodd hdb => ?_⟩, fun hnone => ?_, fun g hg => ⟨fun hwaits => ?_, fun hwaits => ?_⟩⟩⟩
  · exact lands_dmaStart k c hon (dmaStart_ignored h)
  · exact lands_dmaStart k c hon (dmaStart_fetches h)
  · exact lands_dmaStop k c hon (dmaStop_running h)
  · exact lands_dmaRing k c hon (dmaRing_running h)
  · exact lands_dmaStop k c hon (dmaStop_waiting h)
  · exact lands_dmaRing k c hon (dmaRing_waiting h)
  · exact lands_dmaStop k c hon (dmaStop_halted h)
  · exact lands_dmaRing k c hon (dmaRing_ignored (.inr h))
  · exact lands_dmaStop k c hon (dmaStop_idle h)
  · exact lands_dmaRing k c hon (dmaRing_ignored (.inl h))
  · exact State.lands_of_effect (exec_dmaFetch c ecc s) (dmaFetch_idle hnone)
  · exact State.lands_of_effect (exec_dmaFetch c ecc s) (dmaFetch_upset ha hupset)
  · exact State.lands_of_effect (exec_dmaFetch c ecc s) (dmaFetch_limit ha hcalm hlimit hn)
  · exact State.lands_of_effect (exec_dmaFetch c ecc s) (dmaFetch_unread ha hcalm hbelow hst)
  · exact State.lands_of_effect (exec_dmaFetch c ecc s) (dmaFetch_read ha hcalm hbelow hst)
  · exact State.lands_of_effect (exec_dmaComplete c s) (dmaComplete_idle hnone)
  · exact State.lands_of_effect (exec_dmaComplete c s)
      ((dmaComplete_ends hcode hg).trans (if_neg (ne_true_of_eq_false hcalm)))
  · exact State.lands_of_effect (exec_dmaComplete c s) ((dmaComplete_ends hcode hg).trans (if_pos hupset))
  · exact State.lands_of_effect (exec_dmaBurst host ⟨ecc, out⟩ s) (dmaBurst_idle hnone)
  · exact State.lands_of_effect (exec_dmaBurst host ⟨ecc, out⟩ s) (dmaBurst_grants hlevel hc hg)
  · exact State.lands_of_effect (exec_linkRead c ecc s) (linkRead_idle hnone)
  · exact State.lands_of_effect (exec_linkRead c ecc s) ((linkRead_reads hlink hg).trans (if_pos hst))
  · exact State.lands_of_effect (exec_linkRead c ecc s) ((linkRead_reads hlink hg).trans
      ((if_neg (not_not_intro hst)).trans ((if_pos heven).trans (if_neg hother))))
  · exact State.lands_of_effect (exec_linkRead c ecc s) ((linkRead_reads hlink hg).trans
      ((if_neg (not_not_intro hst)).trans ((if_pos heven).trans (if_pos hself))))
  · exact State.lands_of_effect (exec_linkRead c ecc s) ((linkRead_reads hlink hg).trans
      ((if_neg (not_not_intro hst)).trans ((if_neg (by omega)).trans (if_neg (by omega)))))
  · exact State.lands_of_effect (exec_linkRead c ecc s) ((linkRead_reads hlink hg).trans
      ((if_neg (not_not_intro hst)).trans ((if_neg (by omega)).trans (if_pos hdb))))
  · exact State.lands_of_effect (exec_noresp c s) (noresp_idle hnone)
  · exact State.lands_of_effect (exec_noresp c s) ((noresp_desc hg).trans (if_pos hwaits))
  · exact State.lands_of_effect (exec_noresp c s) ((noresp_desc hg).trans (if_neg hwaits))

end Sys2Proof.Machine
end

section
/-!
PROOFS. The contexts of the codec (R326 to R337): input, blocks, decoding, CLOSE, RESET, stalls and the switch, each by
what it finds.
-/
namespace Sys2Proof.Machine

-- ---- input (R326) -----------------------------------------------------------------------------------------------

section
variable {d : Dev} {n : Nat} {bytes : List Byte} {eom : Bool}

/-- A context that takes no input halts the channels that feed it. -/
theorem codecInput_refused (h : takesInput d n = false) : codecInput n bytes eom d = haltFeeders d n := by
  simp only [codecInput, h, Bool.not_false, if_true]

variable (h : takesInput d n = true)
include h

/-- One that stalls on output makes the access wait. -/
theorem codecInput_waits (hst : codecState d n = 3) : codecInput n bytes eom d = d := by
  simp only [codecInput, h, Bool.not_true, Bool.false_eq_true, if_false, hst, if_true]

/-- Any other takes the bytes. -/
theorem codecInput_feeds (hst : codecState d n ≠ 3) : codecInput n bytes eom d = feedCtx d n bytes eom := by
  simp only [codecInput, h, Bool.not_true, Bool.false_eq_true, if_false, hst]

end

-- ---- blocks and decoding (R329 to R333) -------------------------------------------------------------------------

/-- Whether a context can work now: open, neither in ERROR nor saved, and its engine free for it. -/
def ctxWorks (d : Dev) (n : Nat) : Bool :=
  (d.ctx n).isOpen && codecState d n != 4 && !(d.ctx n).saved && mayUse d n

/-- A block of a context at the error of its checker: the first form of the block failed. -/
def blockFailed (d : Dev) (n used : Nat) : Dev :=
  d.eventLog pgCodec 4 sevError (n + 8 * 2 ^ 4 + used % 2 ^ 28 * 2 ^ 12)

/-- A context that takes its engine for a block, whose first form was verified or not. -/
def blockTried (d : Dev) (n : Nat) (ok : Bool) : Dev :=
  if ok then takeEngine d n else blockFailed (takeEngine d n) n (d.ctx n).used

/-- A block joins the output, in its first form or stored. -/
def blockJoins (d : Dev) (n : Nat) (ok : Bool) (data : List Byte) (ends : Bool) : Dev :=
  let e := blockTried d n ok
  showCtx (e.setCtx n { putBlock e.regs n (!ok) (d.ctx n) data ends with stall := none }) n

/-- A block that failed in both forms puts its context in ERROR with VERIFY, at its position. -/
def blockError (d : Dev) (n : Nat) : Dev :=
  let f := ((blockTried d n false).setLiv pgCodec (CODEC.STATE n) 4).setLiv pgCodec (CODEC.ERR.CODE n) 8
  let f := f.setPair pgCodec (CODEC.ERR_POS_LO n).off (CODEC.ERR_POS_HI n).off ((d.ctx n).used % 2 ^ 48)
  haltDrains (f.setStatus pgCodec (8 + n) true) n

section
variable {d : Dev} {n : Nat}

theorem ctxWorks_iff :
    ctxWorks d n = true ↔
      (d.ctx n).isOpen = true ∧ codecState d n ≠ 4 ∧ (d.ctx n).saved = false ∧ mayUse d n = true := by
  simp only [ctxWorks, Bool.and_eq_true, bne_iff_ne, Bool.not_eq_true', and_assoc]

theorem not_ctxWorks_of_shut (h : (d.ctx n).isOpen = false ∨ codecState d n = 4 ∨ (d.ctx n).saved = true) :
    ctxWorks d n = false := by
  rw [← Bool.not_eq_true, ctxWorks_iff]
  rintro ⟨hopen, hst, hsaved, -⟩
  simp_all

theorem not_ctxWorks_of_engine (h : mayUse d n = false) : ctxWorks d n = false := by
  simp only [ctxWorks, h, Bool.and_false]

/-- What bars the work of a context of one direction. -/
theorem ctxWorks_bar (b : Bool) :
    (b || !(d.ctx n).isOpen || codecState d n == 4 || (d.ctx n).saved || !mayUse d n) = (b || !ctxWorks d n) := by
  simp [ctxWorks, Bool.or_assoc, bne]

variable {ap : Nat → Dev → Dev} {ok ok' : Bool}

/-- A context that decompresses, cannot work or has no block left codes none. -/
theorem codecBlock_idle
    (h : decompresses d.regs n = true ∨ ctxWorks d n = false ∨ nextBlock d.regs n (d.ctx n) = none) :
    codecBlock ap n ok ok' d = d := by
  unfold codecBlock
  simp only [ctxWorks_bar]
  rcases h with h | h | h
  · simp only [h, Bool.true_or, if_true]
  · simp only [h, Bool.not_false, Bool.or_true, if_true]
  · simp only [h, ite_self]

/-- A block joins the output in a form that was verified, and the context goes on or ends its stream (R337); one that
fails in both forms puts it in ERROR. -/
theorem codecBlock_codes {data : List Byte} {ends : Bool} (hdir : decompresses d.regs n = false)
    (hworks : ctxWorks d n = true) (hblock : nextBlock d.regs n (d.ctx n) = some (data, ends)) :
    codecBlock ap n ok ok' d =
      if !ok && !ok' then blockError d n
      else if (blockJoins d n ok data ends).status pgCodec 2 then closeStream (blockJoins d n ok data ends) n
      else ap n (blockJoins d n ok data ends) := by
  unfold codecBlock
  simp only [ctxWorks_bar, hdir, hworks, hblock, Bool.not_true, Bool.or_self, Bool.false_eq_true, if_false]
  cases ok <;> cases ok' <;> rfl

/-- A context that compresses or cannot work decodes nothing. -/
theorem codecDecode_idle (h : decompresses d.regs n = false ∨ ctxWorks d n = false) : codecDecode ap n d = d := by
  unfold codecDecode
  simp only [ctxWorks_bar]
  rcases h with h | h <;> simp only [h, Bool.not_false, Bool.true_or, Bool.or_true, if_true]

/-- The decoder at its next block end: what it left of the context, and what it found wrong. -/
def decoded (d : Dev) (n : Nat) : CodecCtx × Option Nat := decodeCtx (takeEngine d n).regs n (d.ctx n)

/-- The device whose context is as the decoder left it. -/
def atDecoded (d : Dev) (n : Nat) : Dev :=
  (takeEngine d n).setCtx n { (decoded d n).1 with stall := none }

/-- A context decodes up to its next block end, and goes on or ends by what it found there. -/
theorem codecDecode_works (hdir : decompresses d.regs n = true) (hworks : ctxWorks d n = true) :
    codecDecode ap n d =
      match (decoded d n).2 with
      | some code => ctxError (atDecoded d n) n code (decoded d n).1.used (decoded d n).1.bitPos 5
      | none =>
        if (decoded d n).1.phase ≤ 1 then
          if (atDecoded d n).status pgCodec 2 then
            ctxError (atDecoded d n) n 9 (decoded d n).1.used (decoded d n).1.bitPos 6
          else ap n (showCtx (atDecoded d n) n)
        else showCtx (atDecoded d n) n := by
  unfold codecDecode
  simp only [ctxWorks_bar, hdir, hworks, Bool.not_true, Bool.or_self, Bool.false_eq_true, if_false]
  rfl

-- ---- CLOSE (R330, R333) -----------------------------------------------------------------------------------------

/-- CLOSE of a context that is closed or in ERROR does nothing. -/
theorem codecClose_idle (h : (d.ctx n).isOpen = false ∨ codecState d n = 4) : codecClose n d = d :=
  if_pos (by rcases h with h | h <;> simp [h])

/-- What CLOSE of a decompressing context decodes: the rest of its input. -/
def closeRest (d : Dev) (n : Nat) : CodecCtx × Option Nat :=
  decodeRest d.regs n ((d.ctx n).input.length + 1) (d.ctx n)

/-- CLOSE of an open context ends its stream, or decodes the rest and shuts it. -/
theorem codecClose_open (hopen : (d.ctx n).isOpen = true) (hst : codecState d n ≠ 4) :
    codecClose n d =
      if decompresses d.regs n then
        match (closeRest d n).2 with
        | some code =>
          ctxError (d.setCtx n (closeRest d n).1) n code (closeRest d n).1.used (closeRest d n).1.bitPos 5
        | none =>
          if (closeRest d n).1.phase = 0 ∧ (closeRest d n).1.input = [] then shutCtx (d.setCtx n (closeRest d n).1) n
          else ctxError (d.setCtx n (closeRest d n).1) n 7 (closeRest d n).1.used (closeRest d n).1.bitPos 5
      else closeStream d n :=
  if_neg (by simp [hopen, hst])

-- ---- stalls and the switch (R334, R335) -------------------------------------------------------------------------

/-- A context that does not stall, or is held already, has no timeout. -/
theorem stallTimeout_idle (h : (d.ctx n).stall = none ∨ (d.ctx n).held = true) : stallTimeout n d = d := by
  unfold stallTimeout
  dsimp only
  split
  · rfl
  · rename_i hs
    simp [h.resolve_left (by simp [hs])]

/-- An engine that no context holds is taken. -/
theorem contextSwitch_free {ecc : Ecc} (h : engineOf d n = none) : contextSwitch n ecc d = takeEngine d n := by
  simp only [contextSwitch, h]

/-- An engine that one holds goes to the next ready one, where it may leave. -/
theorem contextSwitch_held {ecc : Ecc} {o : Nat} (h : engineOf d n = some o) :
    contextSwitch n ecc d =
      if o ≠ n ∧ mayLeave d o = true ∧ nextReady d o = some n then switchTo n o ecc d else d := by
  simp only [contextSwitch, h]
  by_cases hn : o = n <;> cases hl : mayLeave d o <;> by_cases hr : nextReady d o = some n <;> simp [*]

end

/-- Settles O41: input by what the context takes, a block and a decoding by whether it works and what is verified or
found, CLOSE by its direction, a switch by the engine's holder. -/
theorem codecContextsRun : Obligations.CodecContextsRun := by
  unfold Obligations.CodecContextsRun
  refine ⟨fun s n bytes eom ok ok' => ⟨fun h => ?_, fun h hst => ?_, fun h hst => ?_, fun h => ⟨?_, ?_⟩, fun h => ?_,
      fun h => ?_, fun h => ?_, fun h => ?_,
      fun data ends hdir hopen hst hsaved huse hblock => ?_,
      fun hdir hopen hst hsaved huse => ?_⟩,
    fun s k n ecc => ⟨fun hoff => ⟨?_, ?_⟩, fun hon h => ?_,
      fun hon hopen hst => ⟨fun hdir => ?_, fun hdir => ?_⟩, fun hon => ?_, fun h => ?_, fun t ht hheld => ?_, fun h => ?_,
      fun o ho => ⟨fun hgoes => ?_, fun hstays => ?_⟩⟩⟩
  · exact State.lands_of_effect (exec_codecInput n bytes eom s) (codecInput_refused h)
  · exact State.lands_of_effect (exec_codecInput n bytes eom s) (codecInput_waits h hst)
  · exact State.lands_of_effect (exec_codecInput n bytes eom s) (codecInput_feeds h hst)
  · exact State.lands_of_effect (exec_codecBlock n ok ok' s) (codecBlock_idle (.inr (.inl (not_ctxWorks_of_shut h))))
  · exact State.lands_of_effect (exec_codecDecode n s) (codecDecode_idle (.inr (not_ctxWorks_of_shut h)))
  · exact State.lands_of_effect (exec_codecBlock n ok ok' s) (codecBlock_idle (.inl h))
  · exact State.lands_of_effect (exec_codecDecode n s) (codecDecode_idle (.inl h))
  · exact State.lands_of_effect (exec_codecBlock n ok ok' s)
      (codecBlock_idle (.inr (h.imp_left not_ctxWorks_of_engine)))
  · exact State.lands_of_effect (exec_codecDecode n s) (codecDecode_idle (.inr (not_ctxWorks_of_engine h)))
  · have hcodes := codecBlock_codes (ap := applyCtx) (ok := ok) (ok' := ok') hdir
      (ctxWorks_iff.mpr ⟨hopen, hst, hsaved, huse⟩) hblock
    refine ⟨fun hverified => ?_, fun hok hok' => ?_⟩
    · rw [if_neg (by rcases hverified with h | h <;> simp [h])] at hcodes
      exact ⟨fun hcalm => State.lands_of_effect (exec_codecBlock n ok ok' s)
          (hcodes.trans (if_neg (ne_true_of_eq_false hcalm))),
        fun hupset => State.lands_of_effect (exec_codecBlock n ok ok' s) (hcodes.trans (if_pos hupset))⟩
    · subst hok hok'
      exact State.lands_of_effect (exec_codecBlock n false false s) hcodes
  · have hworks := codecDecode_works (ap := applyCtx) hdir (ctxWorks_iff.mpr ⟨hopen, hst, hsaved, huse⟩)
    refine ⟨fun code hcode => ?_, fun hnone hphase => ?_, fun hnone hphase => ⟨fun hupset => ?_, fun hcalm => ?_⟩⟩
    · change (decoded s.dev n.val).2 = _ at hcode
      rw [hcode] at hworks
      exact State.lands_of_effect (exec_codecDecode n s) hworks
    · change (decoded s.dev n.val).2 = _ at hnone
      rw [hnone] at hworks
      exact State.lands_of_effect (exec_codecDecode n s) (hworks.trans (if_neg (by exact Nat.not_le.mpr hphase)))
    · change (decoded s.dev n.val).2 = _ at hnone
      rw [hnone] at hworks
      exact State.lands_of_effect (exec_codecDecode n s) (hworks.trans ((if_pos hphase).trans (if_pos hupset)))
    · change (decoded s.dev n.val).2 = _ at hnone
      rw [hnone] at hworks
      exact State.lands_of_effect (exec_codecDecode n s)
        (hworks.trans ((if_pos hphase).trans (if_neg (ne_true_of_eq_false hcalm))))
  · exact State.lands_of_effect (exec_codecClose k n s) (Dev.guarded_off hoff)
  · exact State.lands_of_effect (exec_codecReset k n s) (Dev.guarded_off hoff)
  · exact State.lands_of_effect (exec_codecClose k n s) ((Dev.guarded_on hon).trans (codecClose_idle h))
  · exact State.lands_of_effect (exec_codecClose k n s)
      ((Dev.guarded_on hon).trans ((codecClose_open hopen hst).trans (if_neg (ne_true_of_eq_false hdir))))
  · have hclose := (Dev.guarded_on (k := k) (off := 0xB00 + 4 * n.val) (f := codecClose n.val) hon).trans
      ((codecClose_open hopen hst).trans (if_pos hdir))
    refine ⟨fun code hcode => ?_, fun hnone hphase hinput => ?_, fun hnone hleft => ?_⟩
    · change (closeRest s.dev n.val).2 = _ at hcode
      rw [hcode] at hclose
      exact State.lands_of_effect (exec_codecClose k n s) hclose
    · change (closeRest s.dev n.val).2 = _ at hnone
      rw [hnone] at hclose
      exact State.lands_of_effect (exec_codecClose k n s) (hclose.trans (if_pos ⟨hphase, hinput⟩))
    · change (closeRest s.dev n.val).2 = _ at hnone
      rw [hnone] at hclose
      exact State.lands_of_effect (exec_codecClose k n s) (hclose.trans (if_neg (not_and_or.mpr hleft)))
  · exact State.lands_of_effect (exec_codecReset k n s) (Dev.guarded_on hon)
  · exact State.lands_of_effect (exec_stallTimeout n s) (stallTimeout_idle h)
  · refine State.lands_of_effect (exec_stallTimeout n s) ?_
    simp only [stallTimeout, ht, hheld, Bool.false_eq_true, if_false]
  · exact State.lands_of_effect (exec_contextSwitch n ecc s) (contextSwitch_free h)
  · exact State.lands_of_effect (exec_contextSwitch n ecc s) ((contextSwitch_held ho).trans (if_pos hgoes))
  · exact State.lands_of_effect (exec_contextSwitch n ecc s) ((contextSwitch_held ho).trans (if_neg hstays))

end Sys2Proof.Machine
end

section
/-!
PROOFS. PCI Express (R341 to R344) and the packet rings (R345 to R347): each command by the link, the page and what it
finds.
-/
namespace Sys2Proof.Machine

-- ---- the link (R341, R344) --------------------------------------------------------------------------------------

section
variable {d : Dev}

theorem pcieFlr_down (h : pcieUp d = false) : pcieFlr d = d := if_neg (ne_true_of_eq_false h)
theorem pcieFlr_up (h : pcieUp d = true) :
    pcieFlr d = { flr d with aon := AON.RESET_CAUSE.put (flr d).aon (pageBase pgAon) 7 } := if_pos h

theorem linkDown_down (h : pcieUp d = false) : linkDown d = d := if_pos (by rw [h]; rfl)
theorem linkDown_up (h : pcieUp d = true) :
    linkDown d =
      flr ((((d.setLiv pgPcie PCIE.LINK.UP 0).setLiv pgPcie PCIE.LINK.WIDTH 0).setLiv pgPcie PCIE.LINK.GEN 0).event
        pgPcie 4) := if_neg (by rw [h]; decide)

variable {ap : Nat → Dev → Dev} {width gen : Nat}

/-- With the page off or power reduced the link stays down (R421). -/
theorem pcieLinkUp_stays (h : d.pageOn pgPcie = false ∨ d.pwr.reduced = true) : pcieLinkUp ap width gen d = d :=
  if_pos (by rcases h with h | h <;> simp only [h, Bool.not_false, Bool.true_or, Bool.or_true])

/-- Otherwise it comes up under the page applied, at most at MAX_GEN. -/
theorem pcieLinkUp_trains (hon : d.pageOn pgPcie = true) (hfull : d.pwr.reduced = false) :
    let e := ((ap pgPcie d).setLiv pgPcie PCIE.LINK.UP 1).setLiv pgPcie PCIE.LINK.WIDTH width
    pcieLinkUp ap width gen d = e.setLiv pgPcie PCIE.LINK.GEN (min gen (act e.regs pgPcie PCIE.MAX_GEN + 1)) :=
  if_neg (by simp only [hon, hfull, Bool.not_true, Bool.or_self, Bool.false_eq_true, not_false_eq_true])

end

-- ---- BAR2 (R342) ------------------------------------------------------------------------------------------------

/-- The bytes that an access of BAR2 spans. -/
def bar2Span (len : Nat) (w : Option (List (Option Byte))) : Nat := (w.map List.length).getD len

section
variable {d : Dev} {a len : Nat} {w : Option (List (Option Byte))} {ecc : Ecc}

/-- With the link down BAR2 does not answer. -/
theorem bar2Access_down (h : pcieUp d = false) : bar2Access a len w ecc d = d := if_pos (by rw [h]; rfl)

/-- With the link up an access is answered by its place, by MEM's power and by what it asks. -/
theorem bar2Access_up (h : pcieUp d = true) :
    bar2Access a len w ecc d =
      if dramSize d < a + bar2Span len w then bar2Error d a .unmapped
      else if d.domainOn 4 = false then bar2Error d a .domainOff
      else match w with
        | none => bar2End (d.memRead a len ecc).1 a (d.memRead a len ecc).2.1 (d.memRead a len ecc).2.2.2
        | some l =>
          bar2End (d.writeLines (lineOpt a l) (linesOf a l.length) ecc .ok).1 a
            (d.writeLines (lineOpt a l) (linesOf a l.length) ecc .ok).2 [] := by
  unfold bar2Access
  rw [if_neg (by rw [h]; decide)]
  cases w with
  | none => simp only [bar2Span, Option.map_none, Option.getD_none, Bool.not_eq_true']
  | some l => simp only [bar2Span, Option.map_some, Option.getD_some, Bool.not_eq_true']

end

-- ---- MSI-X (R343) -----------------------------------------------------------------------------------------------

section
variable {d : Dev}

/-- With HOST off nothing is unmasked. -/
theorem msixUnmask_off {v : Option Nat} (h : d.domainOn 2 = false) : msixUnmask v d = d := if_pos (by rw [h]; rfl)

/-- Unmasking a vector sends what pends on it. -/
theorem msixUnmask_vector (n : Nat) (h : d.domainOn 2 = true) :
    msixUnmask (some n) d = sendPending (d.setLiv pgPcie (PCIE.MSIX.MASK n) 0) n := if_neg (by rw [h]; decide)

/-- Unmasking the function sends what pends on each. -/
theorem msixUnmask_function (h : d.domainOn 2 = true) :
    msixUnmask none d = (List.range 64).foldl sendPending { d with pcie := { d.pcie with funcMask := false } } :=
  if_neg (by rw [h]; decide)

end

-- ---- rings (R346, R347) -----------------------------------------------------------------------------------------

section
variable {ap apc : Nat → Dev → Dev} {d : Dev} {r : Nat}

/-- With SAHF or the link off, and on ring 0, nothing is written. -/
theorem ringWriteCmd_idle (h : sahfOn d = false ∨ pcieUp d = false ∨ r = 0) : ringWriteCmd ap apc r d = d :=
  if_pos (by rcases h with h | h | h <;> simp [h])

/-- Rings beyond ring 1 take their streams in turn, under the page applied. -/
theorem ringWriteCmd_streams (hon : sahfOn d = true) (hup : pcieUp d = true) (h0 : r ≠ 0) (h1 : r ≠ 1) :
    ringWriteCmd ap apc r d =
      ringStream apc r (rotation ((ap pgSahf d).sahf.ringRot.getD r 63)) (ap pgSahf d) :=
  (if_neg (by simp [hon, hup, h0])).trans (if_neg h1)

/-- Without a reply ring 1 takes nothing. -/
theorem ringWriteCmd_noReply (hon : sahfOn d = true) (hup : pcieUp d = true) (h : (ap pgSahf d).sahf.replies = []) :
    ringWriteCmd ap apc 1 d = ap pgSahf d := by
  simp only [ringWriteCmd, hon, hup, h, Bool.not_true, Bool.or_self, Nat.reduceBEq, Bool.false_eq_true, if_false, if_true]

/-- The oldest reply goes into ring 1 once its buffers have room. -/
theorem ringWriteCmd_reply {pkt : List Byte} {t : Nat} {rest : List (List Byte × Nat)} (hon : sahfOn d = true)
    (hup : pcieUp d = true) (h : (ap pgSahf d).sahf.replies = (pkt, t) :: rest) :
    ringWriteCmd ap apc 1 d =
      if ringFits ((ap pgSahf d).ring 1) pkt.length then
        putRing ((ap pgSahf d).onSahf fun q => { q with replies := rest }) 1 pkt
      else ap pgSahf d := by
  simp only [ringWriteCmd, hon, hup, h, Bool.not_true, Bool.or_self, Nat.reduceBEq, Bool.false_eq_true, if_false, if_true]

/-- Without a reply none is dropped. -/
theorem replyDropped_none (h : d.sahf.replies = []) : replyDropped d = d := by simp only [replyDropped, h]

/-- The oldest reply is dropped where no room and no link let it go, once it has waited 10 ms. -/
theorem replyDropped_oldest {pkt : List Byte} {t : Nat} {rest : List (List Byte × Nat)}
    (h : d.sahf.replies = (pkt, t) :: rest) :
    replyDropped d =
      if ringFits (d.ring 1) pkt.length = true ∧ pcieUp d = true then d
      else ((d.advanceTo (t + 6250000)).onSahf fun q => { q with replies := rest }).event pgSahf 9 := by
  simp only [replyDropped, h, Bool.and_eq_true]

/-- Nothing is coalesced without a packet, a time or the link. -/
theorem coalesceTimeout_idle
    (h : (d.ring r).since = 0 ∨ act d.regs pgSahf (SAHF.RING.COALESCE_US r) = 0 ∨ pcieUp d = false) :
    coalesceTimeout r d = d := if_pos (by rwa [Bool.not_eq_true'])

/-- A coalesced message leaves COALESCE_US after its first packet. -/
theorem coalesceTimeout_sends (hsince : (d.ring r).since ≠ 0)
    (hus : act d.regs pgSahf (SAHF.RING.COALESCE_US r) ≠ 0) (hup : pcieUp d = true) :
    coalesceTimeout r d =
      ringMessage (d.advanceTo ((d.ring r).first + act d.regs pgSahf (SAHF.RING.COALESCE_US r) * 625)) r :=
  if_neg (by simp [hsince, hus, hup])

end

/-- Settles O42: each command by the link and the page; an access of BAR2 by its place, a ring by its number and what
waits for it. -/
theorem pcieAndRings : Obligations.PcieAndRings := by
  unfold Obligations.PcieAndRings
  refine ⟨fun s a len w ecc v width gen => ⟨fun hdown => ⟨?_, ?_, ?_⟩,
      fun hup => ⟨?_, ?_, fun hbeyond => ?_, fun hin hoff => ?_, fun hin hon => ⟨fun hw => ?_, fun l hw => ?_⟩⟩,
      fun hoff => ?_, fun hon => ⟨fun n hv => ?_, fun hv => ?_⟩, fun hstays => ?_, fun hon hfull => ?_⟩,
    fun s k r tail entries => ⟨fun hoff => ?_, fun hon => ⟨fun hr => ?_, fun hr => ?_⟩, fun hidle => ?_,
      fun hon hup => ⟨fun h0 h1 => ?_, fun hnone => ?_, fun pkt t rest hrep => ⟨fun hfits => ?_, fun hfull => ?_⟩⟩,
      fun pkt t rest hrep => ⟨fun hwaits => ?_, fun hdrops => ?_⟩, fun hnone => ?_, fun h => ?_, fun h => ?_,
      fun hsince hus hup => ?_⟩⟩
  · exact State.lands_of_effect (exec_pcieFlr s) (pcieFlr_down hdown)
  · exact State.lands_of_effect (exec_linkDown s) (linkDown_down hdown)
  · exact State.lands_of_effect (exec_bar2Access a len w ecc s) (bar2Access_down hdown)
  · exact State.lands_of_effect (exec_pcieFlr s) (pcieFlr_up hup)
  · exact State.lands_of_effect (exec_linkDown s) (linkDown_up hup)
  · exact State.lands_of_effect (exec_bar2Access a len w ecc s)
      ((bar2Access_up hup).trans (if_pos (by cases w <;> exact hbeyond)))
  · exact State.lands_of_effect (exec_bar2Access a len w ecc s)
      ((bar2Access_up hup).trans ((if_neg (by cases w <;> exact Nat.not_lt.mpr hin)).trans (if_pos hoff)))
  · subst hw
    exact State.lands_of_effect (exec_bar2Access a len none ecc s)
      ((bar2Access_up hup).trans ((if_neg (Nat.not_lt.mpr hin)).trans (if_neg (ne_false_of_eq_true hon))))
  · subst hw
    exact State.lands_of_effect (exec_bar2Access a len (some l) ecc s)
      ((bar2Access_up hup).trans ((if_neg (Nat.not_lt.mpr hin)).trans (if_neg (ne_false_of_eq_true hon))))
  · exact State.lands_of_effect (exec_msixUnmask v s) (msixUnmask_off hoff)
  · subst hv
    exact State.lands_of_effect (exec_msixUnmask (some n) s) (msixUnmask_vector n.val hon)
  · subst hv
    exact State.lands_of_effect (exec_msixUnmask none s) (msixUnmask_function hon)
  · exact State.lands_of_effect (exec_pcieLinkUp width gen s) (pcieLinkUp_stays hstays)
  · exact State.lands_of_effect (exec_pcieLinkUp width gen s) (pcieLinkUp_trains hon hfull)
  · exact State.lands_of_effect (exec_ringTail k r tail entries s) (Dev.guarded_off hoff)
  · exact State.lands_of_effect (exec_ringTail k r tail entries s)
      ((Dev.guarded_on hon).trans (if_neg (Fin.val_ne_of_ne hr)))
  · subst hr
    exact State.lands_of_effect (exec_ringTail k 0 tail entries s) (Dev.guarded_on hon)
  · exact State.lands_of_effect (exec_ringWrite r s)
      (ringWriteCmd_idle (hidle.imp_right (Or.imp_right fun h => congrArg Fin.val h)))
  · exact State.lands_of_effect (exec_ringWrite r s)
      (ringWriteCmd_streams hon hup (Fin.val_ne_of_ne h0) (Fin.val_ne_of_ne h1))
  · exact State.lands_of_effect (exec_ringWrite 1 s) (ringWriteCmd_noReply hon hup hnone)
  · exact State.lands_of_effect (exec_ringWrite 1 s) ((ringWriteCmd_reply hon hup hrep).trans (if_pos hfits))
  · exact State.lands_of_effect (exec_ringWrite 1 s)
      ((ringWriteCmd_reply hon hup hrep).trans (if_neg (ne_true_of_eq_false hfull)))
  · exact State.lands_of_effect (exec_replyDropped s) ((replyDropped_oldest hrep).trans (if_pos hwaits))
  · exact State.lands_of_effect (exec_replyDropped s) ((replyDropped_oldest hrep).trans (if_neg hdrops))
  · exact State.lands_of_effect (exec_replyDropped s) (replyDropped_none hnone)
  · exact State.lands_of_effect (exec_coalesceTimeout r s) (coalesceTimeout_idle (.inr h))
  · exact State.lands_of_effect (exec_coalesceTimeout r s) (coalesceTimeout_idle (.inl h))
  · exact State.lands_of_effect (exec_coalesceTimeout r s) (coalesceTimeout_sends hsince hus hup)

end Sys2Proof.Machine
end

section
/-!
PROOFS. The register, memory and echo commands over Sahfort (R371, R373, R389, R467): what each does once it is served;
the mailbox takes none of them.
-/
namespace Sys2Proof.Machine

/-- The mailbox takes service commands only (R381). -/
theorem arrive_notService {v : Via} {r : Req} {f : Facts} {d : Dev} (hm : v.mailbox = true) (hr : r.service = false) :
    arrive v r f d = d := by
  unfold arrive
  rw [if_pos hm]
  exact if_pos (by rw [hr]; simp)

section
variable {s : State} {c : Instr} {v : Via} {r : Req} {f : Facts} {code : Nat} {served : Dev → Dev}
  (h : exec c s = done s (arrive v r f s.dev)) (hcode : r.code = code) (hr : code ≠ 0x01F0)
include h hcode hr

/-- A served command that leaves no entry is executed and answered. -/
theorem takes_plain (hj : r.journalled = false)
    (hs : ∀ d, (execute v r f d).1.answered v code (execute v r f d).2.status (execute v r f d).2.arg
      (execute v r f d).2.data = served d) : s.takes c v r served :=
  takes_of_arrive f h fun d _ => (serveSahfort_plain f hj (hcode ▸ hr)).trans (hcode ▸ hs d)

/-- A served journalled command is executed and answered with the SEQ of its entry. -/
theorem takes_kept (hj : r.journalled = true)
    (hs : ∀ d, (execute v r f d).1.answeredKept v code (execute v r f d).2.status (execute v r f d).2.arg
      d.jr.nextSeq (execute v r f d).2.data = served d) : s.takes c v r served :=
  takes_of_arrive f h fun d _ => (serveSahfort_kept f hj (hcode ▸ hr)).trans (hcode ▸ hs d)

end

/-- MEM_READ answers by the status of the memory: POISONED with the offset of the first bad line. -/
theorem answered_memRead (d : Dev) (v : Via) (ma n : Nat) (ecc : Ecc) :
    let t := d.memRead ma n ecc
    let x := doMemRead (withData 3 n ma []) { ecc := ecc } d
    x.1.answered v 3 x.2.status x.2.arg x.2.data =
      match t.2.1, t.2.2.1 with
      | .poisoned, some l => t.1.answered v 3 8 (64 * l - ma) t.2.2.2
      | .poisoned, none => t.1.answered v 3 8 0 t.2.2.2
      | _, _ => t.1.answered v 3 (memAnswer t.2.1).status (memAnswer t.2.1).arg t.2.2.2 := by
  dsimp only [doMemRead, withData]
  obtain ⟨e, st, bad, bytes⟩ := d.memRead ma n ecc
  cases st <;> cases bad <;> rfl

/-- The COMMAND entry of REG_WRITE and MEM_WRITE (R387, R388). -/
def storeEntry (v : Via) (code page : Nat) (ans : Answer) (count addr : Nat) (data : List Byte) : Entry :=
  { link := linkCode v.link, code := code, page := page, result := if ans.status = 0 then 0 else 3,
    seq := if v.mailbox then 0 else v.seq.toNat, count := count, status := ans.status,
    digest := (crc32c (leBytes 8 addr ++ data)).toNat, sahf := !v.mailbox }

/-- The page of a register, 0 for a table's word. -/
def writtenPage (a : Nat) : Nat :=
  match placeOf a with
  | some (.page pg _) => pg.num
  | _ => 0

/-- REG_WRITE commits its entry, then writes its words. -/
theorem answered_regWrite (d : Dev) (v : Via) (a n : Nat) (wb : List Byte) :
    let x := doRegWrite v (withData 2 n a wb) d
    let ans := wordsAnswer (writeWords v.link (leWords wb) 0 (a % 16777216) d).2 []
    let t := writeWords v.link (leWords wb) 0 (a % 16777216) (commandEntry d (storeEntry v 2 (writtenPage (a % 16777216)) ans n a wb))
    x.1.answeredKept v 2 x.2.status x.2.arg d.jr.nextSeq x.2.data =
      (busErrors t.1 (linkCode v.link) (t.2.map (·.2))).answeredKept v 2 ans.status ans.arg d.jr.nextSeq [] := by
  have hdata (errs : List (Nat × Nat × BusErr)) : (wordsAnswer errs []).data = [] := by
    unfold wordsAnswer
    split <;> rfl
  dsimp only [doRegWrite, withData, cmdEntry, Req.digested, storeEntry, Nat.reducePow]
  rw [hdata]
  rfl

/-- MEM_WRITE commits its entry, then writes its bytes. -/
theorem answered_memWrite (d : Dev) (v : Via) (ma n : Nat) (bytes : List Byte) (ecc : Ecc) :
    let x := doMemWrite v (withData 4 n ma bytes) { ecc := ecc } d
    let ans := memAnswer (d.memWrite ma bytes ecc).2
    let e := commandEntry d (storeEntry v 4 0 ans n ma bytes)
    x.1.answeredKept v 4 x.2.status x.2.arg d.jr.nextSeq x.2.data =
      (e.memWrite ma bytes ecc).1.answeredKept v 4 ans.status ans.arg d.jr.nextSeq [] := by
  have hdata (st : MemStatus) : (memAnswer st).data = [] := by cases st <;> rfl
  dsimp only [doMemWrite, withData, cmdEntry, Req.digested, storeEntry]
  rw [hdata]

/-- Settles O43: each command by its execution; those that are journalled carry their entry's SEQ. -/
theorem registerCommandsAnswer : Obligations.RegisterCommandsAnswer := by
  unfold Obligations.RegisterCommandsAnswer
  intro s v a ma n ws bytes ecc
  refine ⟨fun hm => ⟨?_, ?_, ?_, ?_, ?_⟩, ?_, ?_, ?_, ?_, ?_⟩
  · exact State.lands_of_effect (exec_regRead v a n s) (arrive_notService hm rfl)
  · exact State.lands_of_effect (exec_regWrite v a ws s) (arrive_notService hm rfl)
  · exact State.lands_of_effect (exec_memRead v ma n ecc s) (arrive_notService hm rfl)
  · exact State.lands_of_effect (exec_memWrite v ma ⟨bytes, ecc⟩ s) (arrive_notService hm rfl)
  · exact State.lands_of_effect (exec_echo v bytes s) (arrive_notService hm rfl)
  · exact takes_plain (code := 1) (exec_regRead v a n s) rfl (by decide) rfl fun _ => rfl
  · exact takes_kept (code := 2) (exec_regWrite v a ws s) rfl (by decide) rfl fun d => answered_regWrite d v a.toNat ws.length _
  · exact takes_plain (code := 3) (exec_memRead v ma n ecc s) rfl (by decide) rfl fun d => answered_memRead d v ma n ecc
  · exact takes_kept (code := 4) (exec_memWrite v ma ⟨bytes, ecc⟩ s) rfl (by decide) rfl fun d =>
      answered_memWrite d v ma bytes.length bytes ecc
  · exact takes_plain (code := 5) (exec_echo v bytes s) rfl (by decide) rfl fun _ => rfl

end Sys2Proof.Machine
end

section
/-!
PROOFS. The service commands that answer at once (R382, R384, R403): each has its effect and is answered; one that
something bars fails with the reason.
-/
namespace Sys2Proof.Machine

/-- An instant command answers OK. -/
theorem instantAnswer_ok (d : Dev) (r : Req) : (instantAnswer d r).status = 0 := by
  unfold instantAnswer
  split <;> rfl

/-- The commands of a code are instant, with this effect, this answer and what follows it. -/
def instantAs (v : Via) (code : Nat) (effect : Req → Dev → Dev) (answer : Req → Dev → Answer) (after : Dev → Dev) : Prop :=
  ∀ r d, r.code = code → servicePlan d r = none ∧ instantEffect v r d = effect r d ∧ instantAnswer d r = answer r d ∧
    afterReply r d = after d

/-- An instant command leaves its entry; where nothing bars it, it has its effect and its answer. -/
theorem serviced_instant {s : State} {c : Instr} {v : Via} {r : Req} {effect : Req → Dev → Dev}
    {answer : Req → Dev → Answer} {after : Dev → Dev} {served : Req → Dev → Dev}
    (h : exec c s = done s (arrive v r {} s.dev)) (hr : r.service = true) (hi : instantAs v r.code effect answer after)
    (hbar : ∀ r' d why, serviceBar d r' = some why →
      served r' d = (d.entered v r' 3 5).closes v r'.code 5 why d.jr.nextSeq [] after)
    (hfree : ∀ r' d, serviceBar d r' = none →
      served r' d = (effect r' (d.entered v r' 0 0)).closes v r'.code 0 (answer r' d).arg d.jr.nextSeq (answer r' d).data
        after) :
    s.serviced c v r served := by
  refine serviced_of_arrive h hr fun r' d hcode => ?_
  have hafter : afterReply r' = after := funext fun d => (hi r' d hcode).2.2.2
  obtain ⟨hplan, -, hanswer, -⟩ := hi r' d hcode
  obtain ⟨-, heffect, -, -⟩ := hi r' (d.entered v r' 0 0) hcode
  cases hb : serviceBar d r' with
  | some why =>
    rw [doService_bar hb, hbar r' d why hb, hafter]
    rfl
  | none =>
    rw [doService_instant hb hplan, hfree r' d hb, ← hanswer, instantAnswer_ok, ← heffect, hafter]
    rfl

/-- Settles O44: each is instant; its effect, its answer and what follows are those of its code. -/
theorem serviceCommandsAnswerAtOnce : Obligations.ServiceCommandsAnswerAtOnce := by
  unfold Obligations.ServiceCommandsAnswerAtOnce
  intro s v first n mark p direct nothing empty
  have direct_of {c : Instr} {r : Req} (effect : Req → Dev → Dev) (answer : Req → Dev → Answer) (after : Dev → Dev)
      (h : exec c s = done s (arrive v r {} s.dev)) (hr : r.service = true)
      (hi : instantAs v r.code effect answer after) : direct c r effect answer after :=
    serviced_instant h hr hi (fun _ _ _ hb => by simp only [hb]) (fun _ _ hb => by simp only [hb])
  refine ⟨direct_of nothing (fun _ d => { data := statusData d }) id (exec_status v s) rfl ?_,
    direct_of nothing (fun r d => readJournal d r.arg r.count) id (exec_journalRead v first n s) rfl ?_,
    direct_of nothing (fun r d => readTrouble d r.arg r.count) id (exec_troubleRead v first n s) rfl ?_,
    direct_of (fun r e => e.journal { link := linkCode v.link, kind := kindMark, arg := r.addr }) empty id
      (exec_journalMark v mark s) rfl ?_,
    direct_of (fun r => onPage r.arg calFactoryOn) empty id (exec_calFactory v p s) rfl ?_,
    direct_of (fun _ e => endReels e 1) empty id (exec_reelStop v s) rfl ?_,
    direct_of nothing empty (fun e => restartWith e 4) (exec_foremanRestart v s) rfl ?_⟩ <;>
  · rintro ⟨code, count, addr, data, size⟩ d ⟨⟩
    exact ⟨rfl, rfl, rfl, rfl⟩

end Sys2Proof.Machine
end

section
/-!
PROOFS. The service commands that open a procedure (R382, R383, R408 to R415): each opens it with the steps of its
table; one that something bars fails with the reason, and RANK_MIGRATE with that of MEMX.
-/
namespace Sys2Proof.Machine

/-- The commands of a code open a procedure: what they do before it, its second argument and its steps. -/
def opensAs (code : Nat) (pre : Dev → Dev) (arg2 : Dev → Nat) (plan : Req → Dev → List PStep) : Prop :=
  ∀ r d, r.code = code → servicePlan d r = some (plan r d) ∧ beforeProc r d = pre d ∧ memxRefused r (pre d) = none ∧
    (if r.code = 0x0131 then (swapBank (pre d)).getD 0 else 0) = arg2 (pre d) ∧ afterReply r = id

/-- A command with a plan leaves its entry; where nothing bars it, its procedure opens and it is answered OK. -/
theorem serviced_opens {s : State} {c : Instr} {v : Via} {r : Req} {pre : Dev → Dev} {arg2 : Dev → Nat}
    {plan : Req → Dev → List PStep} {served : Req → Dev → Dev} (h : exec c s = done s (arrive v r {} s.dev))
    (hr : r.service = true) (ho : opensAs r.code pre arg2 plan)
    (hbar : ∀ r' d why, serviceBar d r' = some why →
      served r' d = (d.entered v r' 3 5).closes v r'.code 5 why d.jr.nextSeq [])
    (hfree : ∀ r' d, serviceBar d r' = none →
      served r' d = (openProc ((pre d).entered v r' 2 0)
        { code := r'.code, seq := (pre d).jr.nextSeq, link := linkCode v.link, arg := r'.arg, arg2 := arg2 (pre d),
          plan := plan r' d }).closes v r'.code 0 0 d.jr.nextSeq []) :
    s.serviced c v r served := by
  refine serviced_of_arrive h hr fun r' d hcode => ?_
  obtain ⟨hplan, hpre, hmemx, harg2, hafter⟩ := ho r' d hcode
  cases hb : serviceBar d r' with
  | some why =>
    rw [doService_bar hb, hbar r' d why hb, hafter]
    rfl
  | none =>
    rw [doService_opens hb hplan (by rw [hpre]; exact hmemx), hfree r' d hb, hpre, harg2, hafter]
    rfl

/-- A command that MEMX refuses fails with its reason (R414). -/
theorem doService_refused {d : Dev} {v : Via} {r : Req} {plan : List PStep} {why : Nat} (h : serviceBar d r = none)
    (hp : servicePlan d r = some plan) (hm : memxRefused r (beforeProc r d) = some why) :
    doService v r d = (commandEntry (beforeProc r d) (cmdEntry v r 0 3 5), { status := 5, arg := why }) := by
  simp only [doService, h, hp, hm, serviceFails]

/-- MEMX takes a migration where CMD_RESULT shows 0, and refuses it with its reason otherwise. -/
theorem memxRefused_migrate {r : Req} (d : Dev) (h : r.code = 0x0160) :
    memxRefused r d =
      if liv d.regs pgMemx MEMX.CMD_RESULT = 0 then none else some (whyMemx (liv d.regs pgMemx MEMX.CMD_RESULT)) := by
  simp only [memxRefused, h, true_and, ne_eq, ite_not]

/-- Settles O45: each opens what its code opens; RANK_MIGRATE by what MEMX answers. -/
theorem serviceCommandsOpenProcedures : Obligations.ServiceCommandsOpenProcedures := by
  unfold Obligations.ServiceCommandsOpenProcedures
  constructor
  · intro s v m x p now a n bytes em opens wakes of
    have opens_of {c : Instr} {r : Req} (pre : Dev → Dev) (arg2 : Dev → Nat) (plan : Req → Dev → List PStep)
        (h : exec c s = done s (arrive v r {} s.dev)) (hr : r.service = true) (ho : opensAs r.code pre arg2 plan) :
        opens c r pre arg2 plan :=
      serviced_opens h hr ho (fun _ _ _ hb => by simp only [hb]) (fun _ _ hb => by simp only [hb])
    refine ⟨opens_of wakes (fun _ => 0) (fun r d => modePlan d.pwr.mode r.arg) (exec_modeSet v m s) rfl ?_,
      opens_of id (fun _ => 0) (of ([1, 2, 3, 4, 5, 6].map .lineOut)) (exec_lineOut v x s) rfl ?_,
      opens_of id (fun _ => 0)
        (fun _ d => (if d.pwr.mode = 3 ∨ d.pwr.mode = 4 ∨ d.pwr.mode = 5 then [1, 2, 3, 4, 5] else [1, 2, 3]).map .lineIn)
        (exec_lineIn v x s) rfl ?_,
      opens_of id (fun _ => 0) (of [.cal]) (exec_calRun v p now s) rfl ?_,
      opens_of id (fun _ => 0) (of [.patchLoad]) (exec_patchLoad v a n bytes s) rfl ?_,
      opens_of id (fun d => (swapBank d).getD 0) (of [.patchSwap]) (exec_patchSwap v s) rfl ?_,
      opens_of id (fun _ => 0) (of [.patchSwap]) (exec_patchRevert v s) rfl ?_,
      opens_of id (fun _ => 0) (of [.patchCommit]) (exec_patchCommit v s) rfl ?_,
      opens_of id (fun _ => 0) (of [.reelRecord]) (exec_reelRecord v s) rfl ?_,
      opens_of id (fun _ => 0) (of ([1, 2, 3, 4, 5, 6, 7].map .reelPlay)) (exec_reelPlay v s) rfl ?_,
      opens_of id (fun _ => 0) (of [.emitBegin]) (exec_emitSwapBegin v x em s) rfl ?_,
      opens_of id (fun _ => 0) (of [.emitEnd]) (exec_emitSwapEnd v x em s) rfl ?_⟩ <;>
    · rintro ⟨code, count, addr, data, size⟩ d ⟨⟩
      exact ⟨rfl, rfl, rfl, rfl, rfl⟩
  · intro s v p
    refine serviced_of_arrive (exec_rankMigrate v p s) rfl fun r d hcode => ?_
    have hcode : r.code = 0x0160 := hcode
    have hplan : servicePlan d r = some [.migrate] := by rw [servicePlan, hcode]; rfl
    have hpre : beforeProc r d = migrate r.arg d := by rw [beforeProc, hcode]; rfl
    have hafter : afterReply r = id := funext fun _ => if_neg (by rw [hcode]; decide)
    have hmemx := memxRefused_migrate (beforeProc r d) hcode
    cases hb : serviceBar d r with
    | some why =>
      rw [doService_bar hb, hafter]
      rfl
    | none =>
      by_cases hsaid : liv (beforeProc r d).regs pgMemx MEMX.CMD_RESULT = 0
      · rw [if_pos hsaid] at hmemx
        rw [doService_opens hb hplan hmemx, hafter, if_neg (by rw [hcode]; decide)]
        rw [hpre] at hsaid ⊢
        exact (if_pos hsaid).symm
      · rw [if_neg hsaid] at hmemx
        rw [doService_refused hb hplan hmemx, hafter]
        rw [hpre] at hsaid ⊢
        exact (if_neg hsaid).symm

end Sys2Proof.Machine
end

section
/-!
PROOFS. The procedures of the Foreman (R382, R383): a step by what its parts say, a timeout by the limit of the step;
and its restarts (R384 to R386, R409): a crash by the bank and the crashes before it, the rebuild, the swap restart.
-/
namespace Sys2Proof.Machine

-- ---- procedures (R382, R383) ------------------------------------------------------------------------------------

/-- What becomes of a procedure by what the parts of its step say. -/
def stepGoes (i : Nat) (r : PartEnd) : Dev :=
  match r.2.2 with
  | .fin => serveHeld (stepDone r.1 i r.2.1)
  | .fail a => serveHeld (endProc r.1 i r.2.1 false a)
  | .wait | .next => procWaits r.1 i r.2.1

section
variable {i : Nat} {r : PartEnd}

theorem stepGoes_fin (h : r.2.2 = .fin) : stepGoes i r = serveHeld (stepDone r.1 i r.2.1) := by
  simp only [stepGoes, h]
theorem stepGoes_fail {why : Nat} (h : r.2.2 = .fail why) :
    stepGoes i r = serveHeld (endProc r.1 i r.2.1 false why) := by
  simp only [stepGoes, h]
theorem stepGoes_waits (h : r.2.2 = .wait ∨ r.2.2 = .next) : stepGoes i r = procWaits r.1 i r.2.1 := by
  rcases h with h | h <;> simp only [stepGoes, h]

end

section
variable {d : Dev} {i : Nat} {faults : List (Nat × Ecc)}

/-- A procedure that is not open, or whose Foreman does not run, makes no step. -/
theorem procStep_idle (h : d.fm.procs[i]? = none ∨ d.foremanRuns = false) : procStep i faults d = d := by
  rcases h with h | h
  · simp only [procStep, h]
  · simp only [procStep, h, Bool.not_false, if_true]
    split <;> rfl

/-- Nor does its time pass. -/
theorem procTimeout_idle (h : d.fm.procs[i]? = none ∨ d.foremanRuns = false) : procTimeout i d = d := by
  rcases h with h | h
  · simp only [procTimeout, h]
  · simp only [procTimeout, h, Bool.not_false, if_true]
    repeat' split
    all_goals rfl

variable {p : Proc} (hp : d.fm.procs[i]? = some p)
include hp

/-- A step without a limit does not time out. -/
theorem procTimeout_unlimited (h : stepLimit d p = none) : procTimeout i d = d := by
  simp only [procTimeout, hp, h]

variable (hrun : d.foremanRuns = true)
include hrun

/-- One with no step left closes. -/
theorem procStep_closes (h : p.plan = []) : procStep i faults d = closeProc d i p := by
  simp only [procStep, hp, hrun, h, Bool.not_true, Bool.false_eq_true, if_false]

/-- Otherwise the parts of its step run, and the procedure goes on by what they say. -/
theorem procStep_runs {k : PStep} {rest : List PStep} (h : p.plan = k :: rest) :
    procStep i faults d = stepGoes i (runParts k 16 d { p with ecc := faults }) := by
  simp only [procStep, hp, hrun, h, Bool.not_true, Bool.false_eq_true, if_false]
  rfl

/-- One with a limit fails with TIMEOUT when it is reached. -/
theorem procTimeout_fails {n : Nat} (h : stepLimit d p = some n) :
    procTimeout i d = serveHeld (endProc (d.advanceTo (p.since + n)) i p false (whyTimeout (p.step + 1))) := by
  simp only [procTimeout, hp, hrun, h, Bool.not_true, Bool.false_eq_true, if_false]

end

-- ---- restarts (R384 to R386, R409) ------------------------------------------------------------------------------

/-- A crash now, and those of the last 60 s. -/
def recentCrashes (d : Dev) : List Nat :=
  d.clk.tick :: d.fm.crashes.filter fun u => d.clk.tick < u + 37500000000

/-- The device whose crashes are these. -/
def Dev.crashesAre (d : Dev) (l : List Nat) : Dev := d.onFm fun f => { f with crashes := l }

/-- The fallback to ROM: the bank is not bootable, and ROM runs (R386). -/
def romFallback (d : Dev) : Dev :=
  let e := runBank (setBankBit (restartWith (d.crashesAre []) 7) FOREMAN.BANK.NOT_BOOTABLE (activeBank d - 1) true) 0
  patchEntry (e.trouble pgForeman 0x82 sevCritical (activeBank d)) linkHardware (activeBank d - 1) 5 3

section
variable {d : Dev} {cause : Nat}

/-- With CTRL off or during a boot there is no crash. -/
theorem crash_idle (h : d.domainOn 1 = false ∨ d.aonSt.booting ≠ 0) : crash cause d = d :=
  if_pos (by rcases h with h | h <;> simp [h])

variable (hon : d.domainOn 1 = true) (hboot : d.aonSt.booting = 0)
include hon hboot

/-- A crash falls back to ROM at the third of a patch bank within 60 s, and else restarts. -/
theorem crash_restarts :
    crash cause d =
      if activeBank d ≠ 0 ∧ 3 ≤ (recentCrashes d).length then romFallback d
      else restartWith (d.crashesAre (if activeBank d = 0 then [] else recentCrashes d)) cause :=
  if_neg (by simp [hon, hboot])

theorem crash_rom (h : activeBank d = 0) : crash cause d = restartWith (d.crashesAre []) cause := by
  rw [crash_restarts hon hboot, if_neg fun hc => hc.1 h, if_pos h]

theorem crash_patch (h : activeBank d ≠ 0) (hfew : (recentCrashes d).length < 3) :
    crash cause d = restartWith (d.crashesAre (recentCrashes d)) cause := by
  rw [crash_restarts hon hboot, if_neg fun hc => absurd hc.2 (Nat.not_le.mpr hfew), if_neg h]

theorem crash_third (h : activeBank d ≠ 0) (hmany : 3 ≤ (recentCrashes d).length) : crash cause d = romFallback d := by
  rw [crash_restarts hon hboot, if_pos ⟨h, hmany⟩]

/-- RESTARTED of a Foreman that does not run rebuilds and runs it. -/
theorem restarted_rebuilds (hrun : d.foremanRuns = false) :
    let e := (rebuild (checkBank d)).setLiv pgForeman FOREMAN.STATE 2
    let e := e.journal { link := linkHardware, kind := kindRestarted,
                         arg := e.fm.procs.length + 2 ^ 8 * activeBank e }
    restarted d = judgeMailbox (serveHeld (reportLost (takeNotification (e.event pgForeman 4)))) :=
  if_neg (by simp [hon, hboot, hrun])

end

/-- RESTARTED with CTRL off, during a boot, or of a Foreman that runs does nothing. -/
theorem restarted_idle {d : Dev} (h : d.domainOn 1 = false ∨ d.aonSt.booting ≠ 0 ∨ d.foremanRuns = true) :
    restarted d = d :=
  if_pos (by rcases h with h | h | h <;> simp [h])

/-- The procedure of the swap, if it is still open. -/
def swapProc (e : Dev) : Option Proc := e.fm.procs.find? fun p => p.code == 0x0131 || p.code == 0x0132

/-- The restart of the swap, at its boundary. -/
def Dev.swapped (e : Dev) (cause : Nat) : Dev := restartWith (e.onFm fun f => { f with swap := none }) cause

section
variable {d e : Dev} {cause : Nat}

/-- Without a swap, or away from its boundary, SWAP_RESTART does nothing. -/
theorem swapRestart_idle (h : d.fm.swap = none ∨ swapBoundary d = none) : swapRestart d = d := by
  unfold swapRestart
  split
  · simp_all
  · rfl

/-- At its boundary the swap runs its bank. -/
theorem swapRestart_bank (hswap : d.fm.swap = some 5) (hat : swapBoundary d = some e) :
    let b := ((swapProc e).map (·.arg2)).getD 0
    let link := ((swapProc e).map (·.link)).getD linkHardware
    swapRestart d = (patchEntry (runBank (e.swapped 5) (b + 1)) link b 2 0).event pgForeman 5 := by
  simp only [swapRestart, hswap, hat]
  rfl

/-- A swap back runs the ROM. -/
theorem swapRestart_rom (hswap : d.fm.swap = some cause) (hat : swapBoundary d = some e) (h : cause ≠ 5) :
    let link := ((swapProc e).map (·.link)).getD linkHardware
    swapRestart d = (patchEntry (runBank (e.swapped cause) 0) link (activeBank e - 1) 3 0).event pgForeman 5 := by
  simp only [swapRestart, hswap, hat, h, if_false, if_true]
  rfl

end

/-- Settles O46: a step by its plan and what its parts say, a timeout by its limit, a crash by the bank and the crashes
of the last 60 s, a swap by its boundary and cause. -/
theorem proceduresStepAndTimeOut : Obligations.ProceduresStepAndTimeOut := by
  unfold Obligations.ProceduresStepAndTimeOut
  refine ⟨fun s i faults => ⟨fun hidle => ⟨?_, ?_⟩, fun p hp hrun => ⟨fun hplan => ?_, fun k rest hplan => ?_,
      fun hlimit => ?_, fun n hlimit => ?_⟩⟩,
    fun s => ⟨fun hidle => ⟨?_, ?_, ?_⟩, fun hon hboot => ⟨fun hrom => ⟨?_, ?_⟩, fun hbank hfew => ⟨?_, ?_⟩,
      fun hbank hmany => ⟨?_, ?_⟩, fun hrun => ?_, fun hrun => ?_⟩, fun hidle => ?_,
      fun cause e hswap hat => ⟨fun hcause => ?_, fun hcause => ?_⟩⟩⟩
  · exact State.lands_of_effect (exec_procStep ⟨i, faults⟩ s) (procStep_idle hidle)
  · exact State.lands_of_effect (exec_procTimeout i s) (procTimeout_idle hidle)
  · exact State.lands_of_effect (exec_procStep ⟨i, faults⟩ s) (procStep_closes hp hrun hplan)
  · have hruns := procStep_runs (faults := faults) hp hrun hplan
    exact ⟨fun hfin => State.lands_of_effect (exec_procStep ⟨i, faults⟩ s) (hruns.trans (stepGoes_fin hfin)),
      fun why hfail => State.lands_of_effect (exec_procStep ⟨i, faults⟩ s) (hruns.trans (stepGoes_fail hfail)),
      fun hwait => State.lands_of_effect (exec_procStep ⟨i, faults⟩ s) (hruns.trans (stepGoes_waits hwait))⟩
  · exact State.lands_of_effect (exec_procTimeout i s) (procTimeout_unlimited hp hlimit)
  · exact State.lands_of_effect (exec_procTimeout i s) (procTimeout_fails hp hrun hlimit)
  · exact State.lands_of_effect (exec_watchdog s) (crash_idle hidle)
  · exact State.lands_of_effect (exec_exception s) (crash_idle hidle)
  · exact State.lands_of_effect (exec_restarted s) (restarted_idle (hidle.imp_right .inl))
  · exact State.lands_of_effect (exec_watchdog s) (crash_rom hon hboot hrom)
  · exact State.lands_of_effect (exec_exception s) (crash_rom hon hboot hrom)
  · exact State.lands_of_effect (exec_watchdog s) (crash_patch hon hboot hbank hfew)
  · exact State.lands_of_effect (exec_exception s) (crash_patch hon hboot hbank hfew)
  · exact State.lands_of_effect (exec_watchdog s) (crash_third hon hboot hbank hmany)
  · exact State.lands_of_effect (exec_exception s) (crash_third hon hboot hbank hmany)
  · exact State.lands_of_effect (exec_restarted s) (restarted_idle (.inr (.inr hrun)))
  · exact State.lands_of_effect (exec_restarted s) (restarted_rebuilds hon hboot hrun)
  · exact State.lands_of_effect (exec_swapRestart s) (swapRestart_idle hidle)
  · subst hcause
    exact State.lands_of_effect (exec_swapRestart s) (swapRestart_bank hswap hat)
  · exact State.lands_of_effect (exec_swapRestart s) (swapRestart_rom hswap hat hcause)

end Sys2Proof.Machine
end

section
/-!
PROOFS. The routing of a stream message (R365, R369) and the order in which a port sends (R353): each by what it finds.
-/
namespace Sys2Proof.Machine

-- ---- routing (R365, R369) ---------------------------------------------------------------------------------------

/-- A message as it joins the queue of an entry. -/
def queuedMsg (d : Dev) (n : Nat) (m : Msg) : QMsg :=
  ⟨m, d.clk.tick, streamFld d (SAHF.STREAM.DEST n), streamFld d (SAHF.STREAM.TARGET n),
    if streamFld d (SAHF.STREAM.COMPRESS n) = 1 then some (streamFld d (SAHF.STREAM.CTX n)) else none⟩

/-- The queue of an entry with a message more. -/
def Dev.enqueue (d : Dev) (n : Nat) (q : QMsg) : Dev :=
  d.setStream n { d.stream n with queue := (d.stream n).queue ++ [q] }

/-- An entry whose destination takes messages: without room the message is dropped, else it is queued and a port's
neighbour asked for. -/
def acceptMsg (d : Dev) (n : Nat) (q : QMsg) : Dev :=
  if max (streamFld d (SAHF.STREAM.QUEUE_MAX n)) 1 ≤ (d.stream n).queue.length then dropMsg d n q 1
  else if q.dest < 2 then
    resolve (d.enqueue n q) q.dest (destV6 (d.enqueue n q) q.dest q.target) (destAddr (d.enqueue n q) q.dest q.target)
  else d.enqueue n q

section
variable {d e : Dev} {m : Msg} {rest : List Msg} {n : Nat}

/-- With no message handed over nothing is routed. -/
theorem streamMessage_empty (h : d.inbox = []) : streamMessage d = d := by simp only [streamMessage, h]

variable (hin : d.inbox = m :: rest) (he : e = { d with inbox := rest })
include hin he

/-- A message without an entry, or with SAHF off, is counted. -/
theorem streamMessage_unrouted (h : sahfOn e = false ∨ matchEntry e m.stream = none) :
    streamMessage d = e.event pgSahf 7 := by
  subst he
  rcases h with h | h
  · simp only [streamMessage, hin, h, Bool.not_false, if_true]
  · simp only [streamMessage, hin, h, ite_self]

variable (hon : sahfOn e = true) (hn : matchEntry e m.stream = some n)
include hon hn

/-- One whose destination cannot take it is dropped with the cause. -/
theorem streamMessage_barred {c : LinkCause} (h : destBar e (queuedMsg e n m) = some c) :
    streamMessage d = dropMsg e n (queuedMsg e n m) c := by
  subst he
  unfold queuedMsg at h ⊢
  simp only [streamMessage, hin, hon, hn, h, Bool.not_true, Bool.false_eq_true, if_false]

/-- Any other takes its place in the queue, if there is room. -/
theorem streamMessage_accepted (h : destBar e (queuedMsg e n m) = none) :
    streamMessage d = acceptMsg (dropGone e n) n (queuedMsg e n m) := by
  subst he
  unfold queuedMsg at h ⊢
  simp only [streamMessage, hin, hon, hn, h, Bool.not_true, Bool.false_eq_true, if_false]
  rfl

end

section
variable {d : Dev} {n : Nat} {q : QMsg}

theorem acceptMsg_full (h : max (streamFld d (SAHF.STREAM.QUEUE_MAX n)) 1 ≤ (d.stream n).queue.length) :
    acceptMsg d n q = dropMsg d n q 1 := if_pos h

variable (h : (d.stream n).queue.length < max (streamFld d (SAHF.STREAM.QUEUE_MAX n)) 1)
include h

theorem acceptMsg_ring (hdest : 2 ≤ q.dest) : acceptMsg d n q = d.enqueue n q :=
  (if_neg (Nat.not_le.mpr h)).trans (if_neg (Nat.not_lt.mpr hdest))

theorem acceptMsg_port (hdest : q.dest < 2) :
    acceptMsg d n q =
      resolve (d.enqueue n q) q.dest (destV6 (d.enqueue n q) q.dest q.target)
        (destAddr (d.enqueue n q) q.dest q.target) :=
  (if_neg (Nat.not_le.mpr h)).trans (if_pos hdest)

end

-- ---- transmission (R353) ----------------------------------------------------------------------------------------

section
variable {ap apc : Nat → Dev → Dev} {p : Nat} {d e : Dev}

/-- A port whose link is down sends nothing. -/
theorem packetTransmit_down (h : ethUp d p = false) : packetTransmit ap apc p d = d := by
  simp only [packetTransmit, h, Bool.not_false, if_true]

variable (hup : ethUp d p = true) (he : e = ap (pgEth p) (d.advanceTo (d.port p).free))
include hup he

/-- Nor does one whose page, applied at the frame's boundary, takes it down. -/
theorem packetTransmit_goesDown (h : ethUp e p = false) : packetTransmit ap apc p d = e := by
  subst he
  simp only [packetTransmit, hup, h, Bool.not_true, Bool.not_false, Bool.false_eq_true, if_false, if_true]

variable (hstill : ethUp e p = true)
include hstill

/-- A PTP event message goes first. -/
theorem packetTransmit_ptp {f : List Byte} {rest : List (List Byte)} (h : (e.port p).ptp = f :: rest) :
    packetTransmit ap apc p d = stampEgress (sendFrame (e.onPort p fun o => { o with ptp := rest }) p f) := by
  subst he
  simp only [packetTransmit, hup, hstill, h, Bool.not_true, Bool.false_eq_true, if_false]

variable (hptp : (e.port p).ptp = [])
include hptp

/-- Then a reply whose neighbour is known. -/
theorem packetTransmit_reply {r : EthReply} {mac : Nat} {rest : List EthReply}
    (h : takeReply e p (e.port p).replies = some (r, mac, rest)) :
    let f := sahfDatagram (e.onPort p fun o => { o with replies := rest }) p mac r.ipv6 r.addr r.port 0 r.pkt
    packetTransmit ap apc p d = sendFrame f.1 p f.2 := by
  subst he
  simp only [packetTransmit, hup, hstill, hptp, h, Bool.not_true, Bool.false_eq_true, if_false]

variable (hreply : takeReply e p (e.port p).replies = none)
include hreply

/-- Then an answer. -/
theorem packetTransmit_answer {f : List Byte} {rest : List (List Byte)} (h : (e.port p).ctl = f :: rest) :
    packetTransmit ap apc p d = sendFrame (e.onPort p fun o => { o with ctl := rest }) p f := by
  subst he
  simp only [packetTransmit, hup, hstill, hptp, hreply, h, Bool.not_true, Bool.false_eq_true, if_false]

/-- Then a packet of the streams in rotation. -/
theorem packetTransmit_stream (h : (e.port p).ctl = []) :
    packetTransmit ap apc p d =
      if sahfOn e then sendStream apc p (rotation (e.port p).rot) (ap pgSahf e) else e := by
  subst he
  simp only [packetTransmit, hup, hstill, hptp, hreply, h, Bool.not_true, Bool.false_eq_true, if_false]

end

/-- Settles O47: a message by its entry, its destination and the room of the queue; a port by what waits on it, in
order. -/
theorem streamMessagesAreQueuedOrDropped : Obligations.StreamMessagesAreQueuedOrDropped := by
  unfold Obligations.StreamMessagesAreQueuedOrDropped
  refine ⟨fun s => ⟨fun hempty => ?_, fun m rest hin => ⟨fun h => ?_, fun n hon hn => ⟨fun c hbar => ?_,
      fun hbar => ?_⟩⟩⟩,
    fun s p => ⟨fun hdown => ?_, fun hup => ⟨fun hdown => ?_, fun hstill => ⟨fun f rest hptp => ?_,
      fun r mac rest hptp hreply => ?_, fun f rest hptp hnone hctl => ?_, fun hptp hnone hctl => ⟨fun hoff => ?_,
        fun hon => ?_⟩⟩⟩⟩⟩
  · exact State.lands_of_effect (exec_streamMessage s) (streamMessage_empty hempty)
  · exact State.lands_of_effect (exec_streamMessage s) (streamMessage_unrouted hin rfl h)
  · exact State.lands_of_effect (exec_streamMessage s) (streamMessage_barred hin rfl hon hn hbar)
  · have haccepts := streamMessage_accepted hin rfl hon hn hbar
    exact ⟨fun hfull => State.lands_of_effect (exec_streamMessage s) (haccepts.trans (acceptMsg_full hfull)),
      fun hroom hdest => State.lands_of_effect (exec_streamMessage s) (haccepts.trans (acceptMsg_ring hroom hdest)),
      fun hroom hdest => State.lands_of_effect (exec_streamMessage s) (haccepts.trans (acceptMsg_port hroom hdest))⟩
  · exact State.lands_of_effect (exec_packetTransmit p s) (packetTransmit_down hdown)
  · exact State.lands_of_effect (exec_packetTransmit p s) (packetTransmit_goesDown hup rfl hdown)
  · exact State.lands_of_effect (exec_packetTransmit p s) (packetTransmit_ptp hup rfl hstill hptp)
  · exact State.lands_of_effect (exec_packetTransmit p s) (packetTransmit_reply hup rfl hstill hptp hreply)
  · exact State.lands_of_effect (exec_packetTransmit p s) (packetTransmit_answer hup rfl hstill hptp hnone hctl)
  · exact State.lands_of_effect (exec_packetTransmit p s)
      ((packetTransmit_stream hup rfl hstill hptp hnone hctl).trans (if_neg (ne_true_of_eq_false hoff)))
  · exact State.lands_of_effect (exec_packetTransmit p s)
      ((packetTransmit_stream hup rfl hstill hptp hnone hctl).trans (if_pos hon))

end Sys2Proof.Machine
end

section
/-!
PROOFS. A received frame (R348 to R351): what becomes of it by its FCS, its addresses, its tag and its type.
-/
namespace Sys2Proof.Machine

section
variable {d : Dev} {p : Nat} {b : List Byte} {ok : Bool}

/-- A frame on a link that is up is judged under the page applied at its start. -/
theorem ethRx_up (h : ethUp d p = true) :
    let e := applyNow (pgEth p) d
    ethRx p b ok d =
      if ethUp e p = false then e
      else if ok = false then e.event (pgEth p) 7
      else if beAt b 12 2 = 0x8808 then e.event (pgEth p) 9
      else if macConcerns e p (beAt b 0 6) = false then rxDiscard p e
      else if beAt b 12 2 = 0x8100 then
        if beAt b 14 2 % 4096 ≠ 0 ∧ beAt b 14 2 % 4096 ≠ ethFld e p ETH.VLAN.VID then rxDiscard p e
        else frameIn p (beAt b 6 6) (beAt b 16 2) (b.drop 18) e
      else frameIn p (beAt b 6 6) (beAt b 12 2) (b.drop 14) e := by
  simp only [ethRx, h, if_true, Bool.not_eq_true']

/-- On a link that is down it is lost. -/
theorem ethRx_down (h : ethUp d p = false) : ethRx p b ok d = d := by
  simp only [ethRx, h, Bool.false_eq_true, if_false, Bool.not_false, if_true]

/-- Behind its addresses and its tag a frame goes on by its type. -/
theorem frameIn_types (mac type : Nat) :
    (type = 0x0806 → frameIn p mac type b d = arpIn p b d) ∧
    (type = 0x0800 → frameIn p mac type b d = ip4In p mac b d) ∧
    (type = 0x86DD → frameIn p mac type b d = ip6In p mac b d) ∧
    (type = 0x88F7 → (ptpHere d p 2 = true → frameIn p mac type b d = d) ∧
      (ptpHere d p 2 = false → frameIn p mac type b d = rxDiscard p d)) ∧
    (type ≠ 0x0806 → type ≠ 0x0800 → type ≠ 0x86DD → type ≠ 0x88F7 → frameIn p mac type b d = rxDiscard p d) := by
  refine ⟨?_, ?_, ?_, fun htype => ⟨fun hptp => ?_, fun hptp => ?_⟩, fun harp hip4 hip6 hptp => ?_⟩
  · rintro rfl; rfl
  · rintro rfl; rfl
  · rintro rfl; rfl
  · subst htype
    simp [frameIn, hptp]
  · subst htype
    simp [frameIn, hptp]
  · simp only [frameIn, harp, hip4, hip6, hptp, if_false, false_and]

end

/-- Settles O48: a frame by its FCS, its type, its address and its tag, then by the type behind them. -/
theorem framesArriveAtTheirProtocol : Obligations.FramesArriveAtTheirProtocol := by
  unfold Obligations.FramesArriveAtTheirProtocol
  intro s p b ok n d type vid mac gives goesOn
  have gives_of {e : Dev} (h : ethRx n b ok s.dev = e) : gives e := State.lands_of_effect (exec_ethRx p b ok s) h
  have goesOn_of {type : Nat} {b' : List Byte} (h : ethRx n b ok s.dev = frameIn n mac type b' d) : goesOn type b' := by
    obtain ⟨harp, hip4, hip6, hptp, hother⟩ := frameIn_types (d := d) (p := n) (b := b') mac type
    exact ⟨fun ht => gives_of (h.trans (harp ht)), fun ht => gives_of (h.trans (hip4 ht)),
      fun ht => gives_of (h.trans (hip6 ht)),
      fun ht => ⟨fun hp => gives_of (h.trans ((hptp ht).1 hp)), fun hp => gives_of (h.trans ((hptp ht).2 hp))⟩,
      fun h1 h2 h3 h4 => gives_of (h.trans (hother h1 h2 h3 h4))⟩
  refine ⟨fun hdown => gives_of (ethRx_down hdown), fun hup => ⟨fun hdown => ?_, fun hstill => ?_⟩⟩
  · exact gives_of ((ethRx_up hup).trans (if_pos hdown))
  · have hjudged := (ethRx_up (b := b) (ok := ok) hup).trans (if_neg (ne_false_of_eq_true hstill))
    refine ⟨fun hbad => ?_, fun hgood hpause => ?_, fun hgood hpause hother => ?_, fun hgood hmine => ?_⟩
    · exact gives_of (hjudged.trans (if_pos hbad))
    · exact gives_of (hjudged.trans ((if_neg (ne_false_of_eq_true hgood)).trans (if_pos hpause)))
    · exact gives_of (hjudged.trans
        ((if_neg (ne_false_of_eq_true hgood)).trans ((if_neg hpause).trans (if_pos hother))))
    · have htaken (hpause : type ≠ 0x8808) := hjudged.trans ((if_neg (ne_false_of_eq_true hgood)).trans
        ((if_neg hpause).trans (if_neg (ne_false_of_eq_true hmine))))
      refine ⟨fun huntagged hpause => ?_, fun htag h0 hvid => ?_, fun htag hvid => ?_⟩
      · exact goesOn_of ((htaken hpause).trans (if_neg huntagged))
      · exact gives_of ((htaken (by omega)).trans ((if_pos htag).trans (if_pos ⟨h0, hvid⟩)))
      · exact goesOn_of ((htaken (by omega)).trans ((if_pos htag).trans (if_neg (by tauto))))

end Sys2Proof.Machine
end

section
/-!
PROOFS. The ports (R348, R351, R369): their links come up and go down, and their neighbours are asked for; each command
by what it finds.
-/
namespace Sys2Proof.Machine

-- ---- links ------------------------------------------------------------------------------------------------------

/-- A port whose link has just come up. -/
def Dev.portUp (d : Dev) (p : Nat) : Dev :=
  let e := (d.setLiv (pgEth p) ETH.LINK.UP 1).setLiv (pgEth p) ETH.LINK.FEC_LOCK
    (bit (ethFld d p ETH.PORT.RSFEC == 1 && ethFld d p ETH.PORT.SPEED == 1))
  e.onPort p fun q => { q with free := d.clk.tick, fresh := d.clk.tick }

/-- The gratuitous ARP of a port that uses IPv4. -/
def announce4 (d : Dev) (p : Nat) : Dev :=
  if familyOn d p false = true then
    sendCtl d p (ethFrame d p 0xFFFFFFFFFFFF 0x0806
      (arpPacket 1 (portMac d p) (ethFld d p ETH.IPV4) 0 (ethFld d p ETH.IPV4)))
  else d

/-- The unsolicited advertisement of a port that uses IPv6. -/
def announce6 (d : Dev) (p : Nat) : Dev :=
  if familyOn d p true = true then
    advertise d p (mac6 (0xFF02 * 2 ^ 112 + 1)) (0xFF02 * 2 ^ 112 + 1) (portIp6 d p) 1
  else d

section
variable {d : Dev} {p : Nat}

/-- LINK.UP is no word of the active page. -/
theorem ethFld_setLinkUp {f : Fld} {v : Nat} (h : f.off ≠ 0x500) :
    ethFld (d.setLiv (pgEth p) ETH.LINK.UP v) p f = ethFld d p f :=
  Fld.at_put_other _ _ (by simp only [ETH.LINK.UP]; omega)

/-- With the page off, without EN, or up already, the link does not come up. -/
theorem ethLinkUp_idle (h : d.pageOn (pgEth p) = false ∨ enActive d.regs (pgEth p) = false ∨ ethUp d p = true) :
    ethLinkUp p d = d :=
  if_pos (by rcases h with h | h | h <;> simp [h])

/-- Otherwise it comes up and announces its addresses. -/
theorem ethLinkUp_announces (hon : d.pageOn (pgEth p) = true) (hen : enActive d.regs (pgEth p) = true)
    (hdown : ethUp d p = false) : ethLinkUp p d = announce6 (announce4 (d.portUp p) p) p := by
  have hrsfec := ethFld_setLinkUp (d := d) (p := p) (f := ETH.PORT.RSFEC) (v := 1) (by decide)
  have hspeed := ethFld_setLinkUp (d := d) (p := p) (f := ETH.PORT.SPEED) (v := 1) (by decide)
  unfold Dev.portUp
  rw [← hrsfec, ← hspeed]
  exact if_neg (by simp [hon, hen, hdown])

theorem ethLinkDown_idle (h : ethUp d p = false) : ethLinkDown p d = d := if_pos (by rw [h]; rfl)

/-- A link that goes down counts, and drops what waits for it. -/
theorem ethLinkDown_drops (h : ethUp d p = true) :
    let e := ((d.setLiv (pgEth p) ETH.LINK.UP 0).setLiv (pgEth p) ETH.LINK.FEC_LOCK 0).event (pgEth p) 4
    let q := e.port p
    let f := e.events (pgEth p) 6 (q.ptp.length + q.replies.length + q.ctl.length)
    ethLinkDown p d =
      dropDest (f.onPort p fun q => { q with ptp := [], replies := [], ctl := [], wants := [] })
        (fun m => m.dest == p) 3 :=
  if_neg (by rw [h]; decide)

-- ---- neighbours -------------------------------------------------------------------------------------------------

/-- Without a neighbour asked for, or with the link down, none is asked for again. -/
theorem resolveRetry_idle (h : (d.port p).wants = [] ∨ ethUp d p = false) : resolveRetry p d = d := by
  rcases h with h | h
  · simp only [resolveRetry, h]
  · simp only [resolveRetry, h, Bool.not_false, if_true]
    split <;> rfl

/-- 250 ms after the oldest try those due are asked for again, and the replies that waited a second are dropped. -/
theorem resolveRetry_asks {w : Bool × Nat × Nat} {ws : List (Bool × Nat × Nat)} (hw : (d.port p).wants = w :: ws)
    (hup : ethUp d p = true) :
    let e := d.advanceTo (ws.foldl (fun t v => min t v.2.2) w.2.2 + retryTicks)
    let due (v : Bool × Nat × Nat) : Bool := v.2.2 + retryTicks ≤ e.clk.tick
    let f := ((e.port p).wants.filter due).foldl (fun f v => askFor f p v.1 v.2.1) e
    let f := f.onPort p fun q =>
      { q with wants := q.wants.map fun v => if due v then (v.1, v.2.1, e.clk.tick) else v }
    let late (r : EthReply) : Bool := r.tick + secondTicks ≤ e.clk.tick && (macFor e p r.ipv6 r.addr).isNone
    resolveRetry p d =
      (f.onPort p fun q => { q with replies := q.replies.filter fun r => !late r }).events (pgEth p) 8
        ((f.port p).replies.filter late).length := by
  simp only [resolveRetry, hw, hup, Bool.not_true, Bool.false_eq_true, if_false]

theorem cacheRefresh_idle (h : ethUp d p = false) : cacheRefresh p d = d := if_pos (by rw [h]; rfl)

/-- A minute after the last refresh each neighbour of the cache is asked for again. -/
theorem cacheRefresh_asks (h : ethUp d p = true) :
    let e := d.advanceTo ((d.port p).fresh + 37500000000)
    let e := (e.port p).cache.foldl (fun f m => askFor f p m.ipv6 m.addr) e
    cacheRefresh p d = e.onPort p fun q => { q with fresh := e.clk.tick } :=
  if_neg (by rw [h]; decide)

end

-- ---- messages whose neighbour stays unknown (R351, R369) --------------------------------------------------------

/-- The neighbour that a message for a port needs, if it is known. -/
def neighbourOf (d : Dev) (q : QMsg) : Option Nat :=
  macFor d q.dest (destV6 d q.dest q.target) (destAddr d q.dest q.target)

/-- The oldest message of an entry is dropped, one second after it was queued, its neighbour unknown. -/
def Dev.msgUnresolved (d : Dev) (n : Nat) (q : QMsg) (rest : List QMsg) : Dev :=
  let e := d.advanceTo (q.tick + secondTicks)
  dropMsg (e.setStream n { e.stream n with queue := rest }) n q 2

/-- Whether a message or a reply of a port waits for a next hop. -/
def hopWaited (d : Dev) (port : Nat) (hop : Option Nat) : Bool :=
  (List.range 64).any (fun i => (d.stream i).queue.any fun w =>
    w.dest == port && nextHop d port (destV6 d port w.target) (destAddr d port w.target) == hop) ||
  (d.port port).replies.any fun r => nextHop d port r.ipv6 r.addr == hop

section
variable {d : Dev} {n : Nat}

/-- An entry without a message drops none. -/
theorem unresolved_empty (h : (d.stream n).queue = []) : unresolved n d = d := by simp only [unresolved, h]

variable {q : QMsg} {rest : List QMsg} (hq : (d.stream n).queue = q :: rest)
include hq

/-- A message for a ring, or whose neighbour is known, stays. -/
theorem unresolved_stays (h : 2 ≤ q.dest ∨ (neighbourOf d q).isSome = true) : unresolved n d = d := by
  unfold neighbourOf at h
  rcases h with h | h
  · simp only [unresolved, hq, h, if_true]
  · simp only [unresolved, hq, h, if_true, ite_self]

/-- One whose neighbour is unknown is dropped; the next hop is asked for no longer once nothing waits for it. -/
theorem unresolved_drops (hport : q.dest < 2) (h : neighbourOf d q = none) :
    let e := d.msgUnresolved n q rest
    let v6 := destV6 d q.dest q.target
    let hop := nextHop e q.dest v6 (destAddr d q.dest q.target)
    unresolved n d =
      if hopWaited e q.dest hop = true then e
      else e.onPort q.dest fun o => { o with wants := o.wants.filter fun w => !(w.1 == v6 && some w.2.1 == hop) } := by
  unfold neighbourOf at h
  simp only [unresolved, hq, h, Nat.not_le.mpr hport, Option.isSome_none, Bool.false_eq_true, if_false]
  rfl

end

/-- Settles O49: the link by the page, EN and its state; a retry, a refresh and a drop by what is asked for. -/
theorem portsComeUpAndGoDown : Obligations.PortsComeUpAndGoDown := by
  unfold Obligations.PortsComeUpAndGoDown
  refine ⟨fun s p => ⟨fun hidle => ?_, fun hon hen hdown => ⟨fun h6 => ?_, fun h6 => ?_⟩, fun hdown => ?_,
      fun hup => ?_⟩,
    fun s p n => ⟨fun hidle => ?_, fun w ws hw hup => ?_, fun hempty => ?_, fun q rest hq => ⟨fun hring => ?_,
      fun hport hknown => ?_, fun hport hunknown => ⟨fun hwaits => ?_, fun hover => ?_⟩⟩, fun hdown => ?_,
      fun hup => ?_⟩⟩
  · exact State.lands_of_effect (exec_ethLinkUp p s) (ethLinkUp_idle hidle)
  · exact State.lands_of_effect (exec_ethLinkUp p s)
      ((ethLinkUp_announces hon hen hdown).trans (if_neg (ne_true_of_eq_false h6)))
  · exact State.lands_of_effect (exec_ethLinkUp p s) ((ethLinkUp_announces hon hen hdown).trans (if_pos h6))
  · exact State.lands_of_effect (exec_ethLinkDown p s) (ethLinkDown_idle hdown)
  · exact State.lands_of_effect (exec_ethLinkDown p s) (ethLinkDown_drops hup)
  · exact State.lands_of_effect (exec_resolveRetry p s) (resolveRetry_idle hidle)
  · exact State.lands_of_effect (exec_resolveRetry p s) (resolveRetry_asks hw hup)
  · exact State.lands_of_effect (exec_unresolved n s) (unresolved_empty hempty)
  · exact State.lands_of_effect (exec_unresolved n s) (unresolved_stays hq (.inl hring))
  · exact State.lands_of_effect (exec_unresolved n s) (unresolved_stays hq (.inr hknown))
  · exact State.lands_of_effect (exec_unresolved n s) ((unresolved_drops hq hport hunknown).trans (if_pos hwaits))
  · exact State.lands_of_effect (exec_unresolved n s)
      ((unresolved_drops hq hport hunknown).trans (if_neg (ne_true_of_eq_false hover)))
  · exact State.lands_of_effect (exec_cacheRefresh p s) (cacheRefresh_idle hdown)
  · exact State.lands_of_effect (exec_cacheRefresh p s) (cacheRefresh_asks hup)

end Sys2Proof.Machine
end

section
/-!
PROOFS. The SFP28 cages (R354): polls, transfers and presence; each command by what it finds.
-/
namespace Sys2Proof.Machine

/-- A cage polled: one second after its last poll, the page applied. -/
def Dev.cagePolled (d : Dev) (p : Nat) : Dev :=
  let e := applyNow pgI2cm (d.advanceTo (d.ser.pollAt.getD p 0 + secondTicks))
  { e with ser := { e.ser with pollAt := e.ser.pollAt.set p e.clk.tick } }

/-- A transfer done, its acknowledge shown. -/
def Dev.xferDone (d : Dev) (ack : Bool) : Dev :=
  ((applyNow pgI2cm d).setLiv pgI2cm I2CM.XFER_RESULT.DONE 1).setLiv pgI2cm I2CM.XFER_RESULT.NACK (bit !ack)

section
variable {d : Dev} {p : Nat} {diag : Option SfpReading}

/-- With the page off, without EN, or without POLL_EN, no cage is polled. -/
theorem i2cPoll_idle (h : d.pageOn pgI2cm = false ∨ enActive d.regs pgI2cm = false ∨
    act d.regs pgI2cm I2CM.CONTROL.POLL_EN = 0) : i2cPoll applyNow p diag d = d :=
  if_pos (by rcases h with h | h | h <;> simp [h])

section
variable (hon : d.pageOn pgI2cm = true) (hen : enActive d.regs pgI2cm = true)
  (hpoll : act d.regs pgI2cm I2CM.CONTROL.POLL_EN ≠ 0)
include hon hen hpoll

/-- The poll of an empty cage reads nothing. -/
theorem i2cPoll_absent (h : liv (d.cagePolled p).regs pgI2cm (I2CM.CAGE.PRESENT p) = 0) :
    i2cPoll applyNow p diag d = d.cagePolled p :=
  (if_neg (by simp [hon, hen, hpoll])).trans (if_pos h)

/-- The poll of a module publishes its readings. -/
theorem i2cPoll_present (h : liv (d.cagePolled p).regs pgI2cm (I2CM.CAGE.PRESENT p) ≠ 0) :
    i2cPoll applyNow p diag d = showCage (d.cagePolled p) p (diag.getD ⟨false, 0, 0, 0, 0, 0⟩) :=
  (if_neg (by simp [hon, hen, hpoll])).trans (if_neg h)

end

variable {v : Word} {ack : Bool} {data : Byte}

/-- Without GO nothing is transferred. -/
theorem xfer_idle (h : bitOf v.toNat 31 = false) : xfer applyNow v ack data d = d := if_pos (by rw [h]; rfl)

/-- A transfer that is not acknowledged counts. -/
theorem xfer_nack (h : bitOf v.toNat 31 = true) :
    xfer applyNow v false data d = (d.xferDone false).event pgI2cm 4 :=
  if_neg (by rw [h]; decide)

/-- A write that is acknowledged shows no data. -/
theorem xfer_written (h : bitOf v.toNat 31 = true) (hw : bitOf v.toNat 25 = true) :
    xfer applyNow v true data d = d.xferDone true := by
  simp [xfer, Dev.xferDone, h, hw]

/-- A read that is acknowledged shows its byte. -/
theorem xfer_read (h : bitOf v.toNat 31 = true) (hr : bitOf v.toNat 25 = false) :
    xfer applyNow v true data d = (d.xferDone true).setLiv pgI2cm I2CM.XFER_RESULT.DATA data.toNat := by
  simp [xfer, Dev.xferDone, h, hr]

variable {present : Bool}

/-- With the page off, or shown already, a change of MOD_ABS shows nothing. -/
theorem moduleChange_idle
    (h : d.pageOn pgI2cm = false ∨ liv d.regs pgI2cm (I2CM.CAGE.PRESENT p) = bit present) :
    moduleChange p present d = d :=
  if_pos (by rcases h with h | h <;> simp [h])

/-- Otherwise it shows and counts. -/
theorem moduleChange_shows (hon : d.pageOn pgI2cm = true)
    (h : liv d.regs pgI2cm (I2CM.CAGE.PRESENT p) ≠ bit present) :
    moduleChange p present d = (d.setLiv pgI2cm (I2CM.CAGE.PRESENT p) (bit present)).event pgI2cm 5 :=
  if_neg (by simp [hon, h])

end

/-- Settles O50: each command of the cages by what it finds. -/
theorem cagesArePolledAndWritten : Obligations.CagesArePolledAndWritten := by
  unfold Obligations.CagesArePolledAndWritten
  intro s k p diag v ack data present
  have hpoll := exec_i2cPoll p diag s
  have hxfer := exec_xfer k v ack data s
  have hmod := exec_moduleChange p present s
  refine ⟨fun h => ?_, fun hon hen hp => ⟨fun h => ?_, fun h => ?_⟩,
    fun hon => ⟨fun h => ?_, fun h => ⟨?_, ?_, ?_⟩⟩, fun hoff => ⟨?_, ?_⟩, fun hon => ⟨fun h => ?_, fun h => ?_⟩⟩
  · exact State.lands_of_effect hpoll (i2cPoll_idle h)
  · exact State.lands_of_effect hpoll (i2cPoll_absent hon hen hp h)
  · exact State.lands_of_effect hpoll (i2cPoll_present hon hen hp h)
  · exact State.lands_of_effect hxfer ((Dev.guarded_on hon).trans (xfer_idle h))
  · intro hack
    subst hack
    exact State.lands_of_effect hxfer ((Dev.guarded_on hon).trans (xfer_nack h))
  · intro hack hw
    subst hack
    exact State.lands_of_effect hxfer ((Dev.guarded_on hon).trans (xfer_written h hw))
  · intro hack hr
    subst hack
    exact State.lands_of_effect hxfer ((Dev.guarded_on hon).trans (xfer_read h hr))
  · exact State.lands_of_effect hxfer (Dev.guarded_off hoff)
  · exact State.lands_of_effect hmod (moduleChange_idle (.inl hoff))
  · exact State.lands_of_effect hmod (moduleChange_idle (.inr h))
  · exact State.lands_of_effect hmod (moduleChange_shows hon h)

end Sys2Proof.Machine
end

section
/-!
PROOFS. PTP messages (R358 to R360): which concern the block, and each message by what it finds; DELAY_REQ and
SYNC_TIMEOUT.
-/
namespace Sys2Proof.Machine

-- ---- the best master (R358) -------------------------------------------------------------------------------------

/-- What the Announce of a master followed shows. -/
def showMaster (d : Dev) (f : Foreign) : Dev :=
  ((d.setPair pgPtp 0x924 0x928 (f.source.toNat / 2 ^ 16)).setLiv pgPtp PTP.UTC_OFFSET f.ann.utcOffset.toNat).onPtp
    fun p => { p with master := some f.source, logInt := f.ann.logInterval }

/-- A master followed anew: the servo acquires. -/
def freshMaster (d : Dev) (f : Foreign) : Dev :=
  (acquire (showMaster d f)).onPtp fun p =>
    { p with syncAt := d.clk.tick, lastM := none, twoStep := none, dreq := none, path := none }

/-- The best of the foreign masters followed, if there is one. -/
def followBest (d : Dev) (b : Option Foreign) : Dev :=
  match b with
  | none => d
  | some f => followMaster d f

/-- The foreign masters that an Announce leaves. -/
def Dev.noted (d : Dev) (o : PtpFrom) (a : Announce) : Dev :=
  d.onPtp fun p => { p with foreign := noteAnnounce d.ptp.foreign d.clk.tick o.source a }

section
variable {d : Dev} {f : Foreign}

/-- The master followed already is shown. -/
theorem followMaster_same (h : d.ptp.master = some f.source) : followMaster d f = showMaster d f := if_pos h

/-- The first master is followed anew. -/
theorem followMaster_first (h : d.ptp.master = none) : followMaster d f = freshMaster d f := by
  simp [followMaster, freshMaster, showMaster, h]

/-- A change of master counts, and it is followed anew. -/
theorem followMaster_changed {x : BitVec 80} (h : d.ptp.master = some x) (hx : x ≠ f.source) :
    followMaster d f = freshMaster (d.event pgPtp 6) f := by
  simp [followMaster, freshMaster, showMaster, h, hx]

variable {o : PtpFrom} {a : Announce}

/-- An Announce from 255 steps away, or of the clock itself, is ignored. -/
theorem announce_ignored (h : 255 ≤ a.steps.toNat ∨ o.source.toNat / 2 ^ 16 = clockIdentity d o.port.val) :
    announce d o a = d := if_pos h

section
variable (hs : a.steps.toNat < 255) (ho : o.source.toNat / 2 ^ 16 ≠ clockIdentity d o.port.val)
include hs ho

/-- Any other joins the foreign masters, and the best of them is followed. -/
theorem announce_counts :
    announce d o a = followBest (d.noted o a) (bestMaster (d.noted o a).ptp.foreign d.clk.tick) :=
  if_neg (not_or.mpr ⟨Nat.not_le.mpr hs, ho⟩)

/-- One that leaves no best master joins the foreign masters. -/
theorem announce_noted (h : bestMaster (d.noted o a).ptp.foreign d.clk.tick = none) :
    announce d o a = d.noted o a := by
  rw [announce_counts hs ho, h]
  rfl

/-- One that leaves a best master has it followed. -/
theorem announce_follows (h : bestMaster (d.noted o a).ptp.foreign d.clk.tick = some f) :
    announce d o a = followMaster (d.noted o a) f := by
  rw [announce_counts hs ho, h]
  rfl

end
end

-- ---- messages (R358 to R360) ------------------------------------------------------------------------------------

section
variable {d : Dev} {o : PtpFrom} {m : PtpMsg}

/-- A message concerns the block that takes messages, on its port and transport, in its domain, the link up. -/
theorem ptpConcerns_iff : (ptpTakes (applyNow pgPtp d) && ptpConcerns (applyNow pgPtp d) o) = true ↔
    ptpTakes (applyNow pgPtp d) = true ∧ ptpFld (applyNow pgPtp d) PTP.PORT.PORT = o.port.val ∧
      ptpFld (applyNow pgPtp d) PTP.PORT.TRANSPORT = o.transport.val ∧
      ptpFld (applyNow pgPtp d) PTP.PORT.DOMAIN = o.domain.toNat ∧ ethUp (applyNow pgPtp d) o.port.val = true := by
  simp only [ptpConcerns, Bool.and_eq_true, beq_iff_eq, and_assoc]

/-- A message that does not concern the block changes nothing but what an armed page brings. -/
theorem ptpMessage_ignored (h : (ptpTakes (applyNow pgPtp d) && ptpConcerns (applyNow pgPtp d) o) ≠ true) :
    ptpMessage applyNow o m d = applyNow pgPtp d :=
  if_pos (by rw [← Bool.not_and, Bool.not_eq_true']; exact Bool.eq_false_iff.mpr h)

end

section
variable {d e : Dev} {o : PtpFrom} (he : applyNow pgPtp d = e) (h : (ptpTakes e && ptpConcerns e o) = true)
include he h

/-- An Announce that concerns the block. -/
theorem ptpMessage_announce {a : Announce} : ptpMessage applyNow o (.announce a) d = announce e o a := by
  subst he
  exact if_neg (by rw [← Bool.not_and, h]; decide)

variable {seq : BitVec 16} {t1 t2 t4 corr : Int} {two : Bool}

/-- A Sync from another than the master changes nothing. -/
theorem ptpMessage_sync_other (hm : e.ptp.master ≠ some o.source) :
    ptpMessage applyNow o (.sync seq two t1 corr t2) d = e := by
  subst he
  exact (if_neg (by rw [← Bool.not_and, h]; decide)).trans (if_pos hm)

/-- A Follow_Up from another than the master changes nothing. -/
theorem ptpMessage_followUp_other (hm : e.ptp.master ≠ some o.source) :
    ptpMessage applyNow o (.followUp seq t1 corr) d = e := by
  subst he
  refine (if_neg (by rw [← Bool.not_and, h]; decide)).trans ?_
  simp only [hm, and_false, if_false]
  split <;> rfl

/-- A Delay_Resp from another than the master changes nothing. -/
theorem ptpMessage_delayResp_other (hm : e.ptp.master ≠ some o.source) :
    ptpMessage applyNow o (.delayResp seq t4 corr) d = e := by
  subst he
  refine (if_neg (by rw [← Bool.not_and, h]; decide)).trans ?_
  simp only [hm, ne_eq, not_false_eq_true, or_true, if_true]
  split <;> rfl

section
variable (hm : e.ptp.master = some o.source)
include hm

/-- A Sync in the cycle of a SET gives no measurement. -/
theorem ptpMessage_sync_set (hset : setNow e = true) :
    ptpMessage applyNow o (.sync seq two t1 corr t2) d = e.onPtp fun p => { p with syncAt := e.clk.tick } := by
  subst he
  exact (if_neg (by rw [← Bool.not_and, h]; decide)).trans ((if_neg (not_not.mpr hm)).trans (if_pos hset))

/-- A two-step Sync waits for its Follow_Up. -/
theorem ptpMessage_sync_twoStep (hset : setNow e = false) :
    ptpMessage applyNow o (.sync seq true t1 corr t2) d =
      (e.onPtp fun p => { p with syncAt := e.clk.tick }).onPtp
        fun p => { p with twoStep := some (seq.toNat, t2, corr) } := by
  subst he
  exact (if_neg (by rw [← Bool.not_and, h]; decide)).trans
    ((if_neg (not_not.mpr hm)).trans ((if_neg (ne_true_of_eq_false hset)).trans (if_pos rfl)))

/-- A one-step Sync gives a measurement. -/
theorem ptpMessage_sync_oneStep (hset : setNow e = false) :
    ptpMessage applyNow o (.sync seq false t1 corr t2) d =
      syncDone (e.onPtp fun p => { p with syncAt := e.clk.tick }) t1 t2 corr := by
  subst he
  exact (if_neg (by rw [← Bool.not_and, h]; decide)).trans
    ((if_neg (not_not.mpr hm)).trans ((if_neg (ne_true_of_eq_false hset)).trans (if_neg Bool.false_ne_true)))

/-- The Follow_Up of the Sync that waits for it gives a measurement. -/
theorem ptpMessage_followUp_matches {c : Int} (hw : e.ptp.twoStep = some (seq.toNat, t2, c)) :
    ptpMessage applyNow o (.followUp seq t1 corr) d = syncDone e t1 t2 (corr + c) := by
  subst he
  refine (if_neg (by rw [← Bool.not_and, h]; decide)).trans ?_
  simp only [hw, hm, and_self, if_true]

/-- The Delay_Resp of the Delay_Req that waits for it gives the mean path. -/
theorem ptpMessage_delayResp_matches {t3 : Int} {x : Int × Int × Int}
    (hw : e.ptp.dreq = some (seq.toNat, some t3)) (hx : e.ptp.lastM = some x) :
    let path := (syncDelta e x + ((t4 - t3 - corr) * 1000 - (ptpFld e PTP.LATENCY.TX_PS : Int))).fdiv 2
    ptpMessage applyNow o (.delayResp seq t4 corr) d =
      measure (showSigned (e.onPtp fun p => { p with dreq := none, path := some path }) PTP.MEAN_PATH
        (path.fdiv 1000)) := by
  subst he
  refine (if_neg (by rw [← Bool.not_and, h]; decide)).trans ?_
  simp only [hw, hx, hm, ne_eq, not_true_eq_false, or_self, if_false]

end

/-- A Follow_Up for which no Sync waits changes nothing. -/
theorem ptpMessage_followUp_unmatched (hw : ∀ u c, e.ptp.twoStep ≠ some (seq.toNat, u, c)) :
    ptpMessage applyNow o (.followUp seq t1 corr) d = e := by
  subst he
  refine (if_neg (by rw [← Bool.not_and, h]; decide)).trans ?_
  split
  · rename_i n u c heq
    exact if_neg fun hn => hw u c (by rw [heq, hn.1])
  · rfl

/-- A Delay_Resp for which no Delay_Req waits, or before a measurement, changes nothing. -/
theorem ptpMessage_delayResp_unmatched
    (hw : (∀ t3, e.ptp.dreq ≠ some (seq.toNat, some t3)) ∨ e.ptp.lastM = none) :
    ptpMessage applyNow o (.delayResp seq t4 corr) d = e := by
  subst he
  refine (if_neg (by rw [← Bool.not_and, h]; decide)).trans ?_
  split
  · rename_i n t3 x hd hx
    refine if_pos (.inl fun hn => ?_)
    rcases hw with hw | hw
    · exact hw t3 (by rw [hd, hn])
    · rw [hw] at hx
      nomatch hx
  · rfl

end

-- ---- DELAY_REQ and SYNC_TIMEOUT ---------------------------------------------------------------------------------

/-- One interval after the last Delay_Req, the page applied. -/
def Dev.delayReqAt (d : Dev) : Dev :=
  applyNow pgPtp (d.advanceTo (d.ptp.dreqAt + logTicks (-(signed 8 (ptpFld d PTP.LOG_DELAY_REQ)))))

/-- A Delay_Req due. -/
def Dev.delayReqDue (d : Dev) : Dev := d.delayReqAt.onPtp fun q => { q with dreqAt := d.delayReqAt.clk.tick }

/-- A Delay_Req handed to its port. -/
def Dev.delayReqSent (f : Dev) (p : Nat) : Dev :=
  let g := ptpFrame f p (delayReqBytes f p f.ptp.dseq)
  let h := g.1.onPtp fun q => { q with dreq := some (f.ptp.dseq, none), dseq := (f.ptp.dseq + 1) % 65536 }
  h.onPort p fun q => { q with ptp := q.ptp ++ [g.2] }

section
variable {d : Dev}

/-- Where no messages are taken, or without a master, no Delay_Req is sent. -/
theorem delayReq_idle (h : ptpTakes d = false ∨ d.ptp.master = none) : delayReq applyNow d = d :=
  if_pos (by rcases h with h | h <;> simp [h])

/-- Where no messages are taken, without a master, or in FREE or HOLDOVER, no Sync is missed. -/
theorem syncTimeout_idle
    (h : ptpTakes d = false ∨ d.ptp.master = none ∨ ptpState d = 0 ∨ ptpState d = 3) : syncTimeout d = d :=
  if_pos (by rcases h with h | h | h | h <;> simp [h])

section
variable (htakes : ptpTakes d = true) (hm : d.ptp.master.isSome = true)
include htakes hm

/-- With the link down, or no messages taken any more, the interval starts anew. -/
theorem delayReq_skipped
    (h : ethUp d.delayReqDue (ptpFld d.delayReqAt PTP.PORT.PORT) = false ∨ ptpTakes d.delayReqDue = false) :
    delayReq applyNow d = d.delayReqDue := by
  refine (if_neg ?_).trans (if_pos ?_)
  · simp [htakes, Option.isSome_iff_ne_none.mp hm]
  · simp only [Bool.or_eq_true, Bool.not_eq_true']
    exact h.symm

/-- Else the Delay_Req is handed to its port. -/
theorem delayReq_sends (hup : ethUp d.delayReqDue (ptpFld d.delayReqAt PTP.PORT.PORT) = true)
    (ht : ptpTakes d.delayReqDue = true) :
    delayReq applyNow d = d.delayReqDue.delayReqSent (ptpFld d.delayReqAt PTP.PORT.PORT) := by
  refine (if_neg ?_).trans (if_neg ?_)
  · simp [htakes, Option.isSome_iff_ne_none.mp hm]
  · simp only [Bool.or_eq_true, Bool.not_eq_true', not_or, Bool.not_eq_false]
    exact ⟨ht, hup⟩

/-- Three intervals after the last Sync the servo holds over. -/
theorem syncTimeout_holdsOver (h0 : ptpState d ≠ 0) (h3 : ptpState d ≠ 3) :
    syncTimeout d = (setPtpState (d.advanceTo (d.ptp.syncAt + 3 * logTicks d.ptp.logInt)) 3).event pgPtp 8 :=
  if_neg (by simp [htakes, Option.isSome_iff_ne_none.mp hm, h0, h3])

end
end

/-- Settles O51: each PTP message, DELAY_REQ and SYNC_TIMEOUT by what it finds. -/
theorem ptpMessagesMoveTheServo : Obligations.PtpMessagesMoveTheServo := by
  unfold Obligations.PtpMessagesMoveTheServo
  intro s o a seq t1 t2 t4 corr two m
  have hmsg (m : PtpMsg) := exec_ptpMessage ⟨o, m⟩ s
  have hdelay := exec_delayReq s
  have htimeout := exec_syncTimeout s
  refine ⟨fun hc => ?_, fun hc => ?_, fun h => ⟨?_, ?_⟩, fun ht hm => ⟨fun h => ?_, fun hup ht' => ?_, fun h => ?_,
    fun h0 h3 => ?_⟩⟩
  · exact State.lands_of_effect (hmsg m) (ptpMessage_ignored fun h => hc (ptpConcerns_iff.mp h))
  · have hb := ptpConcerns_iff.mpr hc
    refine ⟨fun h => ?_, fun hs ho => ⟨fun h => ?_, fun f h => ⟨fun hm => ?_, fun hm => ?_, fun x hm hx => ?_⟩⟩,
      fun hm => ⟨?_, ?_, ?_⟩, fun hm => ⟨⟨fun hset => ?_, fun hset => ⟨?_, ?_⟩⟩, fun c hw => ?_, fun hw => ?_,
        fun t3 x hw hx => ?_, fun hw => ?_⟩⟩
    · exact State.lands_of_effect (hmsg _) ((ptpMessage_announce rfl hb).trans (announce_ignored h))
    · exact State.lands_of_effect (hmsg _) ((ptpMessage_announce rfl hb).trans (announce_noted hs ho h))
    · exact State.lands_of_effect (hmsg _) ((ptpMessage_announce rfl hb).trans
        ((announce_follows hs ho h).trans (followMaster_same hm)))
    · exact State.lands_of_effect (hmsg _) ((ptpMessage_announce rfl hb).trans
        ((announce_follows hs ho h).trans (followMaster_first hm)))
    · exact State.lands_of_effect (hmsg _) ((ptpMessage_announce rfl hb).trans
        ((announce_follows hs ho h).trans (followMaster_changed hm hx)))
    · exact State.lands_of_effect (hmsg _) (ptpMessage_sync_other rfl hb hm)
    · exact State.lands_of_effect (hmsg _) (ptpMessage_followUp_other rfl hb hm)
    · exact State.lands_of_effect (hmsg _) (ptpMessage_delayResp_other rfl hb hm)
    · exact State.lands_of_effect (hmsg _) (ptpMessage_sync_set rfl hb hm hset)
    · exact State.lands_of_effect (hmsg _) (ptpMessage_sync_twoStep rfl hb hm hset)
    · exact State.lands_of_effect (hmsg _) (ptpMessage_sync_oneStep rfl hb hm hset)
    · exact State.lands_of_effect (hmsg _) (ptpMessage_followUp_matches rfl hb hm hw)
    · exact State.lands_of_effect (hmsg _) (ptpMessage_followUp_unmatched rfl hb hw)
    · exact State.lands_of_effect (hmsg _) (ptpMessage_delayResp_matches rfl hb hm hw hx)
    · exact State.lands_of_effect (hmsg _) (ptpMessage_delayResp_unmatched rfl hb hw)
  · exact State.lands_of_effect hdelay (delayReq_idle h)
  · exact State.lands_of_effect htimeout (syncTimeout_idle (h.imp_right .inl))
  · exact State.lands_of_effect hdelay (delayReq_skipped ht hm h)
  · exact State.lands_of_effect hdelay (delayReq_sends ht hm hup ht')
  · exact State.lands_of_effect htimeout (syncTimeout_idle (.inr (.inr h)))
  · exact State.lands_of_effect htimeout (syncTimeout_holdsOver ht hm h0 h3)

end Sys2Proof.Machine
end

section
/-!
PROOFS. Device time and its sources (R356, R357, R361, R362): SET, PPS_IN and PPS_OUT, REFCLK_IN; each command by
what it finds.
-/
namespace Sys2Proof.Machine

-- ---- SET (R357) -------------------------------------------------------------------------------------------------

/-- Device time of SET_HI:SET_LO. -/
def Dev.setTime (d : Dev) : Nat := d.pair pgPtp 0x980 0x984

/-- After a SET a servo with a master acquires. -/
def servoFollows (e : Dev) : Dev := if ptpTakes e && e.ptp.master.isSome then acquire e else e

/-- A SET in force: the measurements taken before it no longer count. -/
def Dev.setInForce (e : Dev) : Dev :=
  e.onPtp fun p => { p with setAt := some e.clk.tick, stepAt := none, twoStep := none, lastM := none, dreq := none }

/-- A SET that takes the place of a servo step of the same cycle, whose journal entry is `n`. -/
def Dev.setOverStep (d : Dev) (n : Nat) : Dev :=
  restamp { d with clk := { d.clk with time := d.setTime * nsUnits } } n d.setTime

/-- The servo does not move the clock. -/
theorem servoFollows_clk (e : Dev) : (servoFollows e).clk = e.clk := by
  unfold servoFollows
  split <;> rfl

section
variable {d : Dev}

/-- With no servo step in its cycle, a SET steps device time. -/
theorem timeSet_steps (h : d.ptp.stepAt = none ∨ ∃ u n, d.ptp.stepAt = some (u, n) ∧ u ≠ d.clk.tick) :
    timeSet d = (servoFollows (stepTime d ((d.setTime * nsUnits : Nat) : Int))).setInForce := by
  rcases h with h | ⟨u, n, h, hu⟩
  · simp only [timeSet, h, Bool.false_and, Bool.false_eq_true, if_false]
    rfl
  · simp only [timeSet, h, hu, beq_false_of_ne hu, Bool.false_and, Bool.false_eq_true, if_false]
    rfl

/-- A SET in the cycle of a servo step takes its place, and forgets the PPS_IN edge of that cycle. -/
theorem timeSet_replaces {n : Nat} (h : d.ptp.stepAt = some (d.clk.tick, n)) :
    timeSet d = ((servoFollows (d.setOverStep n)).setInForce).onPtp fun p =>
      { p with ppsAt := if p.ppsAt == some d.clk.tick then none else p.ppsAt } := by
  have hclk : (servoFollows (d.setOverStep n)).clk.tick = d.clk.tick := by rw [servoFollows_clk]; rfl
  rw [← hclk]
  simp only [timeSet, h, beq_self_eq_true, Bool.true_and, if_true]
  rfl

section
variable {n : Nat} (h : d.ptp.stepAt = some (d.clk.tick, n))
include h

/-- An edge of PPS_IN in that cycle is forgotten. -/
theorem timeSet_forgetsEdge (hat : (servoFollows (d.setOverStep n)).setInForce.ptp.ppsAt = some d.clk.tick) :
    timeSet d = (servoFollows (d.setOverStep n)).setInForce.onPtp fun p => { p with ppsAt := none } := by
  simp only [timeSet_replaces h, Dev.onPtp, hat, beq_self_eq_true, if_true]

/-- An earlier one stays. -/
theorem timeSet_keepsEdge (hat : (servoFollows (d.setOverStep n)).setInForce.ptp.ppsAt ≠ some d.clk.tick) :
    timeSet d = (servoFollows (d.setOverStep n)).setInForce := by
  simp only [timeSet_replaces h, Dev.onPtp, beq_eq_false_iff_ne.mpr hat, Bool.false_eq_true, if_false]

end
end

-- ---- PPS_IN (R361) ----------------------------------------------------------------------------------------------

/-- The whole second nearest to device time, in nanoseconds. -/
def nearestSecond (d : Dev) : Nat := (d.timeNs + 500000000) / 1000000000 * 1000000000

/-- An active edge of PPS_IN measured against it. -/
def Dev.ppsSeen (d : Dev) : Dev :=
  (d.setLivS pgPtp PTP.PPS_IN_ERR ((d.timeNs : Int) - (nearestSecond d : Int))).onPtp
    fun p => { p with ppsAt := some d.clk.tick, ppsGone := false }

section
variable {d e : Dev} {rising : Bool}

/-- The active edge of PPS_IN is the one whose level POL does not name; it is judged with the page on and the input
enabled. -/
theorem ppsEdge_idle_iff :
    (!ptpOn e || ptpFld e PTP.PPS_IN.EN == 0 || rising == (ptpFld e PTP.PPS_IN.POL == 1)) = true ↔
      ptpOn e = false ∨ ptpFld e PTP.PPS_IN.EN = 0 ∨ (rising = true ↔ ptpFld e PTP.PPS_IN.POL = 1) := by
  have hedge : rising = (ptpFld e PTP.PPS_IN.POL == 1) ↔ (rising = true ↔ ptpFld e PTP.PPS_IN.POL = 1) := by
    rw [Bool.eq_iff_iff, beq_iff_eq]
  rw [Bool.or_eq_true, Bool.or_eq_true, Bool.not_eq_true', beq_iff_eq, beq_iff_eq, hedge, or_assoc]

section
variable (he : tiuEdge 2 rising d = e)
include he

/-- With the page off or the input disabled, or at the other edge, PPS_IN reaches the TIU alone. -/
theorem ppsInEdge_idle
    (h : ptpOn e = false ∨ ptpFld e PTP.PPS_IN.EN = 0 ∨ (rising = true ↔ ptpFld e PTP.PPS_IN.POL = 1)) :
    ppsInEdge rising d = e := by
  subst he
  exact if_pos (ppsEdge_idle_iff.mpr h)

variable (hact : ¬ (ptpOn e = false ∨ ptpFld e PTP.PPS_IN.EN = 0 ∨ (rising = true ↔ ptpFld e PTP.PPS_IN.POL = 1)))
include hact

/-- A first edge in the cycle of a SET gives no step. -/
theorem ppsInEdge_set (hs : ppsSteers e = true) (hfirst : e.ptp.ppsAt = none) (hset : setNow e = true) :
    ppsInEdge rising d = e := by
  subst he
  exact (if_neg (mt ppsEdge_idle_iff.mp hact)).trans (if_pos (by rw [hs, hfirst, hset]; rfl))

variable (hset : ppsSteers e = false ∨ e.ptp.ppsAt ≠ none ∨ setNow e = false)
include hset

/-- Any other active edge is measured; it steers device time where PPS does, the first by a step, the next by slew. -/
theorem ppsInEdge_seen :
    ppsInEdge rising d =
      if ppsSteers e.ppsSeen = false then e.ppsSeen
      else if e.ptp.ppsAt.isNone = true then servoStep e.ppsSeen ((nearestSecond e * nsUnits : Nat) : Int)
      else slew e.ppsSeen (((e.timeNs : Int) - (nearestSecond e : Int)) * 1000) := by
  subst he
  refine (if_neg (mt ppsEdge_idle_iff.mp hact)).trans ((if_neg ?_).trans ?_)
  · simpa [not_or, imp_iff_not_or, or_assoc, Option.isNone_iff_eq_none] using hset
  · simp only [Bool.not_eq_true']
    rfl

/-- An edge that does not steer is measured alone. -/
theorem ppsInEdge_measured (hs : ppsSteers e.ppsSeen = false) : ppsInEdge rising d = e.ppsSeen :=
  (ppsInEdge_seen he hact hset).trans (if_pos hs)

/-- The first edge that steers steps device time to the whole second. -/
theorem ppsInEdge_steps (hs : ppsSteers e.ppsSeen = true) (hfirst : e.ptp.ppsAt = none) :
    ppsInEdge rising d = servoStep e.ppsSeen ((nearestSecond e * nsUnits : Nat) : Int) :=
  (ppsInEdge_seen he hact hset).trans
    ((if_neg (ne_false_of_eq_true hs)).trans (if_pos (by rw [hfirst]; rfl)))

/-- The next ones slew it. -/
theorem ppsInEdge_slews (hs : ppsSteers e.ppsSeen = true) (hnext : e.ptp.ppsAt ≠ none) :
    ppsInEdge rising d = slew e.ppsSeen (((e.timeNs : Int) - (nearestSecond e : Int)) * 1000) :=
  (ppsInEdge_seen he hact hset).trans
    ((if_neg (ne_false_of_eq_true hs)).trans (if_neg (mt Option.isNone_iff_eq_none.mp hnext)))

end

/-- With the page off or the input disabled, before an edge, or once missed, no PPS_IN edge is missed. -/
theorem ppsMissing_idle
    (h : ptpOn d = false ∨ ptpFld d PTP.PPS_IN.EN = 0 ∨ d.ptp.ppsAt = none ∨ d.ptp.ppsGone = true) :
    ppsMissing d = d := by
  unfold ppsMissing
  split
  · rfl
  · rename_i u hu
    exact if_pos (by rcases h with h | h | h | h <;> simp_all)

/-- 1.1 s after the last edge it is, once. -/
theorem ppsMissing_counts {u : Nat} (hu : d.ptp.ppsAt = some u) (hgone : d.ptp.ppsGone = false)
    (hon : ptpOn d = true) (hen : ptpFld d PTP.PPS_IN.EN ≠ 0) :
    ppsMissing d = ((d.advanceTo (u + 687500000)).onPtp fun p => { p with ppsGone := true }).event pgPtp 7 := by
  simp [ppsMissing, hu, hgone, hon, hen]

-- ---- PPS_OUT (R361) ---------------------------------------------------------------------------------------------

/-- Device time of PPS_OUT, in units of the clock. -/
def ppsOutTime (d : Dev) : Int := (d.clk.time : Int) - signed 32 (ptpFld d PTP.PPS_OFFSET) * (nsUnits : Int)

/-- The clock at the next whole second of PPS_OUT. -/
def Dev.ppsOutDue (d : Dev) : Dev :=
  let sec : Int := ((1000000000 * nsUnits : Nat) : Int)
  let gap := (((ppsOutTime d).fdiv sec + 1) * sec - ppsOutTime d).toNat
  d.advance (ceilDiv gap (8 * (65536000000 + d.clk.freq)).toNat)

/-- The rising edge of PPS_OUT, where it is not up. -/
def Dev.ppsOutRises (e : Dev) : Dev := if e.ptp.ppsOut then e else tiuEdge 3 true e

/-- With the page off or the output disabled, or the core clock off, PPS_OUT does not rise. -/
theorem ppsOut_idle (h : ptpOn d = false ∨ ptpFld d PTP.PPS_OUT.EN = 0 ∨ d.clk.coreOn = false) : ppsOut d = d :=
  if_pos (by rcases h with h | h | h <;> simp [h])

section
variable (hon : ptpOn d = true) (hen : ptpFld d PTP.PPS_OUT.EN ≠ 0) (hcore : d.clk.coreOn = true)
include hon hen hcore

/-- A step suppresses it for one second. -/
theorem ppsOut_quiet (h : d.ppsOutDue.clk.tick < d.ppsOutDue.ptp.quiet) : ppsOut d = d.ppsOutDue :=
  (if_neg (by simp [hon, hen, hcore])).trans (if_pos h)

/-- Else it rises and its end is set. -/
theorem ppsOut_rises (h : d.ppsOutDue.ptp.quiet ≤ d.ppsOutDue.clk.tick) :
    ppsOut d = d.ppsOutDue.ppsOutRises.onPtp fun p =>
      { p with ppsOut := true
               outEnd := d.ppsOutDue.ppsOutRises.clk.tick + ptpFld d.ppsOutDue.ppsOutRises PTP.PPS_OUT.WIDTH } :=
  (if_neg (by simp [hon, hen, hcore])).trans (if_neg (Nat.not_lt.mpr h))

end

theorem ppsOutEnd_idle (h : d.ptp.ppsOut = false) : ppsOutEnd d = d := if_neg (ne_true_of_eq_false h)

/-- PPS_OUT falls at its end. -/
theorem ppsOutEnd_falls (h : d.ptp.ppsOut = true) :
    ppsOutEnd d = tiuEdge 3 false ((d.advanceTo d.ptp.outEnd).onPtp fun p => { p with ppsOut := false }) := if_pos h

-- ---- REFCLK_IN (R362) -------------------------------------------------------------------------------------------

/-- Without REFCLK_IN, or with the core clock off, it is not lost. -/
theorem refLost_idle (h : d.pins.refPresent = false ∨ d.clk.coreOn = false) : refLost d = d :=
  if_pos (by rcases h with h | h <;> simp [h])

/-- 1 µs without an edge REFCLK_IN is lost. -/
theorem refLost_shows (hp : d.pins.refPresent = true) (hcore : d.clk.coreOn = true) :
    refLost d = lanePllLoss (showRef
      { d.advance 625 with pins := { (d.advance 625).pins with refPresent := false } }) := by
  rw [Dev.advance_pins]
  exact if_neg (by rw [hp, hcore]; decide)

theorem refReturn_idle (h : d.pins.refPresent = true) : refReturn d = d := if_pos h

/-- REFCLK_IN shown back after 450 µs. -/
def Dev.refBack (d : Dev) : Dev :=
  showRef { d.advance 281250 with pins := { (d.advance 281250).pins with refPresent := true } }

/-- REFCLK_IN back is shown, and the PLLs of the lanes lock again where their domain is on. -/
theorem refReturn_shows (h : d.pins.refPresent = false) :
    refReturn d = if d.refBack.domainOn 10 then lanePllLock d.refBack else d.refBack := by
  unfold Dev.refBack
  rw [Dev.advance_pins]
  exact if_neg (ne_true_of_eq_false h)

end

/-- Settles O52: SET, PPS_IN, PPS_OUT and REFCLK_IN by what they find. -/
theorem deviceTimeFollowsItsSource : Obligations.DeviceTimeFollowsItsSource := by
  unfold Obligations.DeviceTimeFollowsItsSource
  intro s k rising
  have hset := exec_timeSet k s
  have hpps := exec_ppsInEdge rising s
  refine ⟨fun hoff => ?_, fun hon => ⟨fun h => ?_, fun n h => ⟨fun hsame => ?_, fun hother => ?_⟩⟩,
    ⟨fun h => ?_, fun hon hen hact => ?_⟩, fun h => ?_, fun u hu hg hon hen => ?_, fun h => ?_,
    fun hon hen hcore => ⟨fun h => ?_, fun h => ?_⟩, fun h => ?_, fun h => ?_, fun h => ?_, fun h => ?_,
    fun hp hcore => ?_, fun hp => ⟨fun h => ?_, fun h => ?_⟩⟩
  · exact State.lands_of_effect hset (Dev.guarded_off hoff)
  · exact State.lands_of_effect hset ((Dev.guarded_on hon).trans (timeSet_steps h))
  · exact State.lands_of_effect hset ((Dev.guarded_on hon).trans (timeSet_forgetsEdge h hsame))
  · exact State.lands_of_effect hset ((Dev.guarded_on hon).trans (timeSet_keepsEdge h hother))
  · exact State.lands_of_effect hpps (ppsInEdge_idle rfl h)
  · have hact := not_or.mpr ⟨ne_false_of_eq_true hon, not_or.mpr ⟨hen, hact⟩⟩
    refine ⟨fun hs hfirst hset => ?_, fun hset => ⟨fun hs => ?_, fun hs hfirst => ?_, fun hs hnext => ?_⟩⟩
    · exact State.lands_of_effect hpps (ppsInEdge_set rfl hact hs hfirst hset)
    · exact State.lands_of_effect hpps (ppsInEdge_measured rfl hact hset hs)
    · exact State.lands_of_effect hpps (ppsInEdge_steps rfl hact hset hs hfirst)
    · exact State.lands_of_effect hpps (ppsInEdge_slews rfl hact hset hs hnext)
  · exact State.lands_of_effect (exec_ppsMissing s) (ppsMissing_idle h)
  · exact State.lands_of_effect (exec_ppsMissing s) (ppsMissing_counts hu hg hon hen)
  · exact State.lands_of_effect (exec_ppsOut s) (ppsOut_idle h)
  · exact State.lands_of_effect (exec_ppsOut s) (ppsOut_quiet hon hen hcore h)
  · exact State.lands_of_effect (exec_ppsOut s) (ppsOut_rises hon hen hcore h)
  · exact State.lands_of_effect (exec_ppsOutEnd s) (ppsOutEnd_idle h)
  · exact State.lands_of_effect (exec_ppsOutEnd s) (ppsOutEnd_falls h)
  · exact State.lands_of_effect (exec_refLost s) (refLost_idle h)
  · exact State.lands_of_effect (exec_refReturn s) (refReturn_idle h)
  · exact State.lands_of_effect (exec_refLost s) (refLost_shows hp hcore)
  · exact State.lands_of_effect (exec_refReturn s) ((refReturn_shows hp).trans (if_neg (ne_true_of_eq_false h)))
  · exact State.lands_of_effect (exec_refReturn s) ((refReturn_shows hp).trans (if_pos h))

end Sys2Proof.Machine
end

section
/-!
PROOFS. The SPI slave (R374, R375) and the NHR4010 port (R376, R377): each frame by what it finds.
-/
namespace Sys2Proof.Machine

-- ---- the SPI slave ----------------------------------------------------------------------------------------------

section
variable {d : Dev} {f : Dev → Dev × List Byte}

/-- With the page off a frame does nothing. -/
theorem spiFrame_off (h : d.pageOn pgSpis = false) : spiFrame f d = d := if_pos (by rw [h]; rfl)

/-- A frame counts, and shows what it returned. -/
theorem spiFrame_on (h : d.pageOn pgSpis = true) {r : Dev × List Byte} (hr : f ((applyNow pgSpis d).event pgSpis 4) = r) :
    spiFrame f d = r.1.onSerial fun q => { q with spi := r.2 } := by
  subst hr
  exact if_neg (by rw [h]; decide)

/-- A READ frame reads its words. -/
theorem spiOp_read {n a : Nat} : spiOp 0x0B n a d = spiReads n a d := if_pos rfl

/-- A WRITE frame without data writes none. -/
theorem spiOp_write {n a : Nat} : spiOp 0x02 n a d = (d, []) := (if_neg (by decide)).trans (if_pos rfl)

/-- Any other op counts BAD_OP and is answered 0xFF throughout. -/
theorem spiOp_bad {op : Byte} {n a : Nat} (hr : op ≠ 0x0B) (hw : op ≠ 0x02) :
    spiOp op n a d = (d.event pgSpis 6, List.replicate (5 * n) 0xFF) := (if_neg hr).trans (if_neg hw)

theorem abortedWord_off (h : d.pageOn pgSpis = false) : abortedWord d = d := if_neg (ne_true_of_eq_false h)

theorem abortedWord_on (h : d.pageOn pgSpis = true) : abortedWord d = d.event pgSpis 5 := if_pos h

variable {n x : Nat}

/-- A word that is read is returned behind the status 0. -/
theorem spiReads_ok (h : (busRead .spi x 4 d).2.1 = none) :
    let r := busRead .spi x 4 d
    let rest := spiReads n (x + 4) r.1
    spiReads (n + 1) x d = (rest.1, 0x00 :: leBytes 4 r.2.2.toNat ++ rest.2) := by
  simp only [spiReads, h, spiStatus, Option.isSome_none, Bool.false_eq_true, if_false]

/-- One that fails is returned as zeros behind its code. -/
theorem spiReads_failed {c : BusErr} (h : (busRead .spi x 4 d).2.1 = some c) :
    let rest := spiReads n (x + 4) (busRead .spi x 4 d).1
    spiReads (n + 1) x d = (rest.1, BitVec.ofNat 8 (0x80 + c.code) :: leBytes 4 0 ++ rest.2) := by
  simp only [spiReads, h, spiStatus, Option.isSome_some, if_true]

variable {v : Word} {vs : List Word}

/-- A word written answers the status 0. -/
theorem spiWrites_ok (h : (busWrite sysWrite .spi x 4 v d).2 = none) :
    let rest := spiWrites vs (x + 4) (busWrite sysWrite .spi x 4 v d).1
    spiWrites (v :: vs) x d = (rest.1, 0x00 :: rest.2) := by
  simp only [spiWrites, h, spiStatus]

/-- One that fails answers its code. -/
theorem spiWrites_failed {c : BusErr} (h : (busWrite sysWrite .spi x 4 v d).2 = some c) :
    let rest := spiWrites vs (x + 4) (busWrite sysWrite .spi x 4 v d).1
    spiWrites (v :: vs) x d = (rest.1, BitVec.ofNat 8 (0x80 + c.code) :: rest.2) := by
  simp only [spiWrites, h, spiStatus]

end

-- ---- the NHR4010 port -------------------------------------------------------------------------------------------

/-- A frame answered: its result waits for the next frame, which it times. -/
def Dev.legacyAnswered (f : Dev) (t : Nat) (w : Word) : Dev :=
  f.onSerial fun q => { q with legOut := q.legacy, legacy := w, legEnd := some t }

section
variable {d : Dev} {f : Dev → Dev × Word}

/-- With the page off a frame does nothing. -/
theorem legacyFrame_off (h : d.pageOn pgLegacy = false) : legacyFrame f d = d := if_pos (by rw [h]; rfl)

section
variable (hon : d.pageOn pgLegacy = true)
include hon

/-- With the port disabled the page is applied alone. -/
theorem legacyFrame_disabled (h : enActive (applyNow pgLegacy d).regs pgLegacy = false) :
    legacyFrame f d = applyNow pgLegacy d :=
  (if_neg (by rw [hon]; decide)).trans (if_pos (by rw [h]; rfl))

variable (hen : enActive (applyNow pgLegacy d).regs pgLegacy = true)
include hen

/-- A frame within 2 µs of the last one's end counts LATE. -/
theorem legacyFrame_late {u : Nat} (hu : (applyNow pgLegacy d).ser.legEnd = some u)
    (ht : (applyNow pgLegacy d).clk.tick < u + 1250) :
    legacyFrame f d = ((applyNow pgLegacy d).event pgLegacy 6).onSerial
      fun q => { q with legEnd := some (applyNow pgLegacy d).clk.tick } := by
  simp only [legacyFrame, hon, hen, hu, ht, decide_true, Bool.not_true, Bool.false_eq_true, if_false, if_true]

/-- Any other is served. -/
theorem legacyFrame_served
    (hend : (applyNow pgLegacy d).ser.legEnd = none ∨
      ∃ u, (applyNow pgLegacy d).ser.legEnd = some u ∧ u + 1250 ≤ (applyNow pgLegacy d).clk.tick)
    {g : Dev} {w : Word} (hr : f ((applyNow pgLegacy d).event pgLegacy 4) = (g, w)) :
    legacyFrame f d = g.legacyAnswered (applyNow pgLegacy d).clk.tick w := by
  rcases hend with hu | ⟨u, hu, ht⟩
  · simp only [legacyFrame, hon, hen, hu, hr, Bool.not_true, Bool.false_eq_true, if_false]
    rfl
  · simp only [legacyFrame, hon, hen, hu, hr, decide_eq_false (Nat.not_lt.mpr ht), Bool.not_true, Bool.false_eq_true,
      if_false]
    rfl

end

variable {a v : Nat}

/-- A write whose address has no translation counts UNMAPPED. -/
theorem legacyWrite_unmapped (h : translation d a = none) :
    legacyWrite a v d = (d.event pgLegacy 5, legacyWord false a v) := by
  simp only [legacyWrite, h]

/-- A read whose address has no translation counts UNMAPPED, its data open. -/
theorem legacyRead_unmapped (h : translation d a = none) :
    legacyRead a d = ((d.event pgLegacy 5).tookFree, legacyWord false a d.free.toNat) := by
  simp only [legacyRead, h]

section
variable {reg shift width : Nat} (h : translation d a = some (reg, shift, width))
include h

/-- A read of a register that cannot be read leaves its data open. -/
theorem legacyRead_failed (hr : (busRead .legacy reg 4 d).2.1.isSome = true) :
    let r := busRead .legacy reg 4 d
    legacyRead a d = (r.1.tookFree, legacyWord true a r.1.free.toNat) := by
  simp only [legacyRead, h, hr, if_true]

/-- A write to a register that cannot be read ends. -/
theorem legacyWrite_failed (hr : (busRead .legacy reg 4 d).2.1.isSome = true) :
    legacyWrite a v d = ((busRead .legacy reg 4 d).1, legacyWord false a v) := by
  simp only [legacyWrite, h, hr, if_true]

/-- A read returns its field. -/
theorem legacyRead_field (hr : (busRead .legacy reg 4 d).2.1 = none) :
    let r := busRead .legacy reg 4 d
    legacyRead a d = (r.1, legacyWord true a (r.2.2.toNat / 2 ^ shift % 2 ^ width)) := by
  simp only [legacyRead, h, hr, Option.isSome_none, Bool.false_eq_true, if_false]

/-- A write replaces it. -/
theorem legacyWrite_field (hr : (busRead .legacy reg 4 d).2.1 = none) :
    let r := busRead .legacy reg 4 d
    let w := r.2.2.toNat
    let new := w - w / 2 ^ shift % 2 ^ width * 2 ^ shift + v % 2 ^ width * 2 ^ shift
    legacyWrite a v d = ((busWrite sysWrite .legacy reg 4 (Word.ofNat new) r.1).1, legacyWord false a v) := by
  simp only [legacyWrite, h, hr, Option.isSome_none, Bool.false_eq_true, if_false]

end
end

/-- Settles O53: each frame of the two serial ports by what it finds. -/
theorem serialPortsReadAndWrite : Obligations.SerialPortsReadAndWrite := by
  unfold Obligations.SerialPortsReadAndWrite
  refine ⟨fun s op a n ws => ⟨fun hoff => ⟨?_, ?_, ?_⟩, fun hon => ⟨fun hr hw => ?_, ?_, ?_, ?_, ?_⟩,
      fun x f v vs => ⟨rfl, rfl, ⟨spiReads_ok, fun _ => spiReads_failed⟩, ⟨spiWrites_ok, fun _ => spiWrites_failed⟩⟩⟩,
    fun s a v => ⟨fun hoff => ⟨?_, ?_⟩, fun hon => ⟨fun hen => ⟨?_, ?_⟩, fun hen => ⟨fun u hu ht => ⟨?_, ?_⟩,
      fun hend => ⟨fun h => ⟨?_, ?_⟩, fun reg shift width h => ⟨fun hr => ⟨?_, ?_⟩, fun hr => ⟨?_, ?_⟩⟩⟩⟩⟩⟩⟩
  · exact State.lands_of_effect (exec_spiRead _ n s) (spiFrame_off hoff)
  · exact State.lands_of_effect (exec_spiWrite a ws s) (spiFrame_off hoff)
  · exact State.lands_of_effect (exec_abortedWord s) (abortedWord_off hoff)
  · exact State.lands_of_effect (exec_spiRead _ n s) (spiFrame_on hon (spiOp_bad hr hw))
  · exact State.lands_of_effect (exec_spiRead _ n s) (spiFrame_on hon spiOp_write)
  · exact State.lands_of_effect (exec_spiRead _ n s) (spiFrame_on hon spiOp_read)
  · exact State.lands_of_effect (exec_spiWrite a ws s) (spiFrame_on hon rfl)
  · exact State.lands_of_effect (exec_abortedWord s) (abortedWord_on hon)
  · exact State.lands_of_effect (exec_legacyRead a s) (legacyFrame_off hoff)
  · exact State.lands_of_effect (exec_legacyWrite a v s) (legacyFrame_off hoff)
  · exact State.lands_of_effect (exec_legacyRead a s) (legacyFrame_disabled hon hen)
  · exact State.lands_of_effect (exec_legacyWrite a v s) (legacyFrame_disabled hon hen)
  · exact State.lands_of_effect (exec_legacyRead a s) (legacyFrame_late hon hen hu ht)
  · exact State.lands_of_effect (exec_legacyWrite a v s) (legacyFrame_late hon hen hu ht)
  · exact State.lands_of_effect (exec_legacyWrite a v s) (legacyFrame_served hon hen hend (legacyWrite_unmapped h))
  · exact State.lands_of_effect (exec_legacyRead a s) (legacyFrame_served hon hen hend (legacyRead_unmapped h))
  · exact State.lands_of_effect (exec_legacyRead a s) (legacyFrame_served hon hen hend (legacyRead_failed h hr))
  · exact State.lands_of_effect (exec_legacyWrite a v s) (legacyFrame_served hon hen hend (legacyWrite_failed h hr))
  · exact State.lands_of_effect (exec_legacyRead a s) (legacyFrame_served hon hen hend (legacyRead_field h hr))
  · exact State.lands_of_effect (exec_legacyWrite a v s) (legacyFrame_served hon hen hend (legacyWrite_field h hr))

end Sys2Proof.Machine
end

section
/-!
PROOFS. The logs (R390, R391, R395 to R398): their messages, the retention store, and what the Foreman makes of them;
each command by what it finds.
-/
namespace Sys2Proof.Machine

-- ---- messages (R391, R395) --------------------------------------------------------------------------------------

/-- The message of the journal leaves, with up to 32 of the entries of `l`. -/
def Dev.sendJournal (e : Dev) (l : List JEntry) : Dev :=
  let f := { e with jr := { e.jr with outbox := l.drop 32, outFrom := e.clk.tick } }
  f.handOver (act f.regs pgSahf SAHF.LOGS.JOURNAL) 9 ((l.take 32).flatMap JEntry.bytes)

/-- The message of the trouble log leaves, with up to 64 of the entries of `l`. -/
def Dev.sendTrouble (e : Dev) (l : List TEntry) : Dev :=
  let f := { e with tr := { e.tr with outbox := l.drop 64, outFrom := e.clk.tick } }
  f.handOver (act f.regs pgSahf SAHF.LOGS.TROUBLE) 10 ((l.take 64).flatMap TEntry.bytes)

/-- Whether the trouble entries that wait leave at once. -/
def troubleDue (l : List TEntry) : Bool := 64 ≤ l.length || l.any fun e => e.severity == sevCritical

section
variable {d : Dev}

/-- With nothing waiting, or the host pages off, no journal message leaves. -/
theorem journalFlush_idle (h : d.jr.outbox = [] ∨ d.domainOn 2 = false) : journalFlush d = d :=
  if_pos (by rcases h with h | h <;> simp [h])

section
variable (hw : d.jr.outbox ≠ []) (hon : d.domainOn 2 = true)
include hw hon

/-- A full journal message leaves at once, a shorter one once FLUSH_US has passed. -/
theorem journalFlush_sends :
    journalFlush d = (if 32 ≤ d.jr.outbox.length then d
      else d.advanceTo (d.jr.outFrom + 625 * max (act d.regs pgJournal JOURNAL.FLUSH_US) 1)).sendJournal d.jr.outbox :=
  if_neg (by simp [hw, hon])

theorem journalFlush_full (h : 32 ≤ d.jr.outbox.length) : journalFlush d = d.sendJournal d.jr.outbox := by
  rw [journalFlush_sends hw hon, if_pos h]

theorem journalFlush_waits (h : d.jr.outbox.length < 32) :
    journalFlush d = (d.advanceTo
      (d.jr.outFrom + 625 * max (act d.regs pgJournal JOURNAL.FLUSH_US) 1)).sendJournal d.jr.outbox := by
  rw [journalFlush_sends hw hon, if_neg (Nat.not_le.mpr h)]

end

/-- With nothing waiting, or the host pages off, no trouble message leaves. -/
theorem troubleFlush_idle (h : d.tr.outbox = [] ∨ d.domainOn 2 = false) : troubleFlush d = d :=
  if_pos (by rcases h with h | h <;> simp [h])

/-- A full list, or one with a CRITICAL entry, leaves at once. -/
theorem troubleDue_of {l : List TEntry} (h : 64 ≤ l.length ∨ ∃ e ∈ l, e.severity = sevCritical) :
    troubleDue l = true := by
  simpa [troubleDue] using h

/-- Any other waits. -/
theorem troubleDue_not {l : List TEntry} (h : l.length < 64) (hc : ∀ e ∈ l, e.severity ≠ sevCritical) :
    troubleDue l ≠ true := by
  simpa [troubleDue] using And.intro h hc

section
variable (hw : d.tr.outbox ≠ []) (hon : d.domainOn 2 = true)
include hw hon

/-- A trouble message that is due leaves at once, another once FLUSH_US has passed. -/
theorem troubleFlush_sends :
    troubleFlush d = (if troubleDue d.tr.outbox then d
      else d.advanceTo (d.tr.outFrom + 625 * max (act d.regs pgTrouble TROUBLE.FLUSH_US) 1)).sendTrouble d.tr.outbox :=
  if_neg (by simp [hw, hon])

theorem troubleFlush_due (h : troubleDue d.tr.outbox = true) : troubleFlush d = d.sendTrouble d.tr.outbox := by
  rw [troubleFlush_sends hw hon, if_pos h]

theorem troubleFlush_waits (h : troubleDue d.tr.outbox ≠ true) :
    troubleFlush d = (d.advanceTo
      (d.tr.outFrom + 625 * max (act d.regs pgTrouble TROUBLE.FLUSH_US) 1)).sendTrouble d.tr.outbox := by
  rw [troubleFlush_sends hw hon, if_neg h]

end

-- ---- the retention store (R390) ---------------------------------------------------------------------------------

theorem retentionCopy_nil (h : d.jr.uncopied = []) : retentionCopy d = d := by simp only [retentionCopy, h]

/-- The oldest entry not yet copied reaches the store. -/
theorem retentionCopy_cons {e : JEntry} {rest : List JEntry} (h : d.jr.uncopied = e :: rest) :
    retentionCopy d = retain { d with jr := { d.jr with uncopied := rest } } [e] := by
  simp only [retentionCopy, h]

-- ---- the Foreman (R396 to R398) ---------------------------------------------------------------------------------

/-- While the Foreman does not run, no notification is served. -/
theorem notification_stopped (h : d.foremanRuns = false) : notification d = d := if_pos (by rw [h]; rfl)

/-- With none handled and none to take, none is served. -/
theorem notification_none (hr : d.foremanRuns = true) (h : (takeNotification d).tr.handling = []) :
    notification d = takeNotification d := by
  simp only [notification, hr, h, Bool.not_true, Bool.false_eq_true, if_false]

/-- The innermost notification is handled, the next taken, and lost ones reported. -/
theorem notification_handles (hr : d.foremanRuns = true) {e : TEntry} {rest : List TEntry}
    (h : (takeNotification d).tr.handling = e :: rest) :
    let n := takeNotification d
    notification d = reportLost (takeNotification (handle e { n with tr := { n.tr with handling := rest } })) := by
  simp only [notification, hr, h, Bool.not_true, Bool.false_eq_true, if_false]

/-- The Foreman looks whether the lines advise a calibration. -/
def Dev.calLook (d : Dev) : Dev :=
  adviseLine (adviseLine (d.onFm fun f => { f with calAt := some d.clk.tick }) .a) .b

/-- While the Foreman does not run, or without AUTO_CAL, it looks for no calibration. -/
theorem calAdvised_idle (h : d.foremanRuns = false ∨ act d.regs pgForeman FOREMAN.CONTROL.AUTO_CAL ≠ 1) :
    calAdvised d = d :=
  if_pos (by rcases h with h | h <;> simp [autoCal, h])

section
variable (hr : d.foremanRuns = true) (ha : act d.regs pgForeman FOREMAN.CONTROL.AUTO_CAL = 1)
include hr ha

/-- The first look comes at once. -/
theorem calAdvised_first (h : d.fm.calAt = none) : calAdvised d = d.calLook := by
  simp only [calAdvised, hr, autoCal, ha, h, beq_self_eq_true, Bool.not_true, Bool.or_self, Bool.false_eq_true, if_false]
  rfl

/-- The next one second after it. -/
theorem calAdvised_next {t : Nat} (h : d.fm.calAt = some t) : calAdvised d = (d.advanceTo (t + 625000000)).calLook := by
  simp only [calAdvised, hr, autoCal, ha, h, beq_self_eq_true, Bool.not_true, Bool.or_self, Bool.false_eq_true, if_false]
  rfl

end

theorem calRetry_nil (h : d.fm.retries = []) : calRetry d = d := by simp only [calRetry, h]

/-- While the Foreman does not run, no calibration is repeated. -/
theorem calRetry_stopped (h : d.foremanRuns = false) : calRetry d = d := by
  simp only [calRetry, h, Bool.not_false, if_true]
  split <;> rfl

section
variable {p t : Nat} {rest : List (Nat × Nat)} (h : d.fm.retries = (p, t) :: rest) (hr : d.foremanRuns = true)
  {e : Dev} (he : (d.advanceTo t).onFm (fun f => { f with retries := rest }) = e)
include h hr he

/-- A failed calibration is repeated when its time has come, with AUTO_CAL and the page on. -/
theorem calRetry_asks (ha : autoCal e = true) (hp : e.pageOn p = true) : calRetry d = onPage p calReqOn e := by
  subst he
  simp only [calRetry, h, hr, ha, hp, Bool.not_true, Bool.false_eq_true, if_false, Bool.and_self, if_true]

/-- Otherwise it is forgotten. -/
theorem calRetry_drops (hn : autoCal e = false ∨ e.pageOn p = false) : calRetry d = e := by
  subst he
  simp only [calRetry, h, hr, Bool.not_true, Bool.false_eq_true, if_false]
  exact if_neg (by rcases hn with hn | hn <;> simp [hn])

end
end

/-- Settles O54: each command of the logs by what it finds. -/
theorem logsFlushAndAreServed : Obligations.LogsFlushAndAreServed := by
  unfold Obligations.LogsFlushAndAreServed
  refine ⟨fun s => ⟨fun h => ?_, fun hw hon => ⟨fun h => ?_, fun h => ?_⟩, fun h => ?_,
      fun hw hon => ⟨fun h => ?_, fun h hc => ?_⟩⟩,
    fun s => ⟨fun h => ?_, fun e rest h => ?_, fun h => ⟨?_, ?_, ?_⟩, fun hr => ⟨fun h => ?_, fun e rest h => ?_⟩,
      fun h => ?_, fun hr ha => ⟨fun h => ?_, fun t h => ?_⟩, fun h => ?_,
      fun p t rest h hr => ⟨fun ha hp => ?_, fun hn => ?_⟩⟩⟩
  · exact State.lands_of_effect (exec_journalFlush s) (journalFlush_idle h)
  · exact State.lands_of_effect (exec_journalFlush s) (journalFlush_full hw hon h)
  · exact State.lands_of_effect (exec_journalFlush s) (journalFlush_waits hw hon h)
  · exact State.lands_of_effect (exec_troubleFlush s) (troubleFlush_idle h)
  · exact State.lands_of_effect (exec_troubleFlush s) (troubleFlush_due hw hon (troubleDue_of h))
  · exact State.lands_of_effect (exec_troubleFlush s) (troubleFlush_waits hw hon (troubleDue_not h hc))
  · exact State.lands_of_effect (exec_retentionCopy s) (retentionCopy_nil h)
  · exact State.lands_of_effect (exec_retentionCopy s) (retentionCopy_cons h)
  · exact State.lands_of_effect (exec_notification s) (notification_stopped h)
  · exact State.lands_of_effect (exec_calAdvised s) (calAdvised_idle (.inl h))
  · exact State.lands_of_effect (exec_calRetry s) (calRetry_stopped h)
  · exact State.lands_of_effect (exec_notification s) (notification_none hr h)
  · exact State.lands_of_effect (exec_notification s) (notification_handles hr h)
  · exact State.lands_of_effect (exec_calAdvised s) (calAdvised_idle (.inr h))
  · exact State.lands_of_effect (exec_calAdvised s) (calAdvised_first hr ha h)
  · exact State.lands_of_effect (exec_calAdvised s) (calAdvised_next hr ha h)
  · exact State.lands_of_effect (exec_calRetry s) (calRetry_nil h)
  · exact State.lands_of_effect (exec_calRetry s) (calRetry_asks h hr rfl ha hp)
  · exact State.lands_of_effect (exec_calRetry s) (calRetry_drops h hr rfl hn)

end Sys2Proof.Machine
end

section
/-!
PROOFS. Reels (R400 to R402, R405, R406): recording and replay, each command by what it finds.
-/
namespace Sys2Proof.Machine

-- ---- the start of a recording (R399, R400) ----------------------------------------------------------------------

/-- The shot area is laid out by the first line that records. -/
def Dev.reelLaidOut (d : Dev) (x : Line) : Dev :=
  if (d.reel.line x.other).running then d else { d with reel := { d.reel with shotOff := shotOffset d, ptr := 0 } }

/-- A line whose recording has begun. -/
def Dev.reelBegun (d : Dev) (x : Line) : Dev :=
  setReelState ((d.reelLaidOut x).onReel x fun l => { l with armed := false, running := true }) x 2

/-- The entry of a slot that carries no samples. -/
def Dev.slotEntry (d : Dev) (x : Line) (kind : Nat) (sp : SlotSpan) : Dev :=
  appendEntry d x (entryBytes sp.slot.shot (spanWord d x sp) kind [])

section
variable {d : Dev} {x : Line}

/-- With REEL off, not armed, before the first boundary, or with the end come, no recording starts. -/
theorem reelStart_idle (h : d.domainOn 7 = false ∨ (d.reel.line x).armed = false ∨ (d.reel.line x).first = none ∨
    (d.reel.line x).stop.isSome = true) : reelStart x d = d := by
  refine if_neg ?_
  rcases h with h | h | h | h
  · simp [h]
  · simp [h]
  · simp [h]
  · simp [Option.isSome_iff_ne_none.mp h]

section
variable (hon : d.domainOn 7 = true) (harm : (d.reel.line x).armed = true) (hfirst : (d.reel.line x).first.isSome = true)
  (hstop : (d.reel.line x).stop = none)
include hon harm hfirst hstop

/-- A recording without a lead starts empty. -/
theorem reelStart_plain (h : leadSpan (d.reelBegun x) x = none) : reelStart x d = showUsed (d.reelBegun x) := by
  unfold Dev.reelBegun Dev.reelLaidOut at h ⊢
  simp only [reelStart, hon, harm, hfirst, hstop, Option.isNone_none, Bool.and_self, if_true, h]

/-- One with a lead starts with its entry. -/
theorem reelStart_lead {sp : SlotSpan} (h : leadSpan (d.reelBegun x) x = some sp) :
    reelStart x d = (d.reelBegun x).slotEntry x 2 sp := by
  unfold Dev.reelBegun Dev.reelLaidOut at h ⊢
  unfold Dev.slotEntry
  simp only [reelStart, hon, harm, hfirst, hstop, Option.isNone_none, Bool.and_self, if_true, h]

end

-- ---- recorded shots (R402, R403) --------------------------------------------------------------------------------

/-- The slot that a line records next, if it has opened. -/
def nextSpan (d : Dev) (x : Line) : Option SlotSpan :=
  (d.line x).lane.spans.find? fun sp => sp.slot.shot.seq == (d.reel.line x).nextSeq

/-- A shot recorded after its window has closed. -/
def Dev.shotRecorded (d : Dev) (x : Line) (samples : Lanes) (sp : SlotSpan) (w : Nat) : Dev :=
  let l := d.reel.line x
  let e := d.advanceTo ((sp.slot.shot.tick : Int) + winStart l.cfg x + (winCycles l.cfg x : Int)).toNat
  let full := hasSamples x sp.slot
  let e := appendEntry e x (entryBytes sp.slot.shot w (bit full) (if full then windowOf e x sp.slot samples else []))
  let e := e.onReel x fun l => { l with shots := l.shots + bit full, nextSeq := seqAdd l.nextSeq 1 }
  e.setLiv (pgReel x) REEL.SHOTS (e.reel.line x).shots

variable {samples : Lanes}

/-- Before the next slot has opened no shot is recorded. -/
theorem reelShot_none (h : nextSpan d x = none) : reelShot x samples d = d := by
  unfold nextSpan at h
  simp only [reelShot, h]

section
variable {sp : SlotSpan} (h : nextSpan d x = some sp)
include h

/-- Before its word has passed, or while the line does not record, none is recorded. -/
theorem reelShot_idle (hi : sp.word = none ∨ (d.reel.line x).running = false ∨ (d.reel.line x).stop.isSome = true ∨
    d.domainOn 7 = false) : reelShot x samples d = d := by
  unfold nextSpan at h
  simp only [reelShot, h]
  split
  · rfl
  · rename_i w hw
    refine if_pos ?_
    rcases hi with hi | hi | hi | hi
    · rw [hi] at hw
      nomatch hw
    · simp [hi]
    · simp [hi]
    · simp [hi]

variable {w : Nat} (hw : sp.word = some w) (hrun : (d.reel.line x).running = true) (hstop : (d.reel.line x).stop = none)
  (hon : d.domainOn 7 = true)
include hw hrun hstop hon

/-- A shot without room ends the recording. -/
theorem reelShot_full (hroom : reelRoom d x = false) : reelShot x samples d = endReel d x 2 := by
  unfold nextSpan at h
  simp only [reelShot, h, hw, hrun, hstop, hon, hroom, Option.isSome_none, Bool.not_true, Bool.not_false, Bool.or_self,
    Bool.false_eq_true, if_false, if_true]

/-- One with room is recorded. -/
theorem reelShot_records (hroom : reelRoom d x = true) : reelShot x samples d = d.shotRecorded x samples sp w := by
  unfold nextSpan at h
  simp only [reelShot, h, hw, hrun, hstop, hon, hroom, Option.isSome_none, Bool.not_true, Bool.or_self,
    Bool.false_eq_true, if_false]
  rfl

end

-- ---- the end of a recording (R403) ------------------------------------------------------------------------------

/-- Whether a line that records has its memory port more than 1 MiB behind. -/
def ReelBehind (d : Dev) (x : Line) (behind : Nat) : Prop :=
  (d.reel.line x).running = true ∧ (d.reel.line x).stop = none ∧ d.domainOn 7 = true ∧ 2 ^ 20 < behind

variable {behind : Nat}

theorem reelBehind_iff : ReelBehind d x behind ↔
    ((d.reel.line x).running && (d.reel.line x).stop.isNone && d.domainOn 7 && decide (2 ^ 20 < behind)) = true := by
  simp only [ReelBehind, Bool.and_eq_true, Option.isNone_iff_eq_none, decide_eq_true_eq, and_assoc]

/-- A port that keeps up ends no recording. -/
theorem reelEnd_intime (h : ¬ ReelBehind d x behind) : reelEnd x behind d = closeReel x d :=
  congrArg (closeReel x) (if_neg (mt reelBehind_iff.mpr h))

/-- One that is behind ends it, and OVERRUN counts. -/
theorem reelEnd_overrun (h : ReelBehind d x behind) :
    reelEnd x behind d = closeReel x ((endReel d x 4).event (pgReel x) 5) :=
  congrArg (closeReel x) (if_pos (reelBehind_iff.mp h))

/-- The reel is complete when no line records any more. -/
def Dev.reelLeft (e : Dev) (x : Line) : Dev := if (e.reel.line x.other).active then e else finishReel e

/-- The end of a recording shows its cause, and counts. -/
def Dev.endShown (d : Dev) (x : Line) (c : Nat) : Dev := (d.setLiv (pgReel x) REEL.END_CAUSE c).event (pgReel x) 4

/-- Without an end, a recording, or REEL, none is closed. -/
theorem closeReel_idle (h : (d.reel.line x).stop = none ∨ (d.reel.line x).active = false ∨ d.domainOn 7 = false) :
    closeReel x d = d := by
  cases hc : (d.reel.line x).stop with
  | none => simp only [closeReel, hc]
  | some c =>
    simp only [closeReel, hc]
    refine if_pos ?_
    rcases h with h | h | h
    · rw [h] at hc
      nomatch hc
    · simp [h]
    · simp [h]

section
variable {c : Nat} (hstop : (d.reel.line x).stop = some c) (hact : (d.reel.line x).active = true)
  (hon : d.domainOn 7 = true)
include hstop hact hon

/-- A recording whose tail has not passed stays open. -/
theorem closeReel_waits (hrun : (d.reel.line x).running = true) (ht : tailReady d x = false) : closeReel x d = d := by
  simp only [closeReel, hstop, hact, hon, hrun, ht, Bool.not_true, Bool.not_false, Bool.or_self, Bool.and_self,
    Bool.false_eq_true, if_false, if_true]

/-- One whose tail has passed is closed behind its tail entries. -/
theorem closeReel_records (hrun : (d.reel.line x).running = true) (ht : tailReady d x = true) :
    closeReel x d = (setReelState
      ((((tailSpans d x).foldl (fun e sp => e.slotEntry x 4 sp) d).endShown x c).onReel x
        fun l => { l with running := false, ended := true }) x 3).reelLeft x := by
  simp only [closeReel, hstop, hact, hon, hrun, ht, Bool.not_true, Bool.or_self, Bool.and_false, Bool.false_eq_true,
    if_false, if_true]
  rfl

/-- A line that waited for its boundary gives up its place. -/
theorem closeReel_drops (hrun : (d.reel.line x).running = false) :
    closeReel x d = (dropLine (d.endShown x c) x).reelLeft x := by
  simp only [closeReel, hstop, hact, hon, hrun, Bool.not_true, Bool.or_self, Bool.false_and, Bool.false_eq_true,
    if_false]
  rfl

end

-- ---- replay (R405, R406) ----------------------------------------------------------------------------------------

/-- The tick of the shot entry whose first line is `h`. -/
def entryTick (h : List Byte) : Nat := (ShotRec.ofBytes h).tick

/-- A shot entry, its first line `h`, taken to its line with its samples, if they are good. -/
def Dev.entryFed (f : Dev) (h : List Byte) (w : Option (List Byte)) : Dev :=
  let r := ShotRec.ofBytes h
  let kind := numAt h 36 1
  let size := 64 + (if bitOf kind 0 then ceilDiv (numAt h 40 4) 64 * 64 else 0)
  let g := feedShot f (Line.ofUnit r.line) r (numAt h 32 4) kind w
  { g with reel := { g.reel with next := g.reel.next + size, left := g.reel.left - size } }

variable {faults : List (Nat × Ecc)} {o n : Nat}

/-- A read of good lines of the reel gives their bytes. -/
theorem reelRead_ok (h : ((d.memReadWith (reelBase d + o) n faults).2.1 == .ok) = true) :
    let r := d.memReadWith (reelBase d + o) n faults
    reelRead faults d o n = (r.1, some r.2.2.2) :=
  congrArg (Prod.mk _) (if_pos (eq_of_beq h))

/-- A read that meets a bad line gives none. -/
theorem reelRead_bad (h : ((d.memReadWith (reelBase d + o) n faults).2.1 == .ok) = false) :
    reelRead faults d o n = ((d.memReadWith (reelBase d + o) n faults).1, none) :=
  congrArg (Prod.mk _) (if_neg (ne_of_beq_false h))

section
variable {h : List Byte}

/-- An entry without samples has no block. -/
theorem sampleBlock_none (hk : bitOf (numAt h 36 1) 0 = false) : sampleBlock faults d h = (d, none) :=
  if_neg (ne_true_of_eq_false hk)

variable (hk : bitOf (numAt h 36 1) 0 = true)
include hk

/-- A block is judged once it is read. -/
theorem sampleBlock_good {e : Dev} {b : List Byte} (hr : reelRead faults d (d.reel.next + 64) (numAt h 40 4) = (e, some b))
    (hcrc : (crc32c b).toNat = numAt h 44 4) : sampleBlock faults d h = (e, some b) := by
  simp only [sampleBlock, hk, hr, hcrc, if_true]

theorem sampleBlock_crc {e : Dev} {b : List Byte} (hr : reelRead faults d (d.reel.next + 64) (numAt h 40 4) = (e, some b))
    (hcrc : (crc32c b).toNat ≠ numAt h 44 4) : sampleBlock faults d h = (e, none) := by
  simp only [sampleBlock, hk, hr, hcrc, if_true, if_false]

theorem sampleBlock_unread {e : Dev} (hr : reelRead faults d (d.reel.next + 64) (numAt h 40 4) = (e, none)) :
    sampleBlock faults d h = (e, none) := by
  simp only [sampleBlock, hk, hr, if_true]

/-- A block that cannot be read, or whose CRC does not hold, is none. -/
theorem sampleBlock_bad
    (hbad : ((d.memReadWith (reelBase d + (d.reel.next + 64)) (numAt h 40 4) faults).2.1 == .ok) = false ∨
      (crc32c (d.memReadWith (reelBase d + (d.reel.next + 64)) (numAt h 40 4) faults).2.2.2).toNat ≠ numAt h 44 4) :
    sampleBlock faults d h =
      ((d.memReadWith (reelBase d + (d.reel.next + 64)) (numAt h 40 4) faults).1, none) := by
  by_cases hr : ((d.memReadWith (reelBase d + (d.reel.next + 64)) (numAt h 40 4) faults).2.1 == .ok) = true
  · exact sampleBlock_crc hk (reelRead_ok hr) (hbad.resolve_left (ne_false_of_eq_true hr))
  · exact sampleBlock_unread hk (reelRead_bad (eq_false_of_ne_true hr))

end

/-- Outside a playing reel, with less than an entry left, or outside Replay, nothing is fed. -/
theorem reelFeed_idle (h : d.reel.playing = false ∨ d.reel.left < 64 ∨ d.pwr.mode ≠ 6) : reelFeed faults d = d :=
  if_pos (by rcases h with h | h | h <;> simp [h])

section
variable (hplay : d.reel.playing = true) (hleft : 64 ≤ d.reel.left) (hmode : d.pwr.mode = 6)
include hplay hleft hmode

/-- An entry that cannot be read ends the feed. -/
theorem reelFeed_unread {e : Dev} (hr : reelRead faults d d.reel.next 64 = (e, none)) :
    reelFeed faults d = { e with reel := { e.reel with left := 0, bad := true } } := by
  simp only [reelFeed, hplay, Nat.not_lt.mpr hleft, hmode, hr, decide_false, bne_self_eq_false, Bool.not_true,
    Bool.or_self, Bool.false_eq_true, if_false]

/-- One that is read is fed at its tick, with its samples. -/
theorem reelFeed_feeds {e f : Dev} {h : List Byte} {w : Option (List Byte)}
    (hr : reelRead faults d d.reel.next 64 = (e, some h))
    (hb : sampleBlock faults (feedTime e (entryTick h)) h = (f, w)) : reelFeed faults d = f.entryFed h w := by
  unfold entryTick at hb
  simp only [reelFeed, hplay, Nat.not_lt.mpr hleft, hmode, hr, hb, decide_false, bne_self_eq_false, Bool.not_true,
    Bool.or_self, Bool.false_eq_true, if_false]
  rfl

end

/-- Outside a playing reel, or with an entry left, the replay does not end. -/
theorem replayEnd_idle (h : d.reel.playing = false ∨ 64 ≤ d.reel.left) : replayEnd d = d :=
  if_neg (by rcases h with h | h <;> simp [h])

/-- Once the entries are through, both lines are closed. -/
theorem replayEnd_closes (hplay : d.reel.playing = true) (hleft : d.reel.left < 64) :
    let e := closeReplay (closeReplay d .a) .b
    replayEnd d = { e with reel := { e.reel with playing := false } } :=
  if_pos (by simp [hplay, hleft])

end

/-- Settles O55: each command of recording and replay by what it finds. -/
theorem reelsRecordAndReplay : Obligations.ReelsRecordAndReplay := by
  unfold Obligations.ReelsRecordAndReplay
  refine ⟨fun s x samples behind => ⟨fun h => ?_, fun hon harm hfirst hstop => ⟨fun h => ?_, fun sp h => ?_⟩,
      fun h => ?_, fun sp h => ⟨fun hi => ?_, fun w hw hrun hstop hon => ⟨fun hroom => ?_, fun hroom => ?_⟩⟩,
      ⟨fun h => ?_, fun h => ?_⟩,
      fun f => ⟨closeReel_idle, fun c hstop hact hon =>
        ⟨closeReel_waits hstop hact hon, closeReel_records hstop hact hon, closeReel_drops hstop hact hon⟩⟩⟩,
    fun s => ⟨fun h => ?_, fun hplay hleft hmode => ⟨fun hr => ?_, fun hr => ⟨fun hk => ?_,
      fun hk => ⟨fun hb hcrc => ?_, fun hbad => ?_⟩⟩⟩, fun h => ?_, fun hplay hleft => ?_⟩⟩
  · exact State.lands_of_effect (exec_reelStart x s) (reelStart_idle h)
  · exact State.lands_of_effect (exec_reelStart x s) (reelStart_plain hon harm hfirst hstop h)
  · exact State.lands_of_effect (exec_reelStart x s) (reelStart_lead hon harm hfirst hstop h)
  · exact State.lands_of_effect (exec_reelShot x samples s) (reelShot_none h)
  · exact State.lands_of_effect (exec_reelShot x samples s) (reelShot_idle h hi)
  · exact State.lands_of_effect (exec_reelShot x samples s) (reelShot_full h hw hrun hstop hon hroom)
  · exact State.lands_of_effect (exec_reelShot x samples s) (reelShot_records h hw hrun hstop hon hroom)
  · exact State.lands_of_effect (exec_reelEnd ⟨x, behind⟩ s) (reelEnd_intime h)
  · exact State.lands_of_effect (exec_reelEnd ⟨x, behind⟩ s) (reelEnd_overrun h)
  · exact State.lands_of_effect (exec_reelFeed s) (reelFeed_idle h)
  · exact State.lands_of_effect (exec_reelFeed s) (reelFeed_unread hplay hleft hmode (reelRead_bad hr))
  · exact State.lands_of_effect (exec_reelFeed s)
      (reelFeed_feeds hplay hleft hmode (reelRead_ok hr) (sampleBlock_none hk))
  · exact State.lands_of_effect (exec_reelFeed s)
      (reelFeed_feeds hplay hleft hmode (reelRead_ok hr) (sampleBlock_good hk (reelRead_ok hb) hcrc))
  · exact State.lands_of_effect (exec_reelFeed s)
      (reelFeed_feeds hplay hleft hmode (reelRead_ok hr) (sampleBlock_bad hk hbad))
  · exact State.lands_of_effect (exec_replayEnd s) (replayEnd_idle h)
  · exact State.lands_of_effect (exec_replayEnd s) (replayEnd_closes hplay hleft)

end Sys2Proof.Machine
end

section
/-!
PROOFS. The reset state (R418, R436, R438, R165): dark, quiet and in canonical form.
-/
namespace Sys2Proof.Machine

/-- Only AON is powered. -/
theorem State.reset_domainOn (k : Nat) : State.reset.dev.domainOn k = decide (k = 0) := by
  cases k with
  | zero => rfl
  | succ n =>
    have hdiv : 1 / 2 ^ (n + 1) = 0 := Nat.div_eq_of_lt (Nat.one_lt_two_pow n.succ_ne_zero)
    show bitOf 1 (n + 1) = false
    rw [bitOf, hdiv]
    rfl

/-- No cell is lit. -/
theorem State.reset_unlit (x : Line) : (State.reset.dev.line x).cells.lit = false := by
  cases x <;> rfl

/-- No page raises its interrupt. -/
theorem State.reset_irqLevels : State.reset.dev.irqLevels.all (fun b => !b) = true := by
  decide +kernel

/-- The fields of AON that say how the device wakes and returns. -/
theorem State.reset_aon :
    liv State.reset.dev.aon pgAon AON.WAKE.MODE = 1 ∧ liv State.reset.dev.aon pgAon AON.RETURN_S = 3600 ∧
    liv State.reset.dev.aon pgAon AON.WAKE_EVERY = 0 ∧ liv State.reset.dev.aon pgAon AON.ILK_HOLD = 0 := by
  decide +kernel

/-- The fields of AON for each rail. -/
theorem State.reset_rail (k : Fin 6) : liv State.reset.dev.aon pgAon (AON.RAIL.PG_USE k.val) = 1 ∧
    liv State.reset.dev.aon pgAon (AON.RAIL.GAP k.val) = 4 ∧ liv State.reset.dev.aon pgAon (AON.RAIL.WAIT k.val) = 328 := by
  decide +kernel +revert

/-- The fields of GAUGE. -/
theorem State.reset_gauge (x : Line) : act State.reset.dev.regs (pgGauge x) GAUGE.COUNT = 0 ∧
    act State.reset.dev.regs (pgGauge x) GAUGE.WAVELENGTH = 0x17A728 ∧
    act State.reset.dev.regs (pgGauge x) GAUGE.XI = 0xC7AE ∧
    act State.reset.dev.regs (pgGauge x) GAUGE.PHASE_INDEX = 0x171AA ∧
    act State.reset.dev.regs (pgGauge x) GAUGE.GAUGE_LEN = 31 := by
  cases x
  · decide +kernel
  · decide +kernel

/-- Settles O6, field by field. -/
theorem resetIsDark : Obligations.ResetIsDark := by
  unfold Obligations.ResetIsDark
  obtain ⟨-, -, hregs, haon⟩ := State.reset_memory_wf
  obtain ⟨hmode, hreturn, hevery, hhold⟩ := State.reset_aon
  exact ⟨rfl, ⟨Bool.noConfusion, Bool.noConfusion⟩, rfl, State.reset_domainOn, State.reset_irqLevels,
    State.reset_unlit, hregs, haon, ⟨hmode, hreturn, hevery, hhold, State.reset_rail⟩, State.reset_gauge⟩

end Sys2Proof.Machine
end

section
/-!
PROOFS. The rails (R419, R446): RAIL_STEP, RAIL_FAIL and POWER_GOOD_LOSS by what they find.
-/
namespace Sys2Proof.Machine

/-- The rail that comes up, asserted at the next slow edge if it is not yet. -/
def Dev.railAsserted (d : Dev) (k : Nat) : Dev :=
  if d.aonSt.railAt.isSome then d else assertRail (d.advanceSlow (d.slow + 1)) k

/-- The slow edge at which it was. -/
def Dev.railSince (e : Dev) : Nat := e.aonSt.railAt.getD e.slow

/-- The slow edge at which the wait for its power-good is over. -/
def Dev.railLimit (e : Dev) (k : Nat) : Nat := e.railSince + aonFld e (AON.RAIL.WAIT k)

/-- A rail named as failed. -/
def Dev.railNamed (e : Dev) (k : Nat) : Dev := (e.setAon AON.WAKE_RESULT.RAIL_FAIL (k + 1)).event pgAon 5

section
variable {d : Dev} {k last : Nat} {good : Bool}

/-- Where PWR_GOOD is not used, a rail is good once its wait is over. -/
theorem railStep_unused (h : aonFld (d.railAsserted k) (AON.RAIL.PG_USE k) = 0) :
    railStep k good last d = railDone ((d.railAsserted k).advanceSlow ((d.railAsserted k).railLimit k)) k last :=
  if_pos h

section
variable (huse : aonFld (d.railAsserted k) (AON.RAIL.PG_USE k) ≠ 0)
include huse

/-- Where it is used, a rail is good once PWR_GOOD is seen within the wait. -/
theorem railStep_good
    (h : max (d.railAsserted k).slow ((d.railAsserted k).railSince + 1) ≤ (d.railAsserted k).railLimit k) :
    railStep k true last d = railDone ((d.railAsserted k).advanceSlow ((d.railAsserted k).railSince + 1)) k last :=
  (if_neg huse).trans (if_pos ⟨rfl, h⟩)

/-- A rail whose PWR_GOOD is not seen, or after the wait, stays coming up. -/
theorem railStep_waits (h : good = true →
      (d.railAsserted k).railLimit k < max (d.railAsserted k).slow ((d.railAsserted k).railSince + 1)) :
    railStep k good last d = d.railAsserted k :=
  (if_neg huse).trans (if_neg fun hg => absurd hg.2 (Nat.not_le.mpr (h hg.1)))

end

/-- With no rail coming up none fails. -/
theorem railFail_none (h : d.aonSt.goal = none ∨ d.aonSt.railAt = none) : railFail d = d := by
  unfold railFail
  split
  · rename_i hg ht
    rcases h with h | h
    · exact nomatch hg.symm.trans h
    · exact nomatch ht.symm.trans h
  · rfl

section
variable {t : Nat} (hg : d.aonSt.goal = some last) (ht : d.aonSt.railAt = some t)
include hg ht

/-- Where PWR_GOOD is not used, none fails. -/
theorem railFail_unused (huse : aonFld d (AON.RAIL.PG_USE d.aonSt.rail) = 0) : railFail d = d := by
  simp only [railFail, hg, ht, huse, if_true]

/-- Else the rail coming up takes the device to Hibernate at the end of its wait, and is named. -/
theorem railFail_named (huse : aonFld d (AON.RAIL.PG_USE d.aonSt.rail) ≠ 0) :
    railFail d =
      (toHibernate (d.advanceSlow (t + aonFld d (AON.RAIL.WAIT d.aonSt.rail)))).railNamed d.aonSt.rail := by
  simp only [railFail, hg, ht, huse, if_false]
  rfl

end

/-- A rail that is off, while rails come up, or whose PWR_GOOD is not used, loses none. -/
theorem powerGoodLoss_idle (h : d.aonSt.rails.getD k false = false ∨ d.aonSt.goal.isSome = true ∨
    aonFld d (AON.RAIL.PG_USE k) ≠ 1) : powerGoodLoss k d = d := by
  refine if_neg ?_
  rcases h with h | h | h
  · simp only [h, Bool.false_and, Bool.false_eq_true, not_false_eq_true]
  · simp [Option.isSome_iff_ne_none.mp h]
  · simp [h]

section
variable (hrail : d.aonSt.rails.getD k false = true) (hg : d.aonSt.goal = none)
  (huse : aonFld d (AON.RAIL.PG_USE k) = 1)
include hrail hg huse

/-- A power-good that goes is judged. -/
theorem powerGoodLoss_judged :
    (d.aonSt.rails.getD k false && d.aonSt.goal.isNone && aonFld d (AON.RAIL.PG_USE k) == 1) = true := by
  rw [hrail, hg, huse]
  rfl

/-- That of a rail of CTRL takes the device to Hibernate. -/
theorem powerGoodLoss_ctrl (hc : (domainRails 1).contains k = true) :
    powerGoodLoss k d = (toHibernate d).railNamed k :=
  (if_pos (powerGoodLoss_judged hrail hg huse)).trans (congrArg (Dev.railNamed · k) (if_pos hc))

/-- That of another rail switches off the domains that draw it. -/
theorem powerGoodLoss_domains (hc : (domainRails 1).contains k = false) :
    powerGoodLoss k d =
      (domainsDown d (switchOrder.filter fun c => (domainRails c).contains k)).railNamed k :=
  (if_pos (powerGoodLoss_judged hrail hg huse)).trans
    (congrArg (Dev.railNamed · k) (if_neg (ne_true_of_eq_false hc)))

end
end

/-- Settles O56: each command of the rails by what it finds. -/
theorem railsComeUpInOrder : Obligations.RailsComeUpInOrder := by
  unfold Obligations.RailsComeUpInOrder
  intro s k good
  have hfail := exec_railFail s
  have hloss := exec_powerGoodLoss k s
  refine ⟨fun hg => ⟨?_, ?_⟩, fun ht => ?_, fun last hg hk => ⟨fun huse => ?_, fun huse h => ?_, fun huse h => ?_,
    fun huse => ?_⟩, fun last t hg ht => ⟨fun huse => ?_, fun huse => ?_⟩, fun h => ?_,
    fun hrail hg huse => ⟨fun hc => ?_, fun hc => ?_⟩⟩
  · exact exec_railStep_idle k good s hg
  · exact State.lands_of_effect hfail (railFail_none (.inl hg))
  · exact State.lands_of_effect hfail (railFail_none (.inr ht))
  · exact State.lands_of_effect (exec_railStep_turn k good s hg hk) (railStep_unused huse)
  · exact State.lands_of_effect (exec_railStep_turn k true s hg hk) (railStep_good huse h)
  · exact State.lands_of_effect (exec_railStep_turn k true s hg hk) (railStep_waits huse fun _ => h)
  · exact State.lands_of_effect (exec_railStep_turn k false s hg hk) (railStep_waits huse fun hg => nomatch hg)
  · exact State.lands_of_effect hfail (railFail_unused hg ht huse)
  · exact State.lands_of_effect hfail (railFail_named hg ht huse)
  · exact State.lands_of_effect hloss (powerGoodLoss_idle h)
  · exact State.lands_of_effect hloss (powerGoodLoss_ctrl hrail hg huse hc)
  · exact State.lands_of_effect hloss (powerGoodLoss_domains hrail hg huse hc)

end Sys2Proof.Machine
end

section
/-!
PROOFS. Boot and resets (R436, R437, R441, R446, R390, R428, R429): each command by what it finds.
-/
namespace Sys2Proof.Machine

section
variable {d : Dev}

-- ---- boot (R437) ------------------------------------------------------------------------------------------------

/-- A cold start ends once REFCLK_IN is there. -/
theorem boot_cold (h : d.aonSt.booting = 1) (hr : d.pins.refPresent = true) : boot d = bootCold d :=
  (if_pos h).trans (if_pos hr)

theorem boot_waits (h : d.aonSt.booting = 1) (hr : d.pins.refPresent = false) : boot d = d :=
  (if_pos h).trans (if_neg (ne_true_of_eq_false hr))

/-- A warm one ends. -/
theorem boot_warm (h : d.aonSt.booting = 2) : boot d = bootWarm d := by
  simp only [boot, h, OfNat.ofNat_ne_one, if_false, if_true]

/-- A device that is not starting has no boot. -/
theorem boot_idle (h1 : d.aonSt.booting ≠ 1) (h2 : d.aonSt.booting ≠ 2) : boot d = d :=
  (if_neg h1).trans (if_neg h2)

/-- Outside Up 0→1 no REFCLK_IN is missed. -/
theorem refclkTimeout_idle (hg : d.aonSt.goal ≠ some 3) (hb : d.aonSt.booting ≠ 1) : refclkTimeout d = d :=
  if_pos (by simp [hg, hb])

/-- In it, REFCLK_IN missing for one second takes the device to Hibernate, with code 15. -/
theorem refclkTimeout_named (h : d.aonSt.goal = some 3 ∨ d.aonSt.booting = 1) :
    let e := toHibernate (d.advanceSlow (d.aonSt.upAt + 32768))
    refclkTimeout d =
      ({ e with pins := { e.pins with refPresent := false } }.setAon AON.WAKE_RESULT.RAIL_FAIL 15).event pgAon 5 :=
  if_neg (by rcases h with h | h <;> simp [h])

-- ---- resets (R436, R446) ----------------------------------------------------------------------------------------

/-- Without V_AON, or in test mode, RESET_n does nothing. -/
theorem resetN_idle (h : d.aonSt.vaon = false ∨ d.aonSt.test = true) : resetN d = d :=
  if_pos (by rcases h with h | h <;> simp [h])

section
variable (hv : d.aonSt.vaon = true) (ht : d.aonSt.test = false) {e : Dev} (he : d.advanceSlow (d.slow + 2) = e)
include hv ht he

/-- With CTRL on, RESET_n resets the core. -/
theorem resetN_warm (hon : e.domainOn 1 = true) :
    resetN d = (warmReset e).setAon AON.WAKE_RESULT.SOURCE 6 := by
  subst he
  exact (if_neg (by rw [hv, ht]; decide)).trans (if_pos hon)

/-- In Hibernate it starts the device. -/
theorem resetN_wakes (hoff : e.domainOn 1 = false) (hg : e.aonSt.goal = none) (hb : e.aonSt.booting = 0) :
    resetN d = resetCause (startWake e 6) 3 := by
  subst he
  exact (if_neg (by rw [hv, ht]; decide)).trans
    ((if_neg (ne_true_of_eq_false hoff)).trans (if_neg (by rw [hg, hb]; decide)))

/-- A device that is starting goes on. -/
theorem resetN_starting (hoff : e.domainOn 1 = false) (h : e.aonSt.goal.isSome = true ∨ e.aonSt.booting ≠ 0) :
    resetN d = e := by
  subst he
  exact (if_neg (by rw [hv, ht]; decide)).trans
    ((if_neg (ne_true_of_eq_false hoff)).trans (if_pos (by rw [Bool.or_eq_true, bne_iff_ne]; exact h)))

end

/-- PWR.RESET with its key resets the core. -/
theorem pwrReset_key : pwrReset (0x5753 : BitVec 16).toNat true d = warmReset d := if_pos rfl

/-- With another it does nothing. -/
theorem pwrReset_other {key : BitVec 16} (h : key ≠ 0x5753) : pwrReset key.toNat true d = d := by
  have hk : key.toNat ≠ 0x5753 := fun hk => h (BitVec.eq_of_toNat_eq hk)
  exact if_neg (by rw [Bool.true_and, beq_iff_eq]; exact hk)

/-- V_AON of a device that is READY starts nothing. -/
theorem vaonApplied_ready (h : bitOf (rd d.aon (pageBase pgAon + 0x010)).toNat 0 = true) : vaonApplied d = d :=
  if_pos h

/-- Else AON is READY after 64 slow edges, and runs a wake. -/
theorem vaonApplied_starts (h : bitOf (rd d.aon (pageBase pgAon + 0x010)).toNat 0 = false) :
    let e := (unpowered d).advanceSlow 64
    vaonApplied d = resetCause (startWake { e with aon := wr e.aon (pageBase pgAon + 0x010) 1 } 5) 1 :=
  if_neg (ne_true_of_eq_false h)

-- ---- TEST_MODE and the slow clock (R441, R428) ------------------------------------------------------------------

/-- Without V_AON TEST_MODE does nothing. -/
theorem testMode_off {high : Bool} (h : d.aonSt.vaon = false) : testMode high d = d := if_pos (by rw [h]; rfl)

/-- TEST_MODE high switches every domain off. -/
theorem testMode_high (h : d.aonSt.vaon = true) : testMode true d =
    toHibernate ((d.advanceSlow (d.slow + 1)).onAon fun a => { a with test := true, held := [] }) :=
  (if_neg (by rw [h]; decide)).trans (if_pos rfl)

/-- TEST_MODE low ends it. -/
theorem testMode_low (h : d.aonSt.vaon = true) : testMode false d = d.onAon fun a => { a with test := false } :=
  (if_neg (by rw [h]; decide)).trans (if_neg Bool.false_ne_true)

theorem slowFallback_off (h : d.aonSt.vaon = false) : slowFallback d = d := if_neg (ne_true_of_eq_false h)

/-- A slow clock gone over is shown. -/
theorem slowFallback_on (h : d.aonSt.vaon = true) : slowFallback d = d.setAon AON.WAKE_RESULT.SLOW_FALLBACK 1 :=
  if_pos h

end

/-- Settles O57: each command of boot and reset by what it finds. -/
theorem resetsAndBoot : Obligations.ResetsAndBoot := by
  unfold Obligations.ResetsAndBoot
  intro s k key
  have hboot := exec_boot s
  have hreset := exec_resetN s
  have hkey := exec_pwrReset k key s
  refine ⟨fun h => ?_, fun h hr => ?_, fun h hr => ?_, fun h => ?_, fun h => ?_, fun hg hb => ?_, fun h => ?_,
    fun h => ?_, fun hv ht => ⟨fun hon => ?_, fun hoff hg hb => ?_, fun hoff h => ?_⟩, fun hoff => ?_,
    fun hon => ⟨fun h => ?_, fun h => ?_⟩, fun h => ?_, fun h => ?_, ?_, fun h => ⟨?_, ?_, ?_⟩,
    fun h => ⟨?_, ?_, ?_⟩⟩
  · exact State.lands_of_effect hboot (boot_idle (by rw [h]; decide) (by rw [h]; decide))
  · exact State.lands_of_effect hboot (boot_cold h hr)
  · exact State.lands_of_effect hboot (boot_waits h hr)
  · exact State.lands_of_effect hboot (boot_warm h)
  · exact State.lands_of_effect hboot (boot_idle (by omega) (by omega))
  · exact State.lands_of_effect (exec_refclkTimeout s) (refclkTimeout_idle hg hb)
  · exact State.lands_of_effect (exec_refclkTimeout s) (refclkTimeout_named h)
  · exact State.lands_of_effect hreset (resetN_idle h)
  · exact State.lands_of_effect hreset (resetN_warm hv ht rfl hon)
  · exact State.lands_of_effect hreset (resetN_wakes hv ht rfl hoff hg hb)
  · exact State.lands_of_effect hreset (resetN_starting hv ht rfl hoff h)
  · exact State.lands_of_effect hkey (Dev.guarded_off hoff)
  · subst h
    exact State.lands_of_effect hkey ((Dev.guarded_on hon).trans pwrReset_key)
  · exact State.lands_of_effect hkey ((Dev.guarded_on hon).trans (pwrReset_other h))
  · exact State.lands_of_effect (exec_vaonApplied s) (vaonApplied_ready h)
  · exact State.lands_of_effect (exec_vaonApplied s) (vaonApplied_starts h)
  · exact exec_vaonRemoved s
  · exact State.lands_of_effect (exec_testMode true s) (testMode_off h)
  · exact State.lands_of_effect (exec_testMode false s) (testMode_off h)
  · exact State.lands_of_effect (exec_slowFallback s) (slowFallback_off h)
  · exact State.lands_of_effect (exec_testMode true s) (testMode_high h)
  · exact State.lands_of_effect (exec_testMode false s) (testMode_low h)
  · exact State.lands_of_effect (exec_slowFallback s) (slowFallback_on h)

end Sys2Proof.Machine
end

section
/-!
PROOFS. The thermal shutdown (R426) and the interlock hold (R427): each command by what it finds.
-/
namespace Sys2Proof.Machine

/-- A trip noted: hot, wakes held, and counted. -/
def Dev.tripped (d : Dev) : Dev := { d with pwr := { d.pwr with hot := true, noWake := true } }.event pgAon 7

/-- A trip with CTRL on: gates off, cause 14, the domains above Watch off, open procedures failed. -/
def Dev.tripQuieted (d : Dev) : Dev :=
  let e := ((gatesOff (raiseCause d [.a, .b] 14)).setStatus pgPwr 9 true).event pgPwr 5
  let e := hostReduced (domainsDown e (surplus e 1)) true
  let e := railsDown { e with pll := {} } 4
  (failProcs e e.fm.procs.length).onFm fun f => { f with wakeAt := none }

/-- An interlock held low quiets the lines and leaves Standby's domains. -/
def Dev.interlockHeld (d : Dev) : Dev :=
  let e := (d.advanceSlow (d.pins.interlockFrom + aonFld d AON.ILK_HOLD * 32768)).event pgPwr 7
  let e := (pagesOf (surplus e 2 ++ [10])).foldl saveNum e
  let e := (linesIn e).foldl (fun e x => hardQuiet x e) e
  (domainsDown e (surplus e 2)).onFm fun f => { f with wakeAt := none }

section
variable {d : Dev}

/-- Without V_AON, or already hot, the device does not trip. -/
theorem thermalTrip_idle (h : d.aonSt.vaon = false ∨ d.pwr.hot = true) : thermalTrip d = d :=
  if_pos (by rcases h with h | h <;> simp [h])

section
variable (hv : d.aonSt.vaon = true) (hh : d.pwr.hot = false)
include hv hh

/-- A trip with CTRL off holds wakes. -/
theorem thermalTrip_off (hoff : d.tripped.domainOn 1 = false) : thermalTrip d = d.tripped :=
  (if_neg (by rw [hv, hh]; decide)).trans (if_pos (by rw [← Dev.tripped, hoff]; rfl))

/-- One with CTRL on takes the device to Watch, and is logged. -/
theorem thermalTrip_on (hon : d.tripped.domainOn 1 = true) :
    thermalTrip d = resetCause
      ((commitMode d.tripped.tripQuieted linkHardware 1 2).trouble pgPwr 5 sevCritical (14 + 2 ^ 8 * 3)) 6 :=
  (if_neg (by rw [hv, hh]; decide)).trans (if_neg (by rw [← Dev.tripped, hon]; decide))

end

/-- With CTRL on the end of the hot state shows in PWR. -/
theorem thermalClear_on (h : d.domainOn 1 = true) :
    thermalClear d = { d with pwr := { d.pwr with hot := false } }.setStatus pgPwr 9 false :=
  if_pos h

theorem thermalClear_off (h : d.domainOn 1 = false) : thermalClear d = { d with pwr := { d.pwr with hot := false } } :=
  if_neg (ne_true_of_eq_false h)

/-- Without ILK_HOLD, the interlock high, outside the running modes, in a mode change, or starting, nothing is held. -/
theorem interlockHold_idle (h : aonFld d AON.ILK_HOLD = 0 ∨ d.pins.interlock = true ∨ modeLevel d.pwr.mode ≠ 3 ∨
    inTransition d = true ∨ d.aonSt.booting ≠ 0) : interlockHold d = d :=
  if_pos (by rcases h with h | h | h | h | h <;> simp [h])

/-- Else the interlock takes the device to Standby after ILK_HOLD seconds. -/
theorem interlockHold_standby (hhold : aonFld d AON.ILK_HOLD ≠ 0) (hlow : d.pins.interlock = false)
    (hlevel : modeLevel d.pwr.mode = 3) (hsteady : inTransition d = false) (hboot : d.aonSt.booting = 0) :
    interlockHold d = commitMode d.interlockHeld linkHardware 2 3 :=
  if_neg (by simp [hhold, hlow, hlevel, hsteady, hboot])

end

/-- Settles O58: each command of the thermal shutdown and the interlock hold by what it finds. -/
theorem tripsAndHoldsQuietTheDevice : Obligations.TripsAndHoldsQuietTheDevice := by
  unfold Obligations.TripsAndHoldsQuietTheDevice
  refine fun s => ⟨fun h => ?_, fun hv hh => ⟨fun hoff => ?_, fun hon => ?_⟩, fun h => ?_, fun h => ?_, fun h => ?_,
    fun hhold hlow hlevel hsteady hboot => ?_⟩
  · exact State.lands_of_effect (exec_thermalTrip s) (thermalTrip_idle h)
  · exact State.lands_of_effect (exec_thermalTrip s) (thermalTrip_off hv hh hoff)
  · exact State.lands_of_effect (exec_thermalTrip s) (thermalTrip_on hv hh hon)
  · exact State.lands_of_effect (exec_thermalClear s) (thermalClear_on h)
  · exact State.lands_of_effect (exec_thermalClear s) (thermalClear_off h)
  · exact State.lands_of_effect (exec_interlockHold s) (interlockHold_idle h)
  · exact State.lands_of_effect (exec_interlockHold s) (interlockHold_standby hhold hlow hlevel hsteady hboot)

end Sys2Proof.Machine
end

section
/-!
PROOFS. Wake sources (R431 to R433), the return (R435) and the wake script (R434): each command by what it finds.
-/
namespace Sys2Proof.Machine

-- ---- a wake (R433) ----------------------------------------------------------------------------------------------

/-- A wake waits. -/
def Dev.wakeHeld (d : Dev) (source : Nat) : Dev := d.onAon fun a => { a with held := a.held ++ [source] }

section
variable {d : Dev} {source : Nat}

/-- In test mode no wake is taken. -/
theorem wake_test (h : d.aonSt.test = true) : wake source d = d := if_pos h

section
variable (ht : d.aonSt.test = false)
include ht

section
variable (hoff : d.domainOn 1 = false)
include hoff

/-- While the device starts, a wake waits. -/
theorem wake_starting (h : d.aonSt.goal.isSome = true ∨ d.aonSt.booting ≠ 0) : wake source d = d.wakeHeld source :=
  (if_neg (ne_true_of_eq_false ht)).trans ((if_pos (by rw [hoff]; rfl)).trans
    (if_pos (by rw [Bool.or_eq_true, bne_iff_ne]; exact h)))

/-- It starts a device that is down. -/
theorem wake_down (hg : d.aonSt.goal = none) (hb : d.aonSt.booting = 0) : wake source d = startWake d source :=
  (if_neg (ne_true_of_eq_false ht)).trans ((if_pos (by rw [hoff]; rfl)).trans
    (if_neg (by rw [hg, hb]; decide)))

end

section
variable (hon : d.domainOn 1 = true)
include hon

/-- While the device boots or changes its mode, or without its Foreman, a wake waits. -/
theorem wake_busy (h : d.aonSt.booting ≠ 0 ∨ inTransition d = true ∨ d.foremanRuns = false) :
    wake source d = d.wakeHeld source :=
  (if_neg (ne_true_of_eq_false ht)).trans ((if_neg (by rw [hon]; decide)).trans
    (if_pos (by rw [Bool.or_eq_true, Bool.or_eq_true, bne_iff_ne, Bool.not_eq_true', or_assoc]; exact h)))

section
variable (hb : d.aonSt.booting = 0) (hsteady : inTransition d = false) (hr : d.foremanRuns = true)
include hb hsteady hr

/-- It takes a device in Watch on. -/
theorem wake_watch (hm : d.pwr.mode = 1) : wake source d = wakeFromWatch d source :=
  (if_neg (ne_true_of_eq_false ht)).trans ((if_neg (by rw [hon]; decide)).trans
    ((if_neg (by rw [hb, hsteady, hr]; decide)).trans (if_pos hm)))

/-- One in a higher mode stays. -/
theorem wake_awake (hm : d.pwr.mode ≠ 1) : wake source d = d :=
  (if_neg (ne_true_of_eq_false ht)).trans ((if_neg (by rw [hon]; decide)).trans
    ((if_neg (by rw [hb, hsteady, hr]; decide)).trans (if_neg hm)))

end
end
end

-- ---- the alarm and WAKE_IN (R431) -------------------------------------------------------------------------------

/-- Without V_AON, not set, or not enabled, the alarm does not wake. -/
theorem alarmWake_idle (h : d.aonSt.vaon = false ∨ d.aonSt.alarm = false ∨ aonFld d AON.WAKE.EN_ALARM = 0) :
    alarmWake d = d :=
  if_pos (by rcases h with h | h | h <;> simp [h])

/-- WAKE_AT moved on by WAKE_EVERY. -/
def Dev.alarmNext (e : Dev) : Dev :=
  let next := (wakeTime e + aonFld e AON.WAKE_EVERY * 10 ^ 9) % 2 ^ 64
  (e.setAonBoth AON.WAKE_AT_LO (next % 2 ^ 32)).setAonBoth AON.WAKE_AT_HI (next / 2 ^ 32)

section
variable (hv : d.aonSt.vaon = true) (ha : d.aonSt.alarm = true) (hen : aonFld d AON.WAKE.EN_ALARM ≠ 0) {e : Dev}
  (he : toAonTime d (wakeTime d * 64) = e)
include hv ha hen he

/-- At its time the alarm wakes, and disarms or moves on. -/
theorem alarmWake_wakes : alarmWake d =
    wake 1 (if aonFld e AON.WAKE_EVERY = 0 then e.onAon fun a => { a with alarm := false } else e.alarmNext) := by
  subst he
  exact if_neg (by simp [hv, ha, hen])

/-- Once, it disarms. -/
theorem alarmWake_once (h : aonFld e AON.WAKE_EVERY = 0) :
    alarmWake d = wake 1 (e.onAon fun a => { a with alarm := false }) :=
  (alarmWake_wakes hv ha hen he).trans (congrArg (wake 1) (if_pos h))

/-- Periodic, it moves on. -/
theorem alarmWake_again (h : aonFld e AON.WAKE_EVERY ≠ 0) : alarmWake d = wake 1 e.alarmNext :=
  (alarmWake_wakes hv ha hen he).trans (congrArg (wake 1) (if_neg h))

end

variable {rising : Bool}

/-- The edge that WAKE_IN_POL names. -/
theorem wakeEdge_iff {n : Nat} : (rising != (n == 0)) = true ↔ ¬ (rising = true ↔ n = 0) := by
  rw [bne_iff_ne, ne_eq, Bool.eq_iff_iff, beq_iff_eq]

/-- Without V_AON, not enabled, or at the other edge, WAKE_IN does not wake. -/
theorem wakeIn_idle (h : d.aonSt.vaon = false ∨ aonFld d AON.WAKE.EN_WAKE_IN = 0 ∨
    ¬ (rising = true ↔ aonFld d AON.WAKE.WAKE_IN_POL = 0)) : wakeIn rising d = d := by
  refine if_pos ?_
  rw [Bool.or_eq_true, Bool.or_eq_true, Bool.not_eq_true', decide_eq_true_eq, wakeEdge_iff, or_assoc]
  exact h

/-- Two slow edges after its edge it does. -/
theorem wakeIn_wakes (hv : d.aonSt.vaon = true) (hen : aonFld d AON.WAKE.EN_WAKE_IN ≠ 0)
    (hedge : rising = true ↔ aonFld d AON.WAKE.WAKE_IN_POL = 0) :
    wakeIn rising d = wake 2 (d.advanceSlow (d.slow + 2)) := by
  refine if_neg ?_
  rw [Bool.or_eq_true, Bool.or_eq_true, Bool.not_eq_true', decide_eq_true_eq, wakeEdge_iff, or_assoc]
  rintro (h | h | h)
  · exact ne_false_of_eq_true hv h
  · exact hen h
  · exact h hedge

-- ---- the sources of Watch (R432) --------------------------------------------------------------------------------

/-- A limit edge seen. -/
def Dev.edgeSeen (d : Dev) (n : Nat) : Dev := d.onAon fun a => { a with edges := a.edges.filter (· != n) }

variable {en : Nat}

/-- Without its edge a source does not wake. -/
theorem watchWake_none (h : d.aonSt.edges.contains source = false) : watchWake source en d = d :=
  if_pos (by rw [h]; rfl)

section
variable (h : d.aonSt.edges.contains source = true)
include h

/-- Enabled, in Watch or while the mode changes, it does. -/
theorem watchWake_wakes (hen : en = 1)
    (hw : (d.edgeSeen source).pwr.mode = 1 ∨ inTransition (d.edgeSeen source) = true) :
    watchWake source en d = wake source (d.edgeSeen source) :=
  (if_neg (by rw [h]; decide)).trans (if_pos ⟨hen, hw⟩)

/-- Else its edge is forgotten. -/
theorem watchWake_forgets
    (hn : en ≠ 1 ∨ ¬ ((d.edgeSeen source).pwr.mode = 1 ∨ inTransition (d.edgeSeen source) = true)) :
    watchWake source en d = d.edgeSeen source :=
  (if_neg (by rw [h]; decide)).trans (if_neg (not_and_or.mpr hn))

end

-- ---- the return (R435) ------------------------------------------------------------------------------------------

/-- The return to Hibernate opened. -/
def Dev.goesHome (e : Dev) : Dev := selfModeSet (e.onFm fun f => { f with wakeAt := none }) 0 4 (modePlan e.pwr.mode 0)

/-- Without a wake, the Foreman, or a RETURN, the device stays. -/
theorem returnHome_idle (h : d.fm.wakeAt = none ∨ d.foremanRuns = false ∨ aonFld d AON.WAKE.RETURN = 0 ∨
    aonFld d AON.WAKE.RETURN = 3) : returnHome d = d := by
  unfold returnHome
  split
  · rfl
  · rename_i t ht
    refine if_pos ?_
    rcases h with h | h | h | h
    · exact nomatch ht.symm.trans h
    · simp [h]
    · simp [h]
    · simp [h]

section
variable {t : Nat} (ht : d.fm.wakeAt = some t) (hr : d.foremanRuns = true) (h0 : aonFld d AON.WAKE.RETURN ≠ 0)
  (h3 : aonFld d AON.WAKE.RETURN ≠ 3)
include ht hr h0 h3

/-- Else it goes home, at once or RETURN_S seconds after the wake. -/
theorem returnHome_goes : returnHome d =
    (if (aonFld d AON.WAKE.RETURN = 2 && allProfiled d) = true then d
      else d.advanceTo (t + aonFld d AON.RETURN_S * 625000000)).goesHome := by
  simp only [returnHome, ht, hr, h0, h3, decide_false, Bool.not_true, Bool.or_self, Bool.false_eq_true, if_false]
  rfl

/-- At once where it waits for the profiles and they are all there. -/
theorem returnHome_profiled (h2 : aonFld d AON.WAKE.RETURN = 2) (hp : allProfiled d = true) :
    returnHome d = d.goesHome := by
  rw [returnHome_goes ht hr h0 h3, if_pos (by rw [h2, hp]; rfl)]

/-- Otherwise RETURN_S seconds after the wake. -/
theorem returnHome_later (hn : aonFld d AON.WAKE.RETURN ≠ 2 ∨ allProfiled d = false) :
    returnHome d = (d.advanceTo (t + aonFld d AON.RETURN_S * 625000000)).goesHome := by
  rw [returnHome_goes ht hr h0 h3, if_neg (by rcases hn with hn | hn <;> simp [hn])]

end

-- ---- the wake script (R434) -------------------------------------------------------------------------------------

/-- How many entries of the script have been played. -/
def scriptAt (d : Dev) : Nat := liv d.aon pgAon AON.SCRIPT_RESULT.PLAYED

/-- The entry in progress. -/
def scriptNow (d : Dev) : Nat := scriptEntry d (scriptAt d)

variable {op : Nat} {f : Nat → Nat → Dev → Dev × Nat}

/-- Without an entry, its procedure, the Foreman, or an entry left, no entry is played. -/
theorem scriptStep_idle (h : d.fm.entry = none ∨ scriptProc d = none ∨ d.foremanRuns = false ∨
    aonFld d AON.SCRIPT_LEN ≤ scriptAt d) : scriptStep op f d = d := by
  unfold scriptStep
  split
  · rename_i hentry hproc
    refine if_pos ?_
    unfold scriptAt at h
    rcases h with h | h | h | h
    · exact nomatch hentry.symm.trans h
    · exact nomatch hproc.symm.trans h
    · simp [h]
    · simp [h]
  · rfl

/-- An entry of the script in progress. -/
structure Scripted (d : Dev) (t c : Nat) : Prop where
  entry : d.fm.entry = some (t, c)
  proc : ∃ p, scriptProc d = some p
  runs : d.foremanRuns = true
  left : scriptAt d < aonFld d AON.SCRIPT_LEN

section
variable {t c : Nat} (h : Scripted d t c)
include h

/-- It is judged by its operation. -/
theorem Scripted.step : scriptStep op f d =
    if 3 ≤ scriptNow d / 2 ^ 56 then scriptFails d 3
    else if scriptNow d / 2 ^ 56 ≠ op then d
    else if (f t c d).2 = 0 then startEntry (f t c d).1 (scriptAt d + 1) else scriptFails (f t c d).1 (f t c d).2 := by
  obtain ⟨hentry, ⟨p, hproc⟩, hruns, hleft⟩ := h
  unfold scriptAt at hleft
  simp only [scriptStep, hentry, hproc, hruns, Nat.not_le.mpr hleft, decide_false, Bool.not_true, Bool.or_self,
    Bool.false_eq_true, if_false]
  rfl

/-- An entry of no operation fails the script. -/
theorem Scripted.badOp (ho : 3 ≤ scriptNow d / 2 ^ 56) : scriptStep op f d = scriptFails d 3 := by
  rw [h.step, if_pos ho]

/-- One of another operation is not played. -/
theorem Scripted.otherOp {o : Nat} (ho : scriptNow d / 2 ^ 56 = o) (hlt : o < 3) (hne : o ≠ op) :
    scriptStep op f d = d := by
  rw [h.step, ho, if_neg (Nat.not_le.mpr hlt), if_pos hne]

section
variable (ho : scriptNow d / 2 ^ 56 = op) (hlt : op < 3) {e : Dev}
include ho hlt

/-- One that is played ends with the next entry. -/
theorem Scripted.played (hf : f t c d = (e, 0)) : scriptStep op f d = startEntry e (scriptAt d + 1) := by
  rw [h.step, ho, if_neg (Nat.not_le.mpr hlt), if_neg (not_not.mpr rfl), hf, if_pos rfl]

/-- One that fails fails the script. -/
theorem Scripted.failed {n : Nat} (hf : f t c d = (e, n)) (hn : n ≠ 0) : scriptStep op f d = scriptFails e n := by
  rw [h.step, ho, if_neg (Nat.not_le.mpr hlt), if_neg (not_not.mpr rfl), hf, if_neg hn]

end

/-- The write of a WRITE entry. -/
def writeDone (d : Dev) : Dev × Option BusErr :=
  busWrite sysWrite .foreman (scriptNow d / 2 ^ 32 % 2 ^ 24) 4 (Word.ofNat (scriptNow d)) d

/-- The read of a WAIT_EVENT entry. -/
def waitRead (d : Dev) : Dev × Option BusErr × Word :=
  busRead .foreman (scriptNow d / 2 ^ 32 % 2 ^ 24) 4 d

section
variable (ho : scriptNow d / 2 ^ 56 = 0)
include ho

/-- WRITE writes its register. -/
theorem Scripted.write_ok (hr : (writeDone d).2 = none) :
    scriptWrite d = startEntry (writeDone d).1 (scriptAt d + 1) :=
  h.played ho (by decide) (congrArg (Prod.mk _) (if_neg (by rw [← scriptAt, ← scriptNow, ← writeDone, hr]; decide)))

/-- One that meets a bus error fails. -/
theorem Scripted.write_failed (hr : (writeDone d).2.isSome = true) :
    scriptWrite d = scriptFails (writeDone d).1 1 :=
  h.failed ho (by decide) (congrArg (Prod.mk _) (if_pos hr)) (by decide)

end

section
variable (ho : scriptNow d / 2 ^ 56 = 1)
include ho

/-- WAIT_EVENT that meets a bus error fails. -/
theorem Scripted.wait_failed (hr : (waitRead d).2.1.isSome = true) :
    scriptWaitEvent d = scriptFails (waitRead d).1 1 :=
  h.failed ho (by decide) (if_pos hr) (by decide)

section
variable (hr : (waitRead d).2.1 = none)
include hr

/-- It ends once COUNT has changed. -/
theorem Scripted.wait_changed (hc : (waitRead d).2.2.toNat ≠ c) :
    scriptWaitEvent d = startEntry (waitRead d).1 (scriptAt d + 1) :=
  h.played ho (by decide) ((if_neg (ne_true_of_eq_false (congrArg Option.isSome hr))).trans (if_pos hc))

/-- One that runs out after a second fails. -/
theorem Scripted.wait_runsOut (hc : (waitRead d).2.2.toNat = c) :
    scriptWaitEvent d = scriptFails ((waitRead d).1.advanceTo (t + 625000000)) 2 :=
  h.failed ho (by decide) ((if_neg (ne_true_of_eq_false (congrArg Option.isSome hr))).trans (if_neg (not_not.mpr hc)))
    (by decide)

end
end

/-- DELAY waits out its microseconds. -/
theorem Scripted.delay (ho : scriptNow d / 2 ^ 56 = 2) :
    scriptDelay d = startEntry (d.advanceTo (t + 625 * (scriptNow d % 2 ^ 32))) (scriptAt d + 1) :=
  h.played ho (by decide) rfl

end
end

/-- Settles O59: each wake source, a wake, the return and each operation of the script by what they find. -/
theorem wakesAndScripts : Obligations.WakesAndScripts := by
  unfold Obligations.WakesAndScripts
  refine ⟨fun s rising source => ⟨fun h => ?_, fun hv ha hen => ⟨fun h => ?_, fun h => ?_⟩, fun h => ?_,
      fun hv hen hedge => ?_,
      ⟨fun h => ?_, fun h => ?_, fun h => ⟨fun hen hw => ?_, fun hn => ?_⟩, fun h => ⟨fun hen hw => ?_, fun hn => ?_⟩⟩,
      fun h => ?_, fun t ht hr h0 h3 => ⟨fun h2 hp => ?_, fun hn => ?_⟩,
      ⟨wake_test, fun ht hoff => ⟨wake_starting ht hoff, wake_down ht hoff⟩,
        fun ht hon => ⟨wake_busy ht hon, fun hb hsteady hr =>
          ⟨wake_watch ht hon hb hsteady hr, wake_awake ht hon hb hsteady hr⟩⟩⟩⟩,
    fun s => ⟨fun h => ⟨?_, ?_, ?_⟩, fun t c p hentry hproc hruns hleft => ?_⟩⟩
  · exact State.lands_of_effect (exec_alarmWake s) (alarmWake_idle h)
  · exact State.lands_of_effect (exec_alarmWake s) (alarmWake_once hv ha hen rfl h)
  · exact State.lands_of_effect (exec_alarmWake s) (alarmWake_again hv ha hen rfl h)
  · exact State.lands_of_effect (exec_wakeIn rising s) (wakeIn_idle h)
  · exact State.lands_of_effect (exec_wakeIn rising s) (wakeIn_wakes hv hen hedge)
  · exact State.lands_of_effect (exec_pfeWake s) (watchWake_none h)
  · exact State.lands_of_effect (exec_hkWake s) (watchWake_none h)
  · exact State.lands_of_effect (exec_pfeWake s) (watchWake_wakes h hen hw)
  · exact State.lands_of_effect (exec_pfeWake s) (watchWake_forgets h hn)
  · exact State.lands_of_effect (exec_hkWake s) (watchWake_wakes h hen hw)
  · exact State.lands_of_effect (exec_hkWake s) (watchWake_forgets h hn)
  · exact State.lands_of_effect (exec_returnHome s) (returnHome_idle h)
  · exact State.lands_of_effect (exec_returnHome s) (returnHome_profiled ht hr h0 h3 h2 hp)
  · exact State.lands_of_effect (exec_returnHome s) (returnHome_later ht hr h0 h3 hn)
  · exact State.lands_of_effect (exec_scriptWrite s) (scriptStep_idle h)
  · exact State.lands_of_effect (exec_scriptWaitEvent s) (scriptStep_idle h)
  · exact State.lands_of_effect (exec_scriptDelay s) (scriptStep_idle h)
  · have h : Scripted s.dev t c := ⟨hentry, ⟨p, hproc⟩, hruns, hleft⟩
    refine ⟨fun ho => ⟨?_, ?_, ?_⟩, fun ho => ⟨?_, ?_, fun hr => ?_, fun hr => ?_⟩,
      fun ho => ⟨?_, ?_, fun hr => ?_, fun hr hc => ?_, fun hr hc => ?_⟩, fun ho => ⟨?_, ?_, ?_⟩⟩
    · exact State.lands_of_effect (exec_scriptWrite s) (h.badOp ho)
    · exact State.lands_of_effect (exec_scriptWaitEvent s) (h.badOp ho)
    · exact State.lands_of_effect (exec_scriptDelay s) (h.badOp ho)
    · exact State.lands_of_effect (exec_scriptWaitEvent s) (h.otherOp ho (by decide) (by decide))
    · exact State.lands_of_effect (exec_scriptDelay s) (h.otherOp ho (by decide) (by decide))
    · exact State.lands_of_effect (exec_scriptWrite s) (h.write_ok ho hr)
    · exact State.lands_of_effect (exec_scriptWrite s) (h.write_failed ho hr)
    · exact State.lands_of_effect (exec_scriptWrite s) (h.otherOp ho (by decide) (by decide))
    · exact State.lands_of_effect (exec_scriptDelay s) (h.otherOp ho (by decide) (by decide))
    · exact State.lands_of_effect (exec_scriptWaitEvent s) (h.wait_failed ho hr)
    · exact State.lands_of_effect (exec_scriptWaitEvent s) (h.wait_changed ho hr hc)
    · exact State.lands_of_effect (exec_scriptWaitEvent s) (h.wait_runsOut ho hr hc)
    · exact State.lands_of_effect (exec_scriptWrite s) (h.otherOp ho (by decide) (by decide))
    · exact State.lands_of_effect (exec_scriptWaitEvent s) (h.otherOp ho (by decide) (by decide))
    · exact State.lands_of_effect (exec_scriptDelay s) (h.delay ho)

end Sys2Proof.Machine
end

section
/-!
PROOFS. Boundary scan (R442, R458, R459): the TAP follows its instructions while CTRL powers it.
-/
namespace Sys2Proof.Machine

/-- With CTRL off the TAP does not change. -/
theorem onTap_off {d : Dev} {f : TapSt → TapSt} (h : d.domainOn 1 = false) : onTap f d = d :=
  if_neg (ne_true_of_eq_false h)

/-- With CTRL on it does. -/
theorem onTap_on {d : Dev} {f : TapSt → TapSt} (h : d.domainOn 1 = true) : onTap f d = { d with tap := f d.tap } :=
  if_pos h

/-- SAMPLE/PRELOAD loads the cells and captures the levels at the output balls. -/
theorem samplePreload_eq (d : Dev) (cells : List Bool) :
    samplePreload cells d = onTap (fun t =>
      { t with reset := false, ir := 2, cells := cells, sampled := (List.range 13).map fun i => (d.ball i).getD false }) d :=
  rfl

/-- Settles O60: each instruction of the TAP, with CTRL on and off. -/
theorem tapInstructionsAreInForce : Obligations.TapInstructionsAreInForce := by
  unfold Obligations.TapInstructionsAreInForce
  refine fun s cells => ⟨fun hoff => ⟨?_, ?_, ?_, ?_, ?_, ?_, ?_, ?_, ?_⟩,
    fun hon => ⟨?_, ?_, ?_, ?_, ?_, ?_, ?_, ?_, ?_⟩⟩
  · exact State.lands_of_effect (exec_tapReset s) (onTap_off hoff)
  · exact State.lands_of_effect (exec_bypass s) (onTap_off hoff)
  · exact State.lands_of_effect (exec_idcode s) (onTap_off hoff)
  · exact State.lands_of_effect (exec_samplePreload cells s) ((samplePreload_eq _ _).trans (onTap_off hoff))
  · exact State.lands_of_effect (exec_extest s) (onTap_off hoff)
  · exact State.lands_of_effect (exec_extestPulse s) (onTap_off hoff)
  · exact State.lands_of_effect (exec_extestTrain s) (onTap_off hoff)
  · exact State.lands_of_effect (exec_highz s) (onTap_off hoff)
  · exact State.lands_of_effect (exec_clamp s) (onTap_off hoff)
  · exact State.lands_of_effect (exec_tapReset s) (onTap_on hon)
  · exact State.lands_of_effect (exec_bypass s) (onTap_on hon)
  · exact State.lands_of_effect (exec_extest s) (onTap_on hon)
  · exact State.lands_of_effect (exec_extestPulse s) (onTap_on hon)
  · exact State.lands_of_effect (exec_extestTrain s) (onTap_on hon)
  · exact State.lands_of_effect (exec_highz s) (onTap_on hon)
  · exact State.lands_of_effect (exec_clamp s) (onTap_on hon)
  · exact State.lands_of_effect (exec_idcode s) (onTap_on hon)
  · exact State.lands_of_effect (exec_samplePreload cells s) ((samplePreload_eq _ _).trans (onTap_on hon))

end Sys2Proof.Machine
end
